-- ==== Sys2Proof/Word.lean ====
section
/-! DEFINITION. The word types of the GL4480 and their plainest arithmetic (00_scope R3-R6). -/

namespace Sys2Proof

/-- A register word, 32 bits wide (R5). -/
abbrev Word := BitVec 32

/-- One byte. -/
abbrev Byte := BitVec 8

/-- A placement count, 48 bits wide per lane (R9). -/
abbrev Pc := BitVec 48

/-- A lane L0-L3 (R8). -/
abbrev Lane := Fin 4

/-- A head port H0-H3 (R8). -/
abbrev Head := Fin 4

/-- A Hoist channel HC0-HC23 (R8). -/
abbrev Chan := Fin 24

/-- A Hoist shaft (R8). -/
abbrev Shaft := Fin 4

/-- A timer T0-T15 (R8). -/
abbrev TimerId := Fin 16

/-- An axis X0-X5 (R8). -/
abbrev Axis := Fin 6

/-- A master encoder ENC0, ENC1 (R8). -/
abbrev Enc := Fin 2

/-- A session 0-8: session 0 is the local port, 1-8 are network hosts. -/
abbrev Sess := Fin 9

/-- A fault source and Ladder port number 0-35 (R37, R104). -/
abbrev Src := Fin 36

end Sys2Proof
end

