-- ==== Sys2Proof/Syntax.lean ====
section
/-! DEFINITION. The commands of the GL4480 as data: one constructor of `Instr` per row of the command table, with the
inputs that the row brings. What a command finds at the outside (levels, conversions, detections, a nonce, the bytes of a
message) is its operand; what the GL4480 holds is in State. -/

namespace Sys2Proof

/-- An ECC detection of the Larder: an input, admitted with the access that meets it (R83). -/
inductive Ecc where
  /-- A single-bit error, corrected (R76). -/
  | corrected
  /-- An uncorrectable error (R77). -/
  | uncorrectable
  deriving DecidableEq, Repr

/-- What the memories report while an access runs: inputs of the command (R83, R87). -/
structure MemEnv where
  /-- ECC detections, by byte address of the Larder word. -/
  ecc : List (Nat × Ecc)
  /-- In mode 4 the flash makes no DQS transition. -/
  noDqs : Bool
  deriving DecidableEq, Repr

/-- No detection and a flash that answers. -/
def MemEnv.quiet : MemEnv := ⟨[], false⟩

/-- What a session operation finds outside: the memories, the nonce that the entropy source would give, none where its last
health test failed (R226), and the lowest of four conversions of each head's gate (R474). -/
structure OpEnv where
  mem : MemEnv
  nonce : Option (List Byte)
  gates : Vector (BitVec 12) 4
  deriving DecidableEq, Repr

/-- Quiet memories, no nonce, and dark gates. -/
def OpEnv.quiet : OpEnv := ⟨MemEnv.quiet, none, Vector.replicate 4 0⟩

/-- The session, frame sequence number and tag of a session operation (R191, R204). -/
structure OpCtx where
  sess : Sess
  seq : BitVec 16
  tag : BitVec 6
  deriving DecidableEq, Repr

/-- The peer of a session (R199). -/
inductive Peer where
  /-- The local port. -/
  | lp
  /-- EtherType framing: the source MAC address. -/
  | ether (mac : BitVec 48)
  /-- UDP framing: source IPv4 address and UDP port. -/
  | udp (ip : BitVec 32) (port : BitVec 16)
  deriving DecidableEq, Repr

/-- Where messages to a peer are sent (R188): port, MAC, and VLAN tag (VID, PCP) of its most recent frame. -/
structure Route where
  port : Nat
  mac : BitVec 48
  tag : Option (BitVec 12 × BitVec 3)
  deriving DecidableEq, Repr

/-- The filtered levels at the inputs when a chip reset completes (R164 step 6). -/
structure Levels where
  pe : Vector Bool 4
  encA : Vector Bool 2
  encB : Vector Bool 2
  encZ : Vector Bool 2
  encLos : Vector Bool 2
  fbA : Vector Bool 2
  fbB : Vector Bool 2
  fbZ : Vector Bool 2
  step : Vector Bool 2
  dir : Vector Bool 2
  aux : Vector Bool 4
  present : Vector Bool 4
  inhibit : Bool
  /-- `SV4_FAULT_N` and `SV5_FAULT_N`. -/
  drive : Vector Bool 2
  /-- RESET_N is high. -/
  resetN : Bool
  deriving DecidableEq, Repr

/-- Every input low but the active-low ones: INHIBIT_N, RESET_N and the drive faults. -/
def Levels.low : Levels :=
  { pe := Vector.replicate 4 false, encA := Vector.replicate 2 false, encB := Vector.replicate 2 false,
    encZ := Vector.replicate 2 false, encLos := Vector.replicate 2 false, fbA := Vector.replicate 2 false,
    fbB := Vector.replicate 2 false, fbZ := Vector.replicate 2 false, step := Vector.replicate 2 false,
    dir := Vector.replicate 2 false, aux := Vector.replicate 4 false, present := Vector.replicate 4 false,
    inhibit := true, drive := Vector.replicate 2 true, resetN := true }

inductive Instr where
  /-- `VAON_RELEASE` (R166): VAON rises above 1.68 V after OFF: the always-on domain is released, the Pantry enters CLASSIFY and the straps are sampled. -/
  | vaonRelease (conv : List (List Nat))
  /-- `SCCP_CLASS_READ` (R129): The PSE performs the SCCP reset, presence and class read, and the GL4480 reports the class that STRAP3 selects. -/
  | sccpClassRead
  /-- `PGOOD_HIGH` (R140): PD_PGOOD goes high in CLASSIFY or DARK and the Pantry enters CHARGE, resampling the straps after DARK. -/
  | pgoodHigh (conv : List (List Nat))
  /-- `PANTRY_SAMPLE` (R131): A reservoir, current and bus sample set is taken every 100 µs and admitted at rank 0. -/
  | pantrySample (v i b : BitVec 12) (pgood : Bool)
  /-- `FINAL_CHECKPOINT_TIMEOUT` (R144): 10 ms after the final checkpoint starts without a switch, the Pantry enters DARK with cause 1. -/
  | finalCheckpointTimeout
  /-- `PARKING_START` (R143): In HOLD, once no mark reservation remains live, flying carriages park and HV_EN is released. -/
  | parkingStart
  /-- `RAIL_OUT` (R149): A rail stays outside its window for 2 µs and the Pantry enters DARK with cause 2. -/
  | railOut (rail : Fin 3)
  /-- `RAIL_BRINGUP_TIMEOUT` (R149): The rails are not in their windows 20 ms after RAIL_EN rises: RAIL_EN drops and RAIL_FAILS increments. -/
  | railBringupTimeout
  /-- `RAIL_RETRY` (R149): 1 s after a failed rail bring-up, RAIL_EN is raised again. -/
  | railRetry
  /-- `TB100_LOCK` (R166): TB100 locks with RESET_N high and the cold chip reset completes. -/
  | tb100Lock (lv : Levels)
  /-- `TB100_LOCK_TIMEOUT` (R166): TB100 has not locked 10 ms after the rails are in their windows, so RAIL_EN drops and a retry follows. -/
  | tb100LockTimeout
  /-- `PWR_REQ_SERVICE` (R142): Owner request for SERVICE, refused with BUSY while any mark reservation is live. -/
  | pwrReqService (o : OpCtx)
  /-- `PWR_REQ_RUN` (R142): Owner request for RUN from SERVICE, refused in service mode or while v_led is below V_RUN. -/
  | pwrReqRun (o : OpCtx)
  /-- `PWR_REQ_SLEEP` (R142): Owner request for SLEEP from RUN: TB100 stops, outputs go safe and timers stop. -/
  | pwrReqSleep (o : OpCtx)
  /-- `WAKE` (R150): An enabled wake source ends SLEEP: the admission tick counter is made up and the Pantry returns to RUN. -/
  | wake (slow : Nat) (cause : Fin 4)
  /-- `SLEEP_TIMER_EXPIRY` (R150): PWR_SLEEP_TIMER expires in SLEEP and wakes the GL4480. -/
  | sleepTimerExpiry
  /-- `MAKEUP_LIMIT_WAKE` (R41): The SLOW32K make-up count reaches 0xFFFF_FFFF in SLEEP and the GL4480 wakes itself. -/
  | makeupLimitWake
  /-- `RESET_N_LOW` (R161): RESET_N stays low for 2 µs and a warm reset with cause 3 starts. -/
  | resetNLow
  /-- `DEV_RESET_REQ` (R162): An owner write with GO and the key 0x4480 is accepted and a chip reset is scheduled 1 ms later. -/
  | devResetReq (o : OpCtx)
  /-- `RESET_REQ_START` (R162): 1 ms after an accepted reset request, the warm reset with cause 5 starts. -/
  | resetReqStart
  /-- `SCAN_INSTRUCTION_CHANGE` (R163): The boundary-scan instruction leaves EXTEST, CLAMP or HIGHZ, or the TAP enters Test-Logic-Reset, giving a chip reset with cause 6. -/
  | scanInstructionChange
  /-- `FAULT_CHIP_RESET_START` (R114): After a CHIP_RESET reaction, the reset starts once the trap pulse and trap frames have left, or 2 ms after the message. -/
  | faultChipResetStart
  /-- `CHIP_RESET_COMPLETE` (R164): The core reset is released: the tick counter and order stamps restart, Larder words become void and inputs take their present levels. -/
  | chipResetComplete (lv : Levels)
  /-- `RESET_OUT_RELEASE` (R164): 1 ms after chip reset completes, RESET_OUT_N rises and the first Cellar read starts. -/
  | resetOutRelease
  /-- `BOOT_DONE` (R167): Bring-up completes: the image is applied, the Cellar is initialised, the PHYs are released, fitted lanes enter IN_SERVICE and LIVE starts. -/
  | bootDone (answers : Bool)
  /-- `CLAIM_WAIT_END` (R170): CLAIM_WAIT ends in hosted mode with no claim accepted and standalone running begins. -/
  | claimWaitEnd
  /-- `LADDER_WATCHDOG_EXPIRY` (R61): A Ladder port owes a phase for LIMIT REF25 cycles: it is isolated, pending requests fail and the collector reacts. -/
  | ladderWatchdogExpiry (port : Src)
  /-- `BLOCK_RESET_COMPLETE` (R61): A unit's block reset completes: its port rejoins the Ladder and the Hatch restores the revoked leases. -/
  | blockResetComplete (unit : Src) (env : MemEnv)
  /-- `QUIET_PERIOD_END` (R118): A source in FAULT recovers after QUIET ms without a message and returns to NORMAL or becomes RETIRED. -/
  | quietPeriodEnd (src : Src)
  /-- `ERR_MIN_END` (R120): ERR_MIN ends, ERR_OUT may be released, and ERR_HOLD may clear itself under the vacancy rule. -/
  | errMinEnd
  /-- `TRAP_PULSE_END` (R122): The TRAP_OUT pulse ends TRAP_WIDTH µs after the last trap. -/
  | trapPulseEnd
  /-- `FLT_RELEASE` (R119): The owner releases a retired source, ending its held block reset and putting it in NORMAL. -/
  | fltRelease (o : OpCtx) (src : Src)
  /-- `ENVELOPE_WINDOW_END` (R32): A 1 ms envelope window of a lane ends and the advance is compared with MAX_RATE, setting EXCEED_Lx if it is exceeded. -/
  | envelopeWindowEnd (n : Lane)
  /-- `SCRUB_READ` (R81): Every 2,500 ticks each bank's scrubber reads and corrects one word. -/
  | scrubRead (env : MemEnv)
  /-- `CEL_PROGRAM` (R89): PGO with OP PROGRAM: the checks run and the bytes of MEM_CEL_PBUF are programmed to a page. -/
  | celProgram (c : Chan) (paddr : Word) (data : List Byte) (verify : Bool)
  /-- `CEL_ERASE_4K` (R89): PGO with OP ERASE_4K: the checks run and a 4 KiB sector erase is issued. -/
  | celErase4k (c : Chan) (paddr : Word) (verify : Bool)
  /-- `CEL_ERASE_64K` (R89): PGO with OP ERASE_64K: the checks run and a 64 KiB block erase is issued. -/
  | celErase64k (c : Chan) (paddr : Word) (verify : Bool)
  /-- `CEL_COMMAND` (R89): PGO with OP COMMAND: a raw opcode with up to 4 data bytes is issued and every verification entry is invalidated. -/
  | celCommand (c : Chan) (opcode : Byte) (data : List Byte)
  /-- `CEL_STATUS_POLL` (R90): Every POLL µs RDSR is issued, and once BUSY_BIT clears the optional read-back runs and the operation completes. -/
  | celStatusPoll (status : Byte)
  /-- `CEL_POLL_TIMEOUT` (R90): The flash is still busy after TIMEOUT ms and RESULT becomes TIMEOUT. -/
  | celPollTimeout
  /-- `STAGED_WRITE` (R93): The owner writes MEM_LFT_GO: the checks and reservation run and the source is copied into the internal buffer. -/
  | stagedWrite (o : OpCtx) (src dst len : Word) (env : OpEnv)
  /-- `LOFT_MAP_SWITCH` (R94): A staged write finishes programming and the logical map switches, or it fails after retries. -/
  | loftMapSwitch (ok : Bool)
  /-- `FRAME_RECEIVED` (R180): A good frame arrives on port A or B, its source is learned and it is forwarded or passed to port I. -/
  | frameReceived (p : Fin 2) (bytes : List Byte) (rxFull egressFull : Bool) (env : OpEnv)
  /-- `ADDRESS_AGEING` (R180): A learned switch address is not refreshed for 300 s and is removed. -/
  | addressAgeing
  /-- `LINK_DOWN_EVENT` (R182): A port's link goes from up to down. -/
  | linkDownEvent (p : Fin 2)
  /-- `LINK_RESTART` (R179): A write to LNK_PORTA_CFG or LNK_PORTB_CFG restarts that port's link. -/
  | linkRestart (o : OpCtx) (p : Fin 2) (cfg : Word)
  /-- `ARP_REQUEST` (R186): An ARP request for the station IP is answered with a reply. -/
  | arpRequest (p : Fin 2) (bytes : List Byte)
  /-- `ICMP_ECHO_REQUEST` (R186): An ICMP echo request is answered with an echo reply. -/
  | icmpEchoRequest (p : Fin 2) (bytes : List Byte)
  /-- `WAISLINK_REQUEST` (R202): A REQUEST message is admitted: format, session and SEQ are checked, and its items are admitted, replayed from the cache or refused. -/
  | waislinkRequest (peer : Peer) (route : Route) (bytes : List Byte) (env : OpEnv)
  /-- `HOST_KEEPALIVE` (R212): A KEEPALIVE from a bound peer refreshes its session. -/
  | hostKeepalive (peer : Peer) (route : Route) (bytes : List Byte)
  /-- `LOCAL_PORT_TRANSACTION` (R219): An SPI transaction on the local port snapshots the header, removes an acknowledged message, admits a good SEND and delivers a fetched message. -/
  | localPortTransaction (mosi : List Byte) (env : OpEnv)
  /-- `LP_EN_CLEAR` (R222): A write that clears LP_EN ends session 0 and silences the local port. -/
  | lpEnClear (o : OpCtx)
  /-- `READ` (R193): Operation READ returns NWORDS words from one cut. -/
  | read (o : OpCtx) (addr : Word) (n : Nat) (env : OpEnv)
  /-- `READ_LIST` (R193): Operation READ_LIST returns the words at a list of addresses from one cut. -/
  | readList (o : OpCtx) (addrs : List Word) (env : OpEnv)
  /-- `WRITE` (R194): Operation WRITE checks and commits NWORDS words as one commit, including generation-checked clears and writes to registers without a row of their own. -/
  | write (o : OpCtx) (addr : Word) (words : List Word) (env : OpEnv)
  /-- `WRITE_DEFERRED` (R195): Operation WRITE with DEFER = 1 is checked and enters the lane's deferred queue. -/
  | writeDeferred (o : OpCtx) (addr : Word) (words : List Word) (lane : Nat) (target : Pc)
  /-- `DEFERRED_COMMIT` (R51): The lane's high-water mark reaches a deferred write's target and the write commits, or is refused at its commit point. -/
  | deferredCommit (n : Lane) (env : OpEnv)
  /-- `WRITE_MASKED` (R196): Operation WRITE_MASKED commits a read-modify-write of one register. -/
  | writeMasked (o : OpCtx) (addr mask value : Word) (env : OpEnv)
  /-- `OPEN` (R199): Operation OPEN binds a session slot for a peer. -/
  | open_ (peer : Peer) (route : Route) (seq : BitVec 16) (tag : BitVec 6) (kaMs : Nat)
  /-- `CLOSE` (R200): Operation CLOSE ends the session after its response. -/
  | close (o : OpCtx)
  /-- `NONCE` (R226): Operation NONCE draws a 16-byte nonce and assigns it a NONCE_ID. -/
  | nonce (o : OpCtx) (bytes : Option (List Byte))
  /-- `CLAIM` (R229): Operation CLAIM authenticates a claim and opens or joins an election, or takes ownership under local precedence. -/
  | claim (o : OpCtx) (prio : Nat) (nonceId : Word) (mac : List Byte)
  /-- `ELECTION_CLOSE` (R230): The election window ends and the highest-priority candidate becomes owner. -/
  | electionClose
  /-- `GRANT` (R233): Operation GRANT passes ownership to a bound slot. -/
  | grant (o : OpCtx) (dst : Nat)
  /-- `RESIGN` (R233): Operation RESIGN makes ownership vacant. -/
  | resign (o : OpCtx)
  /-- `KEY_INSTALL` (R239): Operation KEY_INSTALL checks and stages the write of a wrapped claim key or an erase of a key slot. -/
  | keyInstall (o : OpCtx) (slot : Byte) (nonceId : Word) (wrapped mac : List Byte)
  /-- `SUBSCRIBE` (R197): Operation SUBSCRIBE replaces the session's event subscription. -/
  | subscribe (o : OpCtx) (classes lo hi : Word)
  /-- `DISCOVER` (R198): Operation DISCOVER returns the 24-byte identity. -/
  | discover (peer : Peer) (route : Route) (seq : BitVec 16) (tag : BitVec 6)
  /-- `EVENT_RESEND` (R210): Every LNK_EVT_RETRY ms the oldest unacknowledged event message is resent. -/
  | eventResend (i : Sess)
  /-- `IDLE_KEEPALIVE` (R212): The GL4480 sends a KEEPALIVE after KA_MS/4 ms without sending to a session. -/
  | idleKeepalive (i : Sess)
  /-- `KEEPALIVE_LOSS` (R212): KA_MS pass without a refreshing message and the session ends. -/
  | keepaliveLoss (i : Sess)
  /-- `TIMER_MATCH` (R247): An advance brings a timer count onto a compare value and the channel's actions run. -/
  | timerMatch (t : TimerId) (n : Nat)
  /-- `TIMER_OVERFLOW` (R245): A timer count wraps to 0 and its overflow actions run. -/
  | timerOverflow (t : TimerId) (n : Nat)
  /-- `TIMER_LOAD` (R251): LOAD sets the count from TMR_LOAD and clears acc. -/
  | timerLoad (o : OpCtx) (t : TimerId) (env : OpEnv)
  /-- `FORCE_HIGH` (R252): An owner write drives the named TOUT pins high. -/
  | forceHigh (o : OpCtx) (pins : BitVec 4)
  /-- `FORCE_LOW` (R252): An owner write drives the named TOUT pins low. -/
  | forceLow (o : OpCtx) (pins : BitVec 4)
  /-- `TCLK_EDGE` (R254): The filter accepts a TCLK transition and a counting edge feeds the timer. -/
  | tclkEdge (p : Fin 4) (level : Bool)
  /-- `TCLK_STOP_WINDOW_END` (R256): No TCLK transition is accepted within STOP × 1,000 ticks and the pin is stopped. -/
  | tclkStopWindowEnd (p : Fin 4)
  /-- `ENCODER_COUNT` (R264): An accepted encoder change moves the raw count, the lane placement counters, master positions and gearing. -/
  | encoderCount (e : Enc) (a b : Bool)
  /-- `ENC_Z_EDGE` (R266): An accepted rising edge of Z captures the raw count and sets ZSEEN. -/
  | encZEdge (e : Enc) (level full : Bool)
  /-- `ENC_LOS_CHANGE` (R269): LOS becomes active or inactive, stopping or resuming the decoder. -/
  | encLosChange (e : Enc) (level full : Bool)
  /-- `COARSE_STEP` (R270): An accepted STEP edge counts with its direction, moving placement counters and feeding the interpolator. -/
  | coarseStep (c : Fin 2) (step dir : Bool)
  /-- `INTERPOLATION_TICK` (R318): Each tick while PEND > 0, the interpolation phase advances and a microstep joins the command position. -/
  | interpolationTick (x : Axis)
  /-- `FEEDBACK_COUNT` (R289): A servo feedback encoder change updates MOT_FBCOUNT and the following check runs. -/
  | feedbackCount (i : Fin 2) (a b : Bool)
  /-- `FB_Z_EDGE` (R305): An index edge of a feedback encoder is admitted, as used by homing. -/
  | fbZEdge (i : Fin 2) (level full : Bool)
  /-- `AUX_IN_EDGE` (R249): An AUX_IN edge drives timer captures and homing reference detection. -/
  | auxInEdge (p : Fin 4) (level full : Bool)
  /-- `DRIVE_FAULT_IN` (R309): SVn_FAULT_N becomes active, or an uplink FAULT bit rises. -/
  | driveFaultIn (x : Axis) (full : Bool)
  /-- `PHOTO_EYE_EDGE` (R271): An accepted photo-eye edge creates a product record if the lane may create one. -/
  | photoEyeEdge (p : Fin 4) (level full : Bool)
  /-- `INHIBIT_CHANGE` (R495): An accepted change of INHIBIT_N changes the bypass condition for later latches. -/
  | inhibitChange (level full : Bool)
  /-- `STALL_WINDOW_END` (R284): No source count arrives for STALL × 100 µs and a printing mark is abandoned. -/
  | stallWindowEnd (n : Lane)
  /-- `LATCH` (R278): The high-water mark reaches a record's latch point and the job and field values are frozen into it. -/
  | latch (n : Lane) (env : MemEnv)
  /-- `COLUMN_EMISSION` (R452): The high-water mark reaches a column position and the column is fired or skipped. -/
  | columnEmission (n : Lane) (done link : Bool) (env : MemEnv)
  /-- `FIRING` (R454): At sample boundary f the frame is latched and the waveform plays, or the firing is late. -/
  | firing (h : Head) (late : Bool) (refill : List (BitVec 16))
  /-- `GATE_ACTION` (R489): A record reaches its gate position, is counted and freed, and a rejecting outcome starts a window. -/
  | gateAction (n : Lane)
  /-- `REJ_WINDOW_END` (R490): A reject window ends at its position or time. -/
  | rejWindowEnd (n : Lane)
  /-- `SPAN_END` (R169): An unrecorded span ends after the trigger offset plus gate distance. -/
  | spanEnd (n : Lane)
  /-- `READBACK_SAMPLE` (R496): The reject ball is sampled and compared with the driven level. -/
  | readbackSample (n : Lane) (level : Bool)
  /-- `LIVE_EDGE` (R497): A LIVE half-period ends and LIVE toggles, or the edge is dropped. -/
  | liveEdge (late : Bool)
  /-- `REJ_RELEASE` (R494): The owner releases a forced reject and an unrecorded span starts. -/
  | rejRelease (o : OpCtx) (n : Lane)
  /-- `JOB_SELECTION` (R390): A write of PLC_JOB_Ln with JOB not 255 checks the crate and loads the job, its tables and its defaults. -/
  | jobSelection (o : OpCtx) (n : Lane) (crate : BitVec 17) (job : Byte) (env : OpEnv)
  /-- `JOB_DESELECTION` (R393): A write of PLC_JOB_Ln with JOB 255 deselects the job and sets MAX_RATE to 0. -/
  | jobDeselection (o : OpCtx) (n : Lane)
  /-- `CRATE_VERIFY` (R388): The owner writes CMP_CRATE_VGO and verification of a crate starts. -/
  | crateVerify (o : OpCtx) (crate : BitVec 17)
  /-- `CRATE_VERIFY_DONE` (R388): Verification completes as DONE, writing an entry, or as FAIL with a reason. -/
  | crateVerifyDone (answers : Bool)
  /-- `SECOND_BOUNDARY` (R420): A calendar second ends, and the day advances at midnight. -/
  | secondBoundary
  /-- `CAL_SET` (R421): A write of CAL_SET_GO sets the calendar and SET. -/
  | calSet (o : OpCtx) (day time : Word)
  /-- `CHECKPOINT_REQUEST` (R433): Every PERIOD seconds a counter checkpoint staged write is requested. -/
  | checkpointRequest
  /-- `MOT_ENABLE` (R293): Command ENABLE takes the axis from DISABLED to IDLE. -/
  | motEnable (o : OpCtx) (x : Axis)
  /-- `MOT_DISABLE` (R293): Command DISABLE stops the axis and disables its drive. -/
  | motDisable (o : OpCtx) (x : Axis)
  /-- `MOT_MOVE` (R294): Command MOVE reserves energy and starts a profile move to TARGET. -/
  | motMove (o : OpCtx) (x : Axis)
  /-- `MOT_HOME` (R305): Command HOME reserves energy and starts the homing search. -/
  | motHome (o : OpCtx) (x : Axis)
  /-- `MOT_ENGAGE` (R297): Command ENGAGE checks the cam table and starts gearing. -/
  | motEngage (o : OpCtx) (x : Axis)
  /-- `MOT_DECEL` (R295): Command DECEL ramps a move or homing down to VSTART, or disengages gearing. -/
  | motDecel (o : OpCtx) (x : Axis)
  /-- `MOT_STOP` (R302): Command STOP halts the axis at once. -/
  | motStop (o : OpCtx) (x : Axis)
  /-- `MOT_CLEAR` (R293): Command CLEAR takes the axis from HALT to IDLE. -/
  | motClear (o : OpCtx) (x : Axis)
  /-- `PROFILE_TICK` (R295): Each tick of a move, the rate multiplier updates speed and phase and may add a microstep. -/
  | profileTick (x : Axis)
  /-- `MOVE_DONE` (R295): The remaining distance reaches 0, the move is done and the axis enters IDLE. -/
  | moveDone (x : Axis)
  /-- `MICROSTEP_EMISSION` (R296): The output stage emits one microstep toward the command position. -/
  | microstepEmission (x : Axis) (onA onB : Nat)
  /-- `CAM_POINT` (R298): A cam point falls due and sets the ratio or starts a blend. -/
  | camPoint (x : Axis)
  /-- `FB_FREEZE_WINDOW_END` (R307): The feedback freeze window ends with the command moved but feedback still. -/
  | fbFreezeWindowEnd (x : Axis)
  /-- `M_FREEZE_WINDOW_END` (R308): The master freeze window ends while a ratio is in force. -/
  | mFreezeWindowEnd (x : Axis)
  /-- `OVER_CURRENT` (R322): A coil's sense reaches OC_LIMIT outside blanking and all four bridge outputs go off. -/
  | overCurrent (x : Axis) (b : Bool) (sense : BitVec 12)
  /-- `STANDSTILL_DELAY_END` (R325): SS_DELAY passes without an emission and standstill begins. -/
  | standstillDelayEnd (x : Axis)
  /-- `RAMP_END` (R327): A re-energise ramp ends and the backlog is emitted. -/
  | rampEnd (x : Axis)
  /-- `SERVO_PERIOD_BOUNDARY` (R310): An axis-bus frame with the set-points is sent at a servo period boundary. -/
  | servoPeriodBoundary
  /-- `UPLINK_EVALUATION` (R312): The drive uplinks are evaluated, counting misses and checking following error. -/
  | uplinkEvaluation (up4 up5 : List Byte)
  /-- `HST_ENABLE` (R334): Command ENABLE takes a channel to IDLE. -/
  | hstEnable (o : OpCtx) (c : Chan)
  /-- `HST_DISABLE` (R352): Command DISABLE drops the run and disables the channel. -/
  | hstDisable (o : OpCtx) (c : Chan)
  /-- `HST_START` (R337): Command START queues the channel or sets its pending start. -/
  | hstStart (o : OpCtx) (c : Chan)
  /-- `HST_ABORT` (R353): Command ABORT stops the channel after the bursts already issued. -/
  | hstAbort (o : OpCtx) (c : Chan)
  /-- `HST_ABORT_END` (R353): The abort finishes: the status record is written and the channel enters IDLE. -/
  | hstAbortEnd (c : Chan)
  /-- `HST_RESUME` (R351): Command RESUME requeues a halted channel to retry from the failing element. -/
  | hstResume (o : OpCtx) (c : Chan)
  /-- `SHAFT_DISPATCH` (R339): A shaft takes a queued channel, or selects a burst, under its discipline. -/
  | shaftDispatch (f : Shaft)
  /-- `HST_REQUEST` (R340): A head-port buffer raises a request on a request line. -/
  | hstRequest (line : Fin 8)
  /-- `MOVE` (R357): Instruction MOVE performs a linear transfer and advances the cursors. -/
  | move (c : Chan) (env : MemEnv)
  /-- `MOVE2D` (R357): Instruction MOVE2D performs a 2D transfer. -/
  | move2d (c : Chan) (env : MemEnv)
  /-- `GATHER` (R348): Instruction GATHER moves elements from table offsets. -/
  | gather (c : Chan) (env : MemEnv)
  /-- `SCATTER` (R348): Instruction SCATTER moves elements to table offsets. -/
  | scatter (c : Chan) (env : MemEnv)
  /-- `LOOP` (R359): Instruction LOOP counts down and branches back. -/
  | loop (c : Chan) (env : MemEnv)
  /-- `WAIT` (R360): Instruction WAIT holds the run on a signal, memory or delay condition. -/
  | wait (c : Chan) (env : MemEnv)
  /-- `WAIT_MEMORY_POLL` (R360): Every 1,000 ticks a memory WAIT rereads its word. -/
  | waitMemoryPoll (c : Chan) (env : MemEnv)
  /-- `WAIT_DELAY_END` (R360): A delay WAIT ends after TICKS. -/
  | waitDelayEnd (c : Chan)
  /-- `SIGNAL` (R361): Instruction SIGNAL sets a flag of a channel, releasing a waiting WAIT. -/
  | signal (c : Chan) (env : MemEnv)
  /-- `SET` (R362): Instruction SET writes a word or loads a cursor. -/
  | set (c : Chan) (env : MemEnv)
  /-- `END` (R363): Instruction END makes the run's completion ready. -/
  | end_ (c : Chan) (env : MemEnv)
  /-- `HST_COMPLETION` (R338): A run's completion commits, setting DONE and starting chained channels or a pending start. -/
  | hstCompletion (c : Chan)
  /-- `HST_DUE_KEY` (R338): A paced run reaches its due key, completing or committing a late marker. -/
  | hstDueKey (c : Chan)
  /-- `HST_BUS_ERROR` (R350): An element or table access receives an error response and the channel halts. -/
  | hstBusError (c : Chan) (k : Nat)
  /-- `POSTED_WRITE_ERROR` (R349): A posted write error arrives after completion: HST.BUS is committed and POST_ERR set. -/
  | postedWriteError (c : Chan) (addr : Word)
  /-- `SHELF_DESCRIPTOR` (R371): The head descriptor is read and, if owned, transferred and written back. -/
  | shelfDescriptor (c : Chan) (env : MemEnv)
  /-- `SHELF_KICK` (R371): A write of KICK rereads an empty ring's head. -/
  | shelfKick (o : OpCtx) (c : Chan) (env : OpEnv)
  /-- `SHELF_POLL` (R371): Every POLL × 10 µs an empty ring's head is reread. -/
  | shelfPoll (c : Chan) (env : MemEnv)
  /-- `HED_ENABLE` (R443): A write of EN = 1 takes the head port to ABSENT. -/
  | hedEnable (o : OpCtx) (h : Head)
  /-- `HED_DISABLE` (R444): A write of EN = 0 takes the port to OFF, refused while records are latched or printing. -/
  | hedDisable (o : OpCtx) (h : Head)
  /-- `HEAD_PRESENT_CHANGE` (R444): The filtered PRESENT changes, going to ABSENT or starting PRES_SETTLE. -/
  | headPresentChange (h : Head) (level full : Bool)
  /-- `PRES_SETTLE_END` (R443): PRESENT has been active for PRES_SETTLE ms and the port enters IDENT. -/
  | presSettleEnd (h : Head)
  /-- `IDENT_END` (R445): The identity measurement ends and the port enters POWER or MISMATCH. -/
  | identEnd (h : Head) (c0 c1 c2 c3 : BitVec 12)
  /-- `HED_ID_WRITE` (R443): A write of HED_ID_Hn in MISMATCH returns the port to IDENT. -/
  | hedIdWrite (o : OpCtx) (h : Head) (id : Word)
  /-- `T_LOGIC_END` (R443): T_LOGIC ends: CK starts, the trim frame is sent and HV_EN rises. -/
  | tLogicEnd (h : Head) (env : MemEnv)
  /-- `T_HV_END` (R443): T_HV ends and the port enters READY. -/
  | tHvEnd (h : Head)
  /-- `RESTART` (R443): Command RESTART returns a port in FAULT to READY. -/
  | restart (o : OpCtx) (h : Head)
  /-- `TRIM_LOAD` (R456): Command TRIM_LOAD reads the trim table and sends a TRIM frame. -/
  | trimLoad (o : OpCtx) (h : Head) (env : OpEnv)
  /-- `SVC` (R461): Command SVC starts SVC_COUNT service firings. -/
  | svc (o : OpCtx) (h : Head)
  /-- `SERVICE_FIRING` (R461): A scheduled service firing fires buffered codes or is counted late. -/
  | serviceFiring (h : Head)
  /-- `HEATER_ENABLE` (R464): A write of HEAT_EN starts or stops the heater state machine. -/
  | heaterEnable (o : OpCtx) (h : Head) (on : Bool)
  /-- `HEATER_LOOP_PERIOD` (R465): At each loop period the thermistor is converted, the duty, band and compensation are updated, and warm-up energy is requested. -/
  | heaterLoopPeriod (h : Head) (code : BitVec 12)
  /-- `FREEZE_WINDOW_END` (R468): The thermistor freeze window runs out and the heater enters HOLDING. -/
  | freezeWindowEnd (h : Head)
  /-- `HOLD_T_EXPIRY` (R469): HOLDING lasts HOLD_T without good feedback and the heater trips. -/
  | holdTExpiry (h : Head)
  /-- `WARM_MAX_EXPIRY` (R470): WARMING exceeds WARM_MAX and the heater trips. -/
  | warmMaxExpiry (h : Head)
  /-- `HEAT_RESTART` (R464): Command HEAT_RESTART takes a tripped heater to ENERGY_WAIT. -/
  | heatRestart (o : OpCtx) (h : Head)
  /-- `SCAN` (R474): Command SCAN checks the gate idle level and starts a drop-gate scan. -/
  | scan (o : OpCtx) (h : Head) (env : OpEnv)
  /-- `DROP_GATE_SHOT` (R475): One nozzle fires a shot through the gate beam. -/
  | dropGateShot (h : Head)
  /-- `GATE_COMPARATOR_FALL` (R475): An accepted gate shadow fall scores a hit in a shot's window. -/
  | gateComparatorFall (h : Head) (full : Bool)
  /-- `SCAN_END` (R476): The last shot's window ends and the classes are applied to the map. -/
  | scanEnd (h : Head)
  /-- `MAP_LOAD` (R481): Command MAP_LOAD reloads the health map from the Loft. -/
  | mapLoad (o : OpCtx) (h : Head)
  /-- `MAP_SAVE` (R481): Command MAP_SAVE requests a staged save of the health map. -/
  | mapSave (o : OpCtx) (h : Head)
  /-- `NOZZLE_ENTRY_WRITE` (R480): An owner write of HLT_NOZ_Hn sets a nozzle's map entry. -/
  | nozzleEntryWrite (o : OpCtx) (h : Head) (sel : BitVec 10) (entry : Word)
  /-- `KEEP_WET_WAIT_END` (R482): IDLE_SPIT or SPIT_INT passes without an emission and a keep-wet burst starts. -/
  | keepWetWaitEnd (h : Head)
  /-- `KEEP_WET_FIRING` (R483): A keep-wet SPIT firing of a burst is made. -/
  | keepWetFiring (h : Head)
  /-- `FIRE_COUNT_SAVE` (R485): Every FC_PERIOD a staged save of the fire counts is requested. -/
  | fireCountSave (h : Head)
  /-- `LANE_DRAIN` (R504): Command DRAIN stops record creation on an in-service lane. -/
  | laneDrain (o : OpCtx) (n : Lane)
  /-- `LANE_OPEN` (R505): Command OPEN finalises and discards the lane's records and makes it OPEN. -/
  | laneOpen (o : OpCtx) (n : Lane)
  /-- `LANE_CLOSE` (R507): Command CLOSE starts the self-check, which returns the lane to service when it passes. -/
  | laneClose (o : OpCtx) (n : Lane)
  /-- `NEW_HEAD` (R509): Command NEW_HEAD resets the fire counts and health map of the port. -/
  | newHead (o : OpCtx) (n : Lane)
  /-- `CLOSE_WAIT_END` (R507): CLOSE_WAIT ends with a check failing and the lane reopens. -/
  | closeWaitEnd (n : Lane)
  /-- `LEASE_TRANSFER` (R513): An owner write of HAT_LEASE_r transfers a resource to a new holder. -/
  | leaseTransfer (o : OpCtx) (r : Fin 66) (dst : Byte)
  /-- `VAON_POWER_ON_RESET` (R140): VAON falls below 1.62 V, the always-on domain resets and the Pantry enters OFF. -/
  | vaonPowerOnReset
  /-- `LINK_UP` (R179): A port's PHY completes clause 98 auto-negotiation or forced mode and its link comes up, setting UP_A or UP_B. -/
  | linkUp (p : Fin 2) (amp24 : Bool)
  /-- `DISCARDED_PULSE` (R267): A level on a filtered input returns before FILT ticks and is counted as a discarded pulse. -/
  | discardedPulse (input : Fin 32)
  /-- `DRIVE_FAULT_RELEASE` (R293): SVn_FAULT_N returns to its inactive level, clearing FAULT_NOW so that CLEAR and ENABLE are accepted again. -/
  | driveFaultRelease (x : Axis)
  /-- `VIO_FALL` (R548): VIO falls below 2.90 V and every VIO-domain output goes to high impedance within 1 µs. -/
  | vioFall
  /-- `BOUNDARY_SCAN_ENTRY` (R163): EXTEST, CLAMP or HIGHZ becomes the current instruction, so the scan logic takes the pins and the core is held in reset. -/
  | boundaryScanEntry
  /-- `HEATER_PWM_PERIOD` (R466): A heater PWM period of PWM_T ticks ends, the new duty takes effect and the period joins the good periods behind the averaged duty. -/
  | heaterPwmPeriod (h : Head)
  /-- `CHOPPER_TURN_OFF` (R320): After blanking, a coil's sensed current reaches the upper threshold, the coil enters decay and the peak is sampled. -/
  | chopperTurnOff (x : Axis) (b : Bool) (sense : BitVec 12)
  /-- `CHOPPER_OFF_END` (R321): A chopper off phase ends on the lower threshold or T_OFF_MAX, the valley is sampled and the offset and thresholds are updated. -/
  | chopperOffEnd (x : Axis) (b : Bool) (sense : BitVec 12)
  deriving DecidableEq, Repr

end Sys2Proof
end

