-- ==== Sys2Proof/Decode.lean ====
section
/-! DEFINITION. The command that a word of the command table spells: the table gives no row any bits, so no word spells a
command. -/

namespace Sys2Proof

/-- The command of a word of `nbits` bits, numbered as the command table numbers them: no row of the table has bits. -/
def decodeTableWord (_nbits _w : Nat) : Option Instr := none

end Sys2Proof
end

