-- ==== Sys2Proof/Config.lean ====
section
/-! DEFINITION. What an implementation fixes and the free values: results that the manual leaves undefined are these
constants, which have no body, applied to the count `free` of State. -/

namespace Sys2Proof.Config

/-- An undefined byte: the Cellar content after a cut-off program or erase (R165). -/
opaque freeByte : Nat → BitVec 8

/-- An undefined word: the counts of a Hoist channel after a revocation (R123), and bytes that a register group or
transfer leaves open. -/
opaque freeWord : Nat → BitVec 32

end Sys2Proof.Config
end

