-- ==== Sys2Proof/Machine/Operands.lean ====
section
/-! DEFINITION. Operands: bit fields of words, signed values, byte orders, multiples of a period, the order of placement stamps,
and the lists of all lanes, axes, channels, timers and sessions (00_scope R4-R9; 10_placement R265). -/

namespace Sys2Proof.Machine

/-- Bits [hi:lo] of a word, as a number (R4). -/
def bits (w : Word) (hi lo : Nat) : Nat := (w.toNat >>> lo) % 2 ^ (hi + 1 - lo)

/-- Bit [n] of a word. -/
def bit (w : Word) (n : Nat) : Bool := w.toNat.testBit n

/-- `w` with bits [hi:lo] replaced by `v`. -/
def putBits (w : Word) (hi lo v : Nat) : Word :=
  let m := (2 ^ (hi + 1 - lo) - 1) <<< lo
  (w &&& ~~~(BitVec.ofNat 32 m)) ||| (BitVec.ofNat 32 (v <<< lo) &&& BitVec.ofNat 32 m)

/-- A number as a word. -/
abbrev word (n : Nat) : Word := BitVec.ofNat 32 n

/-- A Boolean as a bit. -/
def b2n (b : Bool) : Nat := if b then 1 else 0

/-- The value of a two's-complement field of `w` bits. -/
def signed (w n : Nat) : Int := if n < 2 ^ (w - 1) then (n : Int) else (n : Int) - 2 ^ w

/-- Division that truncates toward zero, as the pseudocode of the manual divides. -/
def truncDiv (a b : Int) : Int := Int.tdiv a b

/-- The low `w` bits of an integer, as a number. -/
def wrapInt (w : Nat) (x : Int) : Nat := (x % (2 ^ w : Int)).toNat

/-- The bytes of `n`, least significant first (R6). -/
def bytesLE : Nat → Nat → List Byte
  | 0, _ => []
  | k + 1, n => BitVec.ofNat 8 n :: bytesLE k (n / 256)

/-- The number that bytes spell, least significant first (R6). -/
def leBytes : List Byte → Nat
  | [] => 0
  | b :: rest => b.toNat + 256 * leBytes rest

/-- The number that bytes spell, most significant first (published standards, R6). -/
def beBytes (l : List Byte) : Nat := leBytes l.reverse

/-- Smallest multiple of `p` strictly above `t`, counted from `base`; `p` is not 0. -/
def nextMultiple (base p t : Nat) : Nat := if t < base then base + p else base + ((t - base) / p + 1) * p

/-- Mod-2^48 order of placement stamps: `a` is at or above `b` when it lies less than half the range ahead (R265). -/
def pcGe (a b : Pc) : Bool := decide ((a - b).toNat < 2 ^ 47)

/-- `a` is above `b`. -/
def pcGt (a b : Pc) : Bool := pcGe a b && decide (a ≠ b)

def allLanes : List Lane := [0, 1, 2, 3]
def allAxes : List Axis := [0, 1, 2, 3, 4, 5]
def allChans : List Chan :=
  [0, 1, 2, 3, 4, 5, 6, 7, 8, 9, 10, 11, 12, 13, 14, 15, 16, 17, 18, 19, 20, 21, 22, 23]
def allTimers : List TimerId := [0, 1, 2, 3, 4, 5, 6, 7, 8, 9, 10, 11, 12, 13, 14, 15]
def allSess : List Sess := [0, 1, 2, 3, 4, 5, 6, 7, 8]
def allNetSess : List Sess := [1, 2, 3, 4, 5, 6, 7, 8]

end Sys2Proof.Machine
end

