-- ==== Sys2Proof/Machine/Regs.lean ====
section
/-! DEFINITION. The register map: one row per register of the spec's register tables (R36, R67, R101, R126, R151,
R177, R214, R240, R262, R288, R313, R332, R355, R376, R397, R418, R441, R462, R487, R502, R519), with its address,
its reset value, and the bits each access code of R12 covers. -/

namespace Sys2Proof.Machine

/-- One row of the register map: `count` registers at `base + stride * k`. `rw`, `w1g` and `wt` are the bits of the
access codes RW, W1G and WT (R12); every other bit is RO, RL or reserved. Instance `k` resets to `reset + step * k`
(R15; for an "image" register the no-image value). `keep` marks a register of the always-on domain. -/
structure RegRow where
  base : Nat
  stride : Nat
  count : Nat
  reset : Nat
  step : Nat
  rw : Nat
  w1g : Nat
  wt : Nat
  keep : Bool
  deriving DecidableEq, Repr

namespace Reg

/-- `DEV_ID` (06_reset_straps_absence R177). -/
abbrev DEV_ID : Nat := 0x0
/-- `DEV_REV` (06_reset_straps_absence R177). -/
abbrev DEV_REV : Nat := 0x4
/-- `DEV_STRAPS` (06_reset_straps_absence R177). -/
abbrev DEV_STRAPS : Nat := 0x10
/-- `DEV_STATUS` (06_reset_straps_absence R177). -/
abbrev DEV_STATUS : Nat := 0x14
/-- `DEV_RESET_CAUSE` (06_reset_straps_absence R177). -/
abbrev DEV_RESET_CAUSE : Nat := 0x18
/-- `DEV_RESET_COUNT` (06_reset_straps_absence R177). -/
abbrev DEV_RESET_COUNT : Nat := 0x1C
/-- `DEV_RESET_REQ` (06_reset_straps_absence R177). -/
abbrev DEV_RESET_REQ : Nat := 0x20
/-- `DEV_BOOT` (06_reset_straps_absence R177). -/
abbrev DEV_BOOT : Nat := 0x24
/-- `DEV_ENV_RATE`, by instance (01_on_the_line R36). -/
abbrev DEV_ENV_RATE (n : Nat) : Nat := 0x200 + 0x4 * n
/-- `DEV_ENV_STAT` (01_on_the_line R36). -/
abbrev DEV_ENV_STAT : Nat := 0x210
/-- `DEV_ENV_CTRL` (01_on_the_line R36). -/
abbrev DEV_ENV_CTRL : Nat := 0x214
/-- `DEV_ENV_COUNT`, by instance (01_on_the_line R36). -/
abbrev DEV_ENV_COUNT (n : Nat) : Nat := 0x220 + 0x4 * n
/-- `DEV_ORDER_LO` (02_determinism R67). -/
abbrev DEV_ORDER_LO : Nat := 0x300
/-- `DEV_ORDER_HI` (02_determinism R67). -/
abbrev DEV_ORDER_HI : Nat := 0x304
/-- `DEV_TICK_LO` (02_determinism R67). -/
abbrev DEV_TICK_LO : Nat := 0x308
/-- `DEV_TICK_HI` (02_determinism R67). -/
abbrev DEV_TICK_HI : Nat := 0x30C
/-- `DEV_LAD_WD` (02_determinism R67). -/
abbrev DEV_LAD_WD : Nat := 0x310
/-- `DEV_LAD_ISO_LO` (02_determinism R67). -/
abbrev DEV_LAD_ISO_LO : Nat := 0x314
/-- `DEV_LAD_ISO_HI` (02_determinism R67). -/
abbrev DEV_LAD_ISO_HI : Nat := 0x318
/-- `DEV_LAD_STAT` (02_determinism R67). -/
abbrev DEV_LAD_STAT : Nat := 0x31C
/-- `DEV_LAD_WEDGES` (02_determinism R67). -/
abbrev DEV_LAD_WEDGES : Nat := 0x320
/-- `DEV_COMMIT_LAG` (02_determinism R67). -/
abbrev DEV_COMMIT_LAG : Nat := 0x324
/-- `DEV_DEFER`, by instance (02_determinism R67). -/
abbrev DEV_DEFER (n : Nat) : Nat := 0x340 + 0x4 * n
/-- `BLOCK_STALE`, by instance (02_determinism R67). -/
abbrev BLOCK_STALE (n : Nat) : Nat := 0xFFC + 0x1000 * n
/-- `SES_OWNER` (08_sessions R240). -/
abbrev SES_OWNER : Nat := 0x1000
/-- `SES_EVT` (08_sessions R240). -/
abbrev SES_EVT : Nat := 0x1004
/-- `SES_CTRL` (08_sessions R240). -/
abbrev SES_CTRL : Nat := 0x1008
/-- `SES_ELECT` (08_sessions R240). -/
abbrev SES_ELECT : Nat := 0x100C
/-- `SES_ROLE` (08_sessions R240). -/
abbrev SES_ROLE : Nat := 0x1010
/-- `SES_KEY_STAT` (08_sessions R240). -/
abbrev SES_KEY_STAT : Nat := 0x1014
/-- `SES_NONCE_ID` (08_sessions R240). -/
abbrev SES_NONCE_ID : Nat := 0x1018
/-- `SES_CLAIM_FAILS` (08_sessions R240). -/
abbrev SES_CLAIM_FAILS : Nat := 0x101C
/-- `SES_LP_GOOD` (08_sessions R240). -/
abbrev SES_LP_GOOD : Nat := 0x1020
/-- `SES_LP_BAD` (08_sessions R240). -/
abbrev SES_LP_BAD : Nat := 0x1024
/-- `LNK_PORTA_CFG` (07_link_waislink R214). -/
abbrev LNK_PORTA_CFG : Nat := 0x2000
/-- `LNK_PORTB_CFG` (07_link_waislink R214). -/
abbrev LNK_PORTB_CFG : Nat := 0x2004
/-- `LNK_PORT_STAT` (07_link_waislink R214). -/
abbrev LNK_PORT_STAT : Nat := 0x2008
/-- `LNK_MAC_LO` (07_link_waislink R214). -/
abbrev LNK_MAC_LO : Nat := 0x2010
/-- `LNK_MAC_HI` (07_link_waislink R214). -/
abbrev LNK_MAC_HI : Nat := 0x2014
/-- `LNK_STA_MAC_LO` (07_link_waislink R214). -/
abbrev LNK_STA_MAC_LO : Nat := 0x2018
/-- `LNK_STA_MAC_HI` (07_link_waislink R214). -/
abbrev LNK_STA_MAC_HI : Nat := 0x201C
/-- `LNK_IP` (07_link_waislink R214). -/
abbrev LNK_IP : Nat := 0x2020
/-- `LNK_NETMASK` (07_link_waislink R214). -/
abbrev LNK_NETMASK : Nat := 0x2024
/-- `LNK_STA_IP` (07_link_waislink R214). -/
abbrev LNK_STA_IP : Nat := 0x2028
/-- `LNK_ETYPE` (07_link_waislink R214). -/
abbrev LNK_ETYPE : Nat := 0x202C
/-- `LNK_UDP_PORT` (07_link_waislink R214). -/
abbrev LNK_UDP_PORT : Nat := 0x2030
/-- `LNK_VLAN` (07_link_waislink R214). -/
abbrev LNK_VLAN : Nat := 0x2034
/-- `LNK_EVT_RETRY` (07_link_waislink R214). -/
abbrev LNK_EVT_RETRY : Nat := 0x2038
/-- `LNK_RXGOOD`, by instance (07_link_waislink R214). -/
abbrev LNK_RXGOOD (n : Nat) : Nat := 0x2040 + 0x10 * n
/-- `LNK_RXERR`, by instance (07_link_waislink R214). -/
abbrev LNK_RXERR (n : Nat) : Nat := 0x2044 + 0x10 * n
/-- `LNK_RXOVR`, by instance (07_link_waislink R214). -/
abbrev LNK_RXOVR (n : Nat) : Nat := 0x2048 + 0x10 * n
/-- `LNK_TX`, by instance (07_link_waislink R214). -/
abbrev LNK_TX (n : Nat) : Nat := 0x204C + 0x10 * n
/-- `LNK_FWD_DROP` (07_link_waislink R214). -/
abbrev LNK_FWD_DROP : Nat := 0x2060
/-- `LNK_BAD_FRAMES` (07_link_waislink R214). -/
abbrev LNK_BAD_FRAMES : Nat := 0x2064
/-- `LNK_IP_DROP` (07_link_waislink R214). -/
abbrev LNK_IP_DROP : Nat := 0x2068
/-- `LNK_SES_STAT`, by instance (07_link_waislink R214). -/
abbrev LNK_SES_STAT (n : Nat) : Nat := 0x2100 + 0x10 * n
/-- `LNK_SES_KA`, by instance (07_link_waislink R214). -/
abbrev LNK_SES_KA (n : Nat) : Nat := 0x2104 + 0x10 * n
/-- `LNK_SES_PEER`, by instance (07_link_waislink R214). -/
abbrev LNK_SES_PEER (n : Nat) : Nat := 0x2108 + 0x10 * n
/-- `LNK_SES_EVT`, by instance (07_link_waislink R214). -/
abbrev LNK_SES_EVT (n : Nat) : Nat := 0x210C + 0x10 * n
/-- `PWR_STATE` (05_pantry R151). -/
abbrev PWR_STATE : Nat := 0x3000
/-- `PWR_REQ` (05_pantry R151). -/
abbrev PWR_REQ : Nat := 0x3004
/-- `PWR_EVT` (05_pantry R151). -/
abbrev PWR_EVT : Nat := 0x3008
/-- `PWR_RES_CAP` (05_pantry R151). -/
abbrev PWR_RES_CAP : Nat := 0x300C
/-- `PWR_RES_LOW` (05_pantry R151). -/
abbrev PWR_RES_LOW : Nat := 0x3010
/-- `PWR_RES_HIGH` (05_pantry R151). -/
abbrev PWR_RES_HIGH : Nat := 0x3014
/-- `PWR_PARK` (05_pantry R151). -/
abbrev PWR_PARK : Nat := 0x3018
/-- `PWR_SENSE` (05_pantry R151). -/
abbrev PWR_SENSE : Nat := 0x301C
/-- `PWR_INPUT` (05_pantry R151). -/
abbrev PWR_INPUT : Nat := 0x3020
/-- `PWR_INCAP` (05_pantry R151). -/
abbrev PWR_INCAP : Nat := 0x3024
/-- `PWR_BUS` (05_pantry R151). -/
abbrev PWR_BUS : Nat := 0x3028
/-- `PWR_MEAS` (05_pantry R151). -/
abbrev PWR_MEAS : Nat := 0x302C
/-- `PWR_BUS_NOW` (05_pantry R151). -/
abbrev PWR_BUS_NOW : Nat := 0x3030
/-- `PWR_LEDGER_HEAD_LO` (05_pantry R151). -/
abbrev PWR_LEDGER_HEAD_LO : Nat := 0x3040
/-- `PWR_LEDGER_HEAD_HI` (05_pantry R151). -/
abbrev PWR_LEDGER_HEAD_HI : Nat := 0x3044
/-- `PWR_LEDGER_HELD_LO` (05_pantry R151). -/
abbrev PWR_LEDGER_HELD_LO : Nat := 0x3048
/-- `PWR_LEDGER_HELD_HI` (05_pantry R151). -/
abbrev PWR_LEDGER_HELD_HI : Nat := 0x304C
/-- `PWR_LEDGER_V` (05_pantry R151). -/
abbrev PWR_LEDGER_V : Nat := 0x3050
/-- `PWR_MARK`, by instance (05_pantry R151). -/
abbrev PWR_MARK (n : Nat) : Nat := 0x3060 + 0x8 * n
/-- `PWR_MARKCOL`, by instance (05_pantry R151). -/
abbrev PWR_MARKCOL (n : Nat) : Nat := 0x3064 + 0x8 * n
/-- `PWR_REFUSE`, by instance (05_pantry R151). -/
abbrev PWR_REFUSE (n : Nat) : Nat := 0x3080 + 0x4 * n
/-- `PWR_REFUSE_OTHER` (05_pantry R151). -/
abbrev PWR_REFUSE_OTHER : Nat := 0x3090
/-- `PWR_WAKE_EN` (05_pantry R151). -/
abbrev PWR_WAKE_EN : Nat := 0x30A0
/-- `PWR_SLEEP_TIMER` (05_pantry R151). -/
abbrev PWR_SLEEP_TIMER : Nat := 0x30A4
/-- `PWR_WAKE_CAUSE` (05_pantry R151). -/
abbrev PWR_WAKE_CAUSE : Nat := 0x30A8
/-- `PWR_RAIL_STAT` (05_pantry R151). -/
abbrev PWR_RAIL_STAT : Nat := 0x30B0
/-- `PWR_CAUSE` (05_pantry R151). -/
abbrev PWR_CAUSE : Nat := 0x30B4
/-- `PWR_COUNTS` (05_pantry R151). -/
abbrev PWR_COUNTS : Nat := 0x30B8
/-- `FLT_CTRL` (04_fault_collector R126). -/
abbrev FLT_CTRL : Nat := 0x4000
/-- `FLT_BIN_STAT` (04_fault_collector R126). -/
abbrev FLT_BIN_STAT : Nat := 0x4004
/-- `FLT_ERR` (04_fault_collector R126). -/
abbrev FLT_ERR : Nat := 0x4008
/-- `FLT_EVT` (04_fault_collector R126). -/
abbrev FLT_EVT : Nat := 0x400C
/-- `FLT_BIN_HEAD` (04_fault_collector R126). -/
abbrev FLT_BIN_HEAD : Nat := 0x4010
/-- `FLT_BIN_ADDR` (04_fault_collector R126). -/
abbrev FLT_BIN_ADDR : Nat := 0x4014
/-- `FLT_BIN_ORDER_LO` (04_fault_collector R126). -/
abbrev FLT_BIN_ORDER_LO : Nat := 0x4018
/-- `FLT_BIN_ORDER_HI` (04_fault_collector R126). -/
abbrev FLT_BIN_ORDER_HI : Nat := 0x401C
/-- `FLT_BIN_PLACE_LO` (04_fault_collector R126). -/
abbrev FLT_BIN_PLACE_LO : Nat := 0x4020
/-- `FLT_BIN_PLACE_HI` (04_fault_collector R126). -/
abbrev FLT_BIN_PLACE_HI : Nat := 0x4024
/-- `FLT_PEND_A` (04_fault_collector R126). -/
abbrev FLT_PEND_A : Nat := 0x4030
/-- `FLT_PEND_B` (04_fault_collector R126). -/
abbrev FLT_PEND_B : Nat := 0x4034
/-- `FLT_SRC_STATE`, by instance (04_fault_collector R126). -/
abbrev FLT_SRC_STATE (n : Nat) : Nat := 0x4040 + 0x4 * n
/-- `FLT_RELEASE` (04_fault_collector R126). -/
abbrev FLT_RELEASE : Nat := 0x4050
/-- `FLT_RECOV_GLOBAL` (04_fault_collector R126). -/
abbrev FLT_RECOV_GLOBAL : Nat := 0x4054
/-- `FLT_TRAP_COUNT` (04_fault_collector R126). -/
abbrev FLT_TRAP_COUNT : Nat := 0x4058
/-- `FLT_RECOV`, by instance (04_fault_collector R126). -/
abbrev FLT_RECOV (n : Nat) : Nat := 0x4100 + 0x4 * n
/-- `FLT_PRIOR`, by instance (04_fault_collector R126). -/
abbrev FLT_PRIOR (n : Nat) : Nat := 0x4200 + 0x4 * n
/-- `TMR_CFG`, by instance (09_timers R262). -/
abbrev TMR_CFG (n : Nat) : Nat := 0x5000 + 0x40 * n
/-- `TMR_PRE`, by instance (09_timers R262). -/
abbrev TMR_PRE (n : Nat) : Nat := 0x5004 + 0x40 * n
/-- `TMR_COUNT_LO`, by instance (09_timers R262). -/
abbrev TMR_COUNT_LO (n : Nat) : Nat := 0x5008 + 0x40 * n
/-- `TMR_COUNT_HI`, by instance (09_timers R262). -/
abbrev TMR_COUNT_HI (n : Nat) : Nat := 0x500C + 0x40 * n
/-- `TMR_VAL_LO`, by instance and channel (09_timers R262). -/
abbrev TMR_VAL_LO (n c : Nat) : Nat := 0x5010 + 0x40 * n + 0xC * c
/-- `TMR_VAL_HI`, by instance and channel (09_timers R262). -/
abbrev TMR_VAL_HI (n c : Nat) : Nat := 0x5014 + 0x40 * n + 0xC * c
/-- `TMR_ACT`, by instance and channel (09_timers R262). -/
abbrev TMR_ACT (n c : Nat) : Nat := 0x5018 + 0x40 * n + 0xC * c
/-- `TMR_LOAD_LO`, by instance (09_timers R262). -/
abbrev TMR_LOAD_LO (n : Nat) : Nat := 0x5400 + 0x8 * n
/-- `TMR_LOAD_HI`, by instance (09_timers R262). -/
abbrev TMR_LOAD_HI (n : Nat) : Nat := 0x5404 + 0x8 * n
/-- `TMR_OVF_ACT`, by instance (09_timers R262). -/
abbrev TMR_OVF_ACT (n : Nat) : Nat := 0x5480 + 0x4 * n
/-- `TMR_TMUP`, by instance (09_timers R262). -/
abbrev TMR_TMUP (n : Nat) : Nat := 0x54C0 + 0x4 * n
/-- `TMR_MISS`, by instance (09_timers R262). -/
abbrev TMR_MISS (n : Nat) : Nat := 0x5500 + 0x4 * n
/-- `TMR_STAT`, by instance (09_timers R262). -/
abbrev TMR_STAT (n : Nat) : Nat := 0x5600 + 0x4 * n
/-- `TMR_TCLK_CFG`, by instance (09_timers R262). -/
abbrev TMR_TCLK_CFG (n : Nat) : Nat := 0x5700 + 0x4 * n
/-- `TMR_TCLK_FILT`, by instance (09_timers R262). -/
abbrev TMR_TCLK_FILT (n : Nat) : Nat := 0x5710 + 0x4 * n
/-- `TMR_TCLK_STAT` (09_timers R262). -/
abbrev TMR_TCLK_STAT : Nat := 0x5720
/-- `TMR_TOUT` (09_timers R262). -/
abbrev TMR_TOUT : Nat := 0x5730
/-- `PLC_SRC`, by instance (10_placement R288). -/
abbrev PLC_SRC (n : Nat) : Nat := 0x6000 + 0x100 * n
/-- `PLC_SCALE`, by instance (10_placement R288). -/
abbrev PLC_SCALE (n : Nat) : Nat := 0x6004 + 0x100 * n
/-- `PLC_COUNT_LO`, by instance (10_placement R288). -/
abbrev PLC_COUNT_LO (n : Nat) : Nat := 0x6008 + 0x100 * n
/-- `PLC_COUNT_HI`, by instance (10_placement R288). -/
abbrev PLC_COUNT_HI (n : Nat) : Nat := 0x600C + 0x100 * n
/-- `PLC_HWM_LO`, by instance (10_placement R288). -/
abbrev PLC_HWM_LO (n : Nat) : Nat := 0x6010 + 0x100 * n
/-- `PLC_HWM_HI`, by instance (10_placement R288). -/
abbrev PLC_HWM_HI (n : Nat) : Nat := 0x6014 + 0x100 * n
/-- `PLC_PE`, by instance (10_placement R288). -/
abbrev PLC_PE (n : Nat) : Nat := 0x6018 + 0x100 * n
/-- `PLC_TRIG`, by instance (10_placement R288). -/
abbrev PLC_TRIG (n : Nat) : Nat := 0x601C + 0x100 * n
/-- `PLC_PITCH`, by instance (10_placement R288). -/
abbrev PLC_PITCH (n : Nat) : Nat := 0x6020 + 0x100 * n
/-- `PLC_LEAD`, by instance (10_placement R288). -/
abbrev PLC_LEAD (n : Nat) : Nat := 0x6024 + 0x100 * n
/-- `PLC_LIMITS`, by instance (10_placement R288). -/
abbrev PLC_LIMITS (n : Nat) : Nat := 0x6028 + 0x100 * n
/-- `PLC_REC_BASE`, by instance (10_placement R288). -/
abbrev PLC_REC_BASE (n : Nat) : Nat := 0x602C + 0x100 * n
/-- `PLC_JOB`, by instance (10_placement R288). -/
abbrev PLC_JOB (n : Nat) : Nat := 0x6030 + 0x100 * n
/-- `PLC_MARK_BASE`, by instance (10_placement R288). -/
abbrev PLC_MARK_BASE (n : Nat) : Nat := 0x6034 + 0x100 * n
/-- `PLC_EVT`, by instance (10_placement R288). -/
abbrev PLC_EVT (n : Nat) : Nat := 0x6040 + 0x100 * n
/-- `PLC_STAT`, by instance (10_placement R288). -/
abbrev PLC_STAT (n : Nat) : Nat := 0x6044 + 0x100 * n
/-- `PLC_LATE_CMT_LO`, by instance (10_placement R288). -/
abbrev PLC_LATE_CMT_LO (n : Nat) : Nat := 0x6048 + 0x100 * n
/-- `PLC_LATE_CMT_HI`, by instance (10_placement R288). -/
abbrev PLC_LATE_CMT_HI (n : Nat) : Nat := 0x604C + 0x100 * n
/-- `PLC_LATE_LATCH_LO`, by instance (10_placement R288). -/
abbrev PLC_LATE_LATCH_LO (n : Nat) : Nat := 0x6050 + 0x100 * n
/-- `PLC_LATE_LATCH_HI`, by instance (10_placement R288). -/
abbrev PLC_LATE_LATCH_HI (n : Nat) : Nat := 0x6054 + 0x100 * n
/-- `PLC_INFLIGHT`, by instance (10_placement R288). -/
abbrev PLC_INFLIGHT (n : Nat) : Nat := 0x6058 + 0x100 * n
/-- `PLC_SERIAL`, by instance (10_placement R288). -/
abbrev PLC_SERIAL (n : Nat) : Nat := 0x605C + 0x100 * n
/-- `PLC_CNT_MARKED`, by instance (10_placement R288). -/
abbrev PLC_CNT_MARKED (n : Nat) : Nat := 0x6060 + 0x100 * n
/-- `PLC_CNT_UNMARKED`, by instance (10_placement R288). -/
abbrev PLC_CNT_UNMARKED (n : Nat) : Nat := 0x6064 + 0x100 * n
/-- `PLC_CNT_INCOMPLETE`, by instance (10_placement R288). -/
abbrev PLC_CNT_INCOMPLETE (n : Nat) : Nat := 0x6068 + 0x100 * n
/-- `PLC_CNT_SUSPECT`, by instance (10_placement R288). -/
abbrev PLC_CNT_SUSPECT (n : Nat) : Nat := 0x606C + 0x100 * n
/-- `PLC_CNT_BYPASSED`, by instance (10_placement R288). -/
abbrev PLC_CNT_BYPASSED (n : Nat) : Nat := 0x6070 + 0x100 * n
/-- `PLC_PE_IGNORED`, by instance (10_placement R288). -/
abbrev PLC_PE_IGNORED (n : Nat) : Nat := 0x6074 + 0x100 * n
/-- `PLC_OVERLAP`, by instance (10_placement R288). -/
abbrev PLC_OVERLAP (n : Nat) : Nat := 0x6078 + 0x100 * n
/-- `PLC_HOLDOFF`, by instance (10_placement R288). -/
abbrev PLC_HOLDOFF (n : Nat) : Nat := 0x607C + 0x100 * n
/-- `PLC_ENC_CFG`, by instance (10_placement R288). -/
abbrev PLC_ENC_CFG (n : Nat) : Nat := 0x6400 + 0x40 * n
/-- `PLC_ENC_RAW`, by instance (10_placement R288). -/
abbrev PLC_ENC_RAW (n : Nat) : Nat := 0x6404 + 0x40 * n
/-- `PLC_ENC_ZCAP`, by instance (10_placement R288). -/
abbrev PLC_ENC_ZCAP (n : Nat) : Nat := 0x6408 + 0x40 * n
/-- `PLC_ENC_STAT`, by instance (10_placement R288). -/
abbrev PLC_ENC_STAT (n : Nat) : Nat := 0x640C + 0x40 * n
/-- `PLC_ENC_FILT`, by instance (10_placement R288). -/
abbrev PLC_ENC_FILT (n : Nat) : Nat := 0x6410 + 0x40 * n
/-- `PLC_ENC_JUMPS`, by instance (10_placement R288). -/
abbrev PLC_ENC_JUMPS (n : Nat) : Nat := 0x6414 + 0x40 * n
/-- `PLC_CSTEP_CFG`, by instance (10_placement R288). -/
abbrev PLC_CSTEP_CFG (n : Nat) : Nat := 0x6480 + 0x20 * n
/-- `PLC_CSTEP_RAW`, by instance (10_placement R288). -/
abbrev PLC_CSTEP_RAW (n : Nat) : Nat := 0x6484 + 0x20 * n
/-- `PLC_CSTEP_FILT`, by instance (10_placement R288). -/
abbrev PLC_CSTEP_FILT (n : Nat) : Nat := 0x6488 + 0x20 * n
/-- `MOT_CFG`, by instance (11_motion_profiles R313). -/
abbrev MOT_CFG (n : Nat) : Nat := 0x7000 + 0x100 * n
/-- `MOT_CMD`, by instance (11_motion_profiles R313). -/
abbrev MOT_CMD (n : Nat) : Nat := 0x7004 + 0x100 * n
/-- `MOT_STATE`, by instance (11_motion_profiles R313). -/
abbrev MOT_STATE (n : Nat) : Nat := 0x7008 + 0x100 * n
/-- `MOT_EVT`, by instance (11_motion_profiles R313). -/
abbrev MOT_EVT (n : Nat) : Nat := 0x700C + 0x100 * n
/-- `MOT_VMAX`, by instance (11_motion_profiles R313). -/
abbrev MOT_VMAX (n : Nat) : Nat := 0x7010 + 0x100 * n
/-- `MOT_VSTART`, by instance (11_motion_profiles R313). -/
abbrev MOT_VSTART (n : Nat) : Nat := 0x7014 + 0x100 * n
/-- `MOT_ACC`, by instance (11_motion_profiles R313). -/
abbrev MOT_ACC (n : Nat) : Nat := 0x7018 + 0x100 * n
/-- `MOT_DEC`, by instance (11_motion_profiles R313). -/
abbrev MOT_DEC (n : Nat) : Nat := 0x701C + 0x100 * n
/-- `MOT_TARGET`, by instance (11_motion_profiles R313). -/
abbrev MOT_TARGET (n : Nat) : Nat := 0x7020 + 0x100 * n
/-- `MOT_POS`, by instance (11_motion_profiles R313). -/
abbrev MOT_POS (n : Nat) : Nat := 0x7024 + 0x100 * n
/-- `MOT_EMIT`, by instance (11_motion_profiles R313). -/
abbrev MOT_EMIT (n : Nat) : Nat := 0x7028 + 0x100 * n
/-- `MOT_STEP`, by instance (11_motion_profiles R313). -/
abbrev MOT_STEP (n : Nat) : Nat := 0x702C + 0x100 * n
/-- `MOT_GEAR`, by instance (11_motion_profiles R313). -/
abbrev MOT_GEAR (n : Nat) : Nat := 0x7030 + 0x100 * n
/-- `MOT_FREEZE`, by instance (11_motion_profiles R313). -/
abbrev MOT_FREEZE (n : Nat) : Nat := 0x7034 + 0x100 * n
/-- `MOT_FBSCALE`, by instance (11_motion_profiles R313). -/
abbrev MOT_FBSCALE (n : Nat) : Nat := 0x7038 + 0x100 * n
/-- `MOT_FOLLOW`, by instance (11_motion_profiles R313). -/
abbrev MOT_FOLLOW (n : Nat) : Nat := 0x703C + 0x100 * n
/-- `MOT_FBCOUNT`, by instance (11_motion_profiles R313). -/
abbrev MOT_FBCOUNT (n : Nat) : Nat := 0x7040 + 0x100 * n
/-- `MOT_EFIX`, by instance (11_motion_profiles R313). -/
abbrev MOT_EFIX (n : Nat) : Nat := 0x7044 + 0x100 * n
/-- `MOT_ESTEP`, by instance (11_motion_profiles R313). -/
abbrev MOT_ESTEP (n : Nat) : Nat := 0x7048 + 0x100 * n
/-- `MOT_HOMEVEL`, by instance (11_motion_profiles R313). -/
abbrev MOT_HOMEVEL (n : Nat) : Nat := 0x704C + 0x100 * n
/-- `MOT_HOMERANGE`, by instance (11_motion_profiles R313). -/
abbrev MOT_HOMERANGE (n : Nat) : Nat := 0x7050 + 0x100 * n
/-- `MOT_HOMEPOS`, by instance (11_motion_profiles R313). -/
abbrev MOT_HOMEPOS (n : Nat) : Nat := 0x7054 + 0x100 * n
/-- `MOT_PARKPOS`, by instance (11_motion_profiles R313). -/
abbrev MOT_PARKPOS (n : Nat) : Nat := 0x7058 + 0x100 * n
/-- `MOT_CYCERR`, by instance (11_motion_profiles R313). -/
abbrev MOT_CYCERR (n : Nat) : Nat := 0x705C + 0x100 * n
/-- `MOT_MPOS_LO`, by instance (11_motion_profiles R313). -/
abbrev MOT_MPOS_LO (n : Nat) : Nat := 0x7060 + 0x100 * n
/-- `MOT_MPOS_HI`, by instance (11_motion_profiles R313). -/
abbrev MOT_MPOS_HI (n : Nat) : Nat := 0x7064 + 0x100 * n
/-- `MOT_MHWM_LO`, by instance (11_motion_profiles R313). -/
abbrev MOT_MHWM_LO (n : Nat) : Nat := 0x7068 + 0x100 * n
/-- `MOT_MHWM_HI`, by instance (11_motion_profiles R313). -/
abbrev MOT_MHWM_HI (n : Nat) : Nat := 0x706C + 0x100 * n
/-- `MOT_ANCHOR_LO`, by instance (11_motion_profiles R313). -/
abbrev MOT_ANCHOR_LO (n : Nat) : Nat := 0x7070 + 0x100 * n
/-- `MOT_ANCHOR_HI`, by instance (11_motion_profiles R313). -/
abbrev MOT_ANCHOR_HI (n : Nat) : Nat := 0x7074 + 0x100 * n
/-- `MOT_RATIO_LO`, by instance (11_motion_profiles R313). -/
abbrev MOT_RATIO_LO (n : Nat) : Nat := 0x7078 + 0x100 * n
/-- `MOT_RATIO_HI`, by instance (11_motion_profiles R313). -/
abbrev MOT_RATIO_HI (n : Nat) : Nat := 0x707C + 0x100 * n
/-- `MOT_AXB_CFG` (11_motion_profiles R313). -/
abbrev MOT_AXB_CFG : Nat := 0x7800
/-- `MOT_AXB_PERIOD` (11_motion_profiles R313). -/
abbrev MOT_AXB_PERIOD : Nat := 0x7804
/-- `MOT_AXB_MISS` (11_motion_profiles R313). -/
abbrev MOT_AXB_MISS : Nat := 0x7808
/-- `MOT_AXB_UP`, by instance (11_motion_profiles R313). -/
abbrev MOT_AXB_UP (n : Nat) : Nat := 0x7810 + 0x4 * n
/-- `MOT_DRV_CFG`, by instance (12_drive_stage R332). -/
abbrev MOT_DRV_CFG (n : Nat) : Nat := 0x7080 + 0x100 * n
/-- `MOT_DRV_CUR`, by instance (12_drive_stage R332). -/
abbrev MOT_DRV_CUR (n : Nat) : Nat := 0x7084 + 0x100 * n
/-- `MOT_DRV_LOAD`, by instance (12_drive_stage R332). -/
abbrev MOT_DRV_LOAD (n : Nat) : Nat := 0x7088 + 0x100 * n
/-- `MOT_DRV_STALL`, by instance (12_drive_stage R332). -/
abbrev MOT_DRV_STALL (n : Nat) : Nat := 0x708C + 0x100 * n
/-- `MOT_DRV_SS`, by instance (12_drive_stage R332). -/
abbrev MOT_DRV_SS (n : Nat) : Nat := 0x7090 + 0x100 * n
/-- `MOT_CHOP_TIME`, by instance (12_drive_stage R332). -/
abbrev MOT_CHOP_TIME (n : Nat) : Nat := 0x7094 + 0x100 * n
/-- `MOT_CHOP_HYST`, by instance (12_drive_stage R332). -/
abbrev MOT_CHOP_HYST (n : Nat) : Nat := 0x7098 + 0x100 * n
/-- `MOT_CHOP_LIMIT`, by instance (12_drive_stage R332). -/
abbrev MOT_CHOP_LIMIT (n : Nat) : Nat := 0x709C + 0x100 * n
/-- `MOT_DRV_STAT`, by instance (12_drive_stage R332). -/
abbrev MOT_DRV_STAT (n : Nat) : Nat := 0x70A0 + 0x100 * n
/-- `MOT_DRV_LOAD_NOW`, by instance (12_drive_stage R332). -/
abbrev MOT_DRV_LOAD_NOW (n : Nat) : Nat := 0x70A4 + 0x100 * n
/-- `MOT_CHOP_A`, by instance (12_drive_stage R332). -/
abbrev MOT_CHOP_A (n : Nat) : Nat := 0x70A8 + 0x100 * n
/-- `MOT_CHOP_B`, by instance (12_drive_stage R332). -/
abbrev MOT_CHOP_B (n : Nat) : Nat := 0x70AC + 0x100 * n
/-- `MOT_DRV_EVT`, by instance (12_drive_stage R332). -/
abbrev MOT_DRV_EVT (n : Nat) : Nat := 0x70B0 + 0x100 * n
/-- `MOT_ITP_STAT`, by instance (12_drive_stage R332). -/
abbrev MOT_ITP_STAT (n : Nat) : Nat := 0x70B4 + 0x100 * n
/-- `MOT_ITP_GAP`, by instance (12_drive_stage R332). -/
abbrev MOT_ITP_GAP (n : Nat) : Nat := 0x70B8 + 0x100 * n
/-- `MOT_FB_JUMPS`, by instance (12_drive_stage R332). -/
abbrev MOT_FB_JUMPS (n : Nat) : Nat := 0x74BC + 0x100 * n
/-- `HST_CFG`, by instance (13_hoist_transfers R355). -/
abbrev HST_CFG (n : Nat) : Nat := 0x8000 + 0x40 * n
/-- `HST_BASE`, by instance (13_hoist_transfers R355). -/
abbrev HST_BASE (n : Nat) : Nat := 0x8004 + 0x40 * n
/-- `HST_DUE`, by instance (13_hoist_transfers R355). -/
abbrev HST_DUE (n : Nat) : Nat := 0x8008 + 0x40 * n
/-- `HST_REC`, by instance (13_hoist_transfers R355). -/
abbrev HST_REC (n : Nat) : Nat := 0x800C + 0x40 * n
/-- `HST_CMD`, by instance (13_hoist_transfers R355). -/
abbrev HST_CMD (n : Nat) : Nat := 0x8010 + 0x40 * n
/-- `HST_STATE`, by instance (13_hoist_transfers R355). -/
abbrev HST_STATE (n : Nat) : Nat := 0x8014 + 0x40 * n
/-- `HST_EVT`, by instance (13_hoist_transfers R355). -/
abbrev HST_EVT (n : Nat) : Nat := 0x8018 + 0x40 * n
/-- `HST_ERR_ADDR`, by instance (13_hoist_transfers R355). -/
abbrev HST_ERR_ADDR (n : Nat) : Nat := 0x801C + 0x40 * n
/-- `HST_ERR_INFO`, by instance (13_hoist_transfers R355). -/
abbrev HST_ERR_INFO (n : Nat) : Nat := 0x8020 + 0x40 * n
/-- `HST_RESIDUE`, by instance (13_hoist_transfers R355). -/
abbrev HST_RESIDUE (n : Nat) : Nat := 0x8024 + 0x40 * n
/-- `HST_POS`, by instance (13_hoist_transfers R355). -/
abbrev HST_POS (n : Nat) : Nat := 0x8028 + 0x40 * n
/-- `HST_REQ`, by instance (13_hoist_transfers R355). -/
abbrev HST_REQ (n : Nat) : Nat := 0x802C + 0x40 * n
/-- `HST_RUNS`, by instance (13_hoist_transfers R355). -/
abbrev HST_RUNS (n : Nat) : Nat := 0x8030 + 0x40 * n
/-- `HST_SHELF_CFG`, by instance (14_hoist_programs R376). -/
abbrev HST_SHELF_CFG (n : Nat) : Nat := 0x8034 + 0x40 * n
/-- `HST_SHELF_STAT`, by instance (14_hoist_programs R376). -/
abbrev HST_SHELF_STAT (n : Nat) : Nat := 0x8038 + 0x40 * n
/-- `HST_SIG`, by instance (14_hoist_programs R376). -/
abbrev HST_SIG (n : Nat) : Nat := 0x803C + 0x40 * n
/-- `HST_SHAFT_CFG`, by instance (13_hoist_transfers R355). -/
abbrev HST_SHAFT_CFG (n : Nat) : Nat := 0x8800 + 0x10 * n
/-- `HST_SHAFT_STAT`, by instance (13_hoist_transfers R355). -/
abbrev HST_SHAFT_STAT (n : Nat) : Nat := 0x8804 + 0x10 * n
/-- `HST_CURS`, by instance (14_hoist_programs R376). -/
abbrev HST_CURS (n : Nat) : Nat := 0x8A00 + 0x10 * n
/-- `HST_CURD`, by instance (14_hoist_programs R376). -/
abbrev HST_CURD (n : Nat) : Nat := 0x8A04 + 0x10 * n
/-- `HST_CS_NOW`, by instance (14_hoist_programs R376). -/
abbrev HST_CS_NOW (n : Nat) : Nat := 0x8A08 + 0x10 * n
/-- `HST_CD_NOW`, by instance (14_hoist_programs R376). -/
abbrev HST_CD_NOW (n : Nat) : Nat := 0x8A0C + 0x10 * n
/-- `HST_LC01`, by instance (14_hoist_programs R376). -/
abbrev HST_LC01 (n : Nat) : Nat := 0x8C00 + 0x8 * n
/-- `HST_LC23`, by instance (14_hoist_programs R376). -/
abbrev HST_LC23 (n : Nat) : Nat := 0x8C04 + 0x8 * n
/-- `CMP_RING_BASE`, by instance (16_compositor R418). -/
abbrev CMP_RING_BASE (n : Nat) : Nat := 0x9000 + 0x40 * n
/-- `CMP_RING_CFG`, by instance (16_compositor R418). -/
abbrev CMP_RING_CFG (n : Nat) : Nat := 0x9004 + 0x40 * n
/-- `CMP_GCACHE`, by instance (16_compositor R418). -/
abbrev CMP_GCACHE (n : Nat) : Nat := 0x9008 + 0x40 * n
/-- `CMP_RENDER`, by instance (16_compositor R418). -/
abbrev CMP_RENDER (n : Nat) : Nat := 0x900C + 0x40 * n
/-- `CMP_STAGE`, by instance (16_compositor R418). -/
abbrev CMP_STAGE (n : Nat) : Nat := 0x9010 + 0x40 * n
/-- `CMP_RING_NEXT`, by instance (16_compositor R418). -/
abbrev CMP_RING_NEXT (n : Nat) : Nat := 0x9014 + 0x40 * n
/-- `CMP_EVT`, by instance (16_compositor R418). -/
abbrev CMP_EVT (n : Nat) : Nat := 0x9018 + 0x40 * n
/-- `CMP_STAT`, by instance (16_compositor R418). -/
abbrev CMP_STAT (n : Nat) : Nat := 0x901C + 0x40 * n
/-- `CMP_RENDERS`, by instance (16_compositor R418). -/
abbrev CMP_RENDERS (n : Nat) : Nat := 0x9020 + 0x40 * n
/-- `CMP_LATE`, by instance (16_compositor R418). -/
abbrev CMP_LATE (n : Nat) : Nat := 0x9024 + 0x40 * n
/-- `CMP_TASKS` (16_compositor R418). -/
abbrev CMP_TASKS : Nat := 0x9100
/-- `CMP_TEXT`, by instance (16_compositor R418). -/
abbrev CMP_TEXT (n : Nat) : Nat := 0x9400 + 0x4 * n
/-- `CMP_CRATE_POLICY` (15_borzel_crates R397). -/
abbrev CMP_CRATE_POLICY : Nat := 0x9F00
/-- `CMP_CRATE_VADDR` (15_borzel_crates R397). -/
abbrev CMP_CRATE_VADDR : Nat := 0x9F04
/-- `CMP_CRATE_VGO` (15_borzel_crates R397). -/
abbrev CMP_CRATE_VGO : Nat := 0x9F08
/-- `CMP_CRATE_VSTAT` (15_borzel_crates R397). -/
abbrev CMP_CRATE_VSTAT : Nat := 0x9F0C
/-- `CMP_CRATE_VOFF` (15_borzel_crates R397). -/
abbrev CMP_CRATE_VOFF : Nat := 0x9F10
/-- `CMP_CRATE_VER`, by instance (15_borzel_crates R397). -/
abbrev CMP_CRATE_VER (n : Nat) : Nat := 0x9F20 + 0x8 * n
/-- `CMP_CRATE_VHCRC`, by instance (15_borzel_crates R397). -/
abbrev CMP_CRATE_VHCRC (n : Nat) : Nat := 0x9F24 + 0x8 * n
/-- `CMP_CRATE_REFUSE`, by instance (15_borzel_crates R397). -/
abbrev CMP_CRATE_REFUSE (n : Nat) : Nat := 0x9F80 + 0x8 * n
/-- `CMP_CRATE_ROFF`, by instance (15_borzel_crates R397). -/
abbrev CMP_CRATE_ROFF (n : Nat) : Nat := 0x9F84 + 0x8 * n
/-- `CAL_NOW_DAY` (17_dates_codes R441). -/
abbrev CAL_NOW_DAY : Nat := 0xA000
/-- `CAL_NOW_TIME` (17_dates_codes R441). -/
abbrev CAL_NOW_TIME : Nat := 0xA004
/-- `CAL_NOW_YMD` (17_dates_codes R441). -/
abbrev CAL_NOW_YMD : Nat := 0xA008
/-- `CAL_SET_DAY` (17_dates_codes R441). -/
abbrev CAL_SET_DAY : Nat := 0xA010
/-- `CAL_SET_TIME` (17_dates_codes R441). -/
abbrev CAL_SET_TIME : Nat := 0xA014
/-- `CAL_SET_GO` (17_dates_codes R441). -/
abbrev CAL_SET_GO : Nat := 0xA018
/-- `CAL_CTRL` (17_dates_codes R441). -/
abbrev CAL_CTRL : Nat := 0xA020
/-- `CAL_EVT` (17_dates_codes R441). -/
abbrev CAL_EVT : Nat := 0xA024
/-- `CAL_CKPT_CFG` (17_dates_codes R441). -/
abbrev CAL_CKPT_CFG : Nat := 0xA040
/-- `CAL_CKPT_STAT` (17_dates_codes R441). -/
abbrev CAL_CKPT_STAT : Nat := 0xA044
/-- `CAL_SHIFT_A`, by instance (17_dates_codes R441). -/
abbrev CAL_SHIFT_A (n : Nat) : Nat := 0xA100 + 0x8 * n
/-- `CAL_SHIFT_B`, by instance (17_dates_codes R441). -/
abbrev CAL_SHIFT_B (n : Nat) : Nat := 0xA104 + 0x8 * n
/-- `CAL_SHELF`, by instance (17_dates_codes R441). -/
abbrev CAL_SHELF (n : Nat) : Nat := 0xA300 + 0x10 * n
/-- `CAL_DATE_OVR`, by instance (17_dates_codes R441). -/
abbrev CAL_DATE_OVR (n : Nat) : Nat := 0xA304 + 0x10 * n
/-- `CAL_CNT_CFG`, by instance (17_dates_codes R441). -/
abbrev CAL_CNT_CFG (n : Nat) : Nat := 0xA400 + 0x20 * n
/-- `CAL_CNT_START`, by instance (17_dates_codes R441). -/
abbrev CAL_CNT_START (n : Nat) : Nat := 0xA404 + 0x20 * n
/-- `CAL_CNT_END`, by instance (17_dates_codes R441). -/
abbrev CAL_CNT_END (n : Nat) : Nat := 0xA408 + 0x20 * n
/-- `CAL_CNT_VAL`, by instance (17_dates_codes R441). -/
abbrev CAL_CNT_VAL (n : Nat) : Nat := 0xA40C + 0x20 * n
/-- `CAL_CNT_DAYSTART`, by instance (17_dates_codes R441). -/
abbrev CAL_CNT_DAYSTART (n : Nat) : Nat := 0xA410 + 0x20 * n
/-- `CAL_CNT_LASTDAY`, by instance (17_dates_codes R441). -/
abbrev CAL_CNT_LASTDAY (n : Nat) : Nat := 0xA414 + 0x20 * n
/-- `CAL_CNT_SKIP`, by instance (17_dates_codes R441). -/
abbrev CAL_CNT_SKIP (n : Nat) : Nat := 0xA418 + 0x20 * n
/-- `HED_ENABLE`, by instance (18_head_firing R462). -/
abbrev HED_ENABLE (n : Nat) : Nat := 0xB000 + 0x100 * n
/-- `HED_CMD`, by instance (18_head_firing R462). -/
abbrev HED_CMD (n : Nat) : Nat := 0xB004 + 0x100 * n
/-- `HED_STATE`, by instance (18_head_firing R462). -/
abbrev HED_STATE (n : Nat) : Nat := 0xB008 + 0x100 * n
/-- `HED_EVT`, by instance (18_head_firing R462). -/
abbrev HED_EVT (n : Nat) : Nat := 0xB00C + 0x100 * n
/-- `HED_CTRL`, by instance (18_head_firing R462). -/
abbrev HED_CTRL (n : Nat) : Nat := 0xB010 + 0x100 * n
/-- `HED_GEOM`, by instance (18_head_firing R462). -/
abbrev HED_GEOM (n : Nat) : Nat := 0xB014 + 0x100 * n
/-- `HED_WF`, by instance (18_head_firing R462). -/
abbrev HED_WF (n : Nat) : Nat := 0xB018 + 0x100 * n
/-- `HED_SCALE`, by instance (18_head_firing R462). -/
abbrev HED_SCALE (n : Nat) : Nat := 0xB01C + 0x100 * n
/-- `HED_PACE`, by instance (18_head_firing R462). -/
abbrev HED_PACE (n : Nat) : Nat := 0xB020 + 0x100 * n
/-- `HED_SKIP`, by instance (18_head_firing R462). -/
abbrev HED_SKIP (n : Nat) : Nat := 0xB024 + 0x100 * n
/-- `HED_TEFF`, by instance (18_head_firing R462). -/
abbrev HED_TEFF (n : Nat) : Nat := 0xB028 + 0x100 * n
/-- `HED_ID`, by instance (18_head_firing R462). -/
abbrev HED_ID (n : Nat) : Nat := 0xB02C + 0x100 * n
/-- `HED_ID_CODE`, by instance (18_head_firing R462). -/
abbrev HED_ID_CODE (n : Nat) : Nat := 0xB030 + 0x100 * n
/-- `HED_POWER`, by instance (18_head_firing R462). -/
abbrev HED_POWER (n : Nat) : Nat := 0xB034 + 0x100 * n
/-- `HED_SETTLE`, by instance (18_head_firing R462). -/
abbrev HED_SETTLE (n : Nat) : Nat := 0xB038 + 0x100 * n
/-- `HED_TRIM_BASE`, by instance (18_head_firing R462). -/
abbrev HED_TRIM_BASE (n : Nat) : Nat := 0xB03C + 0x100 * n
/-- `HED_ROW`, by instance and channel (18_head_firing R462). -/
abbrev HED_ROW (n c : Nat) : Nat := 0xB040 + 0x100 * n + 0x8 * c
/-- `HED_PASS`, by instance and channel (18_head_firing R462). -/
abbrev HED_PASS (n c : Nat) : Nat := 0xB044 + 0x100 * n + 0x8 * c
/-- `HED_SVC_CNT`, by instance (18_head_firing R462). -/
abbrev HED_SVC_CNT (n : Nat) : Nat := 0xB060 + 0x100 * n
/-- `HED_SVC_PER`, by instance (18_head_firing R462). -/
abbrev HED_SVC_PER (n : Nat) : Nat := 0xB064 + 0x100 * n
/-- `HED_DELAY_BASE`, by instance (18_head_firing R462). -/
abbrev HED_DELAY_BASE (n : Nat) : Nat := 0xB068 + 0x100 * n
/-- `HED_FIRES`, by instance (18_head_firing R462). -/
abbrev HED_FIRES (n : Nat) : Nat := 0xB070 + 0x100 * n
/-- `HED_SKIPS`, by instance (18_head_firing R462). -/
abbrev HED_SKIPS (n : Nat) : Nat := 0xB074 + 0x100 * n
/-- `HED_SVC_LATE`, by instance (18_head_firing R462). -/
abbrev HED_SVC_LATE (n : Nat) : Nat := 0xB078 + 0x100 * n
/-- `HLT_CTRL`, by instance (19_head_health R487). -/
abbrev HLT_CTRL (n : Nat) : Nat := 0xC000 + 0x100 * n
/-- `HLT_CMD`, by instance (19_head_health R487). -/
abbrev HLT_CMD (n : Nat) : Nat := 0xC004 + 0x100 * n
/-- `HLT_STATE`, by instance (19_head_health R487). -/
abbrev HLT_STATE (n : Nat) : Nat := 0xC008 + 0x100 * n
/-- `HLT_EVT`, by instance (19_head_health R487). -/
abbrev HLT_EVT (n : Nat) : Nat := 0xC00C + 0x100 * n
/-- `HLT_SET`, by instance (19_head_health R487). -/
abbrev HLT_SET (n : Nat) : Nat := 0xC010 + 0x100 * n
/-- `HLT_PI`, by instance (19_head_health R487). -/
abbrev HLT_PI (n : Nat) : Nat := 0xC014 + 0x100 * n
/-- `HLT_LOOP`, by instance (19_head_health R487). -/
abbrev HLT_LOOP (n : Nat) : Nat := 0xC018 + 0x100 * n
/-- `HLT_PWM`, by instance (19_head_health R487). -/
abbrev HLT_PWM (n : Nat) : Nat := 0xC01C + 0x100 * n
/-- `HLT_THLIM`, by instance (19_head_health R487). -/
abbrev HLT_THLIM (n : Nat) : Nat := 0xC020 + 0x100 * n
/-- `HLT_FREEZE`, by instance (19_head_health R487). -/
abbrev HLT_FREEZE (n : Nat) : Nat := 0xC024 + 0x100 * n
/-- `HLT_HOLD`, by instance (19_head_health R487). -/
abbrev HLT_HOLD (n : Nat) : Nat := 0xC028 + 0x100 * n
/-- `HLT_EWARM`, by instance (19_head_health R487). -/
abbrev HLT_EWARM (n : Nat) : Nat := 0xC02C + 0x100 * n
/-- `HLT_TEMP`, by instance (19_head_health R487). -/
abbrev HLT_TEMP (n : Nat) : Nat := 0xC030 + 0x100 * n
/-- `HLT_COMP_A`, by instance (19_head_health R487). -/
abbrev HLT_COMP_A (n : Nat) : Nat := 0xC034 + 0x100 * n
/-- `HLT_COMP_T`, by instance (19_head_health R487). -/
abbrev HLT_COMP_T (n : Nat) : Nat := 0xC038 + 0x100 * n
/-- `HLT_COMP_REF`, by instance (19_head_health R487). -/
abbrev HLT_COMP_REF (n : Nat) : Nat := 0xC03C + 0x100 * n
/-- `HLT_GATE`, by instance (19_head_health R487). -/
abbrev HLT_GATE (n : Nat) : Nat := 0xC040 + 0x100 * n
/-- `HLT_GWIN`, by instance (19_head_health R487). -/
abbrev HLT_GWIN (n : Nat) : Nat := 0xC044 + 0x100 * n
/-- `HLT_SCAN`, by instance (19_head_health R487). -/
abbrev HLT_SCAN (n : Nat) : Nat := 0xC048 + 0x100 * n
/-- `HLT_SCAN_SHOT`, by instance (19_head_health R487). -/
abbrev HLT_SCAN_SHOT (n : Nat) : Nat := 0xC04C + 0x100 * n
/-- `HLT_SCAN_PER`, by instance (19_head_health R487). -/
abbrev HLT_SCAN_PER (n : Nat) : Nat := 0xC050 + 0x100 * n
/-- `HLT_SCAN_RES`, by instance (19_head_health R487). -/
abbrev HLT_SCAN_RES (n : Nat) : Nat := 0xC054 + 0x100 * n
/-- `HLT_NOZ_SEL`, by instance (19_head_health R487). -/
abbrev HLT_NOZ_SEL (n : Nat) : Nat := 0xC058 + 0x100 * n
/-- `HLT_NOZ`, by instance (19_head_health R487). -/
abbrev HLT_NOZ (n : Nat) : Nat := 0xC05C + 0x100 * n
/-- `HLT_NOZ_STAT`, by instance (19_head_health R487). -/
abbrev HLT_NOZ_STAT (n : Nat) : Nat := 0xC060 + 0x100 * n
/-- `HLT_SPIT`, by instance (19_head_health R487). -/
abbrev HLT_SPIT (n : Nat) : Nat := 0xC064 + 0x100 * n
/-- `HLT_SPIT_B`, by instance (19_head_health R487). -/
abbrev HLT_SPIT_B (n : Nat) : Nat := 0xC068 + 0x100 * n
/-- `HLT_SPIT_PER`, by instance (19_head_health R487). -/
abbrev HLT_SPIT_PER (n : Nat) : Nat := 0xC06C + 0x100 * n
/-- `HLT_ESPIT`, by instance (19_head_health R487). -/
abbrev HLT_ESPIT (n : Nat) : Nat := 0xC070 + 0x100 * n
/-- `HLT_FC_SEL`, by instance (19_head_health R487). -/
abbrev HLT_FC_SEL (n : Nat) : Nat := 0xC078 + 0x100 * n
/-- `HLT_FC_LO`, by instance (19_head_health R487). -/
abbrev HLT_FC_LO (n : Nat) : Nat := 0xC07C + 0x100 * n
/-- `HLT_FC_HI`, by instance (19_head_health R487). -/
abbrev HLT_FC_HI (n : Nat) : Nat := 0xC080 + 0x100 * n
/-- `HLT_SPIT_SKIPS`, by instance (19_head_health R487). -/
abbrev HLT_SPIT_SKIPS (n : Nat) : Nat := 0xC084 + 0x100 * n
/-- `HLT_TTAB`, by instance and channel (19_head_health R487). -/
abbrev HLT_TTAB (n c : Nat) : Nat := 0xC090 + 0x100 * n + 0x4 * c
/-- `HLT_FC_CFG` (19_head_health R487). -/
abbrev HLT_FC_CFG : Nat := 0xC400
/-- `HLT_LOFT_STAT` (19_head_health R487). -/
abbrev HLT_LOFT_STAT : Nat := 0xC404
/-- `REJ_CFG`, by instance (20_reject_line R502). -/
abbrev REJ_CFG (n : Nat) : Nat := 0xD000 + 0x40 * n
/-- `REJ_GATE`, by instance (20_reject_line R502). -/
abbrev REJ_GATE (n : Nat) : Nat := 0xD004 + 0x40 * n
/-- `REJ_WIDTH`, by instance (20_reject_line R502). -/
abbrev REJ_WIDTH (n : Nat) : Nat := 0xD008 + 0x40 * n
/-- `REJ_CTRL`, by instance (20_reject_line R502). -/
abbrev REJ_CTRL (n : Nat) : Nat := 0xD00C + 0x40 * n
/-- `REJ_STAT`, by instance (20_reject_line R502). -/
abbrev REJ_STAT (n : Nat) : Nat := 0xD010 + 0x40 * n
/-- `REJ_EVT`, by instance (20_reject_line R502). -/
abbrev REJ_EVT (n : Nat) : Nat := 0xD014 + 0x40 * n
/-- `REJ_CNT_PASS`, by instance (20_reject_line R502). -/
abbrev REJ_CNT_PASS (n : Nat) : Nat := 0xD018 + 0x40 * n
/-- `REJ_CNT_REJ`, by instance (20_reject_line R502). -/
abbrev REJ_CNT_REJ (n : Nat) : Nat := 0xD01C + 0x40 * n
/-- `REJ_CNT_COVERED`, by instance (20_reject_line R502). -/
abbrev REJ_CNT_COVERED (n : Nat) : Nat := 0xD020 + 0x40 * n
/-- `REJ_CNT_SHORT`, by instance (20_reject_line R502). -/
abbrev REJ_CNT_SHORT (n : Nat) : Nat := 0xD024 + 0x40 * n
/-- `REJ_LINE_CFG` (20_reject_line R502). -/
abbrev REJ_LINE_CFG : Nat := 0xD100
/-- `REJ_LINE_STAT` (20_reject_line R502). -/
abbrev REJ_LINE_STAT : Nat := 0xD104
/-- `REJ_IRQ_MASK` (20_reject_line R502). -/
abbrev REJ_IRQ_MASK : Nat := 0xD108
/-- `REJ_IRQ_SRC` (20_reject_line R502). -/
abbrev REJ_IRQ_SRC : Nat := 0xD10C
/-- `REJ_LIVE_DROP` (20_reject_line R502). -/
abbrev REJ_LIVE_DROP : Nat := 0xD110
/-- `REJ_INH_FILT` (20_reject_line R502). -/
abbrev REJ_INH_FILT : Nat := 0xD114
/-- `HAT_LANE_CMD`, by instance (21_hatch R519). -/
abbrev HAT_LANE_CMD (n : Nat) : Nat := 0xE000 + 0x20 * n
/-- `HAT_LANE_STATE`, by instance (21_hatch R519). -/
abbrev HAT_LANE_STATE (n : Nat) : Nat := 0xE004 + 0x20 * n
/-- `HAT_LANE_EVT`, by instance (21_hatch R519). -/
abbrev HAT_LANE_EVT (n : Nat) : Nat := 0xE008 + 0x20 * n
/-- `HAT_CHECK`, by instance (21_hatch R519). -/
abbrev HAT_CHECK (n : Nat) : Nat := 0xE00C + 0x20 * n
/-- `HAT_CTRL` (21_hatch R519). -/
abbrev HAT_CTRL : Nat := 0xE080
/-- `HAT_EVT` (21_hatch R519). -/
abbrev HAT_EVT : Nat := 0xE084
/-- `HAT_LEASE`, by instance (21_hatch R519). -/
abbrev HAT_LEASE (n : Nat) : Nat := 0xE100 + 0x4 * n
/-- `MEM_LRD_STAT` (03_address_space R101). -/
abbrev MEM_LRD_STAT : Nat := 0xF000
/-- `MEM_LRD_CE_COUNT` (03_address_space R101). -/
abbrev MEM_LRD_CE_COUNT : Nat := 0xF004
/-- `MEM_LRD_UE_COUNT` (03_address_space R101). -/
abbrev MEM_LRD_UE_COUNT : Nat := 0xF008
/-- `MEM_LRD_UE_ADDR` (03_address_space R101). -/
abbrev MEM_LRD_UE_ADDR : Nat := 0xF00C
/-- `MEM_LRD_VOID_ADDR` (03_address_space R101). -/
abbrev MEM_LRD_VOID_ADDR : Nat := 0xF010
/-- `MEM_LRD_SCRUB` (03_address_space R101). -/
abbrev MEM_LRD_SCRUB : Nat := 0xF014
/-- `MEM_CEL_CFG` (03_address_space R101). -/
abbrev MEM_CEL_CFG : Nat := 0xF040
/-- `MEM_CEL_RDCMD` (03_address_space R101). -/
abbrev MEM_CEL_RDCMD : Nat := 0xF044
/-- `MEM_CEL_OPCODES` (03_address_space R101). -/
abbrev MEM_CEL_OPCODES : Nat := 0xF048
/-- `MEM_CEL_POLL` (03_address_space R101). -/
abbrev MEM_CEL_POLL : Nat := 0xF04C
/-- `MEM_CEL_INIT` (03_address_space R101). -/
abbrev MEM_CEL_INIT : Nat := 0xF050
/-- `MEM_CEL_PADDR` (03_address_space R101). -/
abbrev MEM_CEL_PADDR : Nat := 0xF054
/-- `MEM_CEL_PCTRL` (03_address_space R101). -/
abbrev MEM_CEL_PCTRL : Nat := 0xF058
/-- `MEM_CEL_PGO` (03_address_space R101). -/
abbrev MEM_CEL_PGO : Nat := 0xF05C
/-- `MEM_CEL_PSTAT` (03_address_space R101). -/
abbrev MEM_CEL_PSTAT : Nat := 0xF060
/-- `MEM_LFT_SSRC` (03_address_space R101). -/
abbrev MEM_LFT_SSRC : Nat := 0xF080
/-- `MEM_LFT_SDST` (03_address_space R101). -/
abbrev MEM_LFT_SDST : Nat := 0xF084
/-- `MEM_LFT_SLEN` (03_address_space R101). -/
abbrev MEM_LFT_SLEN : Nat := 0xF088
/-- `MEM_LFT_GO` (03_address_space R101). -/
abbrev MEM_LFT_GO : Nat := 0xF08C
/-- `MEM_LFT_STAT` (03_address_space R101). -/
abbrev MEM_LFT_STAT : Nat := 0xF090
/-- `MEM_LFT_WEAR` (03_address_space R101). -/
abbrev MEM_LFT_WEAR : Nat := 0xF094
/-- `MEM_LFT_IMAGE` (03_address_space R101). -/
abbrev MEM_LFT_IMAGE : Nat := 0xF098
/-- `MEM_CEL_PBUF`, by instance (03_address_space R101). -/
abbrev MEM_CEL_PBUF (n : Nat) : Nat := 0xF100 + 0x4 * n

end Reg

/-- The rows of the DEV block. -/
def regRowsDev : List RegRow :=
  [⟨0x0, 0x4, 1, 0x4480, 0x0, 0x0, 0x0, 0x0, false⟩,
   ⟨0x4, 0x4, 1, 0x2, 0x0, 0x0, 0x0, 0x0, false⟩,
   ⟨0x10, 0x4, 1, 0x0, 0x0, 0x0, 0x0, 0x0, false⟩,
   ⟨0x14, 0x4, 1, 0x0, 0x0, 0x0, 0x0, 0x0, false⟩,
   ⟨0x18, 0x4, 1, 0x0, 0x0, 0x0, 0x0, 0x0, false⟩,
   ⟨0x1C, 0x4, 1, 0x0, 0x0, 0x0, 0x0, 0x0, true⟩,
   ⟨0x20, 0x4, 1, 0x0, 0x0, 0x0, 0x0, 0xFFFF0001, false⟩,
   ⟨0x24, 0x4, 1, 0x1E, 0x0, 0xFFFF, 0x0, 0x0, false⟩,
   ⟨0x200, 0x4, 4, 0x0, 0x0, 0x0, 0x0, 0x0, false⟩,
   ⟨0x210, 0x4, 1, 0x0, 0x0, 0x0, 0xF, 0x0, false⟩,
   ⟨0x214, 0x4, 1, 0xF, 0x0, 0xF, 0x0, 0x0, false⟩,
   ⟨0x220, 0x4, 4, 0x0, 0x0, 0x0, 0x0, 0x0, false⟩] ++
  [⟨0x300, 0x4, 1, 0x0, 0x0, 0x0, 0x0, 0x0, false⟩,
   ⟨0x304, 0x4, 1, 0x0, 0x0, 0x0, 0x0, 0x0, false⟩,
   ⟨0x308, 0x4, 1, 0x0, 0x0, 0x0, 0x0, 0x0, false⟩,
   ⟨0x30C, 0x4, 1, 0x0, 0x0, 0x0, 0x0, 0x0, false⟩,
   ⟨0x310, 0x4, 1, 0x9C4, 0x0, 0x3FFFF, 0x0, 0x0, false⟩,
   ⟨0x314, 0x4, 1, 0x0, 0x0, 0x0, 0x0, 0x0, false⟩,
   ⟨0x318, 0x4, 1, 0x0, 0x0, 0x0, 0x0, 0x0, false⟩,
   ⟨0x31C, 0x4, 1, 0x0, 0x0, 0x0, 0x1, 0x0, false⟩,
   ⟨0x320, 0x4, 1, 0x0, 0x0, 0x0, 0x0, 0x0, false⟩,
   ⟨0x324, 0x4, 1, 0x0, 0x0, 0x0, 0x0, 0x0, false⟩,
   ⟨0x340, 0x4, 4, 0x0, 0x0, 0x0, 0x0, 0x0, false⟩,
   ⟨0xFFC, 0x4, 1, 0x0, 0x0, 0x0, 0x0, 0x0, false⟩]

/-- The rows of the SES block. -/
def regRowsSes : List RegRow :=
  [⟨0x1FFC, 0x4, 1, 0x0, 0x0, 0x0, 0x0, 0x0, false⟩,
   ⟨0x1000, 0x4, 1, 0xF, 0x0, 0x0, 0x0, 0x0, false⟩,
   ⟨0x1004, 0x4, 1, 0x0, 0x0, 0x0, 0xF, 0x0, false⟩,
   ⟨0x1008, 0x4, 1, 0x10000, 0x0, 0x103FF, 0x0, 0x0, false⟩,
   ⟨0x100C, 0x4, 1, 0x0, 0x0, 0x0, 0x0, 0x0, false⟩,
   ⟨0x1010, 0x4, 1, 0x0, 0x0, 0x0, 0x0, 0x0, false⟩,
   ⟨0x1014, 0x4, 1, 0x0, 0x0, 0x0, 0x0, 0x0, false⟩,
   ⟨0x1018, 0x4, 1, 0x0, 0x0, 0x0, 0x0, 0x0, false⟩,
   ⟨0x101C, 0x4, 1, 0x0, 0x0, 0x0, 0x0, 0x0, false⟩,
   ⟨0x1020, 0x4, 1, 0x0, 0x0, 0x0, 0x0, 0x0, false⟩,
   ⟨0x1024, 0x4, 1, 0x0, 0x0, 0x0, 0x0, 0x0, false⟩]

/-- The rows of the LNK block. -/
def regRowsLnk : List RegRow :=
  [⟨0x2FFC, 0x4, 1, 0x0, 0x0, 0x0, 0x0, 0x0, false⟩,
   ⟨0x2000, 0x4, 1, 0xF, 0x0, 0x7, 0x0, 0x0, false⟩,
   ⟨0x2004, 0x4, 1, 0xF, 0x0, 0xF, 0x0, 0x0, false⟩,
   ⟨0x2008, 0x4, 1, 0x0, 0x0, 0x0, 0x0, 0x0, false⟩,
   ⟨0x2010, 0x4, 1, 0x444E5302, 0x0, 0xFFFFFFFF, 0x0, 0x0, false⟩,
   ⟨0x2014, 0x4, 1, 0x80, 0x0, 0xFFFF, 0x0, 0x0, false⟩,
   ⟨0x2018, 0x4, 1, 0x0, 0x0, 0x0, 0x0, 0x0, false⟩,
   ⟨0x201C, 0x4, 1, 0x0, 0x0, 0x0, 0x0, 0x0, false⟩,
   ⟨0x2020, 0x4, 1, 0x0, 0x0, 0xFFFFFFFF, 0x0, 0x0, false⟩,
   ⟨0x2024, 0x4, 1, 0xFFFFFF00, 0x0, 0xFFFFFFFF, 0x0, 0x0, false⟩,
   ⟨0x2028, 0x4, 1, 0x0, 0x0, 0x0, 0x0, 0x0, false⟩,
   ⟨0x202C, 0x4, 1, 0x88B5, 0x0, 0xFFFF, 0x0, 0x0, false⟩] ++
  [⟨0x2030, 0x4, 1, 0x9E20, 0x0, 0xFFFF, 0x0, 0x0, false⟩,
   ⟨0x2034, 0x4, 1, 0x0, 0x0, 0x1FFF, 0x0, 0x0, false⟩,
   ⟨0x2038, 0x4, 1, 0x32, 0x0, 0xFFFF, 0x0, 0x0, false⟩,
   ⟨0x2040, 0x10, 2, 0x0, 0x0, 0x0, 0x0, 0x0, false⟩,
   ⟨0x2044, 0x10, 2, 0x0, 0x0, 0x0, 0x0, 0x0, false⟩,
   ⟨0x2048, 0x10, 2, 0x0, 0x0, 0x0, 0x0, 0x0, false⟩,
   ⟨0x204C, 0x10, 2, 0x0, 0x0, 0x0, 0x0, 0x0, false⟩,
   ⟨0x2060, 0x4, 1, 0x0, 0x0, 0x0, 0x0, 0x0, false⟩,
   ⟨0x2064, 0x4, 1, 0x0, 0x0, 0x0, 0x0, 0x0, false⟩,
   ⟨0x2068, 0x4, 1, 0x0, 0x0, 0x0, 0x0, 0x0, false⟩,
   ⟨0x2100, 0x10, 9, 0x0, 0x0, 0x0, 0x0, 0x0, false⟩,
   ⟨0x2104, 0x10, 9, 0x0, 0x0, 0x0, 0x0, 0x0, false⟩] ++
  [⟨0x2108, 0x10, 9, 0x0, 0x0, 0x0, 0x0, 0x0, false⟩,
   ⟨0x210C, 0x10, 9, 0x0, 0x0, 0x0, 0x0, 0x0, false⟩]

/-- The rows of the PWR block. -/
def regRowsPwr : List RegRow :=
  [⟨0x3FFC, 0x4, 1, 0x0, 0x0, 0x0, 0x0, 0x0, false⟩,
   ⟨0x3000, 0x4, 1, 0x2, 0x0, 0x0, 0x0, 0x0, false⟩,
   ⟨0x3004, 0x4, 1, 0x4, 0x0, 0x7, 0x0, 0x80000000, false⟩,
   ⟨0x3008, 0x4, 1, 0x0, 0x0, 0x0, 0x1F, 0x0, false⟩,
   ⟨0x300C, 0x4, 1, 0x3E8, 0x0, 0xFFFF, 0x0, 0x0, true⟩,
   ⟨0x3010, 0x4, 1, 0x11F81130, 0x0, 0xFFFFFFFF, 0x0, 0x0, true⟩,
   ⟨0x3014, 0x4, 1, 0x138812C0, 0x0, 0xFFFFFFFF, 0x0, 0x0, true⟩,
   ⟨0x3018, 0x4, 1, 0xF4240, 0x0, 0xFFFFFFFF, 0x0, 0x0, true⟩,
   ⟨0x301C, 0x4, 1, 0x4E20EA60, 0x0, 0xFFFFFFFF, 0x0, 0x0, true⟩,
   ⟨0x3020, 0x4, 1, 0x3840000, 0x0, 0x3FF0000, 0x0, 0x0, true⟩,
   ⟨0x3024, 0x4, 1, 0x7D0FFFF, 0x0, 0xFFFFFFFF, 0x0, 0x0, true⟩,
   ⟨0x3028, 0x4, 1, 0xC836B0, 0x0, 0xFFFFFFFF, 0x0, 0x0, true⟩] ++
  [⟨0x302C, 0x4, 1, 0x0, 0x0, 0x0, 0x0, 0x0, false⟩,
   ⟨0x3030, 0x4, 1, 0x0, 0x0, 0x0, 0x0, 0x0, false⟩,
   ⟨0x3040, 0x4, 1, 0x0, 0x0, 0x0, 0x0, 0x0, false⟩,
   ⟨0x3044, 0x4, 1, 0x0, 0x0, 0x0, 0x0, 0x0, false⟩,
   ⟨0x3048, 0x4, 1, 0x0, 0x0, 0x0, 0x0, 0x0, false⟩,
   ⟨0x304C, 0x4, 1, 0x0, 0x0, 0x0, 0x0, 0x0, false⟩,
   ⟨0x3050, 0x4, 1, 0x0, 0x0, 0x0, 0x0, 0x0, false⟩,
   ⟨0x3060, 0x8, 4, 0x0, 0x0, 0x0, 0x0, 0x0, false⟩,
   ⟨0x3064, 0x8, 4, 0x0, 0x0, 0x0, 0x0, 0x0, false⟩,
   ⟨0x3080, 0x4, 4, 0x0, 0x0, 0x0, 0x0, 0x0, false⟩,
   ⟨0x3090, 0x4, 1, 0x0, 0x0, 0x0, 0x0, 0x0, false⟩,
   ⟨0x30A0, 0x4, 1, 0x61, 0x0, 0x1F, 0x0, 0x0, false⟩] ++
  [⟨0x30A4, 0x4, 1, 0x0, 0x0, 0xFFFFFFFF, 0x0, 0x0, false⟩,
   ⟨0x30A8, 0x4, 1, 0x0, 0x0, 0x0, 0x0, 0x0, false⟩,
   ⟨0x30B0, 0x4, 1, 0x7, 0x0, 0x0, 0x0, 0x0, false⟩,
   ⟨0x30B4, 0x4, 1, 0x0, 0x0, 0x0, 0x0, 0x0, true⟩,
   ⟨0x30B8, 0x4, 1, 0x0, 0x0, 0x0, 0x0, 0x0, true⟩]

/-- The rows of the FLT block. -/
def regRowsFlt : List RegRow :=
  [⟨0x4FFC, 0x4, 1, 0x0, 0x0, 0x0, 0x0, 0x0, false⟩,
   ⟨0x4000, 0x4, 1, 0xA14, 0x0, 0xFFFF, 0x0, 0x0, false⟩,
   ⟨0x4004, 0x4, 1, 0x0, 0x0, 0x0, 0x3, 0x0, false⟩,
   ⟨0x4008, 0x4, 1, 0x0, 0x0, 0x0, 0x1, 0x0, false⟩,
   ⟨0x400C, 0x4, 1, 0x0, 0x0, 0x0, 0x3, 0x0, false⟩,
   ⟨0x4010, 0x4, 1, 0x0, 0x0, 0x0, 0x0, 0x0, false⟩,
   ⟨0x4014, 0x4, 1, 0x0, 0x0, 0x0, 0x0, 0x0, false⟩,
   ⟨0x4018, 0x4, 1, 0x0, 0x0, 0x0, 0x0, 0x0, false⟩,
   ⟨0x401C, 0x4, 1, 0x0, 0x0, 0x0, 0x0, 0x0, false⟩,
   ⟨0x4020, 0x4, 1, 0x0, 0x0, 0x0, 0x0, 0x0, false⟩,
   ⟨0x4024, 0x4, 1, 0x0, 0x0, 0x0, 0x0, 0x0, false⟩,
   ⟨0x4030, 0x4, 1, 0x0, 0x0, 0x0, 0xFFFFFFF, 0x0, false⟩] ++
  [⟨0x4034, 0x4, 1, 0x0, 0x0, 0x0, 0xFF, 0x0, false⟩,
   ⟨0x4040, 0x4, 3, 0x0, 0x0, 0x0, 0x0, 0x0, false⟩,
   ⟨0x4050, 0x4, 1, 0x0, 0x0, 0x3F, 0x0, 0x80000000, false⟩,
   ⟨0x4054, 0x4, 1, 0x0, 0x0, 0x0, 0x0, 0x0, false⟩,
   ⟨0x4058, 0x4, 1, 0x0, 0x0, 0x0, 0x0, 0x0, false⟩,
   ⟨0x4100, 0x4, 36, 0x0, 0x0, 0x0, 0x0, 0x0, false⟩,
   ⟨0x4200, 0x4, 6, 0x0, 0x0, 0x0, 0x0, 0x0, true⟩]

/-- The rows of the TMR block. -/
def regRowsTmr : List RegRow :=
  [⟨0x5FFC, 0x4, 1, 0x0, 0x0, 0x0, 0x0, 0x0, false⟩,
   ⟨0x5000, 0x40, 16, 0x0, 0x0, 0xF1FF, 0x0, 0x80000000, false⟩,
   ⟨0x5004, 0x40, 16, 0x10000, 0x0, 0xFFFFFFFF, 0x0, 0x0, false⟩,
   ⟨0x5008, 0x40, 16, 0x0, 0x0, 0x0, 0x0, 0x0, false⟩,
   ⟨0x500C, 0x40, 16, 0x0, 0x0, 0x0, 0x0, 0x0, false⟩,
   ⟨0x5010, 0x40, 16, 0x0, 0x0, 0xFFFFFFFF, 0x0, 0x0, false⟩,
   ⟨0x501C, 0x40, 16, 0x0, 0x0, 0xFFFFFFFF, 0x0, 0x0, false⟩,
   ⟨0x5028, 0x40, 16, 0x0, 0x0, 0xFFFFFFFF, 0x0, 0x0, false⟩,
   ⟨0x5034, 0x40, 16, 0x0, 0x0, 0xFFFFFFFF, 0x0, 0x0, false⟩,
   ⟨0x5014, 0x40, 16, 0x0, 0x0, 0x3F3FFFF, 0x0, 0x0, false⟩,
   ⟨0x5020, 0x40, 16, 0x0, 0x0, 0x3F3FFFF, 0x0, 0x0, false⟩,
   ⟨0x502C, 0x40, 16, 0x0, 0x0, 0x3F3FFFF, 0x0, 0x0, false⟩] ++
  [⟨0x5038, 0x40, 16, 0x0, 0x0, 0x3F3FFFF, 0x0, 0x0, false⟩,
   ⟨0x5018, 0x40, 16, 0x0, 0x0, 0x13F331F, 0x0, 0x0, false⟩,
   ⟨0x5024, 0x40, 16, 0x0, 0x0, 0x13F331F, 0x0, 0x0, false⟩,
   ⟨0x5030, 0x40, 16, 0x0, 0x0, 0x13F331F, 0x0, 0x0, false⟩,
   ⟨0x503C, 0x40, 16, 0x0, 0x0, 0x13F331F, 0x0, 0x0, false⟩,
   ⟨0x5400, 0x8, 16, 0x0, 0x0, 0xFFFFFFFF, 0x0, 0x0, false⟩,
   ⟨0x5404, 0x8, 16, 0x0, 0x0, 0xFFFF, 0x0, 0x0, false⟩,
   ⟨0x5480, 0x4, 16, 0x0, 0x0, 0x13F331E, 0x0, 0x0, false⟩,
   ⟨0x54C0, 0x4, 16, 0x0, 0x0, 0xFFFFFFFF, 0x0, 0x0, false⟩,
   ⟨0x5500, 0x4, 16, 0x0, 0x0, 0x0, 0x0, 0x0, false⟩,
   ⟨0x5600, 0x4, 16, 0x0, 0x0, 0x0, 0xFF3F, 0x0, false⟩,
   ⟨0x5700, 0x4, 4, 0x22, 0x0, 0xFFFF3FF7, 0x0, 0x0, false⟩] ++
  [⟨0x5710, 0x4, 4, 0x0, 0x0, 0x0, 0x0, 0x0, false⟩,
   ⟨0x5720, 0x4, 1, 0x0, 0x0, 0x0, 0xF, 0x0, false⟩,
   ⟨0x5730, 0x4, 1, 0x0, 0x0, 0xF00, 0x0, 0xFF0000, false⟩]

/-- The rows of the PLC block. -/
def regRowsPlc : List RegRow :=
  [⟨0x6FFC, 0x4, 1, 0x0, 0x0, 0x0, 0x0, 0x0, false⟩,
   ⟨0x6000, 0x100, 4, 0x0, 0x0, 0x1F7, 0x0, 0x0, false⟩,
   ⟨0x6004, 0x100, 4, 0x10000, 0x0, 0xFFFFFFFF, 0x0, 0x0, false⟩,
   ⟨0x6008, 0x100, 4, 0x0, 0x0, 0x0, 0x0, 0x0, false⟩,
   ⟨0x600C, 0x100, 4, 0x0, 0x0, 0x0, 0x0, 0x0, false⟩,
   ⟨0x6010, 0x100, 4, 0x0, 0x0, 0x0, 0x0, 0x0, false⟩,
   ⟨0x6014, 0x100, 4, 0x0, 0x0, 0x0, 0x0, 0x0, false⟩,
   ⟨0x6018, 0x100, 4, 0x320010, 0x1, 0x3FF0133, 0x0, 0x0, false⟩,
   ⟨0x601C, 0x100, 4, 0x400, 0x0, 0xFFFFFF, 0x0, 0x0, false⟩,
   ⟨0x6020, 0x100, 4, 0x10000, 0x0, 0xFFFFFFFF, 0x0, 0x0, false⟩,
   ⟨0x6024, 0x100, 4, 0x100, 0x0, 0x7FF, 0x0, 0x0, false⟩,
   ⟨0x6028, 0x100, 4, 0x100032, 0x0, 0xFFFF3FFF, 0x0, 0x0, false⟩] ++
  [⟨0x602C, 0x100, 4, 0x10300000, 0x40000, 0xFFFFFFFF, 0x0, 0x0, false⟩,
   ⟨0x6030, 0x100, 4, 0xFF000000, 0x0, 0xFF01FFFF, 0x0, 0x0, false⟩,
   ⟨0x6034, 0x100, 4, 0x0, 0x0, 0xFFFFFFFF, 0x0, 0x0, false⟩,
   ⟨0x6040, 0x100, 4, 0x0, 0x0, 0x0, 0xF, 0x0, false⟩,
   ⟨0x6044, 0x100, 4, 0x0, 0x0, 0x0, 0x0, 0x0, false⟩,
   ⟨0x6048, 0x100, 4, 0x0, 0x0, 0x0, 0x0, 0x0, false⟩,
   ⟨0x604C, 0x100, 4, 0x0, 0x0, 0x0, 0x0, 0x0, false⟩,
   ⟨0x6050, 0x100, 4, 0x0, 0x0, 0x0, 0x0, 0x0, false⟩,
   ⟨0x6054, 0x100, 4, 0x0, 0x0, 0x0, 0x0, 0x0, false⟩,
   ⟨0x6058, 0x100, 4, 0x0, 0x0, 0x0, 0x0, 0x0, false⟩,
   ⟨0x605C, 0x100, 4, 0x0, 0x0, 0x0, 0x0, 0x0, false⟩,
   ⟨0x6060, 0x100, 4, 0x0, 0x0, 0x0, 0x0, 0x0, false⟩] ++
  [⟨0x6064, 0x100, 4, 0x0, 0x0, 0x0, 0x0, 0x0, false⟩,
   ⟨0x6068, 0x100, 4, 0x0, 0x0, 0x0, 0x0, 0x0, false⟩,
   ⟨0x606C, 0x100, 4, 0x0, 0x0, 0x0, 0x0, 0x0, false⟩,
   ⟨0x6070, 0x100, 4, 0x0, 0x0, 0x0, 0x0, 0x0, false⟩,
   ⟨0x6074, 0x100, 4, 0x0, 0x0, 0x0, 0x0, 0x0, false⟩,
   ⟨0x6078, 0x100, 4, 0x0, 0x0, 0x0, 0x0, 0x0, false⟩,
   ⟨0x607C, 0x100, 4, 0x0, 0x0, 0xFFFFFF, 0x0, 0x0, false⟩,
   ⟨0x6400, 0x40, 2, 0x320, 0x0, 0x33FF3, 0x0, 0x0, false⟩,
   ⟨0x6404, 0x40, 2, 0x0, 0x0, 0x0, 0x0, 0x0, false⟩,
   ⟨0x6408, 0x40, 2, 0x0, 0x0, 0x0, 0x0, 0x0, false⟩,
   ⟨0x640C, 0x40, 2, 0x0, 0x0, 0x0, 0x7, 0x0, false⟩,
   ⟨0x6410, 0x40, 2, 0x0, 0x0, 0x0, 0x0, 0x0, false⟩] ++
  [⟨0x6414, 0x40, 2, 0x0, 0x0, 0x0, 0x0, 0x0, false⟩,
   ⟨0x6480, 0x20, 2, 0x10320, 0x0, 0x33FF1, 0x0, 0x0, false⟩,
   ⟨0x6484, 0x20, 2, 0x0, 0x0, 0x0, 0x0, 0x0, false⟩,
   ⟨0x6488, 0x20, 2, 0x0, 0x0, 0x0, 0x0, 0x0, false⟩]

/-- The rows of the MOT block. -/
def regRowsMot : List RegRow :=
  [⟨0x7FFC, 0x4, 1, 0x0, 0x0, 0x0, 0x0, 0x0, false⟩,
   ⟨0x7000, 0x100, 4, 0x0, 0x0, 0xF7F21330, 0x0, 0x0, false⟩,
   ⟨0x7400, 0x100, 2, 0x0, 0x0, 0xF7F31333, 0x0, 0x0, false⟩,
   ⟨0x7004, 0x100, 6, 0x0, 0x0, 0x0, 0x0, 0xFF, false⟩,
   ⟨0x7008, 0x100, 6, 0x100, 0x0, 0x0, 0x0, 0x0, false⟩,
   ⟨0x700C, 0x100, 6, 0x0, 0x0, 0x0, 0xF, 0x0, false⟩,
   ⟨0x7010, 0x100, 6, 0x0, 0x0, 0xFFFFFFFF, 0x0, 0x0, false⟩,
   ⟨0x7014, 0x100, 6, 0x0, 0x0, 0xFFFFFFFF, 0x0, 0x0, false⟩,
   ⟨0x7018, 0x100, 6, 0x0, 0x0, 0xFFFFFFFF, 0x0, 0x0, false⟩,
   ⟨0x701C, 0x100, 6, 0x0, 0x0, 0xFFFFFFFF, 0x0, 0x0, false⟩,
   ⟨0x7020, 0x100, 6, 0x0, 0x0, 0xFFFFFFFF, 0x0, 0x0, false⟩,
   ⟨0x7024, 0x100, 6, 0x0, 0x0, 0x0, 0x0, 0x0, false⟩] ++
  [⟨0x7028, 0x100, 6, 0x0, 0x0, 0x0, 0x0, 0x0, false⟩,
   ⟨0x702C, 0x100, 6, 0x10000C8, 0x0, 0xFFFFFFFF, 0x0, 0x0, false⟩,
   ⟨0x7030, 0x100, 6, 0x800001, 0x0, 0xFFFF007F, 0x0, 0x0, false⟩,
   ⟨0x7034, 0x100, 6, 0xC800C8, 0x0, 0x3FFF3FFF, 0x0, 0x0, false⟩,
   ⟨0x7038, 0x100, 6, 0x10000, 0x0, 0xFFFFFFFF, 0x0, 0x0, false⟩,
   ⟨0x703C, 0x100, 6, 0x100100, 0x0, 0xFFFFFFFF, 0x0, 0x0, false⟩,
   ⟨0x7040, 0x100, 6, 0x0, 0x0, 0x0, 0x0, 0x0, false⟩,
   ⟨0x7044, 0x100, 6, 0x0, 0x0, 0xFFFFFFFF, 0x0, 0x0, false⟩,
   ⟨0x7048, 0x100, 6, 0x0, 0x0, 0xFFFFFFFF, 0x0, 0x0, false⟩,
   ⟨0x704C, 0x100, 6, 0x0, 0x0, 0xFFFFFFFF, 0x0, 0x0, false⟩,
   ⟨0x7050, 0x100, 6, 0x0, 0x0, 0xFFFFFFFF, 0x0, 0x0, false⟩,
   ⟨0x7054, 0x100, 6, 0x0, 0x0, 0xFFFFFFFF, 0x0, 0x0, false⟩] ++
  [⟨0x7058, 0x100, 6, 0x0, 0x0, 0xFFFFFFFF, 0x0, 0x0, false⟩,
   ⟨0x705C, 0x100, 6, 0x0, 0x0, 0x0, 0x0, 0x0, false⟩,
   ⟨0x7060, 0x100, 6, 0x0, 0x0, 0x0, 0x0, 0x0, false⟩,
   ⟨0x7064, 0x100, 6, 0x0, 0x0, 0x0, 0x0, 0x0, false⟩,
   ⟨0x7068, 0x100, 6, 0x0, 0x0, 0x0, 0x0, 0x0, false⟩,
   ⟨0x706C, 0x100, 6, 0x0, 0x0, 0x0, 0x0, 0x0, false⟩,
   ⟨0x7070, 0x100, 6, 0x0, 0x0, 0x0, 0x0, 0x0, false⟩,
   ⟨0x7074, 0x100, 6, 0x0, 0x0, 0x0, 0x0, 0x0, false⟩,
   ⟨0x7078, 0x100, 6, 0x0, 0x0, 0x0, 0x0, 0x0, false⟩,
   ⟨0x707C, 0x100, 6, 0x0, 0x0, 0x0, 0x0, 0x0, false⟩,
   ⟨0x7800, 0x4, 1, 0x2080A00, 0x0, 0xFFFFF01, 0x0, 0x0, false⟩,
   ⟨0x7804, 0x4, 1, 0x30D4, 0x0, 0x1FFFF, 0x0, 0x0, false⟩] ++
  [⟨0x7808, 0x4, 1, 0x0, 0x0, 0x0, 0x0, 0x0, false⟩,
   ⟨0x7810, 0x4, 2, 0x0, 0x0, 0x0, 0x0, 0x0, false⟩,
   ⟨0x7080, 0x100, 4, 0x0, 0x0, 0xF337F, 0x0, 0x0, false⟩,
   ⟨0x7480, 0x100, 2, 0x0, 0x0, 0xF3000, 0x0, 0x0, false⟩,
   ⟨0x7084, 0x100, 4, 0x11404080, 0x0, 0xFFFFFFFF, 0x0, 0x0, false⟩,
   ⟨0x7088, 0x100, 4, 0x2BC012C, 0x0, 0x3FF03FF, 0x0, 0x0, false⟩,
   ⟨0x708C, 0x100, 4, 0x10, 0x0, 0xFFFF, 0x0, 0x0, false⟩,
   ⟨0x7090, 0x100, 4, 0x6407D0, 0x0, 0xFFFF3FFF, 0x0, 0x0, false⟩,
   ⟨0x7094, 0x100, 4, 0x281E1464, 0x0, 0xFFFFFFFF, 0x0, 0x0, false⟩,
   ⟨0x7098, 0x100, 4, 0x1003050, 0x0, 0x7FFFFFF, 0x0, 0x0, false⟩,
   ⟨0x709C, 0x100, 4, 0xC80FA0, 0x0, 0xFFF0FFF, 0x0, 0x0, false⟩,
   ⟨0x70A0, 0x100, 4, 0x0, 0x0, 0x0, 0x0, 0x0, false⟩] ++
  [⟨0x70A4, 0x100, 4, 0x0, 0x0, 0x0, 0x0, 0x0, false⟩,
   ⟨0x70A8, 0x100, 4, 0x0, 0x0, 0x0, 0x0, 0x0, false⟩,
   ⟨0x70AC, 0x100, 4, 0x0, 0x0, 0x0, 0x0, 0x0, false⟩,
   ⟨0x70B0, 0x100, 4, 0x0, 0x0, 0x0, 0x7, 0x0, false⟩,
   ⟨0x70B4, 0x100, 6, 0x0, 0x0, 0x0, 0x0, 0x0, false⟩,
   ⟨0x70B8, 0x100, 6, 0xF4240, 0x0, 0xFFFFFFFF, 0x0, 0x0, false⟩,
   ⟨0x74BC, 0x100, 2, 0x0, 0x0, 0x0, 0x0, 0x0, false⟩]

/-- The rows of the HST block. -/
def regRowsHst : List RegRow :=
  [⟨0x8FFC, 0x4, 1, 0x0, 0x0, 0x0, 0x0, 0x0, false⟩,
   ⟨0x8000, 0x40, 24, 0x0, 0x0, 0x5FF31373, 0x0, 0x0, false⟩,
   ⟨0x8004, 0x40, 24, 0x0, 0x0, 0xFFFFFFFF, 0x0, 0x0, false⟩,
   ⟨0x8008, 0x40, 24, 0x2710, 0x0, 0xFFFFFFFF, 0x0, 0x0, false⟩,
   ⟨0x800C, 0x40, 24, 0x0, 0x0, 0xFFFFFFFF, 0x0, 0x0, false⟩,
   ⟨0x8010, 0x40, 24, 0x0, 0x0, 0x0, 0x0, 0x1F, false⟩,
   ⟨0x8014, 0x40, 24, 0x0, 0x0, 0x0, 0x0, 0x0, false⟩,
   ⟨0x8018, 0x40, 24, 0x0, 0x0, 0x0, 0xFF, 0x0, false⟩,
   ⟨0x801C, 0x40, 24, 0x0, 0x0, 0x0, 0x0, 0x0, false⟩,
   ⟨0x8020, 0x40, 24, 0x0, 0x0, 0x0, 0x0, 0x0, false⟩,
   ⟨0x8024, 0x40, 24, 0x0, 0x0, 0x0, 0x0, 0x0, false⟩,
   ⟨0x8028, 0x40, 24, 0x0, 0x0, 0x0, 0x0, 0x0, false⟩] ++
  [⟨0x802C, 0x40, 24, 0x0, 0x0, 0x0, 0x0, 0x0, false⟩,
   ⟨0x8030, 0x40, 24, 0x0, 0x0, 0x0, 0x0, 0x0, false⟩,
   ⟨0x8034, 0x40, 24, 0x2, 0x0, 0xFF1FFF, 0x0, 0x0, false⟩,
   ⟨0x8038, 0x40, 24, 0x0, 0x0, 0x0, 0x0, 0x80000000, false⟩,
   ⟨0x803C, 0x40, 24, 0x0, 0x0, 0x0, 0x1FF, 0x0, false⟩,
   ⟨0x8800, 0x10, 4, 0x1, 0x0, 0x1, 0x0, 0x0, false⟩,
   ⟨0x8804, 0x10, 4, 0x0, 0x0, 0x0, 0x0, 0x0, false⟩,
   ⟨0x8A00, 0x10, 24, 0x0, 0x0, 0xFFFFFFFF, 0x0, 0x0, false⟩,
   ⟨0x8A04, 0x10, 24, 0x0, 0x0, 0xFFFFFFFF, 0x0, 0x0, false⟩,
   ⟨0x8A08, 0x10, 24, 0x0, 0x0, 0x0, 0x0, 0x0, false⟩,
   ⟨0x8A0C, 0x10, 24, 0x0, 0x0, 0x0, 0x0, 0x0, false⟩,
   ⟨0x8C00, 0x8, 24, 0x0, 0x0, 0x0, 0x0, 0x0, false⟩] ++
  [⟨0x8C04, 0x8, 24, 0x0, 0x0, 0x0, 0x0, 0x0, false⟩]

/-- The rows of the CMP block. -/
def regRowsCmp : List RegRow :=
  [⟨0x9FFC, 0x4, 1, 0x0, 0x0, 0x0, 0x0, 0x0, false⟩,
   ⟨0x9000, 0x40, 4, 0x0, 0x0, 0xFFFFFFFF, 0x0, 0x0, false⟩,
   ⟨0x9004, 0x40, 4, 0x0, 0x0, 0x307, 0x0, 0x0, false⟩,
   ⟨0x9008, 0x40, 4, 0x0, 0x0, 0xFFFFFFFF, 0x0, 0x0, false⟩,
   ⟨0x900C, 0x40, 4, 0xFF, 0x0, 0xFF, 0x0, 0x0, false⟩,
   ⟨0x9010, 0x40, 4, 0x0, 0x0, 0xFFFFFFFF, 0x0, 0x0, false⟩,
   ⟨0x9014, 0x40, 4, 0x0, 0x0, 0x0, 0x0, 0x0, false⟩,
   ⟨0x9018, 0x40, 4, 0x0, 0x0, 0x0, 0x7, 0x0, false⟩,
   ⟨0x901C, 0x40, 4, 0x0, 0x0, 0x0, 0x0, 0x0, false⟩,
   ⟨0x9020, 0x40, 4, 0x0, 0x0, 0x0, 0x0, 0x0, false⟩,
   ⟨0x9024, 0x40, 4, 0x0, 0x0, 0x0, 0x0, 0x0, false⟩,
   ⟨0x9100, 0x4, 1, 0x0, 0x0, 0x0, 0x0, 0x0, false⟩] ++
  [⟨0x9400, 0x4, 256, 0x0, 0x0, 0xFFFFFFFF, 0x0, 0x0, false⟩,
   ⟨0x9F00, 0x4, 1, 0x0, 0x0, 0x3, 0x0, 0x0, false⟩,
   ⟨0x9F04, 0x4, 1, 0x0, 0x0, 0x1FFFF, 0x0, 0x0, false⟩,
   ⟨0x9F08, 0x4, 1, 0x0, 0x0, 0x0, 0x0, 0x1, false⟩,
   ⟨0x9F0C, 0x4, 1, 0x0, 0x0, 0x0, 0x3, 0x0, false⟩,
   ⟨0x9F10, 0x4, 1, 0x0, 0x0, 0x0, 0x0, 0x0, false⟩,
   ⟨0x9F20, 0x8, 8, 0x0, 0x0, 0x0, 0x0, 0x0, false⟩,
   ⟨0x9F24, 0x8, 8, 0x0, 0x0, 0x0, 0x0, 0x0, false⟩,
   ⟨0x9F80, 0x8, 4, 0x0, 0x0, 0x0, 0x0, 0x0, false⟩,
   ⟨0x9F84, 0x8, 4, 0x0, 0x0, 0x0, 0x0, 0x0, false⟩]

/-- The rows of the CAL block. -/
def regRowsCal : List RegRow :=
  [⟨0xAFFC, 0x4, 1, 0x0, 0x0, 0x0, 0x0, 0x0, false⟩,
   ⟨0xA000, 0x4, 1, 0x0, 0x0, 0x0, 0x0, 0x0, false⟩,
   ⟨0xA004, 0x4, 1, 0x0, 0x0, 0x0, 0x0, 0x0, false⟩,
   ⟨0xA008, 0x4, 1, 0x0, 0x0, 0x0, 0x0, 0x0, false⟩,
   ⟨0xA010, 0x4, 1, 0x0, 0x0, 0x1FFFF, 0x0, 0x0, false⟩,
   ⟨0xA014, 0x4, 1, 0x0, 0x0, 0x1FFFF, 0x0, 0x0, false⟩,
   ⟨0xA018, 0x4, 1, 0x0, 0x0, 0x0, 0x0, 0x1, false⟩,
   ⟨0xA020, 0x4, 1, 0x0, 0x0, 0xFF, 0x0, 0x0, true⟩,
   ⟨0xA024, 0x4, 1, 0x0, 0x0, 0x0, 0x7F, 0x0, false⟩,
   ⟨0xA040, 0x4, 1, 0x3C, 0x0, 0xFFF, 0x0, 0x0, false⟩,
   ⟨0xA044, 0x4, 1, 0x0, 0x0, 0x0, 0x0, 0x0, false⟩,
   ⟨0xA100, 0x8, 8, 0x0, 0x0, 0x807F07FF, 0x0, 0x0, false⟩] ++
  [⟨0xA104, 0x8, 8, 0x0, 0x0, 0xFFFFFFFF, 0x0, 0x0, false⟩,
   ⟨0xA300, 0x10, 4, 0x0, 0x0, 0xFFFF, 0x0, 0x0, false⟩,
   ⟨0xA304, 0x10, 4, 0x0, 0x0, 0x8001FFFF, 0x0, 0x0, false⟩,
   ⟨0xA400, 0x20, 16, 0x10000, 0x0, 0xFFFF00F7, 0x0, 0x0, false⟩,
   ⟨0xA404, 0x20, 16, 0x0, 0x0, 0xFFFFFFFF, 0x0, 0x0, false⟩,
   ⟨0xA408, 0x20, 16, 0x0, 0x0, 0xFFFFFFFF, 0x0, 0x0, false⟩,
   ⟨0xA40C, 0x20, 16, 0x0, 0x0, 0xFFFFFFFF, 0x0, 0x0, false⟩,
   ⟨0xA410, 0x20, 16, 0x0, 0x0, 0x7FF, 0x0, 0x0, false⟩,
   ⟨0xA414, 0x20, 16, 0x0, 0x0, 0x0, 0x0, 0x0, false⟩,
   ⟨0xA418, 0x20, 16, 0x0, 0x0, 0xFFFFFFFF, 0x0, 0x0, false⟩]

/-- The rows of the HED block. -/
def regRowsHed : List RegRow :=
  [⟨0xBFFC, 0x4, 1, 0x0, 0x0, 0x0, 0x0, 0x0, false⟩,
   ⟨0xB000, 0x100, 4, 0x0, 0x0, 0x3, 0x0, 0x0, false⟩,
   ⟨0xB004, 0x100, 4, 0x0, 0x0, 0x0, 0x0, 0x7, false⟩,
   ⟨0xB008, 0x100, 4, 0x0, 0x0, 0x0, 0x0, 0x0, false⟩,
   ⟨0xB00C, 0x100, 4, 0x0, 0x0, 0x0, 0x1FF, 0x0, false⟩,
   ⟨0xB010, 0x100, 4, 0x1, 0x0, 0x11F, 0x0, 0x0, false⟩,
   ⟨0xB014, 0x100, 4, 0x1000001, 0x0, 0x7FF0007, 0x0, 0x0, false⟩,
   ⟨0xB018, 0x100, 4, 0x80010, 0x0, 0xFFFFFFFF, 0x0, 0x0, false⟩,
   ⟨0xB01C, 0x100, 4, 0x10008000, 0x0, 0xFFFFFFFF, 0x0, 0x0, false⟩,
   ⟨0xB020, 0x100, 4, 0x1A00824, 0x0, 0xFFFFFFFF, 0x0, 0x0, false⟩,
   ⟨0xB024, 0x100, 4, 0x8, 0x0, 0xFFF, 0x0, 0x0, false⟩,
   ⟨0xB028, 0x100, 4, 0x0, 0x0, 0x0, 0x0, 0x0, false⟩] ++
  [⟨0xB02C, 0x100, 4, 0xFFF0000, 0x0, 0xFFF0FFF, 0x0, 0x0, false⟩,
   ⟨0xB030, 0x100, 4, 0x0, 0x0, 0x0, 0x0, 0x0, false⟩,
   ⟨0xB034, 0x100, 4, 0x640032, 0x0, 0xFFFFFFFF, 0x0, 0x0, false⟩,
   ⟨0xB038, 0x100, 4, 0xC8, 0x0, 0xFFFF, 0x0, 0x0, false⟩,
   ⟨0xB03C, 0x100, 4, 0x0, 0x0, 0xFFFFFFFF, 0x0, 0x0, false⟩,
   ⟨0xB040, 0x100, 4, 0x0, 0x0, 0xFF1FFF, 0x0, 0x0, false⟩,
   ⟨0xB048, 0x100, 4, 0x0, 0x0, 0xFF1FFF, 0x0, 0x0, false⟩,
   ⟨0xB050, 0x100, 4, 0x0, 0x0, 0xFF1FFF, 0x0, 0x0, false⟩,
   ⟨0xB058, 0x100, 4, 0x0, 0x0, 0xFF1FFF, 0x0, 0x0, false⟩,
   ⟨0xB044, 0x100, 4, 0xFFFF, 0x0, 0xFFFF, 0x0, 0x0, false⟩,
   ⟨0xB04C, 0x100, 4, 0xFFFF, 0x0, 0xFFFF, 0x0, 0x0, false⟩,
   ⟨0xB054, 0x100, 4, 0xFFFF, 0x0, 0xFFFF, 0x0, 0x0, false⟩] ++
  [⟨0xB05C, 0x100, 4, 0xFFFF, 0x0, 0xFFFF, 0x0, 0x0, false⟩,
   ⟨0xB060, 0x100, 4, 0x1, 0x0, 0xFFFF, 0x0, 0x0, false⟩,
   ⟨0xB064, 0x100, 4, 0x2710, 0x0, 0xFFFFF, 0x0, 0x0, false⟩,
   ⟨0xB068, 0x100, 4, 0x0, 0x0, 0xFFFFFFFF, 0x0, 0x0, false⟩,
   ⟨0xB070, 0x100, 4, 0x0, 0x0, 0x0, 0x0, 0x0, false⟩,
   ⟨0xB074, 0x100, 4, 0x0, 0x0, 0x0, 0x0, 0x0, false⟩,
   ⟨0xB078, 0x100, 4, 0x0, 0x0, 0x0, 0x0, 0x0, false⟩]

/-- The rows of the HLT block. -/
def regRowsHlt : List RegRow :=
  [⟨0xCFFC, 0x4, 1, 0x0, 0x0, 0x0, 0x0, 0x0, false⟩,
   ⟨0xC000, 0x100, 4, 0x0, 0x0, 0x7, 0x0, 0x0, false⟩,
   ⟨0xC004, 0x100, 4, 0x0, 0x0, 0x0, 0x0, 0xF, false⟩,
   ⟨0xC008, 0x100, 4, 0x0, 0x0, 0x0, 0x0, 0x0, false⟩,
   ⟨0xC00C, 0x100, 4, 0x0, 0x0, 0x0, 0x7FF, 0x0, false⟩,
   ⟨0xC010, 0x100, 4, 0x51401C2, 0x0, 0xFFFFFFFF, 0x0, 0x0, false⟩,
   ⟨0xC014, 0x100, 4, 0x100200, 0x0, 0xFFFFFFFF, 0x0, 0x0, false⟩,
   ⟨0xC018, 0x100, 4, 0xE0000064, 0x0, 0xFFFF03FF, 0x0, 0x0, false⟩,
   ⟨0xC01C, 0x100, 4, 0x186A0, 0x0, 0xFFFFF, 0x0, 0x0, false⟩,
   ⟨0xC020, 0x100, 4, 0xFC00040, 0x0, 0xFFF0FFF, 0x0, 0x0, false⟩,
   ⟨0xC024, 0x100, 4, 0x2000012C, 0x0, 0xFFFFFFFF, 0x0, 0x0, false⟩,
   ⟨0xC028, 0x100, 4, 0x2580258, 0x0, 0xFFFFFFFF, 0x0, 0x0, false⟩] ++
  [⟨0xC02C, 0x100, 4, 0x0, 0x0, 0xFFFFFFFF, 0x0, 0x0, false⟩,
   ⟨0xC030, 0x100, 4, 0x0, 0x0, 0x0, 0x0, 0x0, false⟩,
   ⟨0xC034, 0x100, 4, 0x8000, 0x0, 0xFFFFFFFF, 0x0, 0x0, false⟩,
   ⟨0xC038, 0x100, 4, 0x1000, 0x0, 0xFFFFFFFF, 0x0, 0x0, false⟩,
   ⟨0xC03C, 0x100, 4, 0x1C2, 0x0, 0xFFFF, 0x0, 0x0, false⟩,
   ⟨0xC040, 0x100, 4, 0x2BB80800, 0x0, 0xFFFF0FFF, 0x0, 0x0, false⟩,
   ⟨0xC044, 0x100, 4, 0x3A9807D0, 0x0, 0xFFFFFFFF, 0x0, 0x0, false⟩,
   ⟨0xC048, 0x100, 4, 0x33FF0000, 0x0, 0x33FF03FF, 0x0, 0x0, false⟩,
   ⟨0xC04C, 0x100, 4, 0x20708, 0x0, 0xFFFFFF, 0x0, 0x0, false⟩,
   ⟨0xC050, 0x100, 4, 0x4E20, 0x0, 0xFFFFF, 0x0, 0x0, false⟩,
   ⟨0xC054, 0x100, 4, 0x0, 0x0, 0x0, 0x0, 0x0, false⟩,
   ⟨0xC058, 0x100, 4, 0x0, 0x0, 0x3FF, 0x0, 0x0, false⟩] ++
  [⟨0xC05C, 0x100, 4, 0x0, 0x0, 0x1FFF, 0x0, 0x0, false⟩,
   ⟨0xC060, 0x100, 4, 0x0, 0x0, 0x0, 0x0, 0x0, false⟩,
   ⟨0xC064, 0x100, 4, 0x138807D0, 0x0, 0xFFFFFFFF, 0x0, 0x0, false⟩,
   ⟨0xC068, 0x100, 4, 0x4110, 0x0, 0xF3FF, 0x0, 0x0, false⟩,
   ⟨0xC06C, 0x100, 4, 0x2710, 0x0, 0xFFFFF, 0x0, 0x0, false⟩,
   ⟨0xC070, 0x100, 4, 0x7D0, 0x0, 0xFFFFFFFF, 0x0, 0x0, false⟩,
   ⟨0xC078, 0x100, 4, 0x0, 0x0, 0x3FF, 0x0, 0x0, false⟩,
   ⟨0xC07C, 0x100, 4, 0x0, 0x0, 0x0, 0x0, 0x0, false⟩,
   ⟨0xC080, 0x100, 4, 0x0, 0x0, 0x0, 0x0, 0x0, false⟩,
   ⟨0xC084, 0x100, 4, 0x0, 0x0, 0x0, 0x0, 0x0, false⟩,
   ⟨0xC090, 0x100, 4, 0x0, 0x0, 0xFFFF, 0x0, 0x0, false⟩,
   ⟨0xC094, 0x100, 4, 0x0, 0x0, 0xFFFF, 0x0, 0x0, false⟩] ++
  [⟨0xC098, 0x100, 4, 0x0, 0x0, 0xFFFF, 0x0, 0x0, false⟩,
   ⟨0xC09C, 0x100, 4, 0x0, 0x0, 0xFFFF, 0x0, 0x0, false⟩,
   ⟨0xC0A0, 0x100, 4, 0x0, 0x0, 0xFFFF, 0x0, 0x0, false⟩,
   ⟨0xC0A4, 0x100, 4, 0x0, 0x0, 0xFFFF, 0x0, 0x0, false⟩,
   ⟨0xC0A8, 0x100, 4, 0x0, 0x0, 0xFFFF, 0x0, 0x0, false⟩,
   ⟨0xC0AC, 0x100, 4, 0x0, 0x0, 0xFFFF, 0x0, 0x0, false⟩,
   ⟨0xC0B0, 0x100, 4, 0x0, 0x0, 0xFFFF, 0x0, 0x0, false⟩,
   ⟨0xC0B4, 0x100, 4, 0x0, 0x0, 0xFFFF, 0x0, 0x0, false⟩,
   ⟨0xC0B8, 0x100, 4, 0x0, 0x0, 0xFFFF, 0x0, 0x0, false⟩,
   ⟨0xC0BC, 0x100, 4, 0x0, 0x0, 0xFFFF, 0x0, 0x0, false⟩,
   ⟨0xC0C0, 0x100, 4, 0x0, 0x0, 0xFFFF, 0x0, 0x0, false⟩,
   ⟨0xC0C4, 0x100, 4, 0x0, 0x0, 0xFFFF, 0x0, 0x0, false⟩] ++
  [⟨0xC0C8, 0x100, 4, 0x0, 0x0, 0xFFFF, 0x0, 0x0, false⟩,
   ⟨0xC0CC, 0x100, 4, 0x0, 0x0, 0xFFFF, 0x0, 0x0, false⟩,
   ⟨0xC0D0, 0x100, 4, 0x0, 0x0, 0xFFFF, 0x0, 0x0, false⟩,
   ⟨0xC400, 0x4, 1, 0x258, 0x0, 0xFFF, 0x0, 0x0, false⟩,
   ⟨0xC404, 0x4, 1, 0x0, 0x0, 0x0, 0x0, 0x0, false⟩]

/-- The rows of the REJ block. -/
def regRowsRej : List RegRow :=
  [⟨0xDFFC, 0x4, 1, 0x0, 0x0, 0x0, 0x0, 0x0, false⟩,
   ⟨0xD000, 0x40, 4, 0xC0, 0x1, 0xF3, 0x0, 0x0, false⟩,
   ⟨0xD004, 0x40, 4, 0x1F40, 0x0, 0xFFFFFF, 0x0, 0x0, false⟩,
   ⟨0xD008, 0x40, 4, 0x190, 0x0, 0xFFFFFFFF, 0x0, 0x0, false⟩,
   ⟨0xD00C, 0x40, 4, 0x0, 0x0, 0x3, 0x0, 0x80000000, false⟩,
   ⟨0xD010, 0x40, 4, 0x0, 0x0, 0x0, 0x0, 0x0, false⟩,
   ⟨0xD014, 0x40, 4, 0x0, 0x0, 0x0, 0xF, 0x0, false⟩,
   ⟨0xD018, 0x40, 4, 0x0, 0x0, 0x0, 0x0, 0x0, false⟩,
   ⟨0xD01C, 0x40, 4, 0x0, 0x0, 0x0, 0x0, 0x0, false⟩,
   ⟨0xD020, 0x40, 4, 0x0, 0x0, 0x0, 0x0, 0x0, false⟩,
   ⟨0xD024, 0x40, 4, 0x0, 0x0, 0x0, 0x0, 0x0, false⟩,
   ⟨0xD100, 0x4, 1, 0x3E8F032, 0x0, 0x3FFF1FF, 0x0, 0x0, false⟩] ++
  [⟨0xD104, 0x4, 1, 0x0, 0x0, 0x0, 0x0, 0x0, false⟩,
   ⟨0xD108, 0x4, 1, 0x7, 0x0, 0x7, 0x0, 0x0, false⟩,
   ⟨0xD10C, 0x4, 1, 0x0, 0x0, 0x0, 0x0, 0x0, false⟩,
   ⟨0xD110, 0x4, 1, 0x0, 0x0, 0x0, 0x0, 0x0, false⟩,
   ⟨0xD114, 0x4, 1, 0x0, 0x0, 0x0, 0x0, 0x0, false⟩]

/-- The rows of the HAT block. -/
def regRowsHat : List RegRow :=
  [⟨0xEFFC, 0x4, 1, 0x0, 0x0, 0x0, 0x0, 0x0, false⟩,
   ⟨0xE000, 0x20, 4, 0x0, 0x0, 0x0, 0x0, 0xF, false⟩,
   ⟨0xE004, 0x20, 4, 0x0, 0x0, 0x0, 0x0, 0x0, false⟩,
   ⟨0xE008, 0x20, 4, 0x0, 0x0, 0x0, 0x7, 0x0, false⟩,
   ⟨0xE00C, 0x20, 4, 0x0, 0x0, 0x0, 0x0, 0x0, false⟩,
   ⟨0xE080, 0x4, 1, 0x4B0, 0x0, 0xFFFF, 0x0, 0x0, false⟩,
   ⟨0xE084, 0x4, 1, 0x0, 0x0, 0x0, 0x1, 0x0, false⟩,
   ⟨0xE100, 0x4, 66, 0x0, 0x0, 0xFF, 0x0, 0x0, false⟩]

/-- The rows of the MEM block. -/
def regRowsMem : List RegRow :=
  [⟨0xFFFC, 0x4, 1, 0x0, 0x0, 0x0, 0x0, 0x0, false⟩,
   ⟨0xF000, 0x4, 1, 0x0, 0x0, 0x0, 0x7, 0x0, false⟩,
   ⟨0xF004, 0x4, 1, 0x0, 0x0, 0x0, 0x0, 0x0, false⟩,
   ⟨0xF008, 0x4, 1, 0x0, 0x0, 0x0, 0x0, 0x0, false⟩,
   ⟨0xF00C, 0x4, 1, 0x0, 0x0, 0x0, 0x0, 0x0, false⟩,
   ⟨0xF010, 0x4, 1, 0x0, 0x0, 0x0, 0x0, 0x0, false⟩,
   ⟨0xF014, 0x4, 1, 0x0, 0x0, 0x0, 0x0, 0x0, false⟩,
   ⟨0xF040, 0x4, 1, 0x400800, 0x0, 0xF08F07, 0x0, 0x0, false⟩,
   ⟨0xF044, 0x4, 1, 0x413, 0x0, 0x1F07FF, 0x0, 0x0, false⟩,
   ⟨0xF048, 0x4, 1, 0xDC200206, 0x0, 0xFFFFFFFF, 0x0, 0x0, false⟩,
   ⟨0xF04C, 0x4, 1, 0x3E00A05, 0x0, 0xFFFFFFFF, 0x0, 0x0, false⟩,
   ⟨0xF050, 0x4, 1, 0x0, 0x0, 0x8003FFFF, 0x0, 0x0, false⟩] ++
  [⟨0xF054, 0x4, 1, 0x0, 0x0, 0x1FFFFFFF, 0x0, 0x0, false⟩,
   ⟨0xF058, 0x4, 1, 0x0, 0x0, 0xFF03FF07, 0x0, 0x0, false⟩,
   ⟨0xF05C, 0x4, 1, 0x0, 0x0, 0x0, 0x0, 0x1, false⟩,
   ⟨0xF060, 0x4, 1, 0x0, 0x0, 0x0, 0x3, 0x0, false⟩,
   ⟨0xF080, 0x4, 1, 0x0, 0x0, 0xFFFFFFFF, 0x0, 0x0, false⟩,
   ⟨0xF084, 0x4, 1, 0x0, 0x0, 0x3FFFF, 0x0, 0x0, false⟩,
   ⟨0xF088, 0x4, 1, 0x0, 0x0, 0x7FFF, 0x0, 0x0, false⟩,
   ⟨0xF08C, 0x4, 1, 0x0, 0x0, 0x0, 0x0, 0x1, false⟩,
   ⟨0xF090, 0x4, 1, 0x0, 0x0, 0x0, 0x3, 0x0, false⟩,
   ⟨0xF094, 0x4, 1, 0x0, 0x0, 0x0, 0x0, 0x0, false⟩,
   ⟨0xF098, 0x4, 1, 0x0, 0x0, 0x0, 0x0, 0x0, false⟩,
   ⟨0xF100, 0x4, 64, 0x0, 0x0, 0xFFFFFFFF, 0x0, 0x0, false⟩]

/-- The rows of block `b`, in the block order of R68. -/
def regRows (b : Nat) : List RegRow :=
  match b with
  | 0 => regRowsDev
  | 1 => regRowsSes
  | 2 => regRowsLnk
  | 3 => regRowsPwr
  | 4 => regRowsFlt
  | 5 => regRowsTmr
  | 6 => regRowsPlc
  | 7 => regRowsMot
  | 8 => regRowsHst
  | 9 => regRowsCmp
  | 10 => regRowsCal
  | 11 => regRowsHed
  | 12 => regRowsHlt
  | 13 => regRowsRej
  | 14 => regRowsHat
  | 15 => regRowsMem
  | _ => []

/-- The instance of row `r` that address `a` names, if it names one. -/
def RegRow.inst (r : RegRow) (a : Nat) : Option Nat :=
  if r.base ≤ a ∧ (a - r.base) % r.stride = 0 ∧ (a - r.base) / r.stride < r.count then
    some ((a - r.base) / r.stride)
  else none

/-- The row of `rows` that holds address `a`, with the instance. -/
def findRow (a : Nat) : List RegRow → Option (RegRow × Nat)
  | [] => none
  | r :: rs =>
    match r.inst a with
    | some k => some (r, k)
    | none => findRow a rs

/-- The register at address `a`, if the map has one there (R69: every other address of a block is unused). -/
def regAt (a : Nat) : Option (RegRow × Nat) :=
  if a < 0x10000 then findRow a (regRows (a / 0x1000)) else none

/-- The value register `a` holds when chip reset completes (R15), before what bring-up and the straps give it. -/
def regReset (a : Nat) : Word :=
  match regAt a with
  | some (r, k) => BitVec.ofNat 32 (r.reset + r.step * k)
  | none => 0

/-- True for a register held in the always-on domain, which a chip reset keeps (R151, R127, R177). -/
def regKept (a : Nat) : Bool :=
  match regAt a with
  | some (r, _) => r.keep
  | none => false

end Sys2Proof.Machine
end

