-- ==== Sys2Proof/Machine/Tab.lean ====
section
/-! DEFINITION. Sparse maps in one canonical form: a list of (key, value) pairs with strictly rising keys and no entry
equal to what an unlisted key reads as. Registers, wrap guards, tables, the Larder, the Cellar, the Loft and other
keyed state of the GL4480 are held in this form, so that equal contents are equal data. -/

namespace Sys2Proof.Machine

/-- A sparse map from natural-number keys. -/
abbrev Tab (α : Type) := List (Nat × α)

/-- What key `k` reads as; an unlisted key reads as `d k`. -/
def Tab.get {α : Type} (d : Nat → α) : Tab α → Nat → α
  | [], k => d k
  | (j, v) :: t, k => if j = k then v else Tab.get d t k

/-- Remove every entry of key `k`. -/
def Tab.erase {α : Type} : Tab α → Nat → Tab α
  | [], _ => []
  | (j, v) :: t, k => if j = k then Tab.erase t k else (j, v) :: Tab.erase t k

/-- Insert an entry before the first greater key. -/
def Tab.insert {α : Type} (k : Nat) (v : α) : Tab α → Tab α
  | [] => [(k, v)]
  | (j, w) :: t => if k < j then (k, v) :: (j, w) :: t else (j, w) :: Tab.insert k v t

/-- Write `v` at key `k`: the value an unlisted key reads as removes the entry. -/
def Tab.set {α : Type} [DecidableEq α] (d : Nat → α) (t : Tab α) (k : Nat) (v : α) : Tab α :=
  if v = d k then Tab.erase t k else Tab.insert k v (Tab.erase t k)

/-- Remove every entry whose key satisfies `p`: those keys read as unlisted again. -/
def Tab.clear {α : Type} (t : Tab α) (p : Nat → Bool) : Tab α := t.filter (fun e => !p e.1)

/-- The keys rise strictly from a bound, and no entry holds what an unlisted key reads as. -/
def Tab.wfFrom {α : Type} [DecidableEq α] (d : Nat → α) : Nat → Tab α → Bool
  | _, [] => true
  | b, (k, v) :: t => decide (b ≤ k) && decide (v ≠ d k) && Tab.wfFrom d (k + 1) t

/-- The canonical form. -/
def Tab.wf {α : Type} [DecidableEq α] (d : Nat → α) (t : Tab α) : Bool := Tab.wfFrom d 0 t

end Sys2Proof.Machine
end

