-- ==== Sys2Proof/Machine/State.lean ====
section
/-! DEFINITION. The state of the GL4480 as plain data: every register, table, memory, queue, counter, mode and pin the
spec gives the block, and the queue of commands that wait. Registers and memories are sparse maps in canonical form
(Machine/Tab.lean); what an unlisted key reads as is in Machine/Regs.lean and Machine/Memory.lean. Counts of ticks and
commits are 64-bit counts that do not wrap in the rated life (R10, R41) and are held as natural numbers. -/

namespace Sys2Proof.Machine

/-- Why a step stops for good. Nothing of the manual stops the GL4480: every fault of chapter 04 is a commit and a next
state. Raised by nobody: the model has no path to it. Safe. -/
inductive Fault where
  /-- No meaning raises it. Safe. -/
  | none
  deriving DecidableEq, Repr

/-- Why a command has no meaning here. -/
inductive Refusal where
  /-- A command whose meaning is not written yet, by its mnemonic. Safe. -/
  | notModelled (mnemonic : String)
  deriving DecidableEq, Repr

/-! ### Faults and events -/

/-- A fault message (R103, R106). -/
structure FaultMsg where
  source : Nat
  kind : Nat
  address : Word
  order : Nat
  lane : Option Lane
  place : Pc
  deriving DecidableEq, Repr

/-- An event item of the Waislink event stream (R207). -/
inductive EventItem where
  /-- A FAULT item (R208). -/
  | fault (m : FaultMsg)
  /-- A TRAP item (R209). -/
  | trap (m : FaultMsg)
  /-- A STATE item: kind, lane, old, new, order stamp, placement stamp (R207). -/
  | state (kind : Nat) (lane : Option Lane) (old new : Nat) (order : Nat) (place : Pc)
  deriving DecidableEq, Repr

/-- A chip reset that a CHIP_RESET reaction has called for, until it starts (R114). -/
structure PendingReset where
  source : Nat
  /-- It is the entry to DARK after `PWR.RAIL` (R149). -/
  rail : Bool
  /-- 2 ms after the message. -/
  deadline : Nat
  deriving DecidableEq, Repr

/-- The fault collector (chapter 04) beside its registers. -/
structure Collector where
  /-- The message the First Bin holds (R115); `FULL` is in its register. -/
  bin : Option FaultMsg
  /-- By source: the tick at which its quiet period ends, while it is in FAULT (R118). -/
  quietEnd : Tab (Option Nat)
  /-- By source: `win_start` of R118. -/
  winStart : Tab Nat
  /-- The tick at which ERR_MIN ends, while it runs (R120). -/
  errMinEnd : Option Nat
  /-- The tick at which the TRAP_OUT pulse ends, while it runs (R122). -/
  trapEnd : Option Nat
  /-- The units in block reset (R112). -/
  inReset : List Nat
  /-- The units held in block reset because their source is RETIRED (R117). -/
  held : List Nat
  /-- A chip reset called for and not started (R114). -/
  resetPending : Option PendingReset
  /-- Resets that messages of the present command have selected and that have not run: a unit, or a source whose
  message calls for a chip reset (R111 steps 5 and 6). -/
  due : List (Nat × Bool)
  deriving DecidableEq, Repr

/-! ### Reset, straps and bring-up -/

/-- A decoded strap (R155). -/
structure Strap where
  level : BitVec 3
  unstable : Bool
  deriving DecidableEq, Repr

/-- What the core is doing (R164, R166, R174). -/
inductive CorePhase where
  /-- Core off: no core supply, or held in the cold reset before it completes. -/
  | off
  /-- A warm reset runs, with its cause and source (R160). -/
  | reset (cause source : Nat)
  /-- From chip reset completion to `BOOT_DONE` (R167). -/
  | bringup
  /-- From `BOOT_DONE` on. -/
  | running
  deriving DecidableEq, Repr

/-- Reset and bring-up state (chapter 06). -/
structure Boot where
  phase : CorePhase
  /-- The straps as last sampled, STRAP0 to STRAP3 (R152). -/
  straps : Vector Strap 4
  /-- The cause the next cold reset completion records: 1 after OFF, 2 after DARK (R160). -/
  coldCause : Nat
  /-- RESET_N is low (R161). -/
  resetPin : Bool
  /-- The tick at which a requested reset starts (R162). -/
  reqAt : Option Nat
  /-- EXTEST, CLAMP or HIGHZ is the current scan instruction (R163). -/
  scanHeld : Bool
  /-- The RESET_OUT_N ball is high (R164 step 5). -/
  resetOut : Bool
  /-- The tick at which `CLAIM_WAIT` ends, while the wait runs (R170). -/
  claimWaitEnd : Option Nat
  /-- The tick of `BOOT_DONE` (R167). -/
  doneAt : Nat
  /-- VIO is in its window, so VIO outputs are driven (R548). -/
  vioOk : Bool
  deriving DecidableEq, Repr

/-! ### The Pantry -/

/-- The power states of R140. -/
inductive PowerState where
  | off | classify | charge | service | run | hold | sleep | dark
  deriving DecidableEq, Repr

/-- For what a reservation is held (R137). -/
inductive ResFor where
  /-- The mark of a record, by lane and serial; recorded against HEDn (R123). -/
  | mark (lane : Lane) (serial : Word)
  /-- A Loft staged write, by the unit it is recorded against, and which of that unit's writes it is. -/
  | staged (unit : Nat) (which : Nat)
  /-- An axis move or homing. -/
  | axis (x : Axis)
  /-- A head warm-up. -/
  | warm (h : Head)
  /-- A keep-wet burst. -/
  | spit (h : Head)
  deriving DecidableEq, Repr

/-- A live reservation of the energy ledger: its holder and its balance in microjoules (R136). -/
structure Reservation where
  holder : ResFor
  balance : Nat
  deriving DecidableEq, Repr

/-- The Pantry (chapter 05) beside its registers. -/
structure Pantry where
  state : PowerState
  /-- The state from which HOLD was entered (R140). -/
  holdFrom : PowerState
  /-- The PSE completed a class read before it applied power (R130). -/
  classRead : Bool
  /-- The granted class, 10-15. -/
  granted : Nat
  /-- PD_PGOOD is high. -/
  pgood : Bool
  /-- `v_mv` of the most recent samples since chip reset completion, newest first, at most four (R132). -/
  samples : List Nat
  /-- The latest sample's `v_mv`, whenever taken. -/
  vNow : Nat
  /-- The latest sample's `i_ma`, signed 16 bits. -/
  iNow : BitVec 16
  /-- The latest sample's `b_mv`. -/
  bNow : Nat
  /-- The charger was stopped by the `V_FULL` line of R133 and has not resumed. -/
  fullStop : Bool
  /-- Samples taken since entry to CHARGE (R133). -/
  chargeK : Nat
  /-- The duty of CHG_PWM in 1/65535 (R133). -/
  duty : Nat
  /-- The reservoir has been below `V_FLOOR` since the last measurement or break (R134). -/
  capArmed : Bool
  /-- The accumulator q of a measurement that runs, 64 bits two's complement (R134). -/
  capQ : Option (BitVec 64)
  /-- Live reservations, oldest first. -/
  live : List Reservation
  /-- The spent pool: amount, and samples still to come before its release (R138). -/
  spent : List (Nat × Nat)
  /-- A refusal has been signalled since the last grant or chip reset (R139). -/
  refused : Bool
  /-- The RAIL_EN ball is high. -/
  railEn : Bool
  /-- A bring-up retry waits (R149). -/
  retry : Bool
  /-- Good samples in a row since the input returned in HOLD (R141). -/
  backCount : Nat
  /-- Parking has started in this HOLD (R143). -/
  parked : Bool
  /-- The final checkpoint runs (R144): the tick at which DARK is entered at the latest. -/
  finalCkpt : Option Nat
  /-- SLOW32K ticks counted in SLEEP (R41). -/
  slowTicks : Nat
  deriving DecidableEq, Repr

/-! ### Memories -/

/-- A Cellar program, erase or command that is BUSY (R90). -/
structure CelRun where
  op : Nat
  addr : Nat
  len : Nat
  /-- The bytes of MEM_CEL_PBUF at PGO. -/
  data : List Byte
  verify : Bool
  /-- The tick of the next status poll and of the poll timeout. -/
  pollAt : Nat
  timeoutAt : Nat
  deriving DecidableEq, Repr

/-- Who asked for a staged write of the Loft (R93, R96). -/
inductive StagedFor where
  /-- The owner, through MEM_LFT_GO. -/
  | owner
  /-- A claim-key installation: session, sequence number, tag, slot, and whether its response is still owed (R239). -/
  | key (sess : Sess) (seq : BitVec 16) (tag : BitVec 6) (slot : Nat) (owed : Bool)
  /-- A health map save of a head (R481). -/
  | map (h : Head)
  /-- A fire-count save of a head (R485). -/
  | fires (h : Head)
  /-- A counter checkpoint; true for the final one of HOLD (R433, R144). -/
  | ckpt (final : Bool)
  deriving DecidableEq, Repr

/-- A staged write that has not switched: destination offset and the bytes of the internal buffer (R94). -/
structure Staged where
  who : StagedFor
  offset : Nat
  data : List Byte
  deriving DecidableEq, Repr

/-- A session operation whose Cellar reads wait (R91), and whether its response is still owed. -/
structure HeldOp where
  op : Instr
  owed : Bool
  deriving DecidableEq, Repr

/-- The memories (chapter 03). -/
structure Mem where
  /-- The Larder by 64-bit word index; an unlisted word is void (R74, R78). -/
  larder : Tab (Option (BitVec 64))
  /-- By bank: the index of the next word its scrubber visits (R81). -/
  scrub : Tab Nat
  /-- The Cellar flash by byte; an unlisted byte is erased (0xFF). -/
  cellar : List Host.Cell
  /-- The Loft by byte offset; an unlisted byte is blank (0xFF, R100). -/
  loft : List Host.Cell
  /-- The table windows by address (R71). -/
  tables : Tab Word
  /-- The Cellar operation that runs (R90). -/
  celRun : Option CelRun
  /-- Staged writes that have been accepted and have not switched, oldest first (R94). -/
  staged : List Staged
  /-- Session operations whose Cellar reads wait for the end of an operation or of a block reset, oldest first (R91). -/
  heldOps : List HeldOp
  /-- 64-byte unit writes of the Loft over its life (R97). -/
  wear : Nat
  deriving DecidableEq, Repr

/-! ### Link and sessions -/

/-- A learned switch address: MAC, port (0 A, 1 B) and the tick of its last refresh (R180). -/
structure SwEntry where
  mac : BitVec 48
  port : Nat
  at_ : Nat
  deriving DecidableEq, Repr

/-- A link port (R178-R183). -/
structure LinkPort where
  up : Bool
  amp24 : Bool
  deriving DecidableEq, Repr

/-- The response codes of R205. -/
inductive Code where
  | ok | badOp | badLength | badAddress | badValue | readOnly | notOwner | notLeased | memError | isolated | busy
  | tooLate | discarded | tagInUse | stale | authFail | claimLost | full | noSession | seqGap | badFormat
  deriving DecidableEq, Repr

/-- A response item (R191). -/
structure Resp where
  op : Byte
  tag : Byte
  code : Code
  reqSeq : BitVec 16
  order : Nat
  data : List Byte
  deriving DecidableEq, Repr

/-- A message for the local port that is not formed while its outbound queue is full (R220). -/
inductive LpWork where
  /-- A RESPONSE of session 0, with `COUNT` 0 where it holds none. -/
  | resps (l : List Resp)
  /-- A NAK of session 0, with the `SEQ` of the refused message. -/
  | nak (c : Code) (ref : Nat)
  /-- A message of no session. -/
  | raw (msg : List Byte)
  deriving DecidableEq, Repr

/-- A message of the event stream that waits for its acknowledgement (R210). -/
structure EventMsg where
  seq : BitVec 16
  trap : Bool
  items : List EventItem
  deriving DecidableEq, Repr

/-- A session slot (chapters 07 and 08). -/
structure Session where
  bound : Bool
  peer : Peer
  route : Route
  kaMs : Nat
  /-- Bindings of the slot since chip reset, 24 bits (R199). -/
  binds : BitVec 24
  nextSeq : BitVec 16
  /-- Operations admitted and not answered: REQ_SEQ and tag (R204). -/
  outstanding : List (BitVec 16 × BitVec 6)
  /-- The replay cache, newest first, at most 64 (R202). -/
  cache : List Resp
  /-- Event items that wait to be sent, oldest first (R210). -/
  events : List EventItem
  /-- Messages sent and not acknowledged, oldest first, at most four. -/
  unacked : List EventMsg
  /-- The sequence number of the next EVENT or TRAP message. -/
  evtSeq : BitVec 16
  drops : Nat
  /-- By share (FAULT and STATE items, TRAP items): an item has been dropped since the share last had room (R211). -/
  dropRun : Bool × Bool
  classes : Word
  srcLo : Word
  srcHi : Word
  /-- Ticks of the last refreshing message, of the last message sent, and of the last event send or resend. -/
  refreshed : Nat
  sentAt : Nat
  evtSentAt : Nat
  /-- The valid nonce: NONCE_ID and its 16 bytes (R226). -/
  nonce : Option (Word × List Byte)
  /-- A candidate of the open election: priority, REQ_SEQ and tag of its claim (R229). -/
  cand : Option (Nat × BitVec 16 × BitVec 6)
  deriving DecidableEq, Repr

/-- The link unit (chapter 07). -/
structure Link where
  ports : Vector LinkPort 2
  /-- The switch's address table, at most 32 entries (R180). -/
  table : List SwEntry
  /-- The identification of the next IPv4 datagram (R186). -/
  ipId : BitVec 16
  sessions : Vector Session 9
  deriving DecidableEq, Repr

/-- Ownership and the local port (chapter 08). -/
structure Ses where
  /-- The tick at which the open election closes (R229). -/
  electEnd : Option Nat
  /-- The entropy source failed its last health test (R226). -/
  entropyBad : Bool
  /-- Messages of the local port's inbound queue, at most 2, with what their operations find outside (R219). They wait
  while WSL is in block reset. -/
  lpIn : List (List Byte × OpEnv)
  /-- Messages of its outbound queue, at most 8 (R220). -/
  lpOut : List (List Byte)
  /-- The head of the outbound queue has been delivered and not acknowledged. -/
  lpDelivered : Bool
  /-- Messages for the local port that wait until the queue has room, oldest first (R220). -/
  lpHeld : List LpWork
  lastGood : Bool
  lastBad : Bool
  deriving DecidableEq, Repr

/-! ### Timers -/

/-- A timer beside its registers (chapter 09). -/
structure Timer where
  count : BitVec 48
  /-- `acc` of R245. -/
  acc : Nat
  /-- The high-water mark of a placement-clocked timer (R243). -/
  hwm : Pc
  deriving DecidableEq, Repr

/-- The timer array (chapter 09). -/
structure Tmr where
  timers : Vector Timer 16
  /-- The accepted levels of the balls AUX_IN0-AUX_IN3, which serve as TCLK0-TCLK3 while enabled (R254). -/
  aux : Vector Bool 4
  /-- By TCLK pin: the tick of the last accepted transition or of the commit that set `EN` (R256). -/
  tclkAt : Vector Nat 4
  /-- The TOUT levels at entry to SLEEP (R257). -/
  toutSaved : BitVec 4
  deriving DecidableEq, Repr

/-! ### Placement -/

/-- The states of a record (R273). -/
inductive RecState where
  | created | latched | printing | final
  deriving DecidableEq, Repr

/-- The outcomes of a record (R28, R274). -/
inductive Verdict where
  | pending | marked | unmarked | incomplete | suspect | bypassed
  deriving DecidableEq, Repr

/-- What a latch freezes for the renderer: the latched set (R278, R401, R423, R428, R430). -/
structure LatchSet where
  job : Word
  markBase : Word
  gcache : Word
  /-- The 64 words of CMP_TEXT0-CMP_TEXT7. -/
  text : List Word
  shelf : Word
  dateOvr : Word
  /-- The calendar: day, second and SET. -/
  day : Nat
  second : Nat
  calSet : Bool
  /-- Shift code at the latch. -/
  shift : List Byte
  /-- The sixteen counter values as the record sees them. -/
  counters : List Word
  deriving DecidableEq, Repr

/-- A product record (R273-R276). -/
structure Rec where
  slot : Nat
  serial : Word
  state : RecState
  verdict : Verdict
  cause : BitVec 16
  edge : Pc
  trigger : Pc
  latch : Pc
  gate : Pc
  /-- Columns of the mark, 0 before the latch; latched `JOB`; latched `PITCH`. -/
  columns : Nat
  job : BitVec 8
  pitch : Nat
  /-- The placement stamp of its latch (R280). -/
  latchAt : Pc
  /-- `E_FIX` and `E_COL` of its reservation (R137, R138). -/
  eFix : Nat
  eCol : Nat
  /-- The next column to be emitted. -/
  col : Nat
  last : Pc
  skips : Nat
  /-- The outcome has been counted (R274). -/
  counted : Bool
  /-- The mark has been abandoned. -/
  abandoned : Bool
  set : Option LatchSet
  /-- The start slot of its render in the swath ring, once one has started (R399). -/
  ring : Option Nat
  deriving DecidableEq, Repr

/-- A deferred write in a lane's queue (R51): target, session, REQ_SEQ and tag of its response, whether the response is
still owed (R113, R200), address and words. -/
structure Deferred where
  target : Pc
  sess : Sess
  seq : BitVec 16
  tag : BitVec 6
  owed : Bool
  addr : Nat
  words : List Word
  deriving DecidableEq, Repr

/-- A lane's placement context (chapter 10). -/
structure LaneSt where
  pc : Pc
  hwm : Pc
  frac : BitVec 16
  /-- Records in flight, oldest first. -/
  recs : List Rec
  /-- The slot of the next record (R275). -/
  nextSlot : Nat
  /-- The edge stamp of the previous record, for the hold-off (R271). -/
  lastEdge : Option Pc
  /-- The last column position of the previous record that was not UNMARKED (R276). -/
  lastCol : Option Pc
  /-- The tick of the latest source count (R284). -/
  countAt : Nat
  /-- The end of the stall window that began there has fallen. -/
  stallDone : Bool
  /-- `PLC.REVERSE` has been committed since the count last stood at the high-water mark (R286). -/
  reversed : Bool
  /-- Deferred writes, in admission order (R51). -/
  deferred : List Deferred
  /-- `COLUMNS` of the selected job (R275, R382). -/
  cols : Nat
  /-- The advance of the running envelope window (R32), and the lane is outside its envelope. -/
  advance : Nat
  outside : Bool
  /-- The span of the running window includes a made-up span of SLEEP. -/
  madeUp : Bool
  deriving DecidableEq, Repr

/-- A master or feedback encoder input: accepted levels, and the decoder's reference (R266). -/
structure EncIn where
  a : Bool
  b : Bool
  z : Bool
  /-- The accepted level of the LOS ball. -/
  los : Bool
  deriving DecidableEq, Repr

/-- The placement unit and its inputs. -/
structure Plc where
  lanes : Vector LaneSt 4
  encs : Vector EncIn 2
  /-- Feedback encoders 0 and 1 of X4 and X5. -/
  fbs : Vector EncIn 2
  /-- Coarse step inputs: accepted STEP and DIR levels. -/
  steps : Vector (Bool × Bool) 2
  /-- Accepted photo-eye levels PE0-PE3. -/
  pe : Vector Bool 4
  deriving DecidableEq, Repr

/-! ### Motion -/

/-- The states of an axis (R292). -/
inductive AxisState where
  | disabled | idle | move | home | gear | halt
  deriving DecidableEq, Repr

/-- The phase of a homing (R305). -/
inductive HomePhase where
  | search | index | stop | fail | park
  deriving DecidableEq, Repr

/-- A linear blend of the ratio (R299). -/
structure Blend where
  rOld : BitVec 64
  rNew : BitVec 64
  k : Nat
  b : Nat
  deriving DecidableEq, Repr

/-- The step of a chopper (R320): driving since a tick, or off since a tick with the peak sampled there. -/
inductive ChopStep where
  | drive (since : Nat)
  | off (since : Nat) (peak : Nat)
  deriving DecidableEq, Repr

/-- One coil of a stepper axis (R316, R321). -/
structure Coil where
  /-- The drive sign is negative. -/
  neg : Bool
  tgt : BitVec 12
  /-- The adaptive offset, two's complement. -/
  off : BitVec 16
  upper : Nat
  lower : Nat
  step : ChopStep
  deriving DecidableEq, Repr

/-- The drive stage of an axis (chapter 12). -/
structure Drive where
  phase : BitVec 10
  cs : Nat
  atceil : Nat
  load : Nat
  coilA : Coil
  coilB : Coil
  standstill : Bool
  /-- The tick from which the standstill delay runs (R325). -/
  ssFrom : Nat
  /-- The tick at which a re-energise ramp ends, while one runs (R327). -/
  rampEnd : Option Nat
  /-- The tick from which emission is allowed after a re-energise (R327). -/
  emitFrom : Nat
  ocOff : Bool
  /-- No full step has ended since the axis left standstill or was enabled (R323). -/
  fresh : Bool
  /-- The tick of the previous full-step end. -/
  stepFrom : Nat
  /-- The interpolator: microsteps still to spread, direction negative, speed and phase (R318). -/
  pend : Nat
  idirNeg : Bool
  iv : Nat
  iph : Nat
  tPrev : Nat
  deriving DecidableEq, Repr

/-- An axis beside its registers (chapter 11). -/
structure AxisSt where
  state : AxisState
  suspect : Bool
  cycle : Bool
  /-- Waiting in `GMODE` 1 (R298). -/
  waiting : Bool
  /-- FAULT_IN is active (R309). -/
  faultNow : Bool
  /-- Command and emitted positions, 64 bits signed. -/
  cmd : BitVec 64
  emit : BitVec 64
  /-- The rate multiplier: `v`, `ph`, `vs`, `vm` in 2^-48 microsteps per tick, and the distance (R295). -/
  v : Nat
  ph : Nat
  vs : Nat
  vm : Nat
  rem : Nat
  dirNeg : Bool
  /-- The move has no target (homing search, R305). -/
  endless : Bool
  home : Option HomePhase
  homeStart : BitVec 64
  homeRef : Option (BitVec 64)
  /-- Gearing: master position and its high-water mark, anchor, fraction, ratio, blend, next cam point (R297-R299). -/
  mpos : Pc
  mhwm : Pc
  anchor : Pc
  gfrac : BitVec 32
  ratio : BitVec 64
  blend : Option Blend
  nextCam : Nat
  cycStart : BitVec 64
  /-- Ticks of the last two emissions, newest first (R296, R302). -/
  lastEmit : Option Nat
  prevEmit : Option Nat
  /-- The level of the DIR output is reverse. -/
  dirOut : Bool
  /-- Following: offset; freeze window: start tick, feedback reference, command position at its start (R306, R307). -/
  fbOff : BitVec 64
  fbWin : Option (Nat × BitVec 32 × BitVec 64)
  /-- Frozen-master window: start tick and reference `mpos` (R308). -/
  mWin : Option (Nat × Pc)
  /-- Parking after HOLD: the cycle must end first, then the move to PARK_POS runs (R303). -/
  parking : Bool
  drive : Drive
  deriving DecidableEq, Repr

/-- The axis bus and the feedback inputs (R310-R312). -/
structure Axb where
  seq : Byte
  /-- No frame has been sent since `EN` was set. -/
  first : Bool
  /-- The tick of the next servo period boundary. -/
  nextAt : Nat
  /-- By servo axis X4, X5: previous set-point, latest set-point, consecutive misses, previous uplink FAULT bit. -/
  prevSet : Vector Word 2
  sent : Vector Word 2
  misses : Vector Nat 2
  upFault : Vector Bool 2
  /-- The tick of the uplink evaluation of the latest frame, until it is made. -/
  evalAt : Option Nat
  deriving DecidableEq, Repr

/-- The motion unit. -/
structure Mot where
  axes : Vector AxisSt 6
  axb : Axb
  deriving DecidableEq, Repr

/-! ### The Hoist -/

/-- The states of a channel (R333). -/
inductive ChanState where
  | disabled | idle | queued | running | waiting | halted
  deriving DecidableEq, Repr

/-- What a WAITING channel waits for (R333, R340, R360, R371). -/
inductive WaitFor where
  /-- Flag `SIG` of its own. -/
  | sig (n : Nat)
  /-- A memory word: address, mask, value, tick of the last read. -/
  | mem (addr : Nat) (mask value : Word) (readAt : Nat)
  /-- A delay that ends at a tick. -/
  | delay (till : Nat)
  /-- An empty Shelf ring, with the tick of the last read. -/
  | empty (readAt : Nat)
  /-- A request on its line. -/
  | request
  deriving DecidableEq, Repr

/-- The patterns of R342. -/
inductive Pattern where
  | linear | twoD | gather | scatter
  deriving DecidableEq, Repr

/-- A transfer in progress or halted (R341): its parameters and the elements already moved, in processing order. -/
structure Xfer where
  pat : Pattern
  esize : Nat
  swap : Nat
  src : Nat
  dst : Nat
  /-- Elements, or elements per row. -/
  n : Nat
  rows : Nat
  sstride : Int
  dstride : Int
  table : Nat
  done : Nat
  /-- What the cursors advance by when it completes, and the address of the next instruction (R358). -/
  advS : Word
  advD : Word
  next : Word
  deriving DecidableEq, Repr

/-- A Shelf descriptor whose transfer runs: bytes 0-3 as read, and the write-back alone is still to be made (R372, R374). -/
structure ShelfRun where
  word0 : Word
  writeBack : Bool
  deriving DecidableEq, Repr

/-- Why a unit started a run: its own due key (R338). -/
inductive RunKind where
  | free
  /-- Due at start plus `DUE`. -/
  | paced (due : Nat)
  /-- A unit start with the unit's own due key. -/
  | unit
  deriving DecidableEq, Repr

/-- A channel beside its registers (chapters 13 and 14). -/
structure ChanSt where
  state : ChanState
  pendStart : Option RunKind
  kind : RunKind
  /-- The key order of its entry to QUEUED, for run-to-completion (R339). -/
  queuedAt : Nat
  pos : Word
  cs : Word
  cd : Word
  lc : Vector (BitVec 16) 4
  /-- The transfer of the current instruction or descriptor, while one is in progress or halted. -/
  xfer : Option Xfer
  shelf : Option ShelfRun
  wait : Option WaitFor
  head : Nat
  /-- The descriptor sequence count (R372). -/
  seqCount : Word
  /-- The completion is ready and has not committed (R338). -/
  ready : Bool
  /-- A late marker has been committed for the run (R338). -/
  late : Bool
  /-- ABORT has been taken in RUNNING and waits for the bursts already issued; the state at the ABORT (R353). -/
  aborting : Bool
  /-- The last destination address written by the run, for the confirming read (R349). -/
  lastDst : Option Nat
  /-- The run has been dropped by DISABLE: residue and position read as all ones (R352). -/
  dropped : Bool
  deriving DecidableEq, Repr

/-- The Hoist. -/
structure Hst where
  chans : Vector ChanSt 24
  /-- By shaft: the channel it runs under run-to-completion, and the channel served last (R339). -/
  running : Vector (Option Chan) 4
  served : Vector (Option Chan) 4
  deriving DecidableEq, Repr

/-! ### Crates -/

/-- Beside its registers, what a verification entry keeps: the crate's length and the order in which entries were written (R389). -/
structure VerEntry where
  length : Nat
  age : Nat
  deriving DecidableEq, Repr

/-- A verification that runs (R388). -/
structure VerRun where
  crate : Nat
  /-- A commit has invalidated the crate while it runs (R389). -/
  changed : Bool
  deriving DecidableEq, Repr

/-- Crate verification (chapter 15). -/
structure Crates where
  entries : Vector VerEntry 8
  nextAge : Nat
  run : Option VerRun
  deriving DecidableEq, Repr

/-! ### Compositor and calendar -/

/-- A render that has started and has not reached its render commit (R412). -/
structure Render where
  lane : Lane
  serial : Word
  /-- Tasks it needs: one, plus one per box once its layout header is read. -/
  need : Nat
  /-- Tasks it holds. -/
  tasks : Nat
  /-- A read of its layout header received an error response, so it cannot complete (R414). -/
  failed : Bool
  deriving DecidableEq, Repr

/-- The compositor (chapter 16) beside its registers. -/
structure Cmp where
  /-- By lane: the ring cursor `NEXT` (R399). -/
  next : Vector Nat 4
  /-- Renders of all lanes in the key order of their starts. -/
  renders : List Render
  /-- By lane: the slot that renders for it, as it stood last (R399: `NEXT` restarts when the lane takes a slot). -/
  slots : Vector (Option (Fin 4)) 4
  deriving DecidableEq, Repr

/-- The calendar and the checkpoints (chapter 17) beside their registers. -/
structure Cal where
  day : Nat
  second : Nat
  isSet : Bool
  /-- `VAL` and `LAST_DAY` of the sixteen counters as the last checkpoint that switched holds them (R433). -/
  ckpt : List Word
  deriving DecidableEq, Repr

/-! ### Head ports -/

/-- The states of a head port (R443). -/
inductive HedState where
  | off | absent | ident | mismatch | power | ready | parked | fault
  deriving DecidableEq, Repr

/-- For what a firing is made (R452, R461, R475, R483). -/
inductive FireFor where
  /-- Emission `k` of the record of a serial number. -/
  | column (serial : Word) (k : Nat)
  | service
  | shot (nozzle : Nat)
  | spit
  deriving DecidableEq, Repr

/-- A firing that has been decided and has not reached its sample boundary (R452). -/
structure Firing where
  f : Nat
  use : FireFor
  /-- The drop codes in frame order. -/
  codes : List Nat
  /-- `AMP_SCALE` and `T_SCALE` at the emission's key (R457). -/
  amp : Nat
  tsc : Nat
  deriving DecidableEq, Repr

/-- A head port beside its registers (chapter 18). -/
structure HedSt where
  state : HedState
  /-- The accepted level of `Hn_PRESENT`. -/
  level : Bool
  /-- The tick at which the timed step of the state ends: `PRES_SETTLE`, the identity measurement, `T_LOGIC` or `T_HV`. -/
  stepEnd : Option Nat
  /-- In POWER: `T_LOGIC` has ended. -/
  logicOn : Bool
  headEn : Bool
  hvEn : Bool
  /-- The tick at which CK started, while it runs. -/
  ckStart : Option Nat
  fLast : Option Nat
  seq : Byte
  wfBad : Bool
  /-- Firings decided and not yet made, in time order. -/
  firings : List Firing
  /-- Service firing: firings left and the tick of the next one (R461). -/
  svc : Option (Nat × Nat)
  svcBuf : List Byte
  /-- The stream buffer: samples (R460). -/
  stream : List (BitVec 16)
  deriving DecidableEq, Repr

/-! ### Head health -/

/-- The heater states (R464). -/
inductive HeatState where
  | idle | energyWait | warming | regulating | holding | tripped | paused
  deriving DecidableEq, Repr

/-- A drop-gate scan that runs (R474-R476). -/
structure Scan where
  /-- Nozzles still to shoot, the head of the list first; `shots` of the head remain. -/
  todo : List Nat
  shots : Nat
  /-- The tick of the next shot. -/
  nextAt : Nat
  /-- The windows of the shots that may still score: nozzle, start and end tick, and whether it has scored. -/
  windows : List (Nat × Nat × Nat × Bool)
  /-- The scan end: the window end of the last shot, once it has been made. -/
  endAt : Option Nat
  /-- Hits by nozzle, in scan order. -/
  hits : List (Nat × Nat)
  deriving DecidableEq, Repr

/-- A keep-wet burst that runs: firings made, tick of the next (R483). -/
structure Burst where
  g : Nat
  nextAt : Nat
  deriving DecidableEq, Repr

/-- A health unit beside its registers (chapter 19). -/
structure HltSt where
  heat : HeatState
  acc : Nat
  /-- The duty in force, and the duty that the next PWM period takes. -/
  duty : Nat
  dutyNext : Nat
  /-- Duties of the last 64 good periods, newest first (R466). -/
  good : List Nat
  /-- The freeze window: start tick and reference code (R468). -/
  freeze : Option (Nat × Nat)
  /-- HOLDING: entry tick, the frozen reference when the cause was a freeze, in-range codes in a row (R469). -/
  hold : Option (Nat × Option Nat × Nat)
  /-- The tick of entry to WARMING (R470). -/
  warmAt : Nat
  band : Bool
  scan : Option Scan
  burst : Option Burst
  /-- The tick from which the keep-wet wait runs, and whether a burst has been made since the last emission (R482). -/
  idleFrom : Nat
  spat : Bool
  /-- The working map, by nozzle; an unlisted nozzle is GOOD with `SUB_EN` = 0 (R478). -/
  map : Tab (BitVec 16)
  /-- Hits of the last scan, by nozzle. -/
  hits : Tab Nat
  /-- Lifetime fire counts, by nozzle (R484). -/
  fires : Tab (BitVec 48)
  /-- A count has changed since the last fire-count save (R485). -/
  firesDirty : Bool
  mapSeq : Word
  fireSeq : Word
  deriving DecidableEq, Repr

/-! ### Reject line -/

/-- The end of a reject window (R490). -/
inductive WinEnd where
  | pos (p : Pc)
  | time (t : Nat)
  deriving DecidableEq, Repr

/-- A lane's reject context (chapter 20) beside its registers. -/
structure RejLane where
  window : Option WinEnd
  /-- The end of the latest window: a new one before it plus `GAP` merges (R490). -/
  lastEnd : Option WinEnd
  forceOverrun : Bool
  forceFull : Bool
  /-- The unrecorded span: its end position (R169, R287). -/
  span : Option Pc
  /-- A span waits for the first placement stamp at which the lane has a job selected. -/
  spanDue : Bool
  /-- Readback: tick of the sample that follows the last change, and the last sample differed (R496). -/
  rbAt : Option Nat
  rbDiffers : Bool
  /-- The driven level as last emitted; none while undriven (R488). -/
  drive : Option Bool
  deriving DecidableEq, Repr

/-- Reject outputs and line signals. -/
structure Rej where
  lanes : Vector RejLane 4
  /-- Last sampled levels of the reject balls (R502). -/
  pins : BitVec 4
  live : Bool
  /-- The tick of the next LIVE edge, from `BOOT_DONE` on. -/
  liveAt : Option Nat
  /-- The filtered level of INHIBIT_N. -/
  inhibit : Bool
  /-- The levels of READY, IRQ_OUT and ERR_OUT as last emitted; asserted is true (R120, R498, R500). -/
  ready : Bool
  irq : Bool
  err : Bool
  deriving DecidableEq, Repr

/-! ### Hatch -/

/-- The lane states (R503). -/
inductive LaneState where
  | open_ | closing | inService | draining
  deriving DecidableEq, Repr

/-- An entry of the lease table (R510-R516). -/
structure Lease where
  holder : Byte
  restore : Byte
  revoked : Bool
  /-- The party whose reset set `restore`. -/
  by_ : Option Nat
  /-- The holder that received the lease at a re-recording; 0 after a revocation (R515). -/
  heir : Byte
  deriving DecidableEq, Repr

/-- The Hatch and the lease table (chapter 21) beside their registers. -/
structure Hat where
  lanes : Vector LaneState 4
  /-- By lane: the tick at which `CLOSE_WAIT` ends, while CLOSING. -/
  closeEnd : Vector (Option Nat) 4
  leases : Vector Lease 66
  deriving DecidableEq, Repr

/-! ### Outputs -/

/-- What leaves the GL4480: the model's own record of messages, frames and pulses, newest first. -/
inductive Emit where
  /-- A response to a session. -/
  | resp (sess : Sess) (r : Resp)
  /-- A frame forwarded or sent on a link port: port (0 A, 1 B, 2 I) and bytes. -/
  | frame (port : Nat) (bytes : List Byte)
  /-- The bytes that a transaction of the local port returns (R217, R218). -/
  | local_ (bytes : List Byte)
  /-- A nozzle-data frame: head, tick, type and drop codes or trims (R455). -/
  | nozzles (h : Head) (f : Nat) (type : Nat) (seq : Byte) (codes : List Nat)
  /-- The waveform of a firing: head, tick, samples (R457, R460). -/
  | wave (h : Head) (f : Nat) (samples : List (BitVec 16))
  /-- A step of an axis, forward or reverse. -/
  | step (x : Axis) (tick : Nat) (reverse : Bool)
  /-- An axis-bus frame (R310). -/
  | axisBus (bytes : List Byte)
  /-- Bytes sent to the flash under one chip select (R89, R90). -/
  | flash (bytes : List Byte)
  /-- A pin level: ball name and level; none is undriven. -/
  | pin (ball : String) (level : Option Bool)
  deriving DecidableEq, Repr

/-! ### The machine -/

/-- The state of the GL4480 and the queue of commands that wait. -/
structure State where
  /-- The admission tick counter (R41). -/
  tick : Nat
  /-- The order stamp of the latest commit; 0 before the first (R10). -/
  order : Nat
  /-- The registers, by address; what an unlisted register reads as is `regReset` (R15). -/
  regs : Tab Word
  /-- The wrap guards, by register address (R57). -/
  guards : Tab Nat
  /-- Timed events that fall at multiples of a period: the tick of the latest one, by event number. -/
  fired : Tab Nat
  flt : Collector
  boot : Boot
  pwr : Pantry
  mem : Mem
  lnk : Link
  ses : Ses
  tmr : Tmr
  plc : Plc
  mot : Mot
  hst : Hst
  crates : Crates
  cmp : Cmp
  cal : Cal
  hed : Vector HedSt 4
  hlt : Vector HltSt 4
  rej : Rej
  hat : Hat
  /-- The number of free values drawn so far (the model's own field: Config.lean). -/
  free : Nat
  /-- What has left the GL4480, newest first (the model's own field). -/
  out : List Emit
  /-- The commands that wait, first in, first out. -/
  pending : List Instr
  deriving DecidableEq, Repr

namespace State

/-- A timer after reset. -/
def timer0 : Timer := ⟨0, 0, 0⟩

/-- An encoder input with every level low. -/
def enc0 : EncIn := ⟨false, false, false, false⟩

/-- A lane's placement context after reset (R275: `PC` and `HWM` are 0). -/
def lane0 : LaneSt :=
  { pc := 0, hwm := 0, frac := 0, recs := [], nextSlot := 0, lastEdge := none, lastCol := none, countAt := 0,
    stallDone := false, reversed := false, deferred := [], advance := 0, outside := false, madeUp := false, cols := 0 }

/-- A coil after reset. -/
def coil0 : Coil := ⟨false, 0, 0, 0, 0, .drive 0⟩

/-- A drive stage after reset. -/
def drive0 : Drive :=
  { phase := 0, cs := 0, atceil := 0, load := 0, coilA := coil0, coilB := coil0, standstill := true, ssFrom := 0,
    rampEnd := none, emitFrom := 0, ocOff := false, fresh := true, stepFrom := 0, pend := 0, idirNeg := false, iv := 0, iph := 0,
    tPrev := 0 }

/-- An axis after reset. -/
def axis0 : AxisSt :=
  { state := .disabled, suspect := true, cycle := false, waiting := false, faultNow := false, cmd := 0, emit := 0,
    v := 0, ph := 0, vs := 0, vm := 0, rem := 0, dirNeg := false, endless := false, home := none, homeStart := 0,
    homeRef := none, mpos := 0, mhwm := 0, anchor := 0, gfrac := 0, ratio := 0, blend := none, nextCam := 0,
    cycStart := 0, lastEmit := none, prevEmit := none, dirOut := false, fbOff := 0, fbWin := none, mWin := none,
    parking := false, drive := drive0 }

/-- A Hoist channel after reset. -/
def chan0 : ChanSt :=
  { state := .disabled, pendStart := none, kind := .free, queuedAt := 0, pos := 0, cs := 0, cd := 0,
    lc := Vector.replicate 4 0, xfer := none, shelf := none, wait := none, head := 0, seqCount := 0, ready := false,
    late := false, aborting := false, lastDst := none, dropped := false }

/-- A free session slot. -/
def sess0 : Session :=
  { bound := false, peer := .lp, route := ⟨0, 0, none⟩, kaMs := 0, binds := 0, nextSeq := 0, outstanding := [], cache := [],
    events := [], unacked := [], evtSeq := 0, drops := 0, dropRun := (false, false), classes := 0, srcLo := 0, srcHi := 0,
    refreshed := 0, sentAt := 0, evtSentAt := 0, nonce := none, cand := none }

/-- A head port after reset (R443). -/
def hed0 : HedSt :=
  { state := .off, level := false, stepEnd := none, logicOn := false, headEn := false, hvEn := false, ckStart := none,
    fLast := none, seq := 0, wfBad := false, firings := [], svc := none, svcBuf := [], stream := [] }

/-- A health unit after reset (R464). -/
def hlt0 : HltSt :=
  { heat := .idle, acc := 0, duty := 0, dutyNext := 0, good := [], freeze := none, hold := none, warmAt := 0,
    band := false, scan := none, burst := none, idleFrom := 0, spat := false, map := [], hits := [], fires := [],
    firesDirty := false, mapSeq := 0, fireSeq := 0 }

/-- A lane's reject context after reset: its unrecorded span waits for a job (R169). -/
def rejLane0 (fitted : Bool) : RejLane :=
  { window := none, lastEnd := none, forceOverrun := false, forceFull := false, span := none, spanDue := fitted, rbAt := none,
    rbDiffers := false, drive := none }

/-- The lease table when chip reset completes, with `n` fitted lanes (R517). -/
def leases0 (n : Nat) : Vector Lease 66 :=
  Vector.ofFn fun r =>
    let h : Byte :=
      if 12 ≤ r.val ∧ r.val < 12 + n then BitVec.ofNat 8 (0x10 + (r.val - 12))
      else if 40 ≤ r.val ∧ r.val < 40 + n then BitVec.ofNat 8 (0x10 + (r.val - 40))
      else 0x01
    ⟨h, 0, false, none, 0⟩

/-- The GL4480 when chip reset completes after power-on (R15, R160 cause 1, R164 step 4): tick 0, order stamp 0, every
register at its reset value, the Pantry in CHARGE with the rails up, bring-up not yet begun. The strap levels, the
memories outside the chip and the levels at the balls are the model's choice (NOTES.md, Assumptions). -/
def reset : State :=
  { tick := 0, order := 0,
    regs := [(Reg.DEV_RESET_CAUSE, 1), (Reg.DEV_RESET_COUNT, 1)],
    guards := [], fired := [],
    flt := { bin := none, quietEnd := [], winStart := [], errMinEnd := none, trapEnd := none, inReset := [], held := [],
             resetPending := none, due := [] },
    boot := { phase := .bringup, straps := Vector.replicate 4 ⟨0, false⟩, coldCause := 1, resetPin := false,
              reqAt := none, scanHeld := false, resetOut := false, claimWaitEnd := none, doneAt := 0,
              vioOk := true },
    pwr := { state := .charge, holdFrom := .charge, classRead := true, granted := 10, pgood := true, samples := [],
             vNow := 4400, iNow := 0, bNow := 0, fullStop := false, chargeK := 0, duty := 0, capArmed := false,
             capQ := none, live := [], spent := [], refused := false, railEn := true, retry := false,
             backCount := 0, parked := false, finalCkpt := none, slowTicks := 0 },
    mem := { larder := [], scrub := [], cellar := [], loft := [], tables := [], celRun := none, staged := [], heldOps := [], wear := 0 },
    lnk := { ports := Vector.replicate 2 ⟨false, false⟩, table := [], ipId := 0, sessions := Vector.replicate 9 sess0 },
    ses := { electEnd := none, entropyBad := false, lpIn := [], lpOut := [], lpDelivered := false, lpHeld := [],
             lastGood := false, lastBad := false },
    tmr := { timers := Vector.replicate 16 timer0, aux := Vector.replicate 4 false, tclkAt := Vector.replicate 4 0,
             toutSaved := 0 },
    plc := { lanes := Vector.replicate 4 lane0, encs := Vector.replicate 2 enc0, fbs := Vector.replicate 2 enc0,
             steps := Vector.replicate 2 (false, false), pe := Vector.replicate 4 false },
    mot := { axes := Vector.replicate 6 axis0,
             axb := { seq := 0, first := true, nextAt := 0, prevSet := Vector.replicate 2 0, sent := Vector.replicate 2 0,
                      misses := Vector.replicate 2 0, upFault := Vector.replicate 2 false, evalAt := none } },
    hst := { chans := Vector.replicate 24 chan0, running := Vector.replicate 4 none, served := Vector.replicate 4 none },
    crates := { entries := Vector.replicate 8 ⟨0, 0⟩, nextAge := 0, run := none },
    cmp := { next := Vector.replicate 4 0, renders := [], slots := Vector.replicate 4 none },
    cal := { day := 0, second := 0, isSet := false, ckpt := [] },
    hed := Vector.replicate 4 hed0,
    hlt := Vector.replicate 4 hlt0,
    rej := { lanes := Vector.replicate 4 (rejLane0 true), pins := 0, live := false, liveAt := none, inhibit := true,
             ready := false, irq := false, err := false },
    hat := { lanes := Vector.replicate 4 .open_, closeEnd := Vector.replicate 4 none, leases := leases0 4 },
    free := 0, out := [], pending := [] }

end State

end Sys2Proof.Machine
end

