-- ==== Sys2Proof/Machine/Ops.lean ====
section
/-! DEFINITION. The named operations over registers and the parts of State: reading and writing a register and its
fields, commits and order stamps (R10, R45), saturating counters, and one getter and one update per part. -/

namespace Sys2Proof.Machine

namespace State

/-- The value a register holds. -/
def reg (s : State) (a : Nat) : Word := Tab.get regReset s.regs a

/-- A register set whole. -/
def setReg (s : State) (a : Nat) (v : Word) : State := { s with regs := Tab.set regReset s.regs a v }

/-- Bits [hi:lo] of a register. -/
def fld (s : State) (a hi lo : Nat) : Nat := bits (s.reg a) hi lo

/-- Bit [n] of a register. -/
def rbit (s : State) (a n : Nat) : Bool := bit (s.reg a) n

/-- A field of a register set. -/
def setFld (s : State) (a hi lo v : Nat) : State := s.setReg a (putBits (s.reg a) hi lo v)

/-- A commit: the next order stamp is given (R10, R45). -/
def commit (s : State) : State := { s with order := s.order + 1 }

/-- A 32-bit counter that saturates. -/
def bump (s : State) (a : Nat) : State :=
  if s.reg a = 0xFFFFFFFF then s else s.setReg a (s.reg a + 1)

/-- A saturating counter in bits [hi:lo] of a register. -/
def bumpFld (s : State) (a hi lo : Nat) : State :=
  if s.fld a hi lo = 2 ^ (hi + 1 - lo) - 1 then s else s.setFld a hi lo (s.fld a hi lo + 1)

/-- Something leaves the GL4480. -/
def emit (s : State) (e : Emit) : State := { s with out := e :: s.out }

/-- The tick of the latest event of number `k` among those that fall at multiples of a period. -/
def firedAt (s : State) (k : Nat) : Nat := Tab.get (fun _ => 0) s.fired k

/-- Record the tick of such an event. -/
def setFired (s : State) (k t : Nat) : State := { s with fired := Tab.set (fun _ => 0) s.fired k t }

/-- The tick of the next event of number `k`, which falls every `p` ticks from `base`: the present tick when it is due
and has not been taken, else the next multiple. -/
def dueAt (s : State) (k base p : Nat) : Nat :=
  if p = 0 then s.tick
  else if base < s.tick ∧ (s.tick - base) % p = 0 ∧ s.firedAt k < s.tick then s.tick
  else nextMultiple base p s.tick

/-- One more free value is drawn (Config.lean): its number, and the state after. -/
def drawFree (s : State) : Nat × State := (s.free, { s with free := s.free + 1 })

/-! ### Parts of the state -/

def lane (s : State) (n : Lane) : LaneSt := s.plc.lanes[n]
def setLane (s : State) (n : Lane) (l : LaneSt) : State := { s with plc := { s.plc with lanes := s.plc.lanes.set n l } }
def modLane (s : State) (n : Lane) (f : LaneSt → LaneSt) : State := s.setLane n (f (s.lane n))

def head (s : State) (h : Head) : HedSt := s.hed[h]
def setHead (s : State) (h : Head) (x : HedSt) : State := { s with hed := s.hed.set h x }
def modHead (s : State) (h : Head) (f : HedSt → HedSt) : State := s.setHead h (f (s.head h))

def health (s : State) (h : Head) : HltSt := s.hlt[h]
def setHealth (s : State) (h : Head) (x : HltSt) : State := { s with hlt := s.hlt.set h x }
def modHealth (s : State) (h : Head) (f : HltSt → HltSt) : State := s.setHealth h (f (s.health h))

def axis (s : State) (x : Axis) : AxisSt := s.mot.axes[x]
def setAxis (s : State) (x : Axis) (a : AxisSt) : State := { s with mot := { s.mot with axes := s.mot.axes.set x a } }
def modAxis (s : State) (x : Axis) (f : AxisSt → AxisSt) : State := s.setAxis x (f (s.axis x))

def chan (s : State) (c : Chan) : ChanSt := s.hst.chans[c]
def setChan (s : State) (c : Chan) (x : ChanSt) : State := { s with hst := { s.hst with chans := s.hst.chans.set c x } }
def modChan (s : State) (c : Chan) (f : ChanSt → ChanSt) : State := s.setChan c (f (s.chan c))

def timer (s : State) (t : TimerId) : Timer := s.tmr.timers[t]
def setTimer (s : State) (t : TimerId) (x : Timer) : State := { s with tmr := { s.tmr with timers := s.tmr.timers.set t x } }
def modTimer (s : State) (t : TimerId) (f : Timer → Timer) : State := s.setTimer t (f (s.timer t))

def sess (s : State) (i : Sess) : Session := s.lnk.sessions[i]
def setSess (s : State) (i : Sess) (x : Session) : State := { s with lnk := { s.lnk with sessions := s.lnk.sessions.set i x } }
def modSess (s : State) (i : Sess) (f : Session → Session) : State := s.setSess i (f (s.sess i))

def rejLane (s : State) (n : Lane) : RejLane := s.rej.lanes[n]
def setRejLane (s : State) (n : Lane) (x : RejLane) : State := { s with rej := { s.rej with lanes := s.rej.lanes.set n x } }
def modRejLane (s : State) (n : Lane) (f : RejLane → RejLane) : State := s.setRejLane n (f (s.rejLane n))

def laneState (s : State) (n : Lane) : LaneState := s.hat.lanes[n]
def setLaneState (s : State) (n : Lane) (x : LaneState) : State := { s with hat := { s.hat with lanes := s.hat.lanes.set n x } }

def modPwr (s : State) (f : Pantry → Pantry) : State := { s with pwr := f s.pwr }
def modFlt (s : State) (f : Collector → Collector) : State := { s with flt := f s.flt }
def modBoot (s : State) (f : Boot → Boot) : State := { s with boot := f s.boot }
def modMem (s : State) (f : Mem → Mem) : State := { s with mem := f s.mem }
def modCmp (s : State) (f : Cmp → Cmp) : State := { s with cmp := f s.cmp }
def modCal (s : State) (f : Cal → Cal) : State := { s with cal := f s.cal }
def modRej (s : State) (f : Rej → Rej) : State := { s with rej := f s.rej }
def modHat (s : State) (f : Hat → Hat) : State := { s with hat := f s.hat }
def modHst (s : State) (f : Hst → Hst) : State := { s with hst := f s.hst }
def modPlc (s : State) (f : Plc → Plc) : State := { s with plc := f s.plc }
def modTmr (s : State) (f : Tmr → Tmr) : State := { s with tmr := f s.tmr }
def modSes (s : State) (f : Ses → Ses) : State := { s with ses := f s.ses }
def modLnk (s : State) (f : Link → Link) : State := { s with lnk := f s.lnk }

/-! ### Facts that the straps give -/

/-- The number of fitted lanes (R156). -/
def fittedCount (s : State) : Nat := 4 - s.boot.straps[0].level.toNat / 2

/-- Lane n is fitted (R156). -/
def fitted (s : State) (n : Lane) : Bool := decide (n.val < s.fittedCount)

/-- The strap mode: 0 hosted, 1 standalone, 2 service (R159). -/
def strapMode (s : State) : Nat :=
  let l := s.boot.straps[2].level.toNat
  if l ≤ 1 then 0 else if l ≤ 3 then 1 else 2

/-- Local precedence (R159). -/
def localPrec (s : State) : Bool :=
  let l := s.boot.straps[2].level.toNat
  decide (l = 1 ∨ l = 3 ∨ l = 5)

/-- The class offered (R129). -/
def offered (s : State) : Nat :=
  let l := s.boot.straps[3].level.toNat
  if l ≤ 5 then 10 + l else 10

/-- The core runs: commits are made. -/
def coreOn (s : State) : Bool :=
  match s.boot.phase with
  | .bringup => true
  | .running => true
  | _ => false

/-- `BOOT_DONE` (R167). -/
def booted (s : State) : Bool := decide (s.boot.phase = .running)

/-- `COL_BYTES` of the lane's swath ring (R398). -/
def colBytes (s : State) (n : Lane) : Nat := 64 * (s.fld (Reg.CMP_RING_CFG n) 9 8 + 1)

/-- `RING_COLS` of the lane's swath ring (R398). -/
def ringCols (s : State) (n : Lane) : Nat := 2 ^ (8 + s.fld (Reg.CMP_RING_CFG n) 2 0)

/-- `MAX_RATE` of a lane; 0 while no job is selected (R36). -/
def maxRate (s : State) (n : Lane) : Nat := s.fld (Reg.DEV_ENV_RATE n) 23 0

/-- The axis that carries a lane, if one does (R290). -/
def carryAxis (s : State) (n : Lane) : Option Axis :=
  allAxes.find? fun x => s.rbit (Reg.MOT_CFG x) 12 && decide (s.fld (Reg.MOT_CFG x) 9 8 = n.val)

end State

end Sys2Proof.Machine
end

