-- ==== Sys2Proof/Machine/Flags.lean ====
section
/-! DEFINITION. Event flags: the hardware set with its generation and wrap guard (R13, R57), and the
generation-checked clear (R13, R20, R57, R59). -/

namespace Sys2Proof.Machine

namespace State

/-- The wrap guard of a register (R57). -/
def guard (s : State) (a : Nat) : Nat := Tab.get (fun _ => 0) s.guards a

/-- A wrap guard set. -/
def setGuard (s : State) (a k : Nat) : State := { s with guards := Tab.set (fun _ => 0) s.guards a k }

/-- A hardware set: the flags of `mask` are set, the generation in bits [31:28] advances by one, and the wrap guard
counts it up to 16 (R13, R57). One call is one commit's set of the register. -/
def setFlags (s : State) (a : Nat) (mask : Word) : State :=
  let w := s.reg a
  let s1 := s.setReg a (putBits (w ||| mask) 31 28 ((bits w 31 28 + 1) % 16))
  s1.setGuard a (if s.guard a < 16 then s.guard a + 1 else 16)

/-- A hardware set of one flag. -/
def setFlag (s : State) (a n : Nat) : State := s.setFlags a (word (2 ^ n))

/-- The generation of `v` is current and the guard of the register stands below 16 (R57). -/
def clearFresh (s : State) (a : Nat) (v : Word) : Bool :=
  decide (bits v 31 28 = bits (s.reg a) 31 28) && decide (s.guard a < 16)

/-- The flags of `v` within `w1g` cleared; the generation stays (R13). -/
def clearFlags (s : State) (a : Nat) (v w1g : Word) : State := s.setReg a (s.reg a &&& ~~~(v &&& w1g))

/-- The stale-clear counter of the block of register `a` (R59). -/
def staleOf (a : Nat) : Nat := Reg.BLOCK_STALE (a / 0x1000)

end State

end Sys2Proof.Machine
end

