-- ==== Sys2Proof/Machine/Memory.lean ====
section
/-! DEFINITION. The memories: regions and ports of the address map (R68, R549), the Larder with its void tags (R74-R79),
the Cellar and Loft windows (R84, R92), and the table windows with their contents at reset (R71, R109, R314). The
functions here are pure; the messages that a failed read raises are in Machine/Faults.lean. -/

namespace Sys2Proof.Machine

/-! ### The address map -/

/-- The regions of R68. -/
inductive Region where
  | register | table | larder | cellar | loft | none
  deriving DecidableEq, Repr

/-- The window of the Cellar that is configured, in bytes (R84). -/
def cellarSize (s : State) : Nat := 2 ^ s.fld Reg.MEM_CEL_CFG 23 20 * 0x100000

/-- The region of a byte address; a Cellar address beyond the configured size lies in none (R68, R69). -/
def regionOf (s : State) (a : Nat) : Region :=
  if a < 0x10000 then .register
  else if 0x80000 ≤ a ∧ a < 0x100000 then .table
  else if 0x10000000 ≤ a ∧ a < 0x10400000 then .larder
  else if 0x20000000 ≤ a ∧ a < 0x20000000 + cellarSize s then .cellar
  else if 0x40000000 ≤ a ∧ a < 0x40040000 then .loft
  else .none

/-- The allocated part of the table windows (R71). -/
def tableAllocated (a : Nat) : Bool :=
  decide ((0x80000 ≤ a ∧ a < 0x84000) ∨ (0x90000 ≤ a ∧ a < 0xA0000) ∨ (0xA0000 ≤ a ∧ a < 0xA1800) ∨
    (0xB0000 ≤ a ∧ a < 0xB1000) ∨ (0xC0000 ≤ a ∧ a < 0xD0000))

/-- A word of an allocated table window that the table's own chapter lists, rather than an unused one (R69, R108, R314). -/
def tableUsed (a : Nat) : Bool :=
  if 0x80000 ≤ a ∧ a < 0x84000 then decide (a % 0x1000 < 0x400)
  else if 0xB0000 ≤ a ∧ a < 0xB1000 then decide ((a - 0xB0000) / 0x40 < 36 ∧ (a % 0x40) < 12)
  else tableAllocated a

/-- The port that serves a register block address (R549). -/
def regPort (a : Nat) : Nat :=
  match a / 0x1000 with
  | 0 => if 0x310 ≤ a ∧ a < 0x324 then 1 else 0
  | 1 => 9
  | 2 => 8
  | 3 => 5
  | 4 => 0
  | 5 => 10
  | 6 =>
    if a < 0x6400 then 14 + (a - 0x6000) / 0x100 else if a < 0x6480 then 32 + (a - 0x6400) / 0x40 else 14
  | 7 => if a < 0x7600 then 26 + (a - 0x7000) / 0x100 else 30
  | 8 => 11
  | 9 => 12
  | 10 => 13
  | 11 => if a < 0xB400 then 18 + (a - 0xB000) / 0x100 else 18
  | 12 => if a < 0xC400 then 22 + (a - 0xC000) / 0x100 else 22
  | 13 => 34
  | 14 => 35
  | _ => if a < 0xF040 ∨ a = 0xFFFC then 2 else if (0xF080 ≤ a ∧ a < 0xF100) then 4 else 3

/-- The Ladder port through which an address is served (R549); unused register and table addresses go to port 0. -/
def portOf (s : State) (a : Nat) : Nat :=
  match regionOf s a with
  | .register => if (regAt a).isSome then regPort a else 0
  | .table =>
    if !tableUsed a then 0
    else if a < 0x84000 then 26 + (a - 0x80000) / 0x1000
    else if a < 0xA0000 then 18 + (a - 0x90000) / 0x4000
    else if a < 0xA1800 then 26 + (a - 0xA0000) / 0x400
    else if a < 0xB1000 then 0
    else 12
  | .larder => 2
  | .cellar => 3
  | .loft => 4
  | .none => 0

/-- A Ladder port is isolated (R61). -/
def State.isolated (s : State) (p : Nat) : Bool :=
  if p < 32 then s.rbit Reg.DEV_LAD_ISO_LO p else s.rbit Reg.DEV_LAD_ISO_HI (p - 32)

/-! ### The Larder -/

/-- The first byte of a Larder word. -/
def larderBase : Nat := 0x10000000

/-- The index of the 64-bit word that holds a Larder byte address (R74). -/
def larderIdx (a : Nat) : Nat := (a - larderBase) / 8

/-- The bank of a Larder byte address (R74). -/
def bankOf (a : Nat) : Nat := (a - larderBase) / 0x40000

/-- What an unlisted Larder word reads as: void (R78). -/
def voidWord : Nat → Option (BitVec 64) := fun _ => none

/-- A Larder word: its data, or none while it is void. -/
def Mem.word64 (m : Mem) (i : Nat) : Option (BitVec 64) := Tab.get voidWord m.larder i

/-- A Larder word set. -/
def Mem.setWord64 (m : Mem) (i : Nat) (v : Option (BitVec 64)) : Mem := { m with larder := Tab.set voidWord m.larder i v }

/-- Every word of a bank becomes void (R78). -/
def Mem.voidBank (m : Mem) (b : Nat) : Mem := { m with larder := Tab.clear m.larder (fun i => i / 32768 == b) }

/-- Every Larder word becomes void (R78). -/
def Mem.voidAll (m : Mem) : Mem := { m with larder := [] }

/-- `n` bytes of a 64-bit word from byte `o` on. -/
def sliceWord (v : BitVec 64) (o n : Nat) : Nat := (v.toNat >>> (8 * o)) % 2 ^ (8 * n)

/-- A 64-bit word with `n` bytes from byte `o` on replaced. -/
def mergeWord (v : BitVec 64) (o n x : Nat) : BitVec 64 :=
  let m := BitVec.ofNat 64 ((2 ^ (8 * n) - 1) <<< (8 * o))
  (v &&& ~~~m) ||| (BitVec.ofNat 64 (x <<< (8 * o)) &&& m)

/-- A write of `n` bytes at byte address `a` of the Larder: a narrower write to a void word fills the rest with 0x00
(R78). The access does not cross a word (R70). -/
def Mem.writeLarder (m : Mem) (a n x : Nat) : Mem :=
  let i := larderIdx a
  m.setWord64 i (some (mergeWord ((m.word64 i).getD 0) (a % 8) n x))

/-- Bytes written one by one from address `a` on. -/
def Mem.writeLarderBytes (m : Mem) (a : Nat) : List Byte → Mem
  | [] => m
  | b :: rest => (m.writeLarder a 1 b.toNat).writeLarderBytes (a + 1) rest

/-- 32-bit words written from address `a` on. -/
def Mem.writeLarderWords (m : Mem) (a : Nat) : List Word → Mem
  | [] => m
  | w :: rest => (m.writeLarder a 4 w.toNat).writeLarderWords (a + 4) rest

/-! ### The Cellar and the Loft -/

/-- What an erased byte of the flash and a blank byte of the Loft read as. -/
def blankByte : Nat → Byte := fun _ => 0xFF

/-- A byte of the Cellar flash. -/
def Mem.cellarByte (m : Mem) (a : Nat) : Byte := Tab.get blankByte m.cellar a

/-- A byte of the Cellar flash set. -/
def Mem.setCellarByte (m : Mem) (a : Nat) (b : Byte) : Mem := { m with cellar := Tab.set blankByte m.cellar a b }

/-- `n` bytes of the Cellar from `a` on. -/
def Mem.cellarBytes (m : Mem) (a n : Nat) : List Byte := (List.range n).map (fun i => m.cellarByte (a + i))

/-- The bytes of `data` programmed from `a` on: programming clears bits, as a NOR flash does (PRESUMED). -/
def Mem.programCellar (m : Mem) (a : Nat) : List Byte → Mem
  | [] => m
  | b :: rest => (m.setCellarByte a (m.cellarByte a &&& b)).programCellar (a + 1) rest

/-- Bytes set from `a` on. -/
def Mem.setCellarBytes (m : Mem) (a : Nat) : List Byte → Mem
  | [] => m
  | b :: rest => (m.setCellarByte a b).setCellarBytes (a + 1) rest

/-- The bytes from `a` to `a + n` erased. -/
def Mem.eraseCellar (m : Mem) (a n : Nat) : Mem :=
  { m with cellar := Tab.clear m.cellar (fun k => decide (a ≤ k) && decide (k < a + n)) }

/-- A byte of the Loft by offset; the region of the claim keys holds what it holds, whatever a window read returns. -/
def Mem.loftByte (m : Mem) (o : Nat) : Byte := Tab.get blankByte m.loft o

/-- A byte of the Loft set. -/
def Mem.setLoftByte (m : Mem) (o : Nat) (b : Byte) : Mem := { m with loft := Tab.set blankByte m.loft o b }

/-- Bytes of the Loft set from offset `o` on: the switch of a staged write (R94). -/
def Mem.setLoftBytes (m : Mem) (o : Nat) : List Byte → Mem
  | [] => m
  | b :: rest => (m.setLoftByte o b).setLoftBytes (o + 1) rest

/-- `n` bytes of the Loft from offset `o` on. -/
def Mem.loftBytes (m : Mem) (o n : Nat) : List Byte := (List.range n).map (fun i => m.loftByte (o + i))

/-- A byte of the Loft window as a read sees it: the claim-key region reads 0 (R73). -/
def Mem.loftWindow (m : Mem) (o : Nat) : Byte := if 0x8000 ≤ o ∧ o < 0x9000 then 0 else m.loftByte o

/-! ### The table windows -/

/-- round(4,095 × sin(π k / 512)) for k = 0 to 256 (R314). -/
def sineTable : List Nat :=
  [0, 25, 50, 75, 100, 126, 151, 176, 201, 226, 251, 276, 301, 326, 351, 376, 401, 426, 451, 476, 501, 526, 551,
   576, 601, 626, 651, 675, 700, 725, 750, 774, 799, 824, 848, 873, 897, 922, 946, 971, 995, 1019, 1044, 1068,
   1092, 1116, 1141, 1165, 1189, 1213, 1237, 1261, 1285, 1308, 1332, 1356, 1380, 1403, 1427, 1450, 1474, 1497,
   1521, 1544] ++
  [1567, 1590, 1613, 1636, 1659, 1682, 1705, 1728, 1751, 1774, 1796, 1819, 1841, 1864, 1886, 1908, 1930, 1952,
   1975, 1997, 2018, 2040, 2062, 2084, 2105, 2127, 2148, 2170, 2191, 2212, 2233, 2254, 2275, 2296, 2317, 2337,
   2358, 2378, 2399, 2419, 2439, 2460, 2480, 2500, 2519, 2539, 2559, 2578, 2598, 2617, 2636, 2656, 2675, 2694,
   2713, 2731, 2750, 2769, 2787, 2805, 2824, 2842, 2860, 2878] ++
  [2896, 2913, 2931, 2948, 2966, 2983, 3000, 3017, 3034, 3051, 3068, 3084, 3101, 3117, 3133, 3149, 3165, 3181,
   3197, 3213, 3228, 3244, 3259, 3274, 3289, 3304, 3319, 3333, 3348, 3362, 3377, 3391, 3405, 3419, 3433, 3446,
   3460, 3473, 3486, 3499, 3512, 3525, 3538, 3551, 3563, 3575, 3588, 3600, 3611, 3623, 3635, 3646, 3658, 3669,
   3680, 3691, 3702, 3713, 3723, 3733, 3744, 3754, 3764, 3774] ++
  [3783, 3793, 3802, 3811, 3821, 3830, 3838, 3847, 3856, 3864, 3872, 3880, 3888, 3896, 3904, 3911, 3919, 3926,
   3933, 3940, 3947, 3953, 3960, 3966, 3972, 3978, 3984, 3990, 3996, 4001, 4006, 4011, 4016, 4021, 4026, 4030,
   4035, 4039, 4043, 4047, 4051, 4054, 4058, 4061, 4064, 4067, 4070, 4073, 4075, 4078, 4080, 4082, 4084, 4086,
   4087, 4089, 4090, 4091, 4092, 4093, 4094, 4094, 4095, 4095] ++
  [4095]

/-- Word 0 of a source's reaction entry at reset (R109). -/
def reactionReset (src : Nat) : Nat :=
  if src = 1 then 0x17
  else if src = 0 ∨ src = 5 ∨ src = 34 then 0x13
  else if src = 2 ∨ src = 11 ∨ src = 12 ∨ (18 ≤ src ∧ src ≤ 33) then 0x11
  else 0x01

/-- What a word of the table windows holds when chip reset completes (R109, R314); words whose content the manual does
not give hold 0 (DESIGN CHOICE). -/
def tableReset (a : Nat) : Word :=
  if 0x80000 ≤ a ∧ a < 0x84000 ∧ a % 0x1000 < 0x400 then
    let k := a % 0x1000 / 4
    word (sineTable.getD (256 - k) 0 + sineTable.getD k 0 * 0x10000)
  else if 0xB0000 ≤ a ∧ a < 0xB0900 then
    match a % 0x40 with
    | 0 => word (reactionReset ((a - 0xB0000) / 0x40))
    | 4 => 1000
    | 8 => 0x003C0008
    | _ => 0
  else 0

/-- A word of the table windows. -/
def Mem.table (m : Mem) (a : Nat) : Word := Tab.get tableReset m.tables a

/-- The bits that a write of a table word stores: the reserved bits of the reaction table read as 0 (R16, R108); the other
tables keep them for the checks of R407 and R459. -/
def tableMask (a : Nat) : Word :=
  if 0xB0000 ≤ a ∧ a < 0xB1000 then
    match a % 0x40 with
    | 0 => 0x1F
    | 4 => 0xFFFF
    | _ => 0x0FFF00FF
  else 0xFFFFFFFF

/-- A word of the table windows set. -/
def Mem.setTable (m : Mem) (a : Nat) (v : Word) : Mem := { m with tables := Tab.set tableReset m.tables a v }

/-- Words of a table window set from address `a` on. -/
def Mem.setTableWords (m : Mem) (a : Nat) : List Word → Mem
  | [] => m
  | w :: rest => (m.setTable a w).setTableWords (a + 4) rest

/-- The canonical form of the memories. -/
def Memory.wf (m : Mem) : Bool :=
  Tab.wf voidWord m.larder && Tab.wf blankByte m.cellar && Tab.wf blankByte m.loft && Tab.wf tableReset m.tables

/-! ### Reads without messages -/

/-- How the read of one access comes out: a value, or the void or uncorrectable word or the address that failed. -/
inductive Read where
  | ok (v : Nat)
  /-- A void Larder word at a byte address (R79). -/
  | void (a : Nat)
  /-- An uncorrectable Larder word at a byte address (R77). -/
  | uncorr (a : Nat)
  /-- The Cellar gave no DQS transition: `CEL.BUS` at a window address (R87). -/
  | bus (a : Nat)
  /-- Any other error response, with the address (R69, R62). -/
  | error (a : Nat)
  deriving DecidableEq, Repr

/-- An uncorrectable detection at the word of byte address `a` is among those of the access (R83). -/
def hasUe (env : MemEnv) (a : Nat) : Bool := env.ecc.any (fun e => e.1 / 8 == a / 8 && decide (e.2 = .uncorrectable))

/-- A corrected detection at the word of byte address `a`. -/
def hasCe (env : MemEnv) (a : Nat) : Bool := env.ecc.any (fun e => e.1 / 8 == a / 8 && decide (e.2 = .corrected))

/-- A Larder read of `n` bytes that stay within one word. -/
def readLarder (m : Mem) (env : MemEnv) (a n : Nat) : Read :=
  match m.word64 (larderIdx a) with
  | none => .void (a / 8 * 8)
  | some v => if hasUe env a then .uncorr (a / 8 * 8) else .ok (sliceWord v (a % 8) n)

/-- A read of `n` bytes at `a` by a unit or a Hoist channel in the Larder, the Cellar window or the Loft window; table
windows and registers are read by their own functions. -/
def readBulk (s : State) (env : MemEnv) (a n : Nat) : Read :=
  if s.isolated (portOf s a) then .error a
  else match regionOf s a with
    | .larder => readLarder s.mem env a n
    | .cellar => if env.noDqs ∧ s.fld Reg.MEM_CEL_CFG 2 0 = 4 then .bus a else .ok (leBytes (s.mem.cellarBytes (a - 0x20000000) n))
    | .loft => .ok (leBytes ((List.range n).map (fun i => s.mem.loftWindow (a - 0x40000000 + i))))
    | _ => .error a

/-- Words read one after the other until one fails. -/
def readWords (s : State) (env : MemEnv) : Nat → Nat → Except Read (List Word)
  | _, 0 => .ok []
  | a, k + 1 =>
    match readBulk s env a 4 with
    | .ok v =>
      match readWords s env (a + 4) k with
      | .ok rest => .ok (word v :: rest)
      | .error e => .error e
    | e => .error e

/-- Bytes read one after the other until one fails. -/
def readBytes (s : State) (env : MemEnv) : Nat → Nat → Except Read (List Byte)
  | _, 0 => .ok []
  | a, k + 1 =>
    match readBulk s env a 1 with
    | .ok v =>
      match readBytes s env (a + 1) k with
      | .ok rest => .ok (BitVec.ofNat 8 v :: rest)
      | .error e => .error e
    | e => .error e

end Sys2Proof.Machine
end

