-- ==== Sys2Proof/Machine/Faults.lean ====
section
/-! DEFINITION. Fault messages: the kind table as names (R107), event items (R207-R211), and a message with the reactions
that its source's entry selects, up to the resets, which Machine/Resets.lean runs (R103, R111, R115-R122). -/

namespace Sys2Proof.Machine

/-- A fault source and kind (R104, R107). -/
structure Kind where
  src : Nat
  code : Nat
  deriving DecidableEq, Repr

namespace Kind
def admitOverrun : Kind := ⟨0, 1⟩
def entropy : Kind := ⟨0, 2⟩
def wedge : Kind := ⟨1, 1⟩
def lrdUncorr : Kind := ⟨2, 1⟩
def lrdVoid : Kind := ⟨2, 2⟩
def celBus : Kind := ⟨3, 1⟩
def celRange : Kind := ⟨3, 2⟩
def celInUse : Kind := ⟨3, 3⟩
def celTimeout : Kind := ⟨3, 4⟩
def celVerify : Kind := ⟨3, 5⟩
def lftWriteFail : Kind := ⟨4, 1⟩
def lftWorn : Kind := ⟨4, 2⟩
def lftImageBad : Kind := ⟨4, 3⟩
def lftSjBad : Kind := ⟨4, 4⟩
def pwrRail : Kind := ⟨5, 1⟩
def pwrInputLost : Kind := ⟨5, 2⟩
def pwrClass : Kind := ⟨5, 3⟩
def pwrCharge : Kind := ⟨5, 4⟩
def linkDown (port : Nat) : Kind := ⟨6 + port, 1⟩
def rxOverrun (port : Nat) : Kind := ⟨6 + port, 2⟩
def keepaliveLost : Kind := ⟨8, 1⟩
def badFrame : Kind := ⟨8, 2⟩
def eventDrop : Kind := ⟨8, 3⟩
def claimFail : Kind := ⟨9, 1⟩
def ownerLost : Kind := ⟨9, 2⟩
def tclkStop : Kind := ⟨10, 1⟩
def tmrMissed : Kind := ⟨10, 2⟩
def hstMisalign : Kind := ⟨11, 1⟩
def hstOverlap : Kind := ⟨11, 2⟩
def hstBus : Kind := ⟨11, 3⟩
def hstProgram : Kind := ⟨11, 4⟩
def hstShelf : Kind := ⟨11, 5⟩
def cmpLate : Kind := ⟨12, 1⟩
def cmpGlyph : Kind := ⟨12, 2⟩
def cmpField : Kind := ⟨12, 3⟩
def calNotSet : Kind := ⟨13, 1⟩
def calDateRange : Kind := ⟨13, 2⟩
def calDmCapacity : Kind := ⟨13, 3⟩
def calCheckpoint : Kind := ⟨13, 4⟩
def commitLate (n : Nat) : Kind := ⟨14 + n, 1⟩
def recordsFull (n : Nat) : Kind := ⟨14 + n, 2⟩
def stall (n : Nat) : Kind := ⟨14 + n, 3⟩
def reverse (n : Nat) : Kind := ⟨14 + n, 4⟩
def hedAbsent (n : Nat) : Kind := ⟨18 + n, 1⟩
def idMismatch (n : Nat) : Kind := ⟨18 + n, 2⟩
def dataLate (n : Nat) : Kind := ⟨18 + n, 3⟩
def skipLimit (n : Nat) : Kind := ⟨18 + n, 4⟩
def hedLink (n : Nat) : Kind := ⟨18 + n, 5⟩
def waveform (n : Nat) : Kind := ⟨18 + n, 6⟩
def thermLost (n : Nat) : Kind := ⟨22 + n, 1⟩
def thermFrozen (n : Nat) : Kind := ⟨22 + n, 2⟩
def heaterOff (n : Nat) : Kind := ⟨22 + n, 3⟩
def tempBand (n : Nat) : Kind := ⟨22 + n, 4⟩
def nozzleFail (n : Nat) : Kind := ⟨22 + n, 5⟩
def gateFail (n : Nat) : Kind := ⟨22 + n, 6⟩
def motStall (n : Nat) : Kind := ⟨26 + n, 1⟩
def following (n : Nat) : Kind := ⟨26 + n, 2⟩
def feedbackFrozen (n : Nat) : Kind := ⟨26 + n, 3⟩
def masterLost (n : Nat) : Kind := ⟨26 + n, 4⟩
def motDrive (n : Nat) : Kind := ⟨26 + n, 5⟩
def axisBus (n : Nat) : Kind := ⟨26 + n, 6⟩
def encJump (n : Nat) : Kind := ⟨32 + n, 1⟩
def encLos (n : Nat) : Kind := ⟨32 + n, 2⟩
def readback : Kind := ⟨34, 1⟩
def pulseMerge : Kind := ⟨34, 2⟩
def selfCheck : Kind := ⟨35, 1⟩
def leaseDenied : Kind := ⟨35, 2⟩
end Kind

/-- The fault record of R106: 24 bytes. -/
def faultRecord (m : FaultMsg) : List Byte :=
  let w := m.source + 64 * m.kind + (match m.lane with | some l => 2048 * l.val + 8192 | none => 0)
  bytesLE 4 w ++ bytesLE 4 m.address.toNat ++ bytesLE 8 m.order ++
    bytesLE 6 (if m.lane.isSome then m.place.toNat else 0) ++ [0, 0]

namespace State

/-! ### Event queues -/

/-- The item is a TRAP item. -/
def isTrapItem : EventItem → Bool
  | .trap _ => true
  | _ => false

/-- Items of one share that a session holds, queued and unacknowledged (R211). -/
def itemsHeld (x : Session) (trap : Bool) : Nat :=
  (x.events.filter (fun e => isTrapItem e == trap)).length +
    (x.unacked.map (fun m => (m.items.filter (fun e => isTrapItem e == trap)).length)).sum

/-- The size of a share: 32 FAULT and STATE items, 4 TRAP items (R211). -/
def shareSize (trap : Bool) : Nat := if trap then 4 else 32

/-- What is kept by share: the value of one, and one replaced. -/
def ofShare (p : Bool × Bool) (trap : Bool) : Bool := if trap then p.2 else p.1
def setShare (p : Bool × Bool) (trap v : Bool) : Bool × Bool := if trap then (p.1, v) else (v, p.2)

/-- An item is queued for a session, or dropped where its share is full (R211): true when the drop is to be signalled. -/
def queueItem (s : State) (i : Sess) (e : EventItem) : State × Bool :=
  let x := s.sess i
  let t := isTrapItem e
  if itemsHeld x t < shareSize t then
    (s.setSess i { x with events := x.events ++ [e], dropRun := setShare x.dropRun t false }, false)
  else
    (s.setSess i { x with drops := x.drops + 1, dropRun := setShare x.dropRun t true }, !ofShare x.dropRun t)

/-- An item is queued for every session that `want` selects; the sessions whose drop is to be signalled are listed. -/
def queueItems (want : Session → Sess → Bool) (e : EventItem) : List Sess → State → State × List Sess
  | [], s => (s, [])
  | i :: rest, s =>
    if (s.sess i).bound && want (s.sess i) i then
      let (s1, d) := s.queueItem i e
      let (s2, ds) := queueItems want e rest s1
      (s2, if d then i :: ds else ds)
    else queueItems want e rest s

/-- The session asks for FAULT items of a source (R208). -/
def wantsFault (src : Nat) (x : Session) (_ : Sess) : Bool :=
  bit x.classes 0 && (if src < 32 then bit x.srcLo src else bit x.srcHi (src - 32))

/-- The session that is owner: `OWNER` of `SES_OWNER`, 15 for none (R240). -/
def owner (s : State) : Option Sess :=
  if h : s.fld Reg.SES_OWNER 3 0 < 9 then some ⟨s.fld Reg.SES_OWNER 3 0, h⟩ else none

/-- The session takes TRAP items: the owner, and every session that holds a subscription (R209). -/
def wantsTrap (s : State) (x : Session) (i : Sess) : Bool := decide (x.classes ≠ 0) || decide (s.owner = some i)

/-! ### Source states -/

/-- The state of a source: 0 NORMAL, 1 FAULT, 2 RETIRED (R117). -/
def srcState (s : State) (src : Nat) : Nat :=
  s.fld (Reg.FLT_SRC_STATE (src / 16)) (2 * (src % 16) + 1) (2 * (src % 16))

/-- The state of a source set. -/
def setSrcState (s : State) (src v : Nat) : State :=
  s.setFld (Reg.FLT_SRC_STATE (src / 16)) (2 * (src % 16) + 1) (2 * (src % 16)) v

/-- Word `k` (0, 1 or 2) of the reaction entry of a source (R108). -/
def reaction (s : State) (src k : Nat) : Word := s.mem.table (0xB0000 + 0x40 * src + 4 * k)

/-- The unit of a source watches no conditions: it is in block reset or held retired. -/
def unitInReset (s : State) (u : Nat) : Bool := s.flt.inReset.contains u || s.flt.held.contains u

/-- The message is recorded: First Bin or overflow, then the pending bit (R115). -/
def recordBin (s : State) (m : FaultMsg) : State :=
  let s :=
    if s.rbit Reg.FLT_BIN_STAT 0 then s.setFlag Reg.FLT_BIN_STAT 1
    else (s.modFlt fun f => { f with bin := some m }).setFlag Reg.FLT_BIN_STAT 0
  if m.source < 28 then s.setFlag Reg.FLT_PEND_A m.source else s.setFlag Reg.FLT_PEND_B (m.source - 28)

/-- The source enters FAULT, or its quiet period restarts (R117, R118). The transition from NORMAL is a commit. -/
def recordSource (s : State) (src : Nat) : State :=
  if s.srcState src = 2 then s
  else
    let s := if s.srcState src = 0 then (s.setSrcState src 1).commit else s
    let q := bits (s.reaction src 1) 15 0
    s.modFlt fun f => { f with quietEnd := Tab.set (fun _ => none) f.quietEnd src (some (s.tick + q * 100000)) }

/-- The trap of a message: the pulse, the count; the items are queued by `raise` (R122). -/
def trapPulse (s : State) : State :=
  let s := if s.flt.trapEnd.isNone then s.emit (.pin "TRAP_OUT" (some true)) else s
  (s.modFlt fun f => { f with trapEnd := some (s.tick + s.fld Reg.FLT_CTRL 15 8 * 100) }).bump Reg.FLT_TRAP_COUNT

/-- ERR_HOLD is set and ERR_MIN runs from the message (R120). -/
def errPin (s : State) : State :=
  (s.modFlt fun f => { f with errMinEnd := some (s.tick + s.fld Reg.FLT_CTRL 7 0 * 100000) }).setFlag Reg.FLT_ERR 0

/-- The unit that a block reset of a message acts on: the source's own, or for LAD the unit at the port of the address;
none for port 0 (R111, R112). -/
def resetTarget (m : FaultMsg) : Option Nat :=
  if m.source = 1 then (if m.address = 0 then none else some m.address.toNat) else some m.source

/-- The resets that a message selects join the list of those to be run (R111 steps 5 and 6). -/
def selectResets (s : State) (m : FaultMsg) (retired : Bool) : State :=
  if retired then s
  else if bit (s.reaction m.source 0) 3 then s.modFlt fun f => { f with due := f.due ++ [(m.source, true)] }
  else if bit (s.reaction m.source 0) 2 then
    match resetTarget m with
    | none => s
    | some u => if s.unitInReset u then s else s.modFlt fun f => { f with due := f.due ++ [(u, false)] }
  else s

/-- A fault message of a unit that watches its conditions, with the reactions of R111: the message itself is one commit.
`fuel` bounds the `WSL.EVENT_DROP` messages that its own event items cause. -/
def raiseN : Nat → State → Kind → Word → Option Lane → State
  | 0, s, _, _, _ => s
  | fuel + 1, s, k, addr, lane =>
    if s.unitInReset k.src then s
    else
      let s := s.commit
      let m : FaultMsg := ⟨k.src, k.code, addr, s.order, lane, match lane with | some l => (s.lane l).pc | none => 0⟩
      let retired := decide (s.srcState k.src = 2)
      let r := s.reaction k.src 0
      let s := (s.recordBin m).recordSource k.src
      let (s, d1) := if bit r 0 then queueItems (wantsFault k.src) (.fault m) allSess s else (s, [])
      let (s, d2) :=
        if bit r 1 then
          let s := s.trapPulse
          queueItems (wantsTrap s) (.trap m) allSess s
        else (s, [])
      let s := if bit r 4 then s.errPin else s
      let s := s.selectResets m retired
      (d1 ++ d2).foldl (fun s i => raiseN fuel s Kind.eventDrop (word i.val) none) s

/-- A fault message that carries no lane (R105). -/
def raise (s : State) (k : Kind) (addr : Word) : State := raiseN 12 s k addr none

/-- A lane-related fault message (R105). -/
def raiseLane (s : State) (k : Kind) (addr : Word) (n : Lane) : State := raiseN 12 s k addr (some n)

/-- A STATE item at the commit just made (R207, R208): kind, lane, old and new value. -/
def stateItem (s : State) (kind : Nat) (lane : Option Lane) (old new : Nat) : State :=
  let e := EventItem.state kind lane old new s.order (match lane with | some l => (s.lane l).pc | none => 0)
  let (s, d) := queueItems (fun x _ => bit x.classes 1) e allSess s
  d.foldl (fun s i => raise s Kind.eventDrop (word i.val)) s

/-! ### Failed and corrected reads of the Larder -/

/-- The consequences of one read's outcome: `LRD.UNCORR` voids the word, `LRD.VOID_READ` records the address (R77, R79). -/
def noteRead (s : State) : Read → State
  | .uncorr a =>
    let s := s.modMem fun m => m.setWord64 (larderIdx a) none
    let s := ((s.bump Reg.MEM_LRD_UE_COUNT).setReg Reg.MEM_LRD_UE_ADDR (word a)).setFlag Reg.MEM_LRD_STAT 1
    s.raise Kind.lrdUncorr (word a)
  | .void a =>
    let s := (s.setReg Reg.MEM_LRD_VOID_ADDR (word a)).setFlag Reg.MEM_LRD_STAT 2
    s.raise Kind.lrdVoid (word a)
  | .bus a => s.raise Kind.celBus (word (a - 0x20000000))
  | _ => s

/-- Corrected errors met by an access (R76): each is counted and sets `CE`, one commit each. -/
def noteCorrected (s : State) (env : MemEnv) : State :=
  env.ecc.foldl (fun s e =>
    if e.2 = .corrected then ((s.bump Reg.MEM_LRD_CE_COUNT).setFlag Reg.MEM_LRD_STAT 0).commit else s) s

/-! ### IRQ and ERR -/

/-- Some pending bit is 1 for a source whose `IRQ` is 1 (R116). -/
def fltIrq (s : State) : Bool :=
  (List.range 36).any fun k =>
    (if k < 28 then s.rbit Reg.FLT_PEND_A k else s.rbit Reg.FLT_PEND_B (k - 28)) && bit (s.reaction k 0) 0

/-- The collector asserts ERR_OUT (R120). -/
def errActive (s : State) : Bool := s.flt.errMinEnd.isSome || s.rbit Reg.FLT_ERR 0

/-- `ERR_HOLD` clears itself when no owner exists, ERR_MIN has ended and no ERR_PIN source is in FAULT or RETIRED (R121).
The hardware clear leaves the generation. -/
def errRelease (s : State) : State :=
  if s.owner.isNone && s.flt.errMinEnd.isNone && s.rbit Reg.FLT_ERR 0 &&
      (List.range 36).all (fun k => !(bit (s.reaction k 0) 4) || s.srcState k = 0) then
    (s.setFld Reg.FLT_ERR 0 0 0).commit
  else s

end State

end Sys2Proof.Machine
end

