-- ==== Sys2Proof/Machine/Net.lean ====
section
/-! DEFINITION. The link ports and the switch: station addresses, frames, learning and forwarding, and the framings of a
message to a peer (07_link_waislink R178-R188). A frame is its octets without the FCS, which the command that brings it
has found good. -/

namespace Sys2Proof.Machine

/-- The octets of a MAC address, the first transmitted first. -/
def macBytes (m : BitVec 48) : List Byte := beN 6 m.toNat

/-- The broadcast address. -/
def macBroadcast : BitVec 48 := 0xFFFFFFFFFFFF

/-- A group address: the low bit of the first octet is 1. -/
def macGroup (m : BitVec 48) : Bool := m.toNat.testBit 40

/-- The sum of the big-endian 16-bit words of a byte string. -/
def wordSum : List Byte → Nat
  | a :: b :: rest => 256 * a.toNat + b.toNat + wordSum rest
  | [a] => 256 * a.toNat
  | [] => 0

/-- The one's-complement sum folded to 16 bits. -/
def fold16 (n : Nat) : Nat :=
  let a := n % 65536 + n / 65536
  let b := a % 65536 + a / 65536
  b % 65536 + b / 65536

/-- The Internet checksum of a byte string. -/
def checksum (l : List Byte) : Nat := 65535 - fold16 (wordSum l)

/-- A frame taken apart (R178, R185): addresses, 802.1Q tag (VID, PCP), EtherType and what follows it. -/
structure Frame where
  dst : BitVec 48
  src : BitVec 48
  tag : Option (BitVec 12 × BitVec 3)
  etype : Nat
  payload : List Byte

/-- The number of big-endian bytes `i` to `i + n - 1`. -/
def beAt (b : List Byte) (i n : Nat) : Nat := beBytes ((b.drop i).take n)

/-- The parts of a frame. -/
def readFrame (b : List Byte) : Frame :=
  let dst := BitVec.ofNat 48 (beAt b 0 6)
  let src := BitVec.ofNat 48 (beAt b 6 6)
  if beAt b 12 2 = 0x8100 then
    let t := beAt b 14 2
    ⟨dst, src, some (BitVec.ofNat 12 t, BitVec.ofNat 3 (t / 8192)), beAt b 16 2, b.drop 18⟩
  else ⟨dst, src, none, beAt b 12 2, b.drop 14⟩

/-- The octets of a frame padded to the minimum (R185). -/
def buildFrame (dst src : BitVec 48) (tag : Option (BitVec 12 × BitVec 3)) (etype : Nat) (payload : List Byte) : List Byte :=
  let head := macBytes dst ++ macBytes src ++
    (match tag with | some (v, p) => beN 2 0x8100 ++ beN 2 (p.toNat * 8192 + v.toNat) | none => []) ++ beN 2 etype
  let all := head ++ payload
  all ++ List.replicate (60 - all.length) 0

namespace State

/-- `ADDR_LOW` (R158). -/
def addrLow (s : State) : Nat := s.boot.straps[1].level.toNat

/-- The station MAC address (R184). -/
def stationMac (s : State) : BitVec 48 :=
  let lo := (s.reg Reg.LNK_MAC_LO).toNat
  let hi := s.fld Reg.LNK_MAC_HI 15 0
  let l := bytesLE 4 lo ++ bytesLE 1 hi ++ bytesLE 1 (hi / 256 / 8 * 8 + s.addrLow)
  BitVec.ofNat 48 (beBytes l)

/-- The station IPv4 address; 0 while IPv4 is disabled (R184). -/
def stationIp (s : State) : BitVec 32 :=
  let ip := s.reg Reg.LNK_IP
  if ip = 0 then 0 else BitVec.ofNat 32 (ip.toNat / 8 * 8 + s.addrLow)

/-- Port B is enabled; port A always is (R180). -/
def portOn (s : State) (p : Nat) : Bool := decide (p = 0) || s.rbit Reg.LNK_PORTB_CFG 3

/-! ### The switch -/

/-- The port on which an address is learned. -/
def learned (s : State) (m : BitVec 48) : Option Nat := (s.lnk.table.find? fun e => decide (e.mac = m)).map (·.port)

/-- The entry refreshed least recently. -/
def oldestEntry : List SwEntry → Option SwEntry
  | [] => none
  | e :: rest =>
    match oldestEntry rest with
    | none => some e
    | some f => if f.at_ < e.at_ then some f else some e

/-- A source address is learned or refreshed (R180). -/
def learn (s : State) (m : BitVec 48) (port : Nat) : State :=
  let e : SwEntry := ⟨m, port, s.tick⟩
  let rest := s.lnk.table.filter fun q => !decide (q.mac = m)
  let rest := if rest.length < 32 then rest
    else match oldestEntry rest with | some o => rest.filter fun q => !decide (q.mac = o.mac) | none => rest
  s.modLnk fun l => { l with table := rest ++ [e] }

/-- The tick at which the next learned address ages out (R180). -/
def ageDue (s : State) : Option Nat := (oldestEntry s.lnk.table).map fun e => e.at_ + 30000000000

/-- The learned address refreshed least recently is removed. -/
def ageOut (s : State) : State :=
  match oldestEntry s.lnk.table with
  | some o => s.modLnk fun l => { l with table := l.table.filter fun q => !decide (q.mac = o.mac) }
  | none => s

/-- A frame leaves an external port. `full` tells that its egress queue is full: the frame is dropped and counted (R180). -/
def transmit (s : State) (p : Nat) (full : Bool) (b : List Byte) : State :=
  if !s.portOn p then s
  else if full then s.bump Reg.LNK_FWD_DROP
  else (s.bump (Reg.LNK_TX p)).emit (.frame p b)

/-- The external ports a frame goes to: received on `p`, or sent from port I (2). -/
def egress (s : State) (p : Nat) (dst : BitVec 48) : List Nat :=
  if p = 2 then
    if macGroup dst then [0, 1] else match s.learned dst with | some q => [q] | none => [0, 1]
  else if macGroup dst then [1 - p]
  else match s.learned dst with
    | some q => if q = p then [] else [q]
    | none => [1 - p]

/-- Port I sends a frame (R180). -/
def sendFrameI (s : State) (b : List Byte) : State :=
  (s.egress 2 (readFrame b).dst).foldl (fun (s : State) (p : Nat) => s.transmit p false b) s

/-! ### Messages to a peer -/

/-- The IPv4 header of a datagram that the GL4480 sends (R186). -/
def ipHeader (s : State) (proto len : Nat) (dst : BitVec 32) : List Byte :=
  let h (c : Nat) := [0x45, 0] ++ beN 2 (20 + len) ++ beN 2 s.lnk.ipId.toNat ++ [0x40, 0, 64, BitVec.ofNat 8 proto] ++
    beN 2 c ++ beN 4 s.stationIp.toNat ++ beN 4 dst.toNat
  h (checksum (h 0))

/-- An IPv4 datagram leaves port I; the identification advances (R186). -/
def sendIp (s : State) (r : Route) (proto : Nat) (dst : BitVec 32) (body : List Byte) : State :=
  let b := buildFrame r.mac s.stationMac r.tag 0x0800 (s.ipHeader proto body.length dst ++ body)
  (s.modLnk fun l => { l with ipId := l.ipId + 1 }).sendFrameI b

/-- A UDP datagram with its checksum (R186). -/
def udpBytes (s : State) (dst : BitVec 32) (port : BitVec 16) (msg : List Byte) : List Byte :=
  let len := 8 + msg.length
  let h (c : Nat) := beN 2 (s.fld Reg.LNK_UDP_PORT 15 0) ++ beN 2 port.toNat ++ beN 2 len ++ beN 2 c
  let pseudo := beN 4 s.stationIp.toNat ++ beN 4 dst.toNat ++ [0, 17] ++ beN 2 len
  let c := checksum (pseudo ++ h 0 ++ msg)
  h (if c = 0 then 0xFFFF else c) ++ msg

/-- A Waislink message leaves for a network peer, or joins the outbound queue of the local port (R185-R188, R220). -/
def sendTo (s : State) (peer : Peer) (r : Route) (msg : List Byte) : State :=
  match peer with
  | .lp => s.modSes fun x => { x with lpOut := x.lpOut ++ [msg] }
  | .ether _ => s.sendFrameI (buildFrame r.mac s.stationMac r.tag (s.fld Reg.LNK_ETYPE 15 0) msg)
  | .udp ip port => s.sendIp r 17 ip (s.udpBytes ip port msg)

end State
end Sys2Proof.Machine
end

