-- ==== Sys2Proof/Machine/Answers.lean ====
section
/-! DEFINITION. What a session is sent: message headers, responses, NAKs, the event stream and keepalives; and how a session
ends and the owner changes (07_link_waislink R189-R213; 08_sessions R215-R236). The responses of a
request that are ready leave together, a later one in a RESPONSE message of its own (R204). -/

namespace Sys2Proof.Machine

/-- The response codes of R205. -/
def Code.byte : Code → Nat
  | .ok => 0
  | .badOp => 1
  | .badLength => 2
  | .badAddress => 3
  | .badValue => 4
  | .readOnly => 5
  | .notOwner => 6
  | .notLeased => 7
  | .memError => 8
  | .isolated => 9
  | .busy => 0xA
  | .tooLate => 0xB
  | .discarded => 0xC
  | .tagInUse => 0xD
  | .stale => 0xE
  | .authFail => 0xF
  | .claimLost => 0x10
  | .full => 0x11
  | .noSession => 0x20
  | .seqGap => 0x21
  | .badFormat => 0x22

/-- The bytes of a response item (R191). -/
def respBytes (r : Resp) : List Byte :=
  let d := if r.code = .ok then r.data else []
  [r.op, r.tag] ++ bytesLE 2 (16 + d.length) ++ [BitVec.ofNat 8 r.code.byte, 0] ++ bytesLE 2 r.reqSeq.toNat ++ bytesLE 8 r.order ++ d

/-- The bytes of an event item (R207). -/
def eventBytes (e : EventItem) : List Byte :=
  match e with
  | .fault m => [1, 0, 28, 0] ++ faultRecord m
  | .trap m => [3, 0, 28, 0] ++ faultRecord m
  | .state k l o n ord p =>
    [2, 0, 28, 0, BitVec.ofNat 8 k, (match l with | some l => BitVec.ofNat 8 l.val | none => 0xFF), BitVec.ofNat 8 o, BitVec.ofNat 8 n,
      0, 0, 0, 0] ++ bytesLE 8 ord ++ bytesLE 6 p.toNat ++ [0, 0]

/-- A Waislink message (R189). -/
def message (type session count seq id ack : Nat) (body : List Byte) : List Byte :=
  [1, BitVec.ofNat 8 type, BitVec.ofNat 8 session, BitVec.ofNat 8 count] ++ bytesLE 2 seq ++ bytesLE 2 (16 + body.length) ++
    bytesLE 4 id ++ bytesLE 2 ack ++ [0, 0] ++ body

/-- The body of a NAK (R205). -/
def nakBody (c : Code) (expect ref : Nat) : List Byte := [BitVec.ofNat 8 c.byte, 0] ++ bytesLE 2 expect ++ bytesLE 2 ref ++ [0, 0]

namespace State

/-! ### Messages of a session -/

/-- `SESSION_ID` of a slot (R199). -/
def sessionId (s : State) (i : Sess) : Nat := (s.sess i).binds.toNat * 256 + i.val

/-- A message of a session: RESPONSE, KEEPALIVE and NAK carry `NEXT_SEQ` in `ACK`, EVENT and TRAP their sequence number. -/
def sessMsg (s : State) (i : Sess) (type count seq : Nat) (body : List Byte) : List Byte :=
  let ack := if type = 3 ∨ type = 4 then 0 else (s.sess i).nextSeq.toNat
  message type i.val count seq (s.sessionId i) ack body

/-- The outbound queue of session 0 has room (R220); a network session always has. -/
def outRoom (s : State) (i : Sess) : Bool := decide (i.val ≠ 0) || decide (s.ses.lpOut.length < 8)

/-- A message leaves for a bound session. For session 0 it counts as sent when it is delivered (R220). -/
def sendSess (s : State) (i : Sess) (type count seq : Nat) (body : List Byte) : State :=
  let x := s.sess i
  let s := s.sendTo x.peer x.route (s.sessMsg i type count seq body)
  if i.val = 0 then s else s.modSess i fun x => { x with sentAt := s.tick }

/-- A response leaves: its tag is outstanding no longer, and it enters the replay cache unless it answers a READ or
READ_LIST (R202, R204). A response that is sent again from the cache stays where it is. -/
def noteSent (s : State) (i : Sess) (r : Resp) : State :=
  let s := s.modSess i fun x =>
    { x with outstanding := if r.code = .tagInUse then x.outstanding
                            else x.outstanding.filter fun o => !decide (o = (r.reqSeq, BitVec.ofNat 6 r.tag.toNat)),
             cache := if r.op = 1 ∨ r.op = 2 ∨ r.code = .stale ∨ r ∈ x.cache then x.cache else (r :: x.cache).take 64 }
  s.emit (.resp i r)

/-- An operation is owed its response: its tag is outstanding (R204). -/
def owe (s : State) (i : Sess) (seq : BitVec 16) (tag : BitVec 6) : State :=
  if !(s.sess i).bound then s
  else s.modSess i fun x => { x with outstanding := if (seq, tag) ∈ x.outstanding then x.outstanding else x.outstanding ++ [(seq, tag)] }

/-- The session of an operation that is held (R91). -/
def heldSess : Instr → Option Sess
  | .read o _ _ _ => some o.sess
  | .readList o _ _ => some o.sess
  | .write o _ _ _ => some o.sess
  | .writeMasked o _ _ _ _ => some o.sess
  | _ => none

/-- A held operation that only reads. -/
def heldRead : Instr → Bool
  | .read _ _ _ _ => true
  | .readList _ _ _ => true
  | _ => false

/-- The responses that operations of a session are still owed are discarded; what they do goes on (R113, R200). -/
def disown (s : State) (i : Sess) : State :=
  let s := s.modMem fun m =>
    { m with heldOps := (m.heldOps.filter fun h => !(decide (heldSess h.op = some i) && heldRead h.op)).map fun h =>
               { h with owed := h.owed && !decide (heldSess h.op = some i) },
             staged := m.staged.map fun w => match w.who with
               | .key k q t n owed => { w with who := .key k q t n (owed && !decide (k = i)) }
               | _ => w }
  allLanes.foldl (fun (s : State) (n : Lane) => s.modLane n fun l =>
    { l with deferred := l.deferred.map fun d => { d with owed := d.owed && !decide (d.sess = i) } }) s

/-! ### The owner -/

/-- Every register with event flags. -/
def flagRegs : List Nat :=
  (List.range 16).flatMap fun b =>
    ((regRows b).filter fun r => r.w1g ≠ 0).flatMap fun r => (List.range r.count).map fun k => r.base + r.stride * k

/-- Every wrap guard is set to 16 (R235). -/
def fillGuards (s : State) : State := flagRegs.foldl (fun (s : State) (a : Nat) => s.setGuard a 16) s

/-- A session number in a STATE item of kind 3 (R207). -/
def ownerCode : Option Sess → Nat
  | some i => i.val
  | none => 0xFF

/-- `STANDALONE` cleared at the commit that makes a claimant owner (R172, R232). -/
def leaveStandalone (s : State) : State :=
  if s.rbit Reg.DEV_STATUS 1 then (s.setFld Reg.DEV_STATUS 1 1 0).stateItem 4 none 1 0 else s

/-- The owner changes: one commit (R215, R235). -/
def changeOwner (s : State) (new : Option Sess) (prio : Nat) : State :=
  let old := s.owner
  let n := match new with | some i => i.val | none => 15
  let s := (s.setFld Reg.SES_OWNER 3 0 n).setFld Reg.SES_OWNER 10 8 (if new.isSome then prio else 0)
  let s := ((s.bumpFld Reg.SES_OWNER 31 16).setFlag Reg.SES_EVT 0).fillGuards.commit
  let s := s.stateItem 3 none (ownerCode old) (ownerCode new)
  if new.isSome then s.leaveStandalone else s

/-! ### The end of a session -/

/-- A slot becomes FREE (R200, R215): what it is owed is discarded. Ownership becomes vacant where it was owner (R236). -/
def freeSlotOf (s : State) (i : Sess) : State :=
  let s := (s.disown i).modSess i fun x => { sess0 with binds := x.binds }
  if i.val = 0 then s.modSes fun x => { x with lpHeld := [] } else s

/-- The owner's session has ended (R236). -/
def vacate (s : State) (i : Sess) : State := if s.owner = some i then s.changeOwner none 0 else s

/-- The session ends at a commit of its own (R200, R212, R215). What the local port has not delivered counts as not sent
(R220), and is discarded. -/
def endSession (s : State) (i : Sess) : State :=
  if (s.sess i).bound then
    let s := s.freeSlotOf i
    let s := if i.val = 0 then s.modSes fun x => { x with lpOut := [], lpDelivered := false } else s
    s.commit.vacate i
  else s

/-- The session ends after the response to its CLOSE, whose commit has been made (R200). -/
def endClosed (s : State) (i : Sess) : State := (s.freeSlotOf i).vacate i

/-! ### Responses -/

/-- The response ends its session (R200). -/
def closes (r : Resp) : Bool := decide (r.op = 9) && decide (r.code = .ok)

/-- A RESPONSE leaves (R203, R204). -/
def sendResps (s : State) (i : Sess) (l : List Resp) : State :=
  let s := (l.foldl (fun (s : State) (r : Resp) => s.noteSent i r) s).sendSess i 2 l.length 0 (l.flatMap respBytes)
  if l.any closes then s.endClosed i else s

/-- Ready responses in messages of at most 1,472 bytes and 32 items, in order (R189, R204). -/
def packResps (l : List Resp) : List (List Resp) :=
  let g := l.foldl (fun (acc : List (List Resp)) (r : Resp) =>
    match acc with
    | [] => [[r]]
    | g :: rest => if (g.flatMap respBytes).length + (respBytes r).length ≤ 1456 ∧ g.length < 32 then (g ++ [r]) :: rest else [r] :: g :: rest) []
  if g.isEmpty then [[]] else g.reverse

/-- Messages for session 0 wait while its outbound queue is full or others wait already (R220). -/
def mustHold (s : State) (i : Sess) : Bool := decide (i.val = 0) && (!s.outRoom 0 || !s.ses.lpHeld.isEmpty)

/-- Something waits for room in the outbound queue of session 0. -/
def holdBack (s : State) (w : LpWork) : State := s.modSes fun x => { x with lpHeld := x.lpHeld ++ [w] }

/-- One RESPONSE leaves or is held back; the tags of its operations are outstanding meanwhile (R204, R220). -/
def answerOne (s : State) (i : Sess) (l : List Resp) : State :=
  if s.mustHold i then
    (l.foldl (fun (s : State) (r : Resp) =>
      if r.code = .tagInUse then s else s.owe i r.reqSeq (BitVec.ofNat 6 r.tag.toNat)) s).holdBack (.resps l)
  else s.sendResps i l

/-- The ready responses of a request, or a RESPONSE with `COUNT` 0 (R203); nothing where the session has ended (R200). -/
def answer (s : State) (i : Sess) (l : List Resp) : State :=
  (packResps l).foldl (fun (s : State) (g : List Resp) => if (s.sess i).bound then s.answerOne i g else s) s

/-- One operation is answered. -/
def respond (s : State) (i : Sess) (r : Resp) : State := s.answer i [r]

/-- A NAK of a bound session (R205). -/
def sendNak (s : State) (i : Sess) (c : Code) (ref : Nat) : State :=
  if s.mustHold i then s.holdBack (.nak c ref)
  else s.sendSess i 6 1 0 (nakBody c (s.sess i).nextSeq.toNat ref)

/-- A message of no session leaves for a peer (R198, R205). -/
def sendRaw (s : State) (peer : Peer) (r : Route) (msg : List Byte) : State :=
  if peer = .lp ∧ s.mustHold 0 = true then s.holdBack (.raw msg) else s.sendTo peer r msg

/-- A message that was held back leaves. -/
def sendWork (s : State) : LpWork → State
  | .resps l => s.sendResps 0 l
  | .nak c ref => s.sendSess 0 6 1 0 (nakBody c (s.sess 0).nextSeq.toNat ref)
  | .raw m => s.sendTo .lp (s.sess 0).route m

/-- Messages that were held back leave while the queue of session 0 has room (R220), at most `n` of them. -/
def pumpN : Nat → State → State
  | 0, s => s
  | n + 1, s =>
    if s.outRoom 0 then
      match s.ses.lpHeld with
      | [] => s
      | w :: rest => pumpN n ((s.modSes fun x => { x with lpHeld := rest }).sendWork w)
    else s

/-- The queue holds 8 messages (R220). -/
def pumpHeld (s : State) : State := pumpN 8 s

/-! ### The event stream -/

/-- The items of the next message: at most 16 of one class (R209, R210). -/
def nextItems (l : List EventItem) : List EventItem :=
  match l with
  | [] => []
  | e :: _ => (l.takeWhile fun x => isTrapItem x == isTrapItem e).take 16

/-- One EVENT or TRAP message leaves where the window and the queue allow it (R210). -/
def sendEvents (s : State) (i : Sess) : State :=
  let x := s.sess i
  if x.bound && !x.events.isEmpty && decide (x.unacked.length < 4) && s.outRoom i then
    let l := nextItems x.events
    let m : EventMsg := ⟨x.evtSeq, (match l with | e :: _ => isTrapItem e | [] => false), l⟩
    let s := s.setSess i
      { x with events := x.events.drop l.length, unacked := x.unacked ++ [m], evtSeq := x.evtSeq + 1, evtSentAt := s.tick }
    s.sendSess i (if m.trap then 4 else 3) l.length m.seq.toNat (l.flatMap eventBytes)
  else s

/-- The event streams of every session, while messages can leave. -/
def pumpEvents (s : State) : State :=
  allSess.foldl (fun (s : State) (i : Sess) => (((s.sendEvents i).sendEvents i).sendEvents i).sendEvents i) s

/-- The host acknowledges event messages up to `ack` (R210). -/
def ackEvents (s : State) (i : Sess) (ack : BitVec 16) : State :=
  let x := s.sess i
  if x.unacked.any fun m => decide (m.seq = ack) then
    let left := (x.unacked.dropWhile fun m => !decide (m.seq = ack)).drop 1
    let y := { x with unacked := left }
    s.setSess i { y with dropRun := (x.dropRun.1 && decide (shareSize false ≤ itemsHeld y false),
                                     x.dropRun.2 && decide (shareSize true ≤ itemsHeld y true)) }
  else s

/-- The tick of the next resend (R210). -/
def resendDue (s : State) (i : Sess) : Option Nat :=
  if (s.sess i).bound && !(s.sess i).unacked.isEmpty then some ((s.sess i).evtSentAt + s.fld Reg.LNK_EVT_RETRY 15 0 * 100000) else none

/-- The oldest unacknowledged message leaves again, unchanged (R210). -/
def resend (s : State) (i : Sess) : State :=
  match (s.sess i).unacked with
  | [] => s
  | m :: _ =>
    let s := s.modSess i fun x => { x with evtSentAt := s.tick }
    if s.outRoom i then s.sendSess i (if m.trap then 4 else 3) m.items.length m.seq.toNat (m.items.flatMap eventBytes) else s

/-- The tick at which the idle KEEPALIVE of a session falls due (R212). -/
def idleDue (s : State) (i : Sess) : Option Nat :=
  if (s.sess i).bound then some ((s.sess i).sentAt + (s.sess i).kaMs / 4 * 100000) else none

/-- The idle KEEPALIVE (R212); session 0 gets one only while its outbound queue is empty (R220). -/
def idleSend (s : State) (i : Sess) : State :=
  if i.val = 0 ∧ s.ses.lpOut ≠ [] then s.modSess i fun x => { x with sentAt := s.tick }
  else (s.modSess i fun x => { x with sentAt := s.tick }).sendSess i 5 0 0 []

/-- The tick at which the keepalive of a session is lost (R212). -/
def lossDue (s : State) (i : Sess) : Option Nat :=
  if (s.sess i).bound then some ((s.sess i).refreshed + (s.sess i).kaMs * 100000) else none

/-- The session that leads the open election (R230). -/
def leader (s : State) : Option Sess :=
  allSess.foldl (fun (b : Option Sess) (i : Sess) =>
    match (s.sess i).cand, b with
    | some (p, _), some j => (match (s.sess j).cand with | some (q, _) => if q < p then some i else b | none => some i)
    | some _, none => some i
    | none, _ => b) none

/-- A claim is answered, unless its response has been discarded (R113, R200). -/
def answerClaim (s : State) (i : Sess) (seq : BitVec 16) (tag : BitVec 6) (c : Code) : State :=
  if (seq, tag) ∉ (s.sess i).outstanding then s
  else s.respond i ⟨0x0B, BitVec.ofNat 8 tag.toNat, c, seq, if c = .ok then s.order else 0, []⟩

/-- The election closes with a winner, and every candidate's claim is answered (R230, R231). -/
def closeElection (s : State) (win : Option Sess) : State :=
  let cands := allSess.filterMap fun i => (s.sess i).cand.map fun c => (i, c)
  let s := allSess.foldl (fun (s : State) (i : Sess) => s.modSess i fun x => { x with cand := none }) s
  let s := s.modSes fun x => { x with electEnd := none }
  let s := match win with
    | some i => s.changeOwner (some i) (match cands.find? (fun e => decide (e.1 = i)) with | some (_, p, _) => p | none => 0)
    | none => s.commit
  cands.foldl (fun (s : State) (e : Sess × Nat × BitVec 16 × BitVec 6) =>
    s.answerClaim e.1 e.2.2.1 e.2.2.2 (if win = some e.1 then .ok else .claimLost)) s

/-! ### Loss of a session -/

/-- The keepalive of a session is lost (R212); that of the owner is `SES.OWNER_LOST` too (R236). -/
def loseKeepalive (s : State) (i : Sess) : State :=
  let s := s.raise Kind.keepaliveLost (word i.val)
  let s := if s.owner = some i then (s.setFlag Reg.SES_EVT 1).raise Kind.ownerLost (word i.val) else s
  s.endSession i

/-! ### Deferred writes -/

/-- Every deferred write of a lane is discarded as the lane enters OPEN (R65). -/
def discardDeferred (s : State) (n : Lane) : State :=
  let l := (s.lane n).deferred
  let s := s.modLane n fun l => { l with deferred := [] }
  l.foldl (fun (s : State) (d : Deferred) =>
    let s := s.bumpFld (Reg.DEV_DEFER n) 23 16
    if d.owed then s.respond d.sess ⟨3, BitVec.ofNat 8 d.tag.toNat, .discarded, d.seq, 0, []⟩ else s) s

end State
end Sys2Proof.Machine
end

