-- ==== Sys2Proof/Machine/Ledger.lean ====
section
/-! DEFINITION. The energy ledger: headroom, grants, refusals, debits and releases (05_pantry R132, R134-R139). -/

namespace Sys2Proof.Machine
namespace State

/-- `c_eff` in mF (R134). -/
def cEff (s : State) : Nat :=
  let cfg := s.fld Reg.PWR_RES_CAP 15 0
  let meas := s.fld Reg.PWR_RES_CAP 31 16
  if meas = 0 then cfg else min cfg meas

/-- The lowest of the samples admitted since chip reset completion, at most the four latest; 0 when none exists. It is
the address of the messages whose address is `v_led` (R132). -/
def vLow (s : State) : Nat :=
  match s.pwr.samples with
  | [] => 0
  | v :: rest => rest.foldl min v

/-- `v_led`, once four samples exist (R132). -/
def vLed (s : State) : Option Nat := if s.pwr.samples.length < 4 then none else some s.vLow

/-- `held`: the balances of the live reservations and the spent pool (R135). -/
def held (s : State) : Nat := (s.pwr.live.map (·.balance)).sum + (s.pwr.spent.map (·.1)).sum

/-- The headroom in µJ (R135); nothing before four samples exist (R132). -/
def headroom (s : State) : Nat :=
  match s.vLed with
  | none => 0
  | some v =>
    let flr := s.fld Reg.PWR_RES_LOW 15 0
    let eRes := s.cEff * v * v / 2000
    let eFlr := s.cEff * flr * flr / 2000 + (s.reg Reg.PWR_PARK).toNat
    if eRes > eFlr + s.held then eRes - eFlr - s.held else 0

/-- A request of `e` µJ is granted: RUN, or SERVICE for any requester but a mark, and enough headroom (R136, R140). -/
def wouldGrant (s : State) (isMark : Bool) (e : Nat) : Bool :=
  (decide (s.pwr.state = .run) || (decide (s.pwr.state = .service) && !isMark)) &&
    s.vLed.isSome && decide (e ≤ s.headroom)

/-- A reservation is granted: a commit (R136). -/
def grant (s : State) (who : ResFor) (e : Nat) : State :=
  (s.modPwr fun p => { p with live := p.live ++ [⟨who, e⟩], refused := false }).commit

/-- The effects of a refusal: the count, and the first refusal in RUN after a grant or chip reset commits `PWR.CHARGE`
and sets `REFUSED` (R139). -/
def refuse (s : State) (mark : Option Lane) : State :=
  let s := match mark with
    | some n => s.bump (Reg.PWR_REFUSE n)
    | none => s.bump Reg.PWR_REFUSE_OTHER
  if s.pwr.state = .run ∧ s.pwr.refused = false then
    ((s.modPwr fun p => { p with refused := true }).setFlag Reg.PWR_EVT 2).raise Kind.pwrCharge (word s.vLow)
  else s

/-- A debit: the amount leaves the reservation's balance and enters the spent pool for two samples (R138). -/
def debit (s : State) (who : ResFor) (e : Nat) : State :=
  match s.pwr.live.find? (fun r => decide (r.holder = who)) with
  | none => s
  | some r =>
    let d := min e r.balance
    s.modPwr fun p =>
      { p with live := p.live.map (fun q => if q.holder = who then { q with balance := q.balance - d } else q)
               spent := if d = 0 then p.spent else p.spent ++ [(d, 2)] }

/-- The unspent balance returns to the ledger at once (R138). -/
def release (s : State) (who : ResFor) : State :=
  s.modPwr fun p => { p with live := p.live.filter (fun r => !decide (r.holder = who)) }

/-- A reservation other than a mark's completes: its whole amount is debited (R138). -/
def debitAll (s : State) (who : ResFor) : State :=
  match s.pwr.live.find? (fun r => decide (r.holder = who)) with
  | none => s
  | some r => (s.debit who r.balance).release who

/-- A reservation of this holder is live. -/
def isLive (s : State) (who : ResFor) : Bool := s.pwr.live.any (fun r => decide (r.holder = who))

/-- Some mark reservation is live. -/
def markLive (s : State) : Bool :=
  s.pwr.live.any fun r => match r.holder with | .mark _ _ => true | _ => false

/-- The unit against which a reservation is recorded (R123). -/
def resUnit : ResFor → Nat
  | .mark n _ => 18 + n.val
  | .staged u _ => u
  | .axis x => 26 + x.val
  | .warm h => 22 + h.val
  | .spit h => 22 + h.val

/-- One sample later: amounts debited two samples ago leave the spent pool (R138). -/
def agePool (l : List (Nat × Nat)) : List (Nat × Nat) :=
  (l.map fun e => (e.1, e.2 - 1)).filter fun e => decide (e.2 ≠ 0)

end State
end Sys2Proof.Machine
end

