-- ==== Sys2Proof/Machine/Leases.lean ====
section
/-! DEFINITION. The lease table: resource numbers, holder codes, the holding relation, and the party's right to write a
bank (21_hatch R510-R512, 03_address_space R75). -/

namespace Sys2Proof.Machine

/-- Resource numbers of R510. -/
def resBank (b : Nat) : Nat := b
def resChan (c : Chan) : Nat := 16 + c.val
def resSlot (k : Fin 4) : Nat := 40 + k.val
def resTimer (t : TimerId) : Nat := 44 + t.val
def resAxis (x : Axis) : Nat := 60 + x.val

/-- Holder codes of R511. -/
def holdNone : Byte := 0x00
def holdOwner : Byte := 0x01
def holdPlc (n : Lane) : Byte := BitVec.ofNat 8 (0x10 + n.val)
def holdHed (n : Head) : Byte := BitVec.ofNat 8 (0x14 + n.val)
def holdChan (c : Chan) : Byte := BitVec.ofNat 8 (0x20 + c.val)
def holdSlot (k : Fin 4) : Byte := BitVec.ofNat 8 (0x40 + k.val)

namespace State

/-- The entry of resource `r`. -/
def lease (s : State) (r : Nat) : Lease := (s.hat.leases[r]?).getD ⟨0, 0, false, none, 0⟩

/-- The entry of resource `r` set. -/
def setLease (s : State) (r : Nat) (e : Lease) : State :=
  s.modHat fun h => { h with leases := h.leases.setIfInBounds r e }

/-- The direct holder of resource `r`. -/
def holder (s : State) (r : Nat) : Byte := (s.lease r).holder

/-- The holder of a holder that is itself a channel or slot; 0 for any other (R511). -/
def holderOf (s : State) (h : Byte) : Byte :=
  if 0x20 ≤ h.toNat ∧ h.toNat < 0x38 then s.holder (16 + (h.toNat - 0x20))
  else if 0x40 ≤ h.toNat ∧ h.toNat < 0x44 then s.holder (40 + (h.toNat - 0x40))
  else 0

/-- A holder, its holder and that one's holder: no chain is longer (R511). -/
def chain (s : State) (h : Byte) : List Byte := [h, s.holderOf h, s.holderOf (s.holderOf h)]

/-- A party holds a resource: its holder is the party, or a channel or slot that the party holds (R512). -/
def holds (s : State) (party : Byte) (r : Nat) : Bool := party ≠ 0 && (s.chain (s.holder r)).contains party

/-- A write to a bank by a party is accepted: the party holds the bank, or, for a channel or slot, a party that holds
the writer holds it (R75, R512). -/
def mayWriteBank (s : State) (writer : Byte) (b : Nat) : Bool :=
  s.holds writer (resBank b) ||
    (s.holder (resBank b) ≠ 0 && (s.chain writer).contains (s.holder (resBank b)))

/-- The lane that a holder belongs to (R511). -/
def laneOfDirect (h : Byte) : Option Lane :=
  if 0x10 ≤ h.toNat ∧ h.toNat < 0x18 then some ⟨h.toNat % 4, by omega⟩ else none

/-- The lane that a holder belongs to, through channels and slots (R511). -/
def laneOf (s : State) (h : Byte) : Option Lane := (s.chain h).findSome? laneOfDirect

/-- A resource's number names a bank, channel, slot, timer or axis that this holder code may hold (R511). -/
def mayHold (h : Byte) (r : Nat) : Bool :=
  let c := h.toNat
  let bank := decide (r < 16)
  let chan := decide (16 ≤ r ∧ r < 40)
  let slot := decide (40 ≤ r ∧ r < 44)
  let timer := decide (44 ≤ r ∧ r < 60)
  let axis := decide (60 ≤ r ∧ r < 66)
  if c = 0 then true
  else if c = 1 then bank || chan || timer || axis
  else if 0x10 ≤ c ∧ c < 0x14 then bank || slot || timer || axis
  else if 0x14 ≤ c ∧ c < 0x18 then bank || chan
  else if 0x20 ≤ c ∧ c < 0x38 then bank
  else if 0x40 ≤ c ∧ c < 0x44 then bank || chan
  else false

/-- The compositor slot that renders for a lane: the lowest-numbered slot whose lease PLCn holds directly (R411). -/
def laneSlot (s : State) (n : Lane) : Option (Fin 4) :=
  ([0, 1, 2, 3] : List (Fin 4)).find? fun k => decide (s.holder (resSlot k) = holdPlc n)

/-- The bytes from `a` to `a + n` lie in one Larder bank that a party holds (R507, R512). -/
def areaHeld (s : State) (party : Byte) (a n : Nat) : Bool :=
  decide (larderBase ≤ a ∧ a + n ≤ larderBase + 0x400000 ∧ n ≠ 0) && decide (bankOf a = bankOf (a + n - 1)) &&
    s.holds party (resBank (bankOf a))

end State
end Sys2Proof.Machine
end

