-- ==== Sys2Proof/Machine/Records.lean ====
section
/-! DEFINITION. Product records: their copy in the Larder, the outcome rule, and how a record becomes final, is freed or
is discarded (10_placement R273-R276, R287; 05_pantry R138). -/

namespace Sys2Proof.Machine

namespace Cause
def refused : Nat := 0
def overlap : Nat := 1
def noJob : Nat := 2
def envelope : Nat := 3
def position : Nat := 4
def stall : Nat := 5
def head : Nat := 6
def content : Nat := 7
def health : Nat := 8
def axis : Nat := 9
end Cause

/-- `STATE` of a record (R275). -/
def RecState.code : RecState → Nat
  | .created => 1
  | .latched => 2
  | .printing => 3
  | .final => 4

/-- `OUTCOME` of a record (R275). -/
def Verdict.code : Verdict → Nat
  | .pending => 0
  | .marked => 1
  | .unmarked => 2
  | .incomplete => 3
  | .suspect => 4
  | .bypassed => 5

/-- The 32 bytes of a record's slot (R275). -/
def recBytes (r : Rec) : List Byte :=
  bytesLE 6 r.edge.toNat ++ bytesLE 2 r.columns ++ bytesLE 6 r.trigger.toNat ++
    [BitVec.ofNat 8 r.state.code, BitVec.ofNat 8 r.verdict.code] ++ bytesLE 4 r.serial.toNat ++
    bytesLE 2 r.cause.toNat ++ [r.job, 0] ++ bytesLE 6 r.last.toNat ++ bytesLE 2 r.skips

/-- The position of column `k` (R276). -/
def Rec.pos (r : Rec) (k : Nat) : Pc := r.trigger + BitVec.ofNat 48 ((k * r.pitch) >>> 16)

/-- The last column position (R276). -/
def Rec.lastPos (r : Rec) : Pc := r.pos (r.columns - 1)

/-- A condition proposes a rejecting outcome: the first becomes the outcome, each sets its cause bit (R274). -/
def Rec.propose (r : Rec) (v : Verdict) (cause : Nat) : Rec :=
  { r with cause := r.cause ||| BitVec.ofNat 16 (2 ^ cause), verdict := if r.verdict = .pending then v else r.verdict }

/-- A record whose mark reaches beyond it for the overlap check: latched, and neither UNMARKED nor BYPASSED (R276, R495). -/
def Rec.marks (r : Rec) : Bool :=
  decide (r.columns ≠ 0) && decide (r.verdict ≠ .unmarked) && decide (r.verdict ≠ .bypassed) && decide (r.state ≠ .created)

namespace State

/-- The record of lane n with a serial number. -/
def findRec (s : State) (n : Lane) (serial : Word) : Option Rec := (s.lane n).recs.find? fun r => decide (r.serial = serial)

/-- The record of lane n in the print window: at most one is PRINTING (R273, R276). -/
def printing (s : State) (n : Lane) : Option Rec := (s.lane n).recs.find? fun r => decide (r.state = .printing)

/-- Some record of lane n is LATCHED or PRINTING. -/
def marksHeld (s : State) (n : Lane) : Bool :=
  (s.lane n).recs.any fun r => decide (r.state = .latched) || decide (r.state = .printing)

/-- A record replaced in its lane's context. -/
def putRec (s : State) (n : Lane) (r : Rec) : State :=
  s.modLane n fun l => { l with recs := l.recs.map fun q => if q.serial = r.serial then r else q }

/-- The Larder address of a record's slot (R275). -/
def slotAddr (s : State) (n : Lane) (r : Rec) : Nat := (s.reg (Reg.PLC_REC_BASE n)).toNat + 32 * r.slot

/-- A write of the slot is accepted: it lies in the Larder, port 2 is not isolated, and PLCn may write the bank (R75). -/
def slotWritable (s : State) (n : Lane) (a : Nat) : Bool :=
  decide (larderBase ≤ a ∧ a + 32 ≤ larderBase + 0x400000) && !s.isolated 2 && s.mayWriteBank (holdPlc n) (bankOf a)

/-- The record's final outcome is counted once (R274). -/
def countVerdict (s : State) (n : Lane) (v : Verdict) : State :=
  match v with
  | .pending => s
  | .marked => s.bump (Reg.PLC_CNT_MARKED n)
  | .unmarked => s.bump (Reg.PLC_CNT_UNMARKED n)
  | .incomplete => s.bump (Reg.PLC_CNT_INCOMPLETE n)
  | .suspect => s.bump (Reg.PLC_CNT_SUSPECT n)
  | .bypassed => s.bump (Reg.PLC_CNT_BYPASSED n)

/-- The copy of a record in its slot, or nothing where the write is refused. -/
def copySlot (s : State) (n : Lane) (r : Rec) : State :=
  let a := s.slotAddr n r
  if s.slotWritable n a then s.modMem fun m => m.writeLarderBytes a (recBytes r) else s

/-- The ends of a record that becomes final: the outcome is counted, the unspent balance is released, its render ends
(R138, R274, R400, R415). The record itself must be put by the caller. -/
def endsOf (s : State) (n : Lane) (r : Rec) : State :=
  let s := if r.counted then s else s.countVerdict n r.verdict
  let s := s.release (.mark n r.serial)
  s.modCmp fun c => { c with renders := c.renders.filter fun q => !(decide (q.lane = n) && decide (q.serial = r.serial)) }

/-- A record becomes FINAL with the outcome it has, PENDING counting as MARKED (R273, R274). One commit. -/
def closeRec (s : State) (n : Lane) (r : Rec) : State :=
  let v := if r.verdict = .pending then .marked else r.verdict
  let r := { r with state := .final, verdict := v }
  let s := (s.endsOf n r).putRec n { r with counted := true }
  (s.copySlot n { r with counted := true }).commit

/-- A change of a record is written to its slot; a refused write gives a record that is not FINAL a rejecting outcome
with cause position (R275). -/
def storeRec (s : State) (n : Lane) (r : Rec) : State :=
  let s := s.putRec n r
  if s.slotWritable n (s.slotAddr n r) then s.copySlot n r
  else
    match r.state with
    | .final => s
    | .printing => s.closeRec n { r.propose .incomplete Cause.position with abandoned := true }
    | _ => s.closeRec n (r.propose .unmarked Cause.position)

/-- A condition makes a record SUSPECT, or INCOMPLETE while its mark goes on; a decided outcome is a commit. -/
def proposeRec (s : State) (n : Lane) (r : Rec) (v : Verdict) (cause : Nat) : State :=
  let q := r.propose v cause
  let s := s.storeRec n q
  if q.verdict = r.verdict then s else s.commit

/-- The record becomes UNMARKED and FINAL, unless an outcome stands already. -/
def unmark (s : State) (n : Lane) (r : Rec) (cause : Nat) : State := s.closeRec n (r.propose .unmarked cause)

/-- The record's mark is abandoned and the record becomes INCOMPLETE and FINAL, unless an outcome stands already. -/
def abandon (s : State) (n : Lane) (r : Rec) (cause : Nat) : State :=
  s.closeRec n { r.propose .incomplete cause with abandoned := true }

/-- The record in the print window becomes SUSPECT (R283, R286). -/
def suspectPrinting (s : State) (n : Lane) (cause : Nat) : State :=
  match s.printing n with
  | some r => s.proposeRec n r .suspect cause
  | none => s

/-- Every record of lane n that is not FINAL gets its final outcome: UNMARKED before printing, INCOMPLETE with its mark
abandoned while printing (R287, R505). -/
def endRecords (s : State) (n : Lane) (cause : Nat) : State :=
  (s.lane n).recs.foldl (fun s r =>
    match r.state with
    | .final => s
    | .printing => s.abandon n r cause
    | _ => s.unmark n r cause) s

/-- The slot of a freed record holds STATE 0 (R275). -/
def freeSlot (s : State) (n : Lane) (r : Rec) : State :=
  let a := s.slotAddr n r
  if s.slotWritable n a then s.modMem fun m => m.writeLarderBytes a ((recBytes r).set 14 0) else s

/-- What a removed record leaves for the overlap check (R276). -/
def leaveCol (l : LaneSt) (r : Rec) : LaneSt := if r.marks then { l with lastCol := some r.lastPos } else l

/-- A record is freed: it leaves its lane's context (R273). -/
def freeRec (s : State) (n : Lane) (r : Rec) : State :=
  (s.freeSlot n r).modLane n fun l => leaveCol { l with recs := l.recs.filter fun q => !decide (q.serial = r.serial) } r

/-- Every record of lane n is discarded (R287, R505). -/
def discardRecs (s : State) (n : Lane) : State :=
  let s := (s.lane n).recs.foldl (fun s r => s.freeSlot n r) s
  s.modLane n fun l => { (l.recs.foldl leaveCol l) with recs := [] }

/-- The unrecorded span of R169 starts at the lane's present placement stamp once a job is selected; it holds the
reject output over the trigger offset plus the gate distance. -/
def startSpan (s : State) (n : Lane) : State :=
  if s.maxRate n = 0 then s.modRejLane n fun x => { x with spanDue := true }
  else
    let e := (s.lane n).pc + BitVec.ofNat 48 (s.fld (Reg.PLC_TRIG n) 23 0 + s.fld (Reg.REJ_GATE n) 23 0)
    -- a span that already runs further keeps its end
    s.modRejLane n fun x =>
      { x with spanDue := false, span := match x.span with | some p => some (if pcGt p e then p else e) | none => some e }

end State
end Sys2Proof.Machine
end

