-- ==== Sys2Proof/Machine/Axes.lean ====
section
/-! DEFINITION. Axes: the rate multiplier, gearing, the carriage cycle, stops, homing, the following monitor, the axis bus,
and the drive stage of stepper axes (11_motion_profiles R289-R312; 12_drive_stage R314-R330). -/

namespace Sys2Proof.Machine

/-- `STATE` of an axis (R313). -/
def AxisState.code : AxisState → Nat
  | .disabled => 0
  | .idle => 1
  | .move => 2
  | .home => 3
  | .gear => 4
  | .halt => 5

/-- The value of a 32-bit word as a signed number. -/
def sword (w : Word) : Int := signed 32 w.toNat

/-- A signed number as 64 bits. -/
def to64 (i : Int) : BitVec 64 := BitVec.ofInt 64 i

/-- A stepper axis X0-X3 (R289). -/
def isStepper (x : Axis) : Bool := decide (x.val < 4)

-- Numbers of the events that fall at multiples of a period (State.dueAt).
namespace Ev
def envelope (n : Lane) : Nat := n.val
def scrub : Nat := 4
def sample : Nat := 5
def second : Nat := 6
def checkpoint : Nat := 7
def profile (x : Axis) : Nat := 10 + x.val
def interp (x : Axis) : Nat := 20 + x.val
def heaterLoop (h : Head) : Nat := 30 + h.val
def heaterPwm (h : Head) : Nat := 34 + h.val
def fireSave (h : Head) : Nat := 38 + h.val
def ageing : Nat := 42
end Ev

namespace State

/-- Fields of the axis registers (R313, R332). -/
def axOutMode (s : State) (x : Axis) : Bool := s.rbit (Reg.MOT_CFG x) 0
def axGmode (s : State) (x : Axis) : Bool := s.rbit (Reg.MOT_CFG x) 5
def axMaster (s : State) (x : Axis) : Nat := s.fld (Reg.MOT_CFG x) 4 4
def axImode (s : State) (x : Axis) : Bool := s.rbit (Reg.MOT_DRV_CFG x) 12
def axIsrc (s : State) (x : Axis) : Nat := s.fld (Reg.MOT_DRV_CFG x) 13 13
def axVstart (s : State) (x : Axis) : Nat := (s.reg (Reg.MOT_VSTART x)).toNat
def stepMin (s : State) (x : Axis) : Nat := s.fld (Reg.MOT_STEP x) 15 0
def ssMode (s : State) (x : Axis) : Nat := s.fld (Reg.MOT_DRV_CFG x) 6 4
def csMin (s : State) (x : Axis) : Nat := s.fld (Reg.MOT_DRV_CUR x) 15 8
def csMax (s : State) (x : Axis) : Nat := s.fld (Reg.MOT_DRV_CUR x) 7 0

/-- The lane an axis carries (R290). -/
def carried (s : State) (x : Axis) : Option Lane :=
  if s.rbit (Reg.MOT_CFG x) 12 then some ⟨s.fld (Reg.MOT_CFG x) 9 8 % 4, by omega⟩ else none

/-- The backlog: command position minus emitted position (R296). -/
def backlog (s : State) (x : Axis) : Int := ((s.axis x).cmd - (s.axis x).emit).toInt

/-! ### The drive stage -/

/-- Magnitudes and signs of the coils at phase `m` (R316): coil A, whether it is negative, coil B, whether it is negative. -/
def coilShape (s : State) (x : Axis) (m : Nat) : Nat × Bool × Nat × Bool :=
  let w := s.mem.table (0x80000 + 0x1000 * x.val + 4 * (m % 256))
  let a := bits w 11 0
  let b := bits w 27 16
  match m / 256 % 4 with
  | 0 => (a, false, b, false)
  | 1 => (b, true, a, false)
  | 2 => (a, true, b, true)
  | _ => (b, false, a, true)

/-- A threshold of a chopper, clamped to the sense scale (R321). -/
def clamp12 (i : Int) : Nat := if i < 0 then 0 else if i > 4095 then 4095 else i.toNat

/-- The thresholds of a coil for its target and offset (R321). -/
def withThresholds (hyst : Nat) (c : Coil) : Coil :=
  let mid : Int := (c.tgt.toNat : Int) + c.off.toInt
  { c with upper := clamp12 (mid + (hyst / 2 : Nat)), lower := clamp12 (mid - (hyst / 2 : Nat)) }

/-- The current scale in force: during a ramp it grows with the elapsed time (R327). -/
def csNow (s : State) (x : Axis) : Nat :=
  let d := (s.axis x).drive
  match d.rampEnd with
  | none => d.cs
  | some e =>
    let total := s.fld (Reg.MOT_DRV_SS x) 31 16 * 1000
    if total = 0 then s.csMin x else s.csMin x * (total - (e - s.tick)) / total

/-- A coil takes a sign and a target at tick `t`; a coil whose target was 0 turns on (R320). -/
def takeTarget (t : Nat) (c : Coil) (neg : Bool) (tgt : Nat) : Coil :=
  { c with neg := neg, tgt := BitVec.ofNat 12 tgt, step := if c.tgt = 0 ∧ tgt ≠ 0 then .drive t else c.step }

/-- The coil targets are computed from the phase and the current scale (R316). -/
def retarget (s : State) (x : Axis) : State :=
  let d := (s.axis x).drive
  let (va, na, vb, nb) := s.coilShape x d.phase.toNat
  let cs := s.csNow x
  let hyst := s.fld (Reg.MOT_CHOP_HYST x) 11 0
  let a := withThresholds hyst (takeTarget s.tick d.coilA na (va * cs / 256))
  let b := withThresholds hyst (takeTarget s.tick d.coilB nb (vb * cs / 256))
  s.modAxis x fun a' => { a' with drive := { d with coilA := a, coilB := b } }

/-- A change of the drive stage. -/
def modDrive (s : State) (x : Axis) (f : Drive → Drive) : State := s.modAxis x fun a => { a with drive := f a.drive }

/-- A re-energise that ramps from 0 to `CS_MIN`, from a phase kept or set to 0 (R326, R327). -/
def startRamp (s : State) (x : Axis) (lose : Bool) : State :=
  let till := s.tick + s.fld (Reg.MOT_DRV_SS x) 31 16 * 1000
  let s := s.modDrive x fun d =>
    { d with phase := if lose then 0 else d.phase, cs := 0, standstill := false, rampEnd := some till, emitFrom := till,
             fresh := true }
  let s := if lose then (s.modAxis x fun a => { a with suspect := true }).setFlag (Reg.MOT_DRV_EVT x) 2 else s
  (s.retarget x).commit

/-- A stepper axis in standstill re-energises (R327). -/
def reenergise (s : State) (x : Axis) : State :=
  if isStepper x && (s.axis x).drive.standstill && decide ((s.axis x).state ≠ .disabled) then
    match s.ssMode x with
    | 1 => s.startRamp x false
    | 2 => s.startRamp x true
    | _ =>
      let s := s.modDrive x fun d => { d with cs := s.csMin x, standstill := false, emitFrom := s.tick + 1, fresh := true }
      (s.retarget x).commit
  else s

/-- The delay before standstill restarts (R325). -/
def restartSs (s : State) (x : Axis) : State := s.modDrive x fun d => { d with ssFrom := s.tick }

/-- The end of the standstill delay (R325, R326). -/
def enterStandstill (s : State) (x : Axis) : State :=
  let a := s.axis x
  let still := decide (a.state = .idle) || decide (a.state = .halt) || decide (a.state = .gear)
  if isStepper x && still && !a.drive.standstill && decide (s.backlog x = 0) && a.drive.rampEnd.isNone then
    let hold := s.fld (Reg.MOT_DRV_CUR x) 23 16
    let s := s.modDrive x fun d => { d with standstill := true, cs := if s.ssMode x = 0 then hold else d.cs }
    (s.retarget x).commit
  else s

/-- The end of a re-energise ramp (R327). -/
def endRamp (s : State) (x : Axis) : State :=
  match (s.axis x).drive.rampEnd with
  | none => s
  | some _ => (s.modDrive x fun d => { d with rampEnd := none, cs := s.csMin x }).retarget x

/-- The bridge outputs of a coil (R319, R326, R330): `x1`, `x2`, while its chopper is in its ON phase or in slow decay. -/
def bridge (s : State) (x : Axis) (c : Coil) : Bool × Bool :=
  let a := s.axis x
  let short := decide (s.ssMode x = 4)
  if a.state = .disabled ∨ a.drive.ocOff = true then (false, false)
  else if s.pwr.state = .sleep then (short, short)
  else if a.drive.standstill ∧ s.ssMode x ≠ 0 then (short, short)
  else match c.step with
    | .drive _ => if c.tgt = 0 then (true, true) else if c.neg then (false, true) else (true, false)
    | .off _ _ => (true, true)

/-- The coil is energised and chops (R320). -/
def chops (s : State) (x : Axis) (c : Coil) : Bool :=
  let a := s.axis x
  isStepper x && decide (a.state ≠ .disabled) && !a.drive.ocOff && !(a.drive.standstill && decide (s.ssMode x ≠ 0)) &&
    decide (c.tgt ≠ 0) && decide (s.pwr.state ≠ .sleep)

/-- A coil by number: 0 is A, 1 is B. -/
def coil (s : State) (x : Axis) (b : Bool) : Coil := if b then (s.axis x).drive.coilB else (s.axis x).drive.coilA

/-- A coil replaced. -/
def setCoil (s : State) (x : Axis) (b : Bool) (c : Coil) : State :=
  s.modDrive x fun d => if b then { d with coilB := c } else { d with coilA := c }

/-- A coil and its step after the tick's current scale has been applied (R327). -/
def rescale (s : State) (x : Axis) : State := if (s.axis x).drive.rampEnd.isSome then s.retarget x else s

/-- The end of the blanking of a coil that drives (R320 steps 1 and 2). -/
def blankEnd (s : State) (x : Axis) (b : Bool) : Nat :=
  match (s.coil x b).step with
  | .drive t => t + s.fld (Reg.MOT_CHOP_TIME x) 7 0
  | .off _ _ => s.tick

/-- The turn-off of a chopper cycle: the peak is sampled (R320 step 3). -/
def chopOff (s : State) (x : Axis) (b : Bool) (sense : Nat) : State :=
  let c := s.coil x b
  match c.step with
  | .off _ _ => s
  | .drive _ => if s.chops x c && decide (c.upper ≤ sense) then s.setCoil x b { c with step := .off s.tick sense } else s

/-- The off end of a coil whose sense stands at a code (R320 steps 4 to 6). -/
def offEnd (s : State) (x : Axis) (b : Bool) (sense : Nat) : Option Nat :=
  let c := s.coil x b
  match c.step with
  | .drive _ => none
  | .off t _ =>
    let decay := s.fld (Reg.MOT_DRV_CFG x) 9 8
    let fast := if decay = 0 then 0 else s.fld (Reg.MOT_CHOP_TIME x) 23 16
    if decay = 1 ∨ c.lower < sense then some (t + 10 * s.fld (Reg.MOT_CHOP_LIMIT x) 27 16)
    else some (max s.tick (t + 10 * max fast (s.fld (Reg.MOT_CHOP_TIME x) 31 24)))

/-- The off end of a chopper cycle: the valley is sampled, and offset and thresholds are updated (R320 step 6, R321). -/
def chopOn (s : State) (x : Axis) (b : Bool) (sense : Nat) : State :=
  let c := s.coil x b
  match c.step with
  | .drive _ => s
  | .off _ peak =>
    if s.chops x c then
      let avg := (peak + sense) / 2
      let err : Int := (c.tgt.toNat : Int) - avg
      let lim : Int := s.fld (Reg.MOT_CHOP_HYST x) 26 16
      let off : Int := c.off.toInt + err / (2 ^ s.fld (Reg.MOT_CHOP_HYST x) 15 12 : Nat)
      let off := if off > lim then lim else if off < -lim then -lim else off
      s.setCoil x b (withThresholds (s.fld (Reg.MOT_CHOP_HYST x) 11 0) { c with off := BitVec.ofInt 16 off, step := .drive s.tick })
    else s.setCoil x b { c with step := .drive s.tick }

/-- The axis is above its pull-in speed (R302). -/
def abovePullIn (s : State) (x : Axis) : Bool :=
  let a := s.axis x
  match a.state with
  | .move => decide (a.v > s.axVstart x * 65536)
  | .home => decide (a.v > s.axVstart x * 65536)
  | .gear =>
    match a.lastEmit, a.prevEmit with
    | some l, some p => decide ((l - p) * s.axVstart x < 2 ^ 32)
    | _, _ => false
  | _ => false

/-- A stop (R302): every motion ends, and the axis enters `to`. `sure` is a cause that always makes the axis suspect. -/
def stopAxis (s : State) (x : Axis) (sure : Bool) (dst : AxisState) : State :=
  let sus := sure || s.abovePullIn x
  let s := s.debitAll (.axis x)
  let s := s.modAxis x fun a =>
    { a with state := dst, suspect := a.suspect || sus, emit := a.cmd, v := 0, ph := 0, rem := 0, endless := false,
             home := none, homeRef := none, blend := none, cycle := false, waiting := false, mWin := none, parking := false,
             drive := { a.drive with pend := 0, ssFrom := s.tick } }
  s.commit

/-- The axis moves: MOVE, HOME or GEAR. -/
def axMoves (s : State) (x : Axis) : Bool :=
  match (s.axis x).state with
  | .move => true
  | .home => true
  | .gear => true
  | _ => false

/-- The record in the print window of the lane that the axis carries becomes SUSPECT with cause axis (R303). -/
def suspectCarried (s : State) (x : Axis) : State :=
  match s.carried x with
  | some n => s.suspectPrinting n Cause.axis
  | none => s

/-- The stop that a MOT message makes (R302): an axis that is DISABLED or in HALT stays there. -/
def stopFor (s : State) (x : Axis) (sure : Bool) : State :=
  match (s.axis x).state with
  | .disabled => s.modAxis x fun a => { a with suspect := a.suspect || sure }
  | .halt => s.modAxis x fun a => { a with suspect := a.suspect || sure }
  | _ => s.stopAxis x sure .halt

/-- A MOT message of an axis: the record in the print window of the lane it carries becomes SUSPECT, and the axis stops
(R302, R303). -/
def motMessage (s : State) (x : Axis) (k : Kind) (addr : Word) : State :=
  if s.unitInReset (26 + x.val) then s
  else ((s.raise k addr).suspectCarried x).stopFor x (decide (k.code ≤ 4))

/-- The backlog is checked against `LAG_MAX` (R306). -/
def lagCheck (s : State) (x : Axis) : State :=
  if (s.backlog x).natAbs > s.fld (Reg.MOT_STEP x) 31 16 then
    s.motMessage x (Kind.following x.val) (BitVec.ofInt 32 (s.backlog x))
  else s

/-- A servo axis whose set-points go over the axis bus: it has no output stage, and its emitted position is its command
position (R289, R296). -/
def onBus (s : State) (x : Axis) : Bool := !isStepper x && s.axOutMode x

/-- The command position has moved: a backlog re-energises the axis, and is checked (R306, R327). -/
def afterCmd (s : State) (x : Axis) : State :=
  if s.onBus x then s.modAxis x fun a => { a with emit := a.cmd }
  else if s.backlog x = 0 then s
  else (s.reenergise x).lagCheck x

/-! ### Feedback -/

/-- The feedback count (R306). -/
def feedback (s : State) (x : Axis) : Word :=
  if s.rbit (Reg.MOT_CFG x) 17 then s.reg (Reg.MOT_AXB_UP (x.val - 4)) else s.reg (Reg.MOT_FBCOUNT x)

/-- `(cmd × FB_SCALE) >> 16` (R306). -/
def fbScaled (s : State) (x : Axis) (cmd : BitVec 64) : Int := cmd.toInt * ((s.reg (Reg.MOT_FBSCALE x)).toNat : Int) / 65536

/-- The offset of the following error is taken so that the error is 0 (R306). -/
def takeOffset (s : State) (x : Axis) : State :=
  s.modAxis x fun a => { a with fbOff := to64 (sword (s.feedback x) - s.fbScaled x a.cmd) }

/-- The following error for a command position (R306). -/
def followErr (s : State) (x : Axis) (cmd : BitVec 64) : Int :=
  (to64 (s.fbScaled x cmd + (s.axis x).fbOff.toInt - sword (s.feedback x))).toInt

/-- The following monitor (R306). -/
def followCheck (s : State) (x : Axis) (cmd : BitVec 64) : State :=
  if s.rbit (Reg.MOT_CFG x) 16 && !isStepper x && decide ((s.axis x).state ≠ .disabled) then
    let e := s.followErr x cmd
    if e.natAbs > s.fld (Reg.MOT_FOLLOW x) 15 0 then s.motMessage x (Kind.following x.val) (BitVec.ofInt 32 e) else s
  else s

/-- The feedback freeze window starts with the present feedback as its reference (R307). -/
def startFbWin (s : State) (x : Axis) : State :=
  s.modAxis x fun a => { a with fbWin := some (s.tick, s.feedback x, a.cmd) }

/-- A feedback change restarts the window when it lies two or more counts from the reference (R307). -/
def slideFbWin (s : State) (x : Axis) : State :=
  match (s.axis x).fbWin with
  | some (_, ref, _) => if (sword (s.feedback x - ref)).natAbs ≥ 2 then s.startFbWin x else s
  | none => s

/-- The end of the feedback freeze window (R307). -/
def endFbWin (s : State) (x : Axis) : State :=
  match (s.axis x).fbWin with
  | none => s
  | some (_, _, c0) =>
    if ((s.axis x).cmd - c0).toInt.natAbs ≥ s.fld (Reg.MOT_FOLLOW x) 31 16 then
      (s.modAxis x fun a => { a with fbWin := none }).motMessage x (Kind.feedbackFrozen x.val) (s.feedback x)
    else s.startFbWin x

/-- A feedback encoder count (R289). -/
def fbCount (s : State) (x : Axis) (dir : Int) : State :=
  let s := s.setReg (Reg.MOT_FBCOUNT x) (s.reg (Reg.MOT_FBCOUNT x) + BitVec.ofInt 32 dir)
  if s.rbit (Reg.MOT_CFG x) 17 then s
  else
    let s := s.slideFbWin x
    if s.axOutMode x then s else s.followCheck x (s.axis x).emit

/-! ### Profiles -/

/-- `DEC` of an axis. -/
def axDec (s : State) (x : Axis) : Nat := (s.reg (Reg.MOT_DEC x)).toNat

/-- The stopping distance at speed `v` (R295). -/
def dstop (s : State) (x : Axis) (v vs : Nat) : Nat := (v * v - vs * vs) / (2 * s.axDec x) / 2 ^ 48

/-- A profile move begins toward a target (R295); `vm` is its top speed. A distance of 0 is done by the caller. -/
def startProfile (s : State) (x : Axis) (target : Int) (vmax : Nat) : State :=
  let d := target - (s.axis x).cmd.toInt
  let vs := s.axVstart x * 65536
  s.modAxis x fun a =>
    { a with v := vs, ph := 0, vs := vs, vm := vmax * 65536, rem := d.natAbs % 2 ^ 32, dirNeg := decide (d < 0), endless := false }

/-- The rate multiplier runs from the next tick on (R295). -/
def fromNext (s : State) (x : Axis) : State := s.setFired (Ev.profile x) s.tick

/-- A move or a homing ends in IDLE; its reservation is debited (R292, R304). -/
def endMove (s : State) (x : Axis) (flag : Nat) : State :=
  let s := s.debitAll (.axis x)
  let s := s.modAxis x fun a => { a with state := .idle, v := 0, rem := 0, endless := false, home := none, homeRef := none, parking := false }
  ((s.setFlag (Reg.MOT_EVT x) flag).restartSs x).commit

/-- The end of the stop phase of homing: positions are re-coordinated and the axis parks (R305). -/
def recoordinate (s : State) (x : Axis) : State :=
  let a := s.axis x
  let ref := a.homeRef.getD a.cmd
  let p := a.cmd - ref + to64 (sword (s.reg (Reg.MOT_HOMEPOS x)))
  let s := s.modAxis x fun a => { a with cmd := p, emit := p, suspect := false, home := some .park }
  let s := ((s.takeOffset x).setFlag (Reg.MOT_EVT x) 1).commit
  let s := (s.startProfile x (sword (s.reg (Reg.MOT_PARKPOS x))) (s.reg (Reg.MOT_VMAX x)).toNat).fromNext x
  if (s.axis x).rem = 0 then s.endMove x 0 else s

/-- The remaining distance has reached 0 (R295, R305). -/
def arrive (s : State) (x : Axis) : State :=
  match (s.axis x).home with
  | some .stop => s.recoordinate x
  | some .fail => s.endMove x 2
  | _ => s.endMove x 0

/-- The axis ramps down to `VSTART`: `rem` becomes the stopping distance plus 1 unless it is smaller (R295). -/
def rampDown (s : State) (x : Axis) : State :=
  let a := s.axis x
  let r := s.dstop x a.v a.vs + 1
  s.modAxis x fun a => { a with rem := if a.endless then r else min a.rem r, endless := false }

/-- A homing that fails ramps down and ends with `HOME_FAIL` (R305). -/
def failHome (s : State) (x : Axis) : State := (s.modAxis x fun a => { a with home := some .fail }).rampDown x

/-- One tick of the rate multiplier (R295). The commit of a move that is done is a command of its own. -/
def profileTick (s : State) (x : Axis) : State :=
  let a := s.axis x
  if (a.state = .move ∨ a.state = .home) ∧ (a.endless ∨ a.rem ≠ 0) then
    let acc := (s.reg (Reg.MOT_ACC x)).toNat
    let dec := s.axDec x
    let v :=
      if !a.endless && decide (a.rem ≤ s.dstop x a.v a.vs) then (if a.v > a.vs + dec then a.v - dec else a.vs)
      else if a.v < a.vm then (if a.v + acc < a.vm then a.v + acc else a.vm)
      else a.v
    let ph := a.ph + v
    if ph ≥ 2 ^ 48 then
      let s := s.modAxis x fun a =>
        { a with v := v, ph := ph - 2 ^ 48, cmd := if a.dirNeg then a.cmd - 1 else a.cmd + 1, rem := a.rem - 1 }
      let s := s.afterCmd x
      let a := s.axis x
      if a.state = .move ∨ a.state = .home then
        if a.home = some .search ∧ (a.cmd - a.homeStart).toInt.natAbs ≥ (s.reg (Reg.MOT_HOMERANGE x)).toNat then s.failHome x
        else s
      else s
    else s.modAxis x fun a => { a with v := v, ph := ph }
  else s

/-- The tick of the next step of the rate multiplier (R295). -/
def profileDue (s : State) (x : Axis) : Option Nat :=
  let a := s.axis x
  if (a.state = .move ∨ a.state = .home) ∧ (a.endless ∨ a.rem ≠ 0) then some (s.dueAt (Ev.profile x) 0 1) else none

/-- The remaining distance of a move is 0: it is done (R295). -/
def moveOver (s : State) (x : Axis) : Bool :=
  let a := s.axis x
  (decide (a.state = .move) || decide (a.state = .home)) && !a.endless && decide (a.rem = 0)

/-- The home input's active edge is captured during the search (R305). -/
def homeEdge (s : State) (x : Axis) : State :=
  if (s.axis x).home = some .search then
    let s := s.modAxis x fun a => { a with homeRef := some a.cmd }
    if s.fld (Reg.MOT_CFG x) 26 24 = 0 then (s.modAxis x fun a => { a with home := some .stop }).rampDown x
    else s.modAxis x fun a => { a with home := some .index }
  else s

/-- An index edge replaces the reference (R305); `src` is the index input of the edge. -/
def indexEdge (s : State) (x : Axis) (src : Nat) : State :=
  if (s.axis x).home = some .index ∧ s.fld (Reg.MOT_CFG x) 26 24 = src then
    (s.modAxis x fun a => { a with homeRef := some a.cmd, home := some .stop }).rampDown x
  else s

/-! ### Emission -/

/-- The full step that ends at an emission: the load, the current scale and the stall count (R323, R324). -/
def fullStep (s : State) (x : Axis) (onTicks : Nat) : State :=
  let d := (s.axis x).drive
  if d.fresh then
    (s.modDrive x fun d => { d with fresh := false, cs := s.csMin x, atceil := 0, stepFrom := s.tick }).retarget x
  else
    let load := min (onTicks * 512 / max 1 (s.tick - d.stepFrom)) 1023
    let hi := s.fld (Reg.MOT_DRV_LOAD x) 25 16
    let lo := s.fld (Reg.MOT_DRV_LOAD x) 9 0
    let cs :=
      if load ≥ hi then min (d.cs + s.fld (Reg.MOT_DRV_CUR x) 27 24) (s.csMax x)
      else if load ≤ lo then max (d.cs - s.fld (Reg.MOT_DRV_CUR x) 31 28) (s.csMin x)
      else d.cs
    let at_ := if cs = s.csMax x ∧ load ≥ hi then min (d.atceil + 1) 0xFFFF else 0
    let s := s.modDrive x fun d => { d with load := load, cs := cs, atceil := at_, stepFrom := s.tick }
    let s := if cs = s.csMax x ∧ d.cs ≠ cs then (s.setFlag (Reg.MOT_DRV_EVT x) 0).commit else s
    let s := s.retarget x
    let lim := s.fld (Reg.MOT_DRV_STALL x) 15 0
    if lim ≠ 0 ∧ at_ = lim then s.motMessage x (Kind.motStall x.val) (BitVec.ofInt 32 (s.axis x).emit.toInt) else s

/-- The phase moves with an emission, and a full step may end (R316, R323). -/
def movePhase (s : State) (x : Axis) (neg : Bool) (onTicks : Nat) : State :=
  let inc : BitVec 10 := BitVec.ofNat 10 (2 ^ s.fld (Reg.MOT_DRV_CFG x) 3 0)
  let s := s.modDrive x fun d => { d with phase := if neg then d.phase - inc else d.phase + inc }
  let s := s.retarget x
  if (s.axis x).drive.phase.toNat % 256 = 0 then s.fullStep x onTicks else s

/-- The output stage may emit (R296, R327). -/
def mayEmit (s : State) (x : Axis) : Bool :=
  let a := s.axis x
  decide (s.backlog x ≠ 0) && decide (a.state ≠ .disabled) && decide (a.state ≠ .halt) && !(s.axOutMode x && !isStepper x) &&
    !(isStepper x && (a.drive.ocOff || a.drive.rampEnd.isSome))

/-- The tick at which the next microstep is emitted (R296). -/
def emitDue (s : State) (x : Axis) : Nat :=
  let a := s.axis x
  max s.tick (max (match a.lastEmit with | some l => l + s.stepMin x | none => 0) (if isStepper x then a.drive.emitFrom else 0))

/-- One microstep is emitted toward the command position (R296). -/
def emitStep (s : State) (x : Axis) (onTicks : Nat) : State :=
  let neg := decide (s.backlog x < 0)
  let flip := !isStepper x && decide ((s.axis x).dirOut ≠ neg)
  let s := s.modAxis x fun a =>
    { a with emit := if neg then a.emit - 1 else a.emit + 1, prevEmit := a.lastEmit, lastEmit := some s.tick, dirOut := neg }
  let s := (s.emit (.step x (if flip then s.tick + 10 else s.tick) neg)).restartSs x
  if isStepper x then s.movePhase x neg onTicks else s.followCheck x (s.axis x).emit

/-! ### Gearing -/

/-- The cam table word at byte `o` of point `k` (R297). -/
def camWord (s : State) (x : Axis) (k o : Nat) : Nat := (s.mem.table (0xA0000 + 0x400 * x.val + 16 * k + o)).toNat
def camOffset (s : State) (x : Axis) (k : Nat) : Nat := s.camWord x k 0 + s.camWord x k 4 % 65536 * 2 ^ 32
def camBlend (s : State) (x : Axis) (k : Nat) : Nat := s.camWord x k 4 / 65536
def camRatio (s : State) (x : Axis) (k : Nat) : BitVec 64 := BitVec.ofNat 64 (s.camWord x k 8 + s.camWord x k 12 * 2 ^ 32)
def camPoints (s : State) (x : Axis) : Nat := s.fld (Reg.MOT_GEAR x) 6 0

/-- The cam table is legal for ENGAGE (R297). -/
def camOk (s : State) (x : Axis) : Bool :=
  let n := s.camPoints x
  decide (1 ≤ n ∧ n ≤ 64) &&
    ((List.range (n - 1)).all fun k => decide (s.camOffset x k + s.camBlend x k < s.camOffset x (k + 1))) &&
    (!s.axGmode x || (decide (s.camRatio x (n - 1) = 0) && s.rbit (Reg.MOT_CFG x) 12))

/-- A frozen-master window starts (R308). -/
def startMWin (s : State) (x : Axis) : State := s.modAxis x fun a => { a with mWin := some (s.tick, a.mpos) }

/-- The move to `PARK_POS` of HOLD, without a reservation (R143, R303). -/
def startPark (s : State) (x : Axis) : State :=
  let s := (s.modAxis x fun a => { a with state := .move, waiting := false, mWin := none, parking := true }).startProfile x
    (sword (s.reg (Reg.MOT_PARKPOS x))) (s.reg (Reg.MOT_VMAX x)).toNat
  let s := (s.fromNext x).commit
  if (s.axis x).rem = 0 then s.endMove x 0 else s.reenergise x

/-- The axis returns to waiting at a cycle's end (R301); a parking axis disengages and moves to `PARK_POS` (R303). -/
def cycleEnd (s : State) (x : Axis) : State :=
  let a := s.axis x
  let s := s.setReg (Reg.MOT_CYCERR x) (BitVec.ofInt 32 (a.cmd - a.cycStart).toInt)
  let s := s.modAxis x fun a => { a with cmd := a.cycStart, gfrac := 0, cycle := false, waiting := true, blend := none }
  let s := (((s.setFlag (Reg.MOT_EVT x) 3).restartSs x).commit).afterCmd x
  if (s.axis x).parking ∧ (s.axis x).state = .gear then s.startPark x else s

/-- The ratio after a master count that advances a blend, and the blend that is left (R299). -/
def blendStep (a : AxisSt) : BitVec 64 × Option Blend :=
  match a.blend with
  | none => (a.ratio, none)
  | some b =>
    let k := b.k + 1
    let r := to64 (b.rOld.toInt + truncDiv ((b.rNew.toInt - b.rOld.toInt) * (k : Int)) (b.b : Int))
    (r, if k ≥ b.b then none else some { b with k := k })

/-- The master position counts, in every state (R297). -/
def masterCount (a : AxisSt) (dir : Int) : AxisSt × Bool :=
  let p := a.mpos + BitVec.ofInt 48 dir
  let up := pcGt p a.mhwm
  ({ a with mpos := p, mhwm := if up then p else a.mhwm }, up)

/-- A master count slides the frozen-master window (R308). -/
def slideMWin (s : State) (x : Axis) : State :=
  match (s.axis x).mWin with
  | some (_, ref) => if ((s.axis x).mpos - ref).toInt.natAbs ≥ 2 then s.startMWin x else s
  | none => s

/-- One accepted count of the master encoder (R299). Cam points that fall due are separate commits. -/
def gearCount (s : State) (x : Axis) (dir : Int) : State :=
  if s.axImode x then s
  else
    let (a, up) := masterCount (s.axis x) dir
    if a.state = .gear ∧ a.waiting = false then
      let (ratio, blend) := if up then blendStep a else (a.ratio, a.blend)
      let sum : Int := (a.gfrac.toNat : Int) + dir * ratio.toInt
      let done := a.blend.isSome && blend.isNone && s.axGmode x && decide (a.nextCam ≥ s.camPoints x)
      let s := s.setAxis x { a with ratio := ratio, blend := blend, cmd := a.cmd + to64 (sum / 2 ^ 32),
                                    gfrac := BitVec.ofInt 32 sum }
      let s := (s.slideMWin x).afterCmd x
      if done ∧ (s.axis x).state = .gear then s.cycleEnd x else s
    else (s.setAxis x a).slideMWin x

/-- The next cam point is due (R298). -/
def camDue (s : State) (x : Axis) : Bool :=
  let a := s.axis x
  decide (a.state = .gear) && !a.waiting && !s.axImode x && decide (a.nextCam < s.camPoints x) &&
    decide (s.camOffset x a.nextCam ≤ (a.mhwm - a.anchor).toNat)

/-- The next cam point commits (R298, R299, R301). -/
def camPoint (s : State) (x : Axis) : State :=
  if s.camDue x then
    let k := (s.axis x).nextCam
    let b := s.camBlend x k
    let r := s.camRatio x k
    let s := (s.modAxis x fun a =>
      if b = 0 then { a with ratio := r, blend := none, nextCam := k + 1 }
      else { a with blend := some ⟨a.ratio, r, 0, b⟩, nextCam := k + 1 }).commit
    if s.axGmode x ∧ b = 0 ∧ k + 1 = s.camPoints x then s.cycleEnd x else s
  else s

/-- The carrying axis is ready for a product (R300). -/
def cycleReady (s : State) (x : Axis) : Bool :=
  let a := s.axis x
  decide (a.state = .gear) && s.axGmode x && a.waiting && !a.suspect && decide (s.srcState (26 + x.val) ≠ 2)

/-- A carriage cycle starts directly after the grant (R300). -/
def startCycle (s : State) (x : Axis) : State :=
  (s.modAxis x fun a =>
    { a with anchor := a.mhwm, gfrac := 0, ratio := 0, blend := none, nextCam := 0, cycStart := a.cmd, cycle := true,
             waiting := false }).commit

/-- The frozen-master window ends (R308). -/
def endMWin (s : State) (x : Axis) : State :=
  let a := s.axis x
  if a.state = .gear then
    -- `MF_RATIO` is 8.8, the ratio in force 32.32
    if a.blend.isSome ∨ a.ratio.toInt.natAbs ≥ s.fld (Reg.MOT_GEAR x) 31 16 * 2 ^ 24 then
      (s.modAxis x fun a => { a with mWin := none }).motMessage x (Kind.masterLost x.val) 1
    else s.startMWin x
  else s.modAxis x fun a => { a with mWin := none }

/-- The loss of a master encoder's signal (R308). -/
def masterLos (s : State) (e : Nat) : State :=
  allAxes.foldl (fun (s : State) (x : Axis) =>
    if (s.axis x).state = .gear ∧ s.axMaster x = e ∧ s.axImode x = false then
      s.motMessage x (Kind.masterLost x.val) 0 else s) s

/-! ### Coarse steps -/

/-- An accepted coarse step reaches an axis geared to it (R318). -/
def coarseFeed (s : State) (x : Axis) (dir : Int) : State :=
  let a := s.axis x
  if a.state = .gear ∧ s.axImode x then
    let d := a.drive
    let back : Int := if d.idirNeg then -(d.pend : Int) else d.pend
    let cmd := a.cmd + to64 back
    let gap := s.tick - d.tPrev
    let ires : Nat := 2 ^ s.fld (Reg.MOT_DRV_CFG x) 19 16
    let d := { d with tPrev := s.tick, idirNeg := decide (dir < 0), pend := 0 }
    let s :=
      if gap > (s.reg (Reg.MOT_ITP_GAP x)).toNat then
        s.setAxis x { a with cmd := cmd + to64 (dir * (ires : Int)), drive := d }
      else
        s.setAxis x { a with cmd := cmd, drive := { d with pend := ires, iv := if gap = 0 then 2 ^ 32 else min (ires * 2 ^ 32 / gap) (2 ^ 32), iph := 0 } }
    s.afterCmd x
  else s

/-- One tick of the interpolator (R318). -/
def interpTick (s : State) (x : Axis) : State :=
  let a := s.axis x
  let d := a.drive
  if d.pend = 0 then s
  else
    let iph := d.iph + d.iv
    if iph ≥ 2 ^ 32 then
      (s.setAxis x { a with cmd := if d.idirNeg then a.cmd - 1 else a.cmd + 1,
                            drive := { d with iph := iph - 2 ^ 32, pend := d.pend - 1 } }).afterCmd x
    else s.setAxis x { a with drive := { d with iph := iph } }

/-! ### Commands -/

/-- The speeds and rates of R294 are legal. -/
def profileOk (s : State) (x : Axis) (home : Bool) : Bool :=
  let vmax := (s.reg (Reg.MOT_VMAX x)).toNat
  let vst := s.axVstart x
  let hv := (s.reg (Reg.MOT_HOMEVEL x)).toNat
  decide (vmax ≠ 0 ∧ vst ≠ 0 ∧ s.reg (Reg.MOT_ACC x) ≠ 0 ∧ s.reg (Reg.MOT_DEC x) ≠ 0 ∧ vst ≤ vmax ∧
    vmax * s.stepMin x ≤ 2 ^ 32) && (!home || decide (vst ≤ hv ∧ hv ≤ vmax))

/-- The energy of a move over a distance (R304). -/
def moveEnergy (s : State) (x : Axis) (d : Nat) : Nat :=
  ((s.reg (Reg.MOT_EFIX x)).toNat + d * (s.reg (Reg.MOT_ESTEP x)).toNat / 65536) % 2 ^ 64

/-- The home input is active (R305). -/
def homeActive (s : State) (x : Axis) : Bool :=
  let lvl := s.tmr.aux[(⟨s.fld (Reg.MOT_CFG x) 21 20 % 4, by omega⟩ : Fin 4)]
  decide (lvl = s.rbit (Reg.MOT_CFG x) 22)

/-- The distances that a MOVE and a HOME reserve for (R304). -/
def moveDistance (s : State) (x : Axis) : Nat := (sword (s.reg (Reg.MOT_TARGET x)) - (s.axis x).cmd.toInt).natAbs
def homeDistance (s : State) (x : Axis) : Nat :=
  (s.reg (Reg.MOT_HOMERANGE x)).toNat + (sword (s.reg (Reg.MOT_PARKPOS x)) - sword (s.reg (Reg.MOT_HOMEPOS x))).natAbs

/-- The command, a MOVE or a HOME by its bit, is refused for its energy alone (R304). -/
def axShort (s : State) (x : Axis) (bit : Nat) : Bool :=
  decide ((s.axis x).state = .idle) &&
    (if bit = 2 then s.profileOk x false && !s.wouldGrant false (s.moveEnergy x (s.moveDistance x))
     else if bit = 3 then s.profileOk x true && !s.homeActive x && !s.wouldGrant false (s.moveEnergy x (s.homeDistance x))
     else false)

/-- A reservation for the axis, or `BUSY` (R293, R304). -/
def reserveMove (s : State) (x : Axis) (d : Nat) : Except Code State :=
  let e := s.moveEnergy x d
  if s.wouldGrant false e then .ok (s.grant (.axis x) e) else .error .busy

/-- ENABLE (R293). -/
def axEnable (s : State) (x : Axis) : Except Code State :=
  if (s.axis x).state ≠ .disabled then .ok s
  else if (s.axis x).faultNow then .error .busy
  else
    let s := (s.modAxis x fun a => { a with state := .idle, emit := a.cmd }).commit
    let s := s.modDrive x fun d =>
      { d with coilA := { d.coilA with off := 0, step := .drive s.tick },
               coilB := { d.coilB with off := 0, step := .drive s.tick },
               fresh := true, ssFrom := s.tick }
    let s := (s.takeOffset x).startFbWin x
    .ok (if isStepper x then s.startRamp x false else s)

/-- The axis is disabled: the drive is off (R292, R329). -/
def toDisabled (s : State) (x : Axis) : State :=
  (s.modAxis x fun a =>
    { a with state := .disabled, fbWin := none, mWin := none,
             drive := { a.drive with standstill := true, rampEnd := none, ocOff := false } })

/-- DISABLE (R293, R302). -/
def axDisable (s : State) (x : Axis) : State :=
  if (s.axis x).state = .disabled then s
  else if s.axMoves x then (s.stopAxis x false .disabled).toDisabled x
  else ((s.modAxis x fun a => { a with emit := a.cmd }).toDisabled x).commit

/-- MOVE (R293-R295, R304). -/
def axMove (s : State) (x : Axis) : Except Code State :=
  if !s.profileOk x false then .error .badValue
  else if (s.axis x).state ≠ .idle then .error .busy
  else
    let t := sword (s.reg (Reg.MOT_TARGET x))
    match s.reserveMove x (s.moveDistance x) with
    | .error e => .error e
    | .ok s =>
      let s := ((s.modAxis x fun a => { a with state := .move }).startProfile x t (s.reg (Reg.MOT_VMAX x)).toNat).commit
      let s := (s.fromNext x).reenergise x
      .ok (if (s.axis x).rem = 0 then s.endMove x 0 else s)

/-- HOME (R293, R305). -/
def axHome (s : State) (x : Axis) : Except Code State :=
  if !s.profileOk x true || s.homeActive x then .error .badValue
  else if (s.axis x).state ≠ .idle then .error .busy
  else
    match s.reserveMove x (s.homeDistance x) with
    | .error e => .error e
    | .ok s =>
      let vs := s.axVstart x * 65536
      let s := (s.modAxis x fun a =>
        { a with state := .home, home := some .search, homeStart := a.cmd, homeRef := none, endless := true, v := vs, ph := 0,
                 vs := vs, vm := (s.reg (Reg.MOT_HOMEVEL x)).toNat * 65536, rem := 0,
                 dirNeg := s.rbit (Reg.MOT_CFG x) 23 }).commit
      .ok ((s.fromNext x).reenergise x)

/-- ENGAGE (R293, R297, R298, R317). -/
def axEngage (s : State) (x : Axis) : Except Code State :=
  if (if s.axImode x then s.axGmode x || !s.rbit (Reg.PLC_CSTEP_CFG (s.axIsrc x)) 0 else !s.camOk x) then .error .badValue
  else if (s.axis x).state ≠ .idle then .error .busy
  else
    let s := (s.modAxis x fun a =>
      { a with state := .gear, waiting := s.axGmode x, anchor := a.mhwm, ratio := 0, blend := none, nextCam := 0,
               drive := { a.drive with pend := 0, tPrev := s.tick } }).commit
    let s := if s.axImode x then s else s.startMWin x
    .ok ((if s.backlog x = 0 then s.restartSs x else s).reenergise x)

/-- The axis is disengageable (R298, R317). -/
def disengageable (s : State) (x : Axis) : Bool :=
  let a := s.axis x
  if s.axImode x then decide (a.drive.pend = 0)
  else if s.axGmode x then a.waiting
  else decide (a.ratio = 0) && a.blend.isNone

/-- DECEL (R293, R295, R305). -/
def axDecel (s : State) (x : Axis) : Except Code State :=
  match (s.axis x).state with
  | .move => .ok (s.rampDown x)
  | .home => .ok (s.failHome x)
  | .gear =>
    if s.disengageable x then
      .ok (((s.modAxis x fun a => { a with state := .idle, waiting := false, mWin := none }).restartSs x).commit)
    else .error .busy
  | _ => .error .busy

/-- STOP (R293, R302). -/
def axStop (s : State) (x : Axis) : State := if s.axMoves x then s.stopAxis x false .halt else s

/-- CLEAR (R293, R322). -/
def axClear (s : State) (x : Axis) : Except Code State :=
  if (s.axis x).state ≠ .halt then .ok s
  else if (s.axis x).faultNow || decide (s.srcState (26 + x.val) = 2) then .error .busy
  else
    let oc := (s.axis x).drive.ocOff
    let s := s.modAxis x fun a => { a with state := .idle, drive := { a.drive with ocOff := false, ssFrom := s.tick } }
    .ok (if oc then
        let hold := s.fld (Reg.MOT_DRV_CUR x) 23 16
        ((s.modDrive x fun d => { d with standstill := true, rampEnd := none, cs := if s.ssMode x = 0 then hold else d.cs }).retarget x).commit
      else s.commit)

/-- A command of `MOT_CMD_Xn` by its bit (R293). -/
def axCommand (s : State) (x : Axis) (bit : Nat) : Except Code State :=
  match bit with
  | 0 => s.axEnable x
  | 1 => .ok (s.axDisable x)
  | 2 => s.axMove x
  | 3 => s.axHome x
  | 4 => s.axEngage x
  | 5 => s.axDecel x
  | 6 => .ok (s.axStop x)
  | _ => s.axClear x

/-- HOLD parks a flying carriage (R143, R303): in GEAR it waits for its cycle to end, in HALT or suspect it is disabled. -/
def parkAxis (s : State) (x : Axis) : State :=
  let a := s.axis x
  if a.suspect ∨ a.state = .halt then s.axDisable x
  else match a.state with
    | .gear => if a.cycle then s.modAxis x fun a => { a with parking := true } else s.startPark x
    | .idle => s.startPark x
    | _ => s

/-- Entry to SLEEP stops an axis in MOVE, HOME or GEAR (R302). -/
def sleepAxis (s : State) (x : Axis) : State := if s.axMoves x then s.stopAxis x false .halt else s

/-- A block reset of MOTn (R302, R316, R321). -/
def resetAxis (s : State) (x : Axis) : State :=
  let s := if s.axMoves x then s.stopAxis x true .disabled else s
  let s := s.modAxis x fun a => { a with suspect := true, emit := a.cmd, home := none }
  let s := s.modDrive x fun d =>
    { d with phase := 0, coilA := { d.coilA with off := 0 }, coilB := { d.coilB with off := 0 }, pend := 0 }
  s.toDisabled x

/-- FAULT_IN becomes active (R309). -/
def driveFault (s : State) (x : Axis) : State :=
  (s.modAxis x fun a => { a with faultNow := true }).motMessage x (Kind.motDrive x.val) 0

/-- Over-current of a stepper bridge (R322). -/
def overCurrent (s : State) (x : Axis) : State :=
  let s := (s.modDrive x fun d => { d with ocOff := true, rampEnd := none }).setFlag (Reg.MOT_DRV_EVT x) 1
  s.commit.motMessage x (Kind.motDrive x.val) 1

end State
end Sys2Proof.Machine
end

