-- ==== Sys2Proof/Machine/Hoist.lean ====
section
/-! DEFINITION. Hoist channels: starts, completions, chains, halts, requests, DISABLE, ABORT and the shaft's choice
(13_hoist_transfers R333-R340, R349-R354). -/

namespace Sys2Proof.Machine

/-- `STATE` of a channel (R355). -/
def ChanState.code : ChanState → Nat
  | .disabled => 0
  | .idle => 1
  | .queued => 2
  | .running => 3
  | .waiting => 4
  | .halted => 5

namespace State

/-- Fields of `HST_CFG_HCc` (R355). -/
def chShaft (s : State) (c : Chan) : Shaft := ⟨s.fld (Reg.HST_CFG c) 1 0 % 4, by omega⟩
def chPrio (s : State) (c : Chan) : Nat := s.fld (Reg.HST_CFG c) 6 4
def chShelf (s : State) (c : Chan) : Bool := decide (s.fld (Reg.HST_CFG c) 9 8 = 1)
def chConfirmed (s : State) (c : Chan) : Bool := s.rbit (Reg.HST_CFG c) 12
def chReqLine (s : State) (c : Chan) : Nat := s.fld (Reg.HST_CFG c) 23 20

/-- The kind with which a run starts: a channel with a request line is free (R338). -/
def runKind (s : State) (c : Chan) (k : RunKind) : RunKind := if s.chReqLine c = 0 then k else .free

/-- A paced kind whose due key is `DUE` ticks from now (R338). -/
def pacedKind (s : State) (c : Chan) : RunKind := .paced (s.tick + (s.reg (Reg.HST_DUE c)).toNat)

/-- A run begins in QUEUED: at its base, with cursors loaded and loop counters 0 (R337, R358, R359, R363). -/
def beginRun (s : State) (c : Chan) (k : RunKind) : State :=
  let base := s.reg (Reg.HST_BASE c)
  let cs := s.reg (Reg.HST_CURS c)
  let cd := s.reg (Reg.HST_CURD c)
  let o := s.order + 1
  let k := s.runKind c k
  (s.modChan c fun x =>
    { x with state := .queued, pendStart := none, kind := k, queuedAt := o,
             pos := if s.chShelf c then base + word (32 * x.head) else base, cs := cs, cd := cd,
             lc := Vector.replicate 4 0, xfer := none, shelf := none, wait := none, ready := false, late := false,
             lastDst := none }).commit

/-- A start (R337). -/
def startChan (s : State) (c : Chan) (k : RunKind) : State :=
  match (s.chan c).state, (s.chan c).pendStart with
  | .idle, _ => s.beginRun c k
  | .disabled, _ => (s.setFlag (Reg.HST_EVT c) 4).commit
  | .halted, _ => (s.setFlag (Reg.HST_EVT c) 4).commit
  | _, some _ => (s.setFlag (Reg.HST_EVT c) 4).commit
  | _, none => s.modChan c fun x => { x with pendStart := some k }

/-- The channel no longer holds its shaft. -/
def dropShaft (s : State) (c : Chan) : State :=
  let f := s.chShaft c
  if s.hst.running[f] = some c then s.modHst fun h => { h with running := h.running.set f none } else s

/-- Channels chained to a completion of `c` start in channel order (R336): paced after a paced completion. -/
def chainFrom (s : State) (c : Chan) (paced : Bool) : State :=
  allChans.foldl (fun (s : State) (d : Chan) =>
    if s.rbit (Reg.HST_CFG d) 17 && decide (s.fld (Reg.HST_CFG d) 28 24 = c.val) then
      s.startChan d (if paced then s.pacedKind d else .free)
    else s) s

/-- The completion of a run commits (R338): `DONE`, the count, IDLE or the pending start, then the chains. -/
def completeChan (s : State) (c : Chan) : State :=
  let paced := decide ((s.chan c).kind ≠ .free)
  let s := (s.setFlag (Reg.HST_EVT c) 0).setReg (Reg.HST_RUNS c) (s.reg (Reg.HST_RUNS c) + 1)
  let s := s.dropShaft c
  let s := match (s.chan c).pendStart with
    | some k => s.beginRun c k
    | none => (s.modChan c fun x => { x with state := .idle, ready := false, late := false, xfer := none, wait := none }).commit
  s.chainFrom c paced

/-- A unit's gather completes on its channel as soon as it is ready: a unit start and its completion (R338, R413). -/
def unitRun (s : State) (c : Chan) : State :=
  let s := s.startChan c .unit
  match (s.chan c).state with
  | .queued => (s.modChan c fun x => { x with state := .running }).commit.completeChan c
  | _ => s

/-- A late marker (R338, R63). -/
def lateMarker (s : State) (c : Chan) : State :=
  ((s.setFlag (Reg.HST_EVT c) 3).modChan c fun x => { x with late := true }).commit

/-- The registers that a halt latches: `HST_ERR_ADDR`, `HST_ERR_INFO`, `HST_RESIDUE` (R350). -/
def latchHalt (s : State) (c : Chan) (addr : Word) (kind : Nat) (dir confirm table : Bool) (residue : Nat) : State :=
  ((s.setReg (Reg.HST_ERR_ADDR c) addr).setReg (Reg.HST_ERR_INFO c)
    (word (kind + 0x100 * b2n dir + 0x200 * b2n confirm + 0x400 * b2n table))).setReg (Reg.HST_RESIDUE c) (word residue)

/-- The channel halts: the message, then HALTED with `HALT` (R333, R350). -/
def haltChan (s : State) (c : Chan) (k : Kind) (addr : Word) : State :=
  let s := s.raise k addr
  (((s.setFlag (Reg.HST_EVT c) 2).modChan c fun x => { x with state := .halted, wait := none }).dropShaft c).commit

/-- DISABLE, and the revocation of the channel's lease (R352, R354). -/
def disableChan (s : State) (c : Chan) : State :=
  if (s.chan c).state = .disabled then s
  else
    let s := s.dropShaft c
    let s := (s.setReg (Reg.HST_RESIDUE c) 0xFFFFFFFF).setFld (Reg.HST_REQ c) 7 0 0
    (s.modChan c fun x =>
      { x with state := .disabled, pendStart := none, xfer := none, shelf := none, wait := none, ready := false,
               late := false, aborting := false, dropped := true }).commit

/-- A revoked channel is disabled and its counts are undefined: the residue is a free value (R123, R354). -/
def revokeChan (s : State) (c : Chan) : State :=
  let s := s.disableChan c
  let (f, s) := s.drawFree
  s.setReg (Reg.HST_RESIDUE c) (Config.freeWord f)

/-- ENABLE (R334, R363, R369). -/
def enableChan (s : State) (c : Chan) : State :=
  if (s.chan c).state ≠ .disabled then s
  else
    let s := s.setReg (Reg.HST_RESIDUE c) 0
    let s := s.setFld (Reg.HST_SIG c) 7 0 0
    (s.modChan c fun x =>
      { x with state := .idle, pendStart := none, pos := 0, cs := 0, cd := 0, lc := Vector.replicate 4 0, xfer := none,
               shelf := none, wait := none, head := 0, seqCount := 1, ready := false, late := false, aborting := false,
               dropped := false }).commit

/-- Elements of the current transfer not moved (R353). -/
def residueOf (s : State) (c : Chan) : Nat :=
  match (s.chan c).xfer with
  | some x => x.n * x.rows - x.done
  | none => 0

/-- The status record of ABORT, from the state at the ABORT (R353). -/
def abortRecord (s : State) (c : Chan) (st : ChanState) : List Byte :=
  let info := s.reg (Reg.HST_ERR_INFO c)
  let halted := decide ((s.chan c).state = .halted)
  let err := if halted then (s.reg (Reg.HST_ERR_ADDR c)).toNat else 0
  let kind := if halted then bits info 4 0 else 0
  bytesLE 4 (if halted then (s.reg (Reg.HST_RESIDUE c)).toNat else s.residueOf c) ++ bytesLE 4 (s.chan c).pos.toNat ++
    bytesLE 4 err ++ bytesLE 1 st.code ++ bytesLE 1 kind ++
    bytesLE 1 (if halted then bits info 10 8 else 0) ++ [0]

/-- ABORT takes effect (R353): the record, `ABORTED`, IDLE. `st` is the state at the ABORT. -/
def endAbort (s : State) (c : Chan) (st : ChanState) : State :=
  let rec_ := s.abortRecord c st
  let a := (s.reg (Reg.HST_REC c)).toNat
  let fits := decide (a ≠ 0) && decide (larderBase ≤ a ∧ a + 16 ≤ larderBase + 0x400000) && !s.isolated 2 &&
    s.mayWriteBank (holdChan c) (bankOf a)
  let s := if fits then s.modMem fun m => m.writeLarderBytes a rec_ else s
  let s := s.setFlags (Reg.HST_EVT c) (if fits then 2 else 0x42)
  (((s.modChan c fun x =>
    { x with state := .idle, pendStart := none, xfer := none, shelf := none, wait := none, ready := false, late := false,
             aborting := false }).dropShaft c)).commit

/-- ABORT (R334, R353): in RUNNING it waits for the bursts already issued. -/
def abortChan (s : State) (c : Chan) : State :=
  match (s.chan c).state with
  | .disabled => s
  | .idle => s
  | .running => s.modChan c fun x => { x with aborting := true }
  | st => s.endAbort c st

/-- RESUME (R334, R351). -/
def resumeChan (s : State) (c : Chan) : State :=
  if (s.chan c).state ≠ .halted then s
  else
    let o := s.order + 1
    (s.modChan c fun x => { x with state := .queued, queuedAt := o }).commit

/-- A waiting channel's condition is met: QUEUED. Under run-to-completion it keeps its shaft (R333, R339). -/
def wakeChan (s : State) (c : Chan) : State :=
  let o := s.order + 1
  (s.modChan c fun x => { x with state := .queued, queuedAt := o, wait := none }).commit

/-- A running channel waits (R333). -/
def waitChan (s : State) (c : Chan) (w : WaitFor) : State :=
  (s.modChan c fun x => { x with state := .waiting, wait := some w }).commit

/-- The requests that wait (R340). -/
def reqPend (s : State) (c : Chan) : Nat := s.fld (Reg.HST_REQ c) 7 0

/-- A request on a line (R340): each channel of the line that is not DISABLED counts it. -/
def requestLine (s : State) (line : Nat) : State :=
  allChans.foldl (fun (s : State) (c : Chan) =>
    if s.chReqLine c = line ∧ line ≠ 0 ∧ (s.chan c).state ≠ .disabled then
      if s.reqPend c = 255 then ((s.bumpFld (Reg.HST_REQ c) 31 16).setFlag (Reg.HST_EVT c) 7).commit
      else
        let s := s.setFld (Reg.HST_REQ c) 7 0 (s.reqPend c + 1)
        if (s.chan c).state = .waiting ∧ (s.chan c).wait = some .request then s.wakeChan c else s
    else s) s

/-- A channel of a shaft that DISC 0 may take: the earliest entry to QUEUED, then the lower number (R339). -/
def firstQueued (s : State) (f : Shaft) : Option Chan :=
  allChans.foldl (fun best c =>
    if s.chShaft c = f ∧ (s.chan c).state = .queued then
      match best with
      | none => some c
      | some b => if (s.chan c).queuedAt < (s.chan b).queuedAt then some c else best
    else best) none

/-- The order in which DISC 1 looks for a channel among equal priorities: the next number above the last served (R339). -/
def rotation (last : Option Chan) : List Chan :=
  match last with
  | none => allChans
  | some l => allChans.filter (fun c => decide (l < c)) ++ allChans.filter (fun c => decide (c ≤ l))

/-- The channel that DISC 1 serves: the highest `PRIO` of the QUEUED and RUNNING channels with a burst ready (R339). -/
def bestPrio (s : State) (f : Shaft) : Option Chan :=
  (rotation s.hst.served[f]).foldl (fun best c =>
    if s.chShaft c = f ∧ ((s.chan c).state = .queued ∨ ((s.chan c).state = .running ∧ (s.chan c).ready = false)) then
      match best with
      | none => some c
      | some b => if s.chPrio c > s.chPrio b then some c else best
    else best) none

/-- The shaft serves a channel: QUEUED becomes RUNNING (R333, R339). -/
def serve (s : State) (f : Shaft) (c : Chan) : State :=
  let s := s.modHst fun h => { h with served := h.served.set f (some c) }
  if (s.chan c).state = .queued then (s.modChan c fun x => { x with state := .running }).commit else s

/-- A shaft takes a channel (R339): under run-to-completion none is taken while one holds the shaft, except that the
holder itself goes on after its wait. -/
def dispatchShaft (s : State) (f : Shaft) : State :=
  if s.rbit (Reg.HST_SHAFT_CFG f) 0 then
    match s.bestPrio f with
    | some c => s.serve f c
    | none => s
  else
    match s.hst.running[f] with
    | some c => if (s.chan c).state = .queued then s.serve f c else s
    | none =>
      match s.firstQueued f with
      | some c => (s.modHst fun h => { h with running := h.running.set f (some c) }).serve f c
      | none => s

end State
end Sys2Proof.Machine
end

