-- ==== Sys2Proof/Machine/Clock.lean ====
section
/-! DEFINITION. Time and counts: timers and their actions, lane placement counters, encoder and step inputs, and the
advance of the admission tick (02_determinism R41; 09_timers R243-R259; 10_placement R263-R270, R286). -/

namespace Sys2Proof.Machine

namespace State

/-! ### Timers -/

/-- Fields of the timer registers (R262). -/
def tmSrc (s : State) (t : TimerId) : Nat := s.fld (Reg.TMR_CFG t) 3 0
def tmOvfSrc (s : State) (t : TimerId) : Nat := s.fld (Reg.TMR_CFG t) 7 4
def tmRun (s : State) (t : TimerId) : Bool := s.rbit (Reg.TMR_CFG t) 8
def tmLink (s : State) (t : TimerId) : TimerId := ⟨s.fld (Reg.TMR_CFG t) 15 12 % 16, by omega⟩

/-- `d` of R245. -/
def tmDiv (s : State) (t : TimerId) : Nat := s.fld (Reg.TMR_PRE t) 31 16 * 65536 + s.fld (Reg.TMR_PRE t) 15 0

/-- The value of channel `c` of a timer. -/
def tmVal (s : State) (t : TimerId) (c : Nat) : BitVec 48 :=
  BitVec.ofNat 48 ((s.reg (Reg.TMR_VAL_LO t c)).toNat + s.fld (Reg.TMR_VAL_HI t c) 15 0 * 2 ^ 32)

/-- `MODE` of channel `c` of a timer. -/
def tmMode (s : State) (t : TimerId) (c : Nat) : Nat := s.fld (Reg.TMR_VAL_HI t c) 17 16

/-- The action word of an event: channels 0-3, or 4 for the overflow (R250). -/
def tmAct (s : State) (t : TimerId) (hit : Nat) : Word := if hit < 4 then s.reg (Reg.TMR_ACT t hit) else s.reg (Reg.TMR_OVF_ACT t)

/-- The lane whose placement clock a timer counts. -/
def tmLane (s : State) (t : TimerId) : Option Lane :=
  if 3 ≤ s.tmSrc t ∧ s.tmSrc t ≤ 6 then some ⟨(s.tmSrc t - 3) % 4, by omega⟩ else none

/-- Compare channels whose value lies within the next `n` counts (R247). -/
def tmHits (s : State) (t : TimerId) (n : Nat) : List Nat :=
  let c := (s.timer t).count
  let on := ([0, 1, 2, 3] : List Nat).filter fun k =>
    decide (s.tmMode t k = 1) && decide (c ≠ s.tmVal t k) && decide ((s.tmVal t k - c).toNat ≤ n)
  if c.toNat + n ≥ 2 ^ 48 then on ++ [4] else on

/-- A running timer takes `k` source events: its count and `acc`, and the events hit (R245, R247). -/
def tmPass (s : State) (t : TimerId) (k : Nat) : State × List Nat :=
  if s.tmRun t && decide (k ≠ 0) then
    let d := s.tmDiv t
    let a := (s.timer t).acc + 65536 * k
    let n := min k (if d = 0 then k else a / d)
    let hits := s.tmHits t n
    (s.modTimer t fun x => { x with count := x.count + BitVec.ofNat 48 n, acc := a - n * d }, hits)
  else (s, [])

/-- Several timers advance at one tick; the events of all of them, in order. -/
def passAll : List (TimerId × Nat) → State → State × List (TimerId × Nat)
  | [], s => (s, [])
  | (t, k) :: rest, s =>
    let (s, h) := s.tmPass t k
    let (s, hs) := passAll rest s
    (s, h.map (fun e => (t, e)) ++ hs)

/-- A timer's count set by LOAD or by a reset: `acc` is 0 and a placement-clocked timer takes the lane's present count
as its high-water mark (R251). -/
def tmLoad (s : State) (t : TimerId) (v : BitVec 48) : State :=
  s.modTimer t fun x => { x with count := v, acc := 0, hwm := match s.tmLane t with | some n => (s.lane n).pc | none => x.hwm }

/-- A timer starts: `RUN` is 1, and a placement clock counts from the lane's present count (R243). -/
def tmStart (s : State) (t : TimerId) : State :=
  let s := if s.tmRun t then s else
    s.modTimer t fun x => { x with hwm := match s.tmLane t with | some n => (s.lane n).pc | none => x.hwm }
  s.setFld (Reg.TMR_CFG t) 8 8 1

/-- A timer stops. -/
def tmStop (s : State) (t : TimerId) : State := s.setFld (Reg.TMR_CFG t) 8 8 0

/-- A TOUT pin takes a level (R252). -/
def toutLevel (s : State) (p : Nat) (v : Bool) : State :=
  (s.setFld Reg.TMR_TOUT p p (b2n v)).emit (.pin ("TOUT" ++ toString p) (some v))

/-- `TOUT_OP` (R252). -/
def toutOp (s : State) (p op : Nat) : State :=
  match op with
  | 1 => s.toutLevel p true
  | 2 => s.toutLevel p false
  | 3 => s.toutLevel p (!s.rbit Reg.TMR_TOUT p)
  | _ => s

/-- An action that is selected runs as a commit of its own. -/
def act (s : State) (on : Bool) (f : State → State) : State := if on then (f s).commit else s

/-- The Hoist channel an action word names. -/
def actChan (w : Word) : Chan := ⟨bits w 20 16 % 24, by omega⟩

/-- The actions of a match, capture or overflow, in the order of R250; `self` is what `RESET_SELF` does, and the flags
of the event are those of `mask`. -/
def tmActions (s : State) (t : TimerId) (w : Word) (self : State → State) (mask : Word) : State :=
  let l := s.tmLink t
  let s := s.act (bit w 0) self
  let s := s.act (bit w 1) fun s => s.tmStop t
  let s := s.act (bit w 4) fun s => s.tmLoad l 0
  let s := s.act (bit w 2) fun s => s.tmStart l
  let s := s.act (bit w 3) fun s => s.tmStop l
  let s := s.act (decide (bits w 9 8 ≠ 0)) fun s => s.toutOp (bits w 13 12) (bits w 9 8)
  let s := if bit w 21 then s.startChan (actChan w) (s.pacedKind (actChan w)) else s
  (s.setFlags (Reg.TMR_STAT t) mask).commit

/-- A match of a compare channel, or an overflow (`hit` 4), runs its actions (R250, R251); then what the overflow feeds. -/
def fireTimer (ovf : State → TimerId → State) (s : State) (e : TimerId × Nat) : State :=
  let v := s.tmVal e.1 e.2
  let s := s.tmActions e.1 (s.tmAct e.1 e.2)
    (fun s => if e.2 < 4 then s.modTimer e.1 fun x => { x with count := x.count - v } else s) (word (2 ^ e.2))
  if e.2 = 4 then ovf s e.1 else s

/-- Timers take source events at one tick: every advance first, then the actions in order (R247). -/
def feedTimers (ovf : State → TimerId → State) (s : State) (l : List (TimerId × Nat)) : State :=
  let (s, hits) := passAll l s
  hits.foldl (fireTimer ovf) s

/-! ### Lanes -/

/-- A step of R264: the new context and the signed step. -/
def laneStep (l : LaneSt) (scale : Nat) (dir : Int) : LaneSt × Int :=
  let sum : Int := (l.frac.toNat : Int) + dir * (scale : Int)
  let step := sum / 65536
  let pc := l.pc + BitVec.ofInt 48 step
  ({ l with pc := pc, frac := BitVec.ofInt 16 sum, hwm := if pcGt pc l.hwm then pc else l.hwm,
            advance := l.advance + step.natAbs }, step)

/-- Source events that a lane's new count gives to the timers on its placement clock (R243). -/
def laneTicks (s : State) (n : Lane) : List (TimerId × Nat) :=
  allTimers.filterMap fun t =>
    if s.tmLane t = some n ∧ s.tmRun t ∧ pcGt (s.lane n).pc (s.timer t).hwm then
      some (t, ((s.lane n).pc - (s.timer t).hwm).toNat)
    else none

/-- The timers on a lane's placement clock take its new high-water mark. -/
def laneMarks (s : State) (l : List (TimerId × Nat)) (n : Lane) : State :=
  l.foldl (fun s e => s.modTimer e.1 fun x => { x with hwm := (s.lane n).pc }) s

/-- The reverse limit (R286). -/
def reverseCheck (s : State) (n : Lane) : State :=
  let l := s.lane n
  if l.pc = l.hwm then s.modLane n fun l => { l with reversed := false }
  else if l.reversed = false ∧ (l.hwm - l.pc).toNat > s.fld (Reg.PLC_LIMITS n) 31 16 then
    let s := s.modLane n fun l => { l with reversed := true }
    ((s.setFlag (Reg.PLC_EVT n) 3).raiseLane (Kind.reverse n.val) (BitVec.setWidth 32 l.pc) n).suspectPrinting n Cause.position
  else s

/-- One source count of a lane (R264). -/
def laneCountWith (ovf : State → TimerId → State) (s : State) (n : Lane) (dir : Int) : State :=
  let dir := if s.rbit (Reg.PLC_SRC n) 8 then -dir else dir
  let (l, _) := laneStep (s.lane n) (s.reg (Reg.PLC_SCALE n)).toNat dir
  let s := s.setLane n { l with countAt := s.tick, stallDone := false }
  let ticks := s.laneTicks n
  let s := (s.laneMarks ticks n).feedTimers ovf ticks
  s.reverseCheck n

/-- What an overflow of a timer feeds: timers with `SRC` = 11 and lanes with `SRC` = 5 (R246, R263). No chain is longer
than the fuel: a timer that has overflowed cannot overflow again in the same chain. -/
def overflowN : Nat → State → TimerId → State
  | 0, s, _ => s
  | f + 1, s, t =>
    let ts := allTimers.filterMap fun u => if s.tmSrc u = 11 ∧ s.tmOvfSrc u = t.val then some (u, 1) else none
    let s := s.feedTimers (overflowN f) ts
    allLanes.foldl (fun (s : State) (n : Lane) =>
      if s.fld (Reg.PLC_SRC n) 2 0 = 5 ∧ s.fld (Reg.PLC_SRC n) 7 4 = t.val then laneCountWith (overflowN f) s n 1 else s) s

/-- What an overflow of a timer feeds. -/
def overflow (s : State) (t : TimerId) : State := overflowN 40 s t

/-- Timers take source events. -/
def feed (s : State) (l : List (TimerId × Nat)) : State := s.feedTimers overflow l

/-- Timers of one source take `k` source events. -/
def feedSrc (s : State) (src k : Nat) : State := s.feed (allTimers.filterMap fun t => if s.tmSrc t = src then some (t, k) else none)

/-- One source count of a lane (R264). -/
def laneCount (s : State) (n : Lane) (dir : Int) : State := laneCountWith overflow s n dir

/-- Lanes whose source is `src` take a source count (R263). -/
def countLanes (s : State) (src : Nat) (dir : Int) : State :=
  allLanes.foldl (fun (s : State) (n : Lane) => if s.fld (Reg.PLC_SRC n) 2 0 = src then s.laneCount n dir else s) s

/-! ### The admission tick -/

/-- Source events of a timer with `SRC` 0 or 1 between two ticks (R243). -/
def srcEvents (s : State) (t : TimerId) (t0 t1 : Nat) : Nat :=
  match s.tmSrc t with
  | 0 => t1 - t0
  | 1 => t1 / 4 - t0 / 4
  | _ => 0

/-- Counts until the nearest compare value or the overflow of a timer. -/
def nextHit (s : State) (t : TimerId) : Nat :=
  let c := (s.timer t).count
  let d := fun (k : Nat) => if s.tmMode t k = 1 ∧ c ≠ s.tmVal t k then (s.tmVal t k - c).toNat else 2 ^ 48 - c.toNat
  min (min (d 0) (d 1)) (min (d 2) (min (d 3) (2 ^ 48 - c.toNat)))

/-- The tick at which a timer on TB100 or REF25 next reaches a compare value or wraps. -/
def hitTick (s : State) (t : TimerId) : Option Nat :=
  if s.tmRun t && decide (s.tmSrc t ≤ 1) then
    let need := (s.nextHit t * s.tmDiv t - (s.timer t).acc + 65535) / 65536
    some (if s.tmSrc t = 0 then s.tick + need else (s.tick / 4 + need) * 4)
  else none

/-- The earliest tick, up to `till`, at which some timer on TB100 or REF25 has an event. -/
def nextTick (s : State) (till : Nat) : Nat :=
  allTimers.foldl (fun m t => match s.hitTick t with | some h => if s.tick < h ∧ h < m then h else m | none => m) till

/-- The tick advances to `till`, timers running from event to event; each round advances at least one tick. -/
def runTicks : Nat → State → Nat → State
  | 0, s, _ => s
  | f + 1, s, till =>
    if s.tick < till then
      let next := s.nextTick till
      let l := allTimers.map fun t => (t, s.srcEvents t s.tick next)
      runTicks f ({ s with tick := next }.feed l) till
    else s

/-- The admission tick counter runs: the core is on and TB100 is not stopped by SLEEP (R41). -/
def ticking (s : State) : Bool := s.coreOn && decide (s.pwr.state ≠ .sleep)

/-- The admission tick advances to `till`, if it lies ahead. -/
def advanceTo (s : State) (till : Nat) : State := if s.ticking then runTicks (till - s.tick) s till else s

/-- The admission tick advances to a deadline where one stands. -/
def advanceDue (s : State) (d : Option Nat) : State :=
  match d with
  | some t => s.advanceTo t
  | none => s

/-! ### Captures -/

/-- An edge is of the kind a field selects: 1 rising, 2 falling, 3 both. -/
def edgeOf (sel : Nat) (rising : Bool) : Bool := decide (sel = 3) || decide (sel = if rising then 1 else 2)

/-- A capture of channel `c` of a timer (R249). -/
def capture (s : State) (t : TimerId) (c : Nat) : State :=
  let n := (s.timer t).count.toNat
  let beyond := s.rbit (Reg.TMR_STAT t) c
  let s := (s.setReg (Reg.TMR_VAL_LO t c) (word n)).setFld (Reg.TMR_VAL_HI t c) 15 0 (n / 2 ^ 32)
  s.tmActions t (s.tmAct t c) (fun s => s.modTimer t fun x => { x with count := 0 })
    (word (2 ^ c + if beyond then 2 ^ (8 + c) else 0))

/-- An edge of a capture source reaches every channel that captures it (R249). -/
def captureEdge (s : State) (src : Nat) (rising : Bool) : State :=
  allTimers.foldl (fun s t => ([0, 1, 2, 3] : List Nat).foldl (fun s c =>
    if s.tmMode t c = 2 ∧ s.fld (Reg.TMR_VAL_HI t c) 23 20 = src ∧ edgeOf (s.fld (Reg.TMR_VAL_HI t c) 25 24) rising then
      s.capture t c
    else s) s) s

/-! ### Encoders -/

/-- LOS of a master encoder is active (R269). -/
def losNow (s : State) (e : Enc) : Bool :=
  s.rbit (Reg.PLC_ENC_CFG e) 16 && decide (s.plc.encs[e].los = s.rbit (Reg.PLC_ENC_CFG e) 17)

/-- The source encoder of a lane. -/
def laneEnc (s : State) (n : Lane) : Option Enc :=
  match s.fld (Reg.PLC_SRC n) 2 0 with
  | 1 => some 0
  | 2 => some 1
  | _ => none

/-- The lane's source encoder has lost its signal (R269, R288). -/
def losHold (s : State) (n : Lane) : Bool :=
  match s.laneEnc n with
  | some e => s.losNow e
  | none => false

/-- A master encoder's accepted levels. -/
def setEnc (s : State) (e : Enc) (x : EncIn) : State := s.modPlc fun p => { p with encs := p.encs.set e x }

/-- The direction of a quadrature change along 00, 10, 11, 01 (R266): none where nothing or both levels change. -/
def quadDir (a0 b0 a b : Bool) : Option Int :=
  if (a0 != a) && (b0 != b) then none
  else if a0 != a then some (if a != b0 then 1 else -1)
  else if b0 != b then some (if b == a0 then 1 else -1)
  else none

/-- What the decoder of a mode makes of a change: an illegal transition, and the count (R266). -/
def decode (mode : Nat) (a0 b0 a b : Bool) : Bool × Option Int :=
  let both := (a0 != a) && (b0 != b)
  let rise : Option Int := if !a0 && a then some (if b then -1 else 1) else none
  match mode with
  | 1 => (both, quadDir a0 b0 a b)
  | 2 => (both, if both then none else rise)
  | 3 => (false, rise)
  | _ => (false, none)

/-- The records in the print window of every lane on an encoder become SUSPECT (R283). -/
def suspectEnc (s : State) (e : Enc) : State :=
  allLanes.foldl (fun (s : State) (n : Lane) => if s.laneEnc n = some e then s.suspectPrinting n Cause.position else s) s

/-- An illegal transition (R268, R283). -/
def encJump (s : State) (e : Enc) : State :=
  let s := (s.setFlag (Reg.PLC_ENC_STAT e) 0).bump (Reg.PLC_ENC_JUMPS e)
  (s.raise (Kind.encJump e.val) (s.reg (Reg.PLC_ENC_RAW e))).suspectEnc e

/-- A count of a master encoder: raw count, lanes, master positions and gearing (R264, R266, R299). -/
def encCount (s : State) (e : Enc) (dir : Int) : State :=
  let s := s.setReg (Reg.PLC_ENC_RAW e) (s.reg (Reg.PLC_ENC_RAW e) + BitVec.ofInt 32 dir)
  let s := s.countLanes (1 + e.val) dir
  allAxes.foldl (fun (s : State) (x : Axis) => if s.axMaster x = e.val then s.gearCount x dir else s) s

/-- An accepted change of A and B of a master encoder (R266-R269). -/
def encChange (s : State) (e : Enc) (a b : Bool) : State :=
  let x := s.plc.encs[e]
  let lost := s.losNow e
  let (jump, count) := decode (s.fld (Reg.PLC_ENC_CFG e) 1 0) x.a x.b a b
  let s := s.setEnc e { x with a := a, b := b }
  if lost then s
  else if jump then s.encJump e
  else match count with
    | some d => s.encCount e d
    | none => s

/-- An accepted change of Z; a rising edge captures the raw count (R266), and serves as an index (R305). -/
def encZ (s : State) (e : Enc) (z : Bool) : State :=
  let x := s.plc.encs[e]
  let s := s.setEnc e { x with z := z }
  if z && !x.z then
    let s := ((s.setReg (Reg.PLC_ENC_ZCAP e) (s.reg (Reg.PLC_ENC_RAW e))).setFlag (Reg.PLC_ENC_STAT e) 2).commit
    allAxes.foldl (fun (s : State) (x : Axis) => s.indexEdge x (2 + e.val)) s
  else s

/-- LOS has become active (R269, R283, R308). -/
def losActive (s : State) (e : Enc) : State :=
  let s := (s.setFlag (Reg.PLC_ENC_STAT e) 1).raise (Kind.encLos e.val) 0
  (s.masterLos e.val).suspectEnc e

/-- An accepted change of the LOS ball (R269). -/
def encLos (s : State) (e : Enc) (level : Bool) : State :=
  let was := s.losNow e
  let s := s.setEnc e { s.plc.encs[e] with los := level }
  if s.losNow e && !was then s.losActive e else s

/-- Accepted levels of a coarse step input (R270); a counting edge moves lanes and interpolators (R318). -/
def coarseStep (s : State) (c : Fin 2) (step dir : Bool) : State :=
  let old := s.plc.steps[c].1
  let s := s.modPlc fun p => { p with steps := p.steps.set c (step, dir) }
  let cfg := s.reg (Reg.PLC_CSTEP_CFG c)
  if bit cfg 0 && (old != step) && edgeOf (bits cfg 17 16) step then
    let d : Int := if dir then -1 else 1
    let s := s.setReg (Reg.PLC_CSTEP_RAW c) (s.reg (Reg.PLC_CSTEP_RAW c) + BitVec.ofInt 32 d)
    let s := s.countLanes (3 + c.val) d
    allAxes.foldl (fun (s : State) (x : Axis) => if s.axIsrc x = c.val then s.coarseFeed x d else s) s
  else s

/-- The servo axis of a feedback encoder (R289). -/
def servoAxis (i : Fin 2) : Axis := ⟨4 + i.val, by omega⟩

/-- An accepted change of A and B of a feedback encoder (R289). -/
def fbChange (s : State) (i : Fin 2) (a b : Bool) : State :=
  let f := s.plc.fbs[i]
  let s := s.modPlc fun p => { p with fbs := p.fbs.set i { f with a := a, b := b } }
  let (jump, count) := decode 1 f.a f.b a b
  if jump then s.bump (Reg.MOT_FB_JUMPS i)
  else match count with
    | some d => s.fbCount (servoAxis i) d
    | none => s

/-- An accepted change of Z of a feedback encoder (R305). -/
def fbZ (s : State) (i : Fin 2) (z : Bool) : State :=
  let f := s.plc.fbs[i]
  let s := s.modPlc fun p => { p with fbs := p.fbs.set i { f with z := z } }
  if z && !f.z then s.indexEdge (servoAxis i) 1 else s

/-- The edge of a home input (R305): the axes that home on it and search. -/
def homeEdges (s : State) (p : Fin 4) (level : Bool) : State :=
  allAxes.foldl (fun (s : State) (x : Axis) =>
    if s.fld (Reg.MOT_CFG x) 21 20 = p.val ∧ s.rbit (Reg.MOT_CFG x) 22 = level then s.homeEdge x else s) s

/-- An accepted change of an AUX_IN ball that does not serve as TCLK (R249, R254, R305). -/
def auxChange (s : State) (p : Fin 4) (level : Bool) : State :=
  let old := s.tmr.aux[p]
  let s := s.modTmr fun t => { t with aux := t.aux.set p level }
  if old == level || s.rbit (Reg.TMR_TCLK_CFG p) 0 then s
  else (s.captureEdge p.val level).homeEdges p level

/-- An accepted transition of a ball that serves as TCLK (R254-R256). -/
def tclkChange (s : State) (p : Fin 4) (level : Bool) : State :=
  let old := s.tmr.aux[p]
  if old == level || !s.rbit (Reg.TMR_TCLK_CFG p) 0 then s
  else
    let s := s.modTmr fun t => { t with aux := t.aux.set p level, tclkAt := t.tclkAt.set p s.tick }
    let s := if s.rbit Reg.TMR_TCLK_STAT (8 + p.val) then (s.setFld Reg.TMR_TCLK_STAT (8 + p.val) (8 + p.val) 0).commit else s
    let s := s.captureEdge (8 + p.val) level
    if edgeOf (s.fld (Reg.TMR_TCLK_CFG p) 2 1) level then s.feedSrc (7 + p.val) 1 else s

/-- The tick at which the stop window of a TCLK pin ends (R256). -/
def tclkDue (s : State) (p : Fin 4) : Option Nat :=
  let stop := s.fld (Reg.TMR_TCLK_CFG p) 31 16
  if s.rbit (Reg.TMR_TCLK_CFG p) 0 && decide (stop ≠ 0) && !s.rbit Reg.TMR_TCLK_STAT (8 + p.val) then
    some (s.tmr.tclkAt[p] + stop * 1000)
  else none

/-- The end of a stop window (R256). -/
def tclkStopped (s : State) (p : Fin 4) : State :=
  let s := (s.setFld Reg.TMR_TCLK_STAT (8 + p.val) (8 + p.val) 1).setFlag Reg.TMR_TCLK_STAT p.val
  s.raise Kind.tclkStop (word p.val)

/-! ### Make-up after SLEEP -/

/-- `p` of R258: the value of the lowest-numbered compare channel that resets the timer, or 0. -/
def makeupPeriod (s : State) (t : TimerId) : Nat :=
  match ([0, 1, 2, 3] : List Nat).find? fun c => decide (s.tmMode t c = 1) && bit (s.tmAct t c) 0 with
  | some c => (s.tmVal t c).toNat
  | none => 0

/-- The missed count of an event of a timer whose count was `old` and that advances by `add` (R258). -/
def missed (s : State) (t : TimerId) (old add p : Nat) (hit : Nat) : Nat :=
  if hit < 4 ∧ s.tmMode t hit ≠ 1 then 0
  else
    let v := if hit < 4 then (s.tmVal t hit).toNat else 0
    if 1 ≤ p ∧ old < p then
      if hit < 4 ∧ 1 ≤ v ∧ v ≤ p then (old + add + p - v) / p - (old + p - v) / p else 0
    else
      let k := (v + 2 ^ 48 - old) % 2 ^ 48
      let k := if k = 0 then 2 ^ 48 else k
      if add ≥ k then 1 else 0

/-- A timer is made up after SLEEP by `slow` SLOW32K ticks; `TMR_MISS` is written, or 0 where it keeps its count (R257-R259). -/
def makeUp (s : State) (slow : Nat) (t : TimerId) : State :=
  let tmup := (s.reg (Reg.TMR_TMUP t)).toNat
  if s.tmRun t && decide (s.tmSrc t ≤ 2) && decide (tmup ≠ 0) then
    let add := slow * tmup / 65536
    let old := (s.timer t).count.toNat
    let p := s.makeupPeriod t
    let m := fun h => min 63 (s.missed t old add p h)
    let new := if 1 ≤ p ∧ old < p then (old + add) % p else (old + add) % 2 ^ 48
    (s.modTimer t fun x => { x with count := BitVec.ofNat 48 new }).setReg (Reg.TMR_MISS t)
      (word (m 0 + m 1 * 64 + m 2 * 4096 + m 3 * 262144 + m 4 * 2 ^ 24))
  else s.setReg (Reg.TMR_MISS t) 0

/-- The messages of missed events, in timer order (R259). -/
def reportMissed (s : State) : State :=
  allTimers.foldl (fun (s : State) (t : TimerId) =>
    if s.reg (Reg.TMR_MISS t) ≠ 0 then (s.setFlag (Reg.TMR_STAT t) 5).raise Kind.tmrMissed (word t.val) else s) s

/-- A block reset of TMR (R261). -/
def resetTimers (s : State) : State :=
  let s := allTimers.foldl (fun (s : State) (t : TimerId) =>
    let s := (s.tmStop t).modTimer t fun x => { x with count := 0, acc := 0 }
    ((s.setReg (Reg.TMR_STAT t) (s.reg (Reg.TMR_STAT t) &&& 0xF0000000)).setReg (Reg.TMR_MISS t) 0)) s
  let s := s.setReg Reg.TMR_TCLK_STAT (s.reg Reg.TMR_TCLK_STAT &&& 0xF0000000)
  ([0, 1, 2, 3] : List Nat).foldl (fun s p => s.toutLevel p (s.rbit Reg.TMR_TOUT (8 + p))) s

/-! ### The placement envelope -/

/-- The end of an envelope window of a lane (R32). -/
def endEnvelope (s : State) (n : Lane) : State :=
  let l := s.lane n
  let beyond := decide (s.maxRate n ≠ 0) && !l.madeUp && decide (s.maxRate n < l.advance)
  let s := s.modLane n fun l => { l with advance := 0, outside := beyond, madeUp := false }
  if beyond then (s.setFlag Reg.DEV_ENV_STAT n.val).commit else s

end State
end Sys2Proof.Machine
end

