-- ==== Sys2Proof/Machine/Dates.lean ====
section
/-! DEFINITION. Day numbers, dates, ISO weeks, date fields and shifts (17_dates_codes R424-R428), as pure functions of
latched values. Characters are byte values. -/

namespace Sys2Proof.Machine

/-- `leap` of R424. -/
def leap (y : Nat) : Bool := (y % 4 == 0 && y % 100 != 0) || y % 400 == 0

/-- `dim` of R424: days of a month. -/
def daysInMonth (y m : Nat) : Nat :=
  if m = 2 then (if leap y then 29 else 28)
  else if m = 4 ∨ m = 6 ∨ m = 9 ∨ m = 11 then 30 else 31

/-- `diy` of R424: days of a year. -/
def daysInYear (y : Nat) : Nat := if leap y then 366 else 365

/-- `cum` of R424: days before month `m` of a common year. -/
def daysBefore (m : Nat) : Nat := [0, 31, 59, 90, 120, 151, 181, 212, 243, 273, 304, 334].getD (m - 1) 0

/-- `day_number` of R424, for years from 2000. -/
def dayNumber (y m d : Nat) : Nat :=
  let k := y - 2000
  let n := 365 * k + (k + 3) / 4 - (k + 99) / 100 + (k + 399) / 400
  let n := n + daysBefore m + d - 1
  if m > 2 ∧ leap y then n + 1 else n

/-- The year loop of `date_of`, with fuel. -/
def yearOf : Nat → Nat → Nat → Nat × Nat
  | 0, y, n => (y, n)
  | f + 1, y, n => if n ≥ daysInYear y then yearOf f (y + 1) (n - daysInYear y) else (y, n)

/-- The month loop of `date_of`, with fuel. -/
def monthOf : Nat → Nat → Nat → Nat → Nat × Nat
  | 0, _, m, n => (m, n)
  | f + 1, y, m, n =>
    if n ≥ daysInMonth y m then monthOf f y (m + 1) (n - daysInMonth y m) else (m, n)

/-- `date_of` of R424: year, month and day of a day number. -/
def dateOf (n : Nat) : Nat × Nat × Nat :=
  let (y, r) := yearOf 210 2000 n
  let (m, r) := monthOf 12 y 1 r
  (y, m, r + 1)

/-- The latest day number, 2199-12-31 (R419). -/
def lastDayNumber : Nat := 73048

/-- The conditions of a date field (R425). -/
inductive DateCond where
  | notSet | dateRange
  deriving DecidableEq, Repr

/-- The production day of R425 without override: the day, or the one before it while the second lies before the
production-day start. -/
def productionDay (day second dayStart : Nat) : Option Nat :=
  if second < dayStart * 60 then (if day = 0 then none else some (day - 1)) else some day

/-- The parameters and latched values a DATE field reads (R425). -/
structure DateArgs where
  useOvr : Bool
  ovrValid : Bool
  ovrDay : Nat
  set : Bool
  day : Nat
  second : Nat
  dayStart : Nat
  addMonths : Int
  addDays : Int
  useShelf : Bool
  shelf : Int
  deriving DecidableEq, Repr

/-- The production day a DATE field starts from (R425). -/
def dateBase (a : DateArgs) : Except DateCond Nat :=
  if a.useOvr && a.ovrValid then .ok a.ovrDay
  else if !a.set then .error .notSet
  else match productionDay a.day a.second a.dayStart with
    | none => .error .dateRange
    | some n => .ok n

/-- Months, then days, then shelf life are added; the day of the month is clamped (R425). -/
def dateShift (a : DateArgs) (n : Nat) : Except DateCond Nat :=
  let (y, m, d) := dateOf n
  let t : Int := (y : Int) * 12 + ((m : Int) - 1) + a.addMonths
  let y2 : Int := t / 12
  if y2 < 2000 ∨ y2 > 2199 then .error .dateRange
  else
    let yy := y2.toNat
    let m2 := (t - 12 * y2 + 1).toNat
    let d2 := if d > daysInMonth yy m2 then daysInMonth yy m2 else d
    let n2 : Int := (dayNumber yy m2 d2 : Int) + a.addDays + (if a.useShelf then a.shelf else 0)
    if n2 < 0 ∨ n2 > 73048 then .error .dateRange else .ok n2.toNat

/-- The result day of a DATE field (R425). -/
def resultDay (a : DateArgs) : Except DateCond Nat :=
  match dateBase a with
  | .error c => .error c
  | .ok n => dateShift a n

/-- ISO weekday of a day number, Monday = 1 (R426). -/
def isoWeekday (n : Nat) : Nat := ((n + 5) % 7) + 1

/-- Ordinal day of the year (R426). -/
def ordinalDay (n : Nat) : Nat := n - dayNumber (dateOf n).1 1 1 + 1

/-- ISO weeks of a year (R426). -/
def isoWeeks (yr : Nat) : Nat :=
  if yr = 1999 then 52
  else
    let u1 := isoWeekday (dayNumber yr 1 1)
    if u1 = 4 ∨ (leap yr ∧ u1 = 3) then 53 else 52

/-- ISO week-numbering year and week (R426). -/
def isoWeek (n : Nat) : Nat × Nat :=
  let y := (dateOf n).1
  let w := (ordinalDay n + 10 - isoWeekday n) / 7
  if w < 1 then (y - 1, isoWeeks (y - 1))
  else if w > isoWeeks y then (y + 1, 1)
  else (y, w)

/-- The lowest `k` decimal digits of `n`, as ASCII, padded with 0. -/
def digits : Nat → Nat → List Nat
  | 0, _ => []
  | k + 1, n => digits k (n / 10) ++ [48 + n % 10]

/-- The decimal digits of `n` without padding, up to `fuel` of them. -/
def decimal (fuel n : Nat) : List Nat :=
  match fuel with
  | 0 => []
  | f + 1 => if n < 10 then [48 + n] else decimal f (n / 10) ++ [48 + n % 10]

/-- The output of one date token (R427): `none` for a token the rule does not list. `names` is the month-name table
when it is enabled. -/
def dateToken (tok n second : Nat) (names : Option (List Nat)) : Option (List Nat) :=
  let (y, m, d) := dateOf n
  let (g, w) := isoWeek n
  match Char.ofNat tok with
  | 'Y' => some (digits 4 y)
  | 'y' => some (digits 2 (y % 100))
  | 'm' => some (digits 2 m)
  | 'd' => some (digits 2 d)
  | 'j' => some (digits 3 (ordinalDay n))
  | 'H' => some (digits 2 (second / 3600))
  | 'M' => some (digits 2 (second / 60 % 60))
  | 'S' => some (digits 2 (second % 60))
  | 'u' => some (digits 1 (isoWeekday n))
  | 'V' => some (digits 2 w)
  | 'G' => some (digits 4 g)
  | 'g' => some (digits 2 (g % 100))
  | 'b' => names.map (fun t => (t.drop (3 * (m - 1))).take 3)
  | '%' => some [37]
  | _ => none

/-- A format string written out (R427); `none` where the field draws nothing. -/
def dateFormat (n second : Nat) (names : Option (List Nat)) : List Nat → Option (List Nat)
  | [] => some []
  | 37 :: t :: rest =>
    match dateToken t n second names, dateFormat n second names rest with
    | some a, some b => some (a ++ b)
    | _, _ => none
  | [37] => none
  | c :: rest => (dateFormat n second names rest).map (c :: ·)

/-- One entry of the shift table (R428). -/
structure ShiftEntry where
  valid : Bool
  start : Nat
  days : Nat
  code : List Byte
  deriving DecidableEq, Repr

/-- The entry of the latest start among those `ok` admits; the lower entry wins a tie (R428). -/
def bestShift (ok : ShiftEntry → Bool) : List ShiftEntry → Option ShiftEntry → Option ShiftEntry
  | [], best => best
  | e :: rest, best =>
    if ok e then
      match best with
      | none => bestShift ok rest (some e)
      | some b => bestShift ok rest (if e.start > b.start then some e else best)
    else bestShift ok rest best

/-- The shift selected at a latch (R428). -/
def selectShift (table : List ShiftEntry) (day second : Nat) : Option ShiftEntry :=
  let wd := (day + 5) % 7
  let mins := second / 60
  match bestShift (fun e => e.valid && e.days.testBit wd && decide (e.start ≤ mins)) table none with
  | some e => some e
  | none =>
    let yd := (wd + 6) % 7
    bestShift (fun e => e.valid && e.days.testBit yd) table none

/-- The next value of a counter, with the `cnt_end` condition (R429). -/
def counterNext (start end_ : Nat) (step : Int) (roll : Bool) (v : Nat) : Nat × Bool :=
  let x : Int := (v : Int) + step
  if (step > 0 ∧ x > (end_ : Int)) ∨ (step < 0 ∧ x < (end_ : Int)) then
    (if roll then end_ else start, true)
  else (x.toNat % 2 ^ 32, false)

/-- `counterNext` taken `k` times (R434). -/
def counterSteps (start end_ : Nat) (step : Int) (roll : Bool) : Nat → Nat → Nat
  | 0, v => v
  | k + 1, v => counterSteps start end_ step roll k (counterNext start end_ step roll v).1

/-- Some of `k` steps of `counterNext` sets `cnt_end` (R429, R434). -/
def counterEnds (start end_ : Nat) (step : Int) (roll : Bool) : Nat → Nat → Bool
  | 0, _ => false
  | k + 1, v =>
    let (w, beyond) := counterNext start end_ step roll v
    beyond || counterEnds start end_ step roll k w

/-- The string of a COUNTER field: the decimal view padded to `digitsN` (R431), and whether it was cut. -/
def counterString (view digitsN pad : Nat) : List Nat × Bool :=
  let s := decimal 10 view
  if s.length > digitsN then (s.drop (s.length - digitsN), true)
  else if pad = 1 then (List.replicate (digitsN - s.length) 48 ++ s, false)
  else if pad = 2 then (List.replicate (digitsN - s.length) 32 ++ s, false)
  else (s, false)

end Sys2Proof.Machine
end

