-- ==== Sys2Proof/Machine/Crate.lean ====
section
/-! DEFINITION. Borzel crates: the header, the section table, job records, envelope, calibration and default sections,
the signature, and the standing-job region, as checks over bytes that name a reason and an offset (15_borzel_crates
R377-R387, R394, R395). -/

namespace Sys2Proof.Machine

/-- Why a crate or standing job fails: the reason code and the offset (R394). -/
structure CrateFail where
  reason : Nat
  off : Nat
  deriving DecidableEq, Repr

namespace Why
def read : Nat := 1
def magic : Nat := 2
def format : Nat := 3
def target : Nat := 4
def header : Nat := 5
def hcrc : Nat := 6
def sectionCrc : Nat := 7
def job : Nat := 8
def signature : Nat := 9
def notVerified : Nat := 10
def envelope : Nat := 11
def limits : Nat := 12
def tableBusy : Nat := 13
def changed : Nat := 14
def unknownSection : Nat := 15
end Why

/-- A check with its reason and offset. -/
def need (b : Bool) (reason off : Nat) : Except CrateFail Unit := if b then .ok () else .error ⟨reason, off⟩

/-- The bytes a crate is read from: the Cellar content, the configured size, the crate's start, and whether the
interface answers at all. -/
structure CrateSrc where
  mem : Mem
  size : Nat
  base : Nat
  broken : Bool

/-- `n` bytes of the crate from offset `off` on; a byte beyond the configured size fails (R377). -/
def CrateSrc.fetch (c : CrateSrc) (off n : Nat) : Except CrateFail (List Byte) :=
  if c.broken then .error ⟨Why.read, off⟩
  else if c.base + off + n > c.size then .error ⟨Why.read, max off (c.size - c.base)⟩
  else .ok (c.mem.cellarBytes (c.base + off) n)

/-- Little-endian fields of a byte list. -/
def u8 (l : List Byte) (i : Nat) : Nat := (l.getD i 0).toNat
def u16 (l : List Byte) (i : Nat) : Nat := leBytes ((l.drop i).take 2)
def u32 (l : List Byte) (i : Nat) : Nat := leBytes ((l.drop i).take 4)

/-- The first byte of a range that is not 0, if any: a reserved field that is set. -/
def firstSet (l : List Byte) (i n : Nat) : Option Nat := ((List.range n).map (i + ·)).find? fun k => u8 l k ≠ 0

/-- Reserved bytes are 0. -/
def needZero (l : List Byte) (i n reason base : Nat) : Except CrateFail Unit :=
  match firstSet l i n with
  | none => .ok ()
  | some k => .error ⟨reason, base + k⟩

/-- An entry of the section table (R379). -/
structure Sect where
  typ : Nat
  idx : Nat
  flags : Nat
  off : Nat
  len : Nat
  crc : Nat
  deriving DecidableEq, Repr

/-- A crate's header and section table (R378, R379). -/
structure Header where
  major : Nat
  signed : Bool
  minRev : Nat
  len : Nat
  jobs : Nat
  sigSlot : Nat
  hcrc : Nat
  sects : List Sect
  deriving DecidableEq, Repr

/-- A type that revision B knows (R380). -/
def knownType (t : Nat) : Bool := decide (1 ≤ t ∧ t ≤ 8)

/-- Entries of the section table from its bytes. -/
def parseSects : Nat → List Byte → List Sect
  | 0, _ => []
  | k + 1, l => ⟨u8 l 0, u8 l 1, u16 l 2, u32 l 4, u32 l 8, u32 l 12⟩ :: parseSects k (l.drop 16)

/-- `SLEN` of R380 for a type. -/
def slenOk (t len : Nat) : Bool :=
  match t with
  | 1 => decide (48 ≤ len ∧ len ≤ 288 ∧ len % 16 = 0)
  | 2 => decide (len ≤ 65536)
  | 3 => decide (len ≤ 65536)
  | 4 => decide (4 ≤ len ∧ len ≤ 16384 ∧ len % 4 = 0)
  | 6 => decide (4 ≤ len ∧ len ≤ 16384 ∧ len % 4 = 0)
  | 7 => decide (8 ≤ len)
  | 8 => decide (4 ≤ len ∧ len % 8 = 4)
  | _ => true

/-- The checks of one entry against the entries before it (R379, R380); `k` is its section number. -/
def checkEntry (h : Header) (before : List Sect) (k : Nat) (e : Sect) : Except CrateFail Unit := do
  let at_ := 64 + 16 * k
  let bound := if h.signed then h.len - 32 else h.len
  if knownType e.typ then
    if e.typ = 1 then
      need (decide (e.idx < h.jobs) && before.all fun b => !(decide (b.typ = 1) && decide (b.idx = e.idx))) Why.header (at_ + 1)
    else if e.typ = 8 then
      need (decide (e.idx < h.jobs) && before.all fun b => !(decide (b.typ = 8) && decide (b.idx = e.idx))) Why.header (at_ + 1)
    else need (decide (e.idx = 0)) Why.header (at_ + 1)
    need (decide (e.flags < 2)) Why.header (at_ + 2)
  need (decide (e.off % 16 = 0 ∧ 64 + 16 * h.sects.length ≤ e.off) &&
    before.all fun b => decide (e.off + e.len ≤ b.off ∨ b.off + b.len ≤ e.off)) Why.header (at_ + 4)
  need (decide (1 ≤ e.len ∧ e.off + e.len ≤ bound) && slenOk e.typ e.len) Why.header (at_ + 8)

/-- The entries in order (R379). -/
def checkEntries (h : Header) : Nat → List Sect → List Sect → Except CrateFail Unit
  | _, _, [] => .ok ()
  | k, before, e :: rest => do
    checkEntry h before k e
    checkEntries h (k + 1) (before ++ [e]) rest

/-- Unknown types: one that is not optional is refused (R387). -/
def checkUnknown : Nat → List Sect → Except CrateFail Unit
  | _, [] => .ok ()
  | k, e :: rest => do
    need (knownType e.typ || decide (e.flags % 2 = 1)) Why.unknownSection (64 + 16 * k)
    checkUnknown (k + 1) rest

/-- Steps 1 to 4 of R388: header, section table, `HCRC`, version rules. -/
def readHeader (c : CrateSrc) : Except CrateFail Header := do
  let b ← c.fetch 0 64
  need (decide (u32 b 0 = 0x5A524F42)) Why.magic 0
  need (decide (u16 b 6 < 2)) Why.header 6
  need (decide (u32 b 8 = 0x4480)) Why.target 8
  let n := u16 b 20
  need (decide (u32 b 16 % 16 = 0 ∧ 64 + 16 * n ≤ u32 b 16)) Why.header 16
  need (decide (1 ≤ n ∧ n ≤ 1024)) Why.header 20
  need (decide (1 ≤ u8 b 22)) Why.header 22
  need (if u16 b 6 = 1 then decide (u8 b 23 ≤ 7) else decide (u8 b 23 = 0)) Why.header 23
  needZero b 32 28 Why.header 0
  let tab ← c.fetch 64 (16 * n)
  let h : Header := ⟨u8 b 4, decide (u16 b 6 = 1), u32 b 12, u32 b 16, u8 b 22, u8 b 23, u32 b 60, parseSects n tab⟩
  checkEntries h 0 [] h.sects
  need ((List.range h.jobs).all fun j => h.sects.any fun e => decide (e.typ = 1) && decide (e.idx = j)) Why.header 22
  need (decide (crc32c (b.take 60 ++ tab) = h.hcrc)) Why.hcrc 60
  need (decide (h.major = 1)) Why.format 4
  need (decide (h.minRev ≤ 2)) Why.target 12
  checkUnknown 0 h.sects
  return h

/-- A section's bytes, after its `SCRC` has been checked. -/
def readSect (c : CrateSrc) (e : Sect) : Except CrateFail (List Byte) := do
  let b ← c.fetch e.off e.len
  need (decide (crc32c b = e.crc)) Why.sectionCrc e.off
  return b

/-- An envelope entry (R383). -/
structure Envelope where
  pitch : Nat
  lead : Nat
  maxRate : Nat
  prodPitch : Nat
  off : Nat
  deriving DecidableEq, Repr

/-- A job record (R382). -/
structure JobRec where
  columns : Nat
  headClass : Nat
  carried : Bool
  layout : Nat
  field : Nat
  fontIdx : Nat
  glyphs : Nat
  waveform : Nat
  calib : Nat
  defaults : Nat
  eFix : Nat
  eCol : Nat
  envs : List Envelope
  off : Nat
  deriving DecidableEq, Repr

/-- A reference of a job record: a section of the type, or 0xFFFF where the table allows none (R382). -/
def refOk (h : Header) (t v : Nat) (optional : Bool) (job : Option Nat) : Bool :=
  if v = 0xFFFF then optional
  else match h.sects[v]? with
    | some e => decide (e.typ = t) && (match job with | some j => decide (e.idx = j) | none => true)
    | none => false

/-- Envelope entries from a job section, checked against those before (R383). -/
def readEnvs (off : Nat) : Nat → List Byte → List Envelope → Except CrateFail (List Envelope)
  | 0, _, acc => .ok acc
  | k + 1, l, acc => do
    need (decide (1 ≤ u16 l 4 ∧ u16 l 4 ≤ 1024)) Why.job (off + 4)
    needZero l 6 2 Why.job off
    need (decide (1 ≤ u32 l 8 ∧ u32 l 8 ≤ 0xFFFFFF)) Why.job (off + 8)
    need (decide (1 ≤ u32 l 12)) Why.job (off + 12)
    need (acc.all fun e => !(decide (e.pitch = u32 l 0) && decide (e.lead = u16 l 4))) Why.job off
    readEnvs (off + 16) k (l.drop 16) (acc ++ [⟨u32 l 0, u16 l 4, u32 l 8, u32 l 12, off⟩])

/-- The JOB section of job `j`, from its bytes (R382). -/
def readJob (h : Header) (j off : Nat) (b : List Byte) : Except CrateFail JobRec := do
  need (decide (1 ≤ u16 b 0 ∧ u16 b 0 ≤ 4096)) Why.job off
  need (decide (u8 b 2 ≤ 1)) Why.job (off + 2)
  need (decide (u8 b 3 ≤ 1)) Why.job (off + 3)
  need (refOk h 2 (u16 b 4) false none) Why.job (off + 4)
  need (refOk h 3 (u16 b 6) true none) Why.job (off + 6)
  need (refOk h 4 (u16 b 8) true none) Why.job (off + 8)
  need (refOk h 5 (u16 b 10) true none) Why.job (off + 10)
  need (refOk h 6 (u16 b 12) false none) Why.job (off + 12)
  need (refOk h 7 (u16 b 14) (decide (u8 b 3 = 0)) none) Why.job (off + 14)
  need (refOk h 8 (u16 b 16) true (some j)) Why.job (off + 16)
  need (decide (1 ≤ u16 b 18 ∧ u16 b 18 ≤ 16 ∧ b.length = 32 + 16 * u16 b 18)) Why.job (off + 18)
  needZero b 26 6 Why.job off
  let envs ← readEnvs (off + 32) (u16 b 18) (b.drop 32) []
  return { columns := u16 b 0, headClass := u8 b 2, carried := decide (u8 b 3 = 1), layout := u16 b 4, field := u16 b 6,
           fontIdx := u16 b 8, glyphs := u16 b 10, waveform := u16 b 12, calib := u16 b 14, defaults := u16 b 16,
           eFix := u32 b 20, eCol := u16 b 24, envs := envs, off := off }

/-- Words of a byte list. -/
def wordsOf : Nat → List Byte → List Word
  | 0, _ => []
  | k + 1, l => word (leBytes (l.take 4)) :: wordsOf k (l.drop 4)

/-- A CALIB section: the sine image and the cam points as words (R385). -/
structure Calib where
  sine : Option (List Word)
  camPoints : Nat
  cams : List Word
  deriving DecidableEq, Repr

/-- A CALIB section from its bytes (R385). -/
def readCalib (off : Nat) (b : List Byte) : Except CrateFail Calib := do
  need (decide (u8 b 0 ≤ 1)) Why.job off
  need (decide (u8 b 1 ≤ 64)) Why.job (off + 1)
  needZero b 2 6 Why.job off
  let sp := u8 b 0
  let cp := u8 b 1
  need (decide (b.length = 8 + 1024 * sp + 16 * cp)) Why.job off
  let sine := if sp = 1 then wordsOf 256 (b.drop 8) else []
  match (List.range sine.length).find? (fun k => (sine.getD k 0) &&& 0xF000F000 ≠ 0) with
  | some k => .error ⟨Why.job, off + 8 + 4 * k⟩
  | none => return ⟨if sp = 1 then some sine else none, cp, wordsOf (4 * cp) (b.drop (8 + 1024 * sp))⟩

/-- The lane's form of a field value register given in its L0 form, or none where the address names no such register
(R386, R401, R423). -/
def fieldReg (n : Nat) (a : Nat) : Option Nat :=
  if 0x9400 ≤ a ∧ a < 0x9500 ∧ a % 4 = 0 then some (a + 0x100 * n)
  else if a = 0xA300 ∨ a = 0xA304 then some (a + 0x10 * n)
  else none

/-- An owner write of the value to the field value register would be accepted (R17): only `CAL_DATE_OVR_Ln` reserves
values, day numbers above 73,048 (R441). -/
def fieldValueOk (a v : Nat) : Bool := if a = 0xA304 then decide (v % 0x20000 ≤ 73048) else true

/-- Address and value pairs, checked in order; `off` is the offset of the first (R386). -/
def readValues (off : Nat) (form : Nat → Option Nat) (okv : Nat → Nat → Bool) (bad : Nat → Nat → CrateFail) :
    Nat → List Byte → Except CrateFail (List (Nat × Word))
  | 0, _ => .ok []
  | k + 1, l =>
    match form (u32 l 0) with
    | none => .error (bad off 0)
    | some a =>
      if okv (u32 l 0) (u32 l 4) then
        match readValues (off + 8) form okv bad k (l.drop 8) with
        | .ok rest => .ok ((a, word (u32 l 4)) :: rest)
        | .error e => .error e
      else .error (bad off 4)

/-- A DEFAULTS section for lane `n`, from its bytes (R386). -/
def readDefaults (n off : Nat) (b : List Byte) : Except CrateFail (List (Nat × Word)) := do
  need (decide (u16 b 0 ≤ 1024 ∧ b.length = 4 + 8 * u16 b 0)) Why.job off
  needZero b 2 2 Why.job off
  readValues (off + 4) (fieldReg n) fieldValueOk (fun o k => ⟨Why.job, o + k⟩) (u16 b 0) (b.drop 4)

/-- The section of number `v`. -/
def Header.sect (h : Header) (v : Nat) : Sect := h.sects.getD v ⟨0, 0, 0, 0, 0, 0⟩

/-- The JOB section of job `j`. -/
def Header.jobSect (h : Header) (j : Nat) : Option Sect := h.sects.find? fun e => decide (e.typ = 1) && decide (e.idx = j)

/-- Step 5 of R388: every `SCRC`, in section order. -/
def checkCrcs (c : CrateSrc) : List Sect → Except CrateFail Unit
  | [] => .ok ()
  | e :: rest => do
    let _ ← readSect c e
    checkCrcs c rest

/-- Step 6 of R388: every JOB, CALIB and DEFAULTS section; DEFAULTS are judged for lane L0. -/
def checkContents (c : CrateSrc) (h : Header) : List Sect → Except CrateFail Unit
  | [] => .ok ()
  | e :: rest => do
    let b ← c.fetch e.off e.len
    match e.typ with
    | 1 => let _ ← readJob h e.idx e.off b
    | 7 => let _ ← readCalib e.off b
    | 8 => let _ ← readDefaults 0 e.off b
    | _ => pure ()
    checkContents c h rest

/-- Step 7 of R388: the signature under the key of `SIG_SLOT`; a slot without a key fails it (R381). -/
def checkSignature (c : CrateSrc) (h : Header) (key : Nat → Option (List Byte)) : Except CrateFail Unit := do
  if h.signed then
    let body ← c.fetch 0 (h.len - 32)
    let mac ← c.fetch (h.len - 32) 32
    match key h.sigSlot with
    | none => .error ⟨Why.signature, h.len - 32⟩
    | some k => need (decide (hmacSha256 k ([0x47, 0x4C, 0x42, 0x5A] ++ body) = mac)) Why.signature (h.len - 32)
  else pure ()

/-- Verification: the seven steps of R388 over the crate. -/
def verifyCrate (c : CrateSrc) (key : Nat → Option (List Byte)) : Except CrateFail Header := do
  let h ← readHeader c
  checkCrcs c h.sects
  checkContents c h h.sects
  checkSignature c h key
  return h

/-- A standing job (R395). -/
structure Standing where
  crate : Nat
  job : Nat
  hcrc : Nat
  nval : Nat
  deriving DecidableEq, Repr

/-- The standing-job region of lane `n`, from its 4,096 bytes: the offset of the first failing field, or the job (R395). -/
def readStanding (n : Nat) (b : List Byte) : Except Nat Standing :=
  if u32 b 0 ≠ 0x4A534C47 then .error 0
  else if u16 b 4 ≠ 1 then .error 4
  else if u8 b 6 ≠ n then .error 6
  else if u8 b 7 ≠ 0 then .error 7
  else if u32 b 8 ≥ 0x20000 then .error 8
  else if u8 b 12 > 254 then .error 12
  else match firstSet b 13 3 with
    | some k => .error k
    | none =>
      if u16 b 20 > 508 then .error 20
      else match firstSet b 22 2 with
        | some k => .error k
        | none =>
          let e := 24 + 8 * u16 b 20
          if u32 b e ≠ crc32c (b.take e) then .error e
          else .ok ⟨u32 b 8, u8 b 12, u32 b 16, u16 b 20⟩

/-- The values of a standing-job region, for lane `n`, each as an owner write would be judged (R386, R396). -/
def standingValues (n : Nat) (b : List Byte) (nval : Nat) : Except CrateFail (List (Nat × Word)) :=
  let form := fun a =>
    if 0x9400 + 0x100 * n ≤ a ∧ a < 0x9500 + 0x100 * n ∧ a % 4 = 0 then some a
    else if a = 0xA300 + 0x10 * n ∨ a = 0xA304 + 0x10 * n then some a
    else none
  readValues 24 form (fun a v => fieldValueOk (if a = 0xA304 + 0x10 * n then 0xA304 else a) v)
    (fun o _ => ⟨Why.job, 0x80000000 + o⟩) nval (b.drop 24)

end Sys2Proof.Machine
end

