-- ==== Sys2Proof/Machine/Store.lean ====
section
/-! DEFINITION. What changes the memories that keep: programming and erasing the Cellar (R89-R91, R389), Loft staged
writes (R93-R97), and the Larder scrubbers (R81). -/

namespace Sys2Proof.Machine

namespace State

/-! ### Reads that report every failing word -/

/-- The failing words of a Larder range, in ascending order (R77, R79). `k` 64-bit words from `a` on. -/
def badWords (s : State) (env : MemEnv) : Nat → Nat → List Read
  | _, 0 => []
  | a, k + 1 =>
    match readLarder s.mem env a 8 with
    | .ok _ => badWords s env (a + 8) k
    | e => e :: badWords s env (a + 8) k

/-- Every failing word is reported (R77, R79). -/
def noteReads (s : State) (l : List Read) : State := l.foldl noteRead s

/-! ### The Cellar -/

/-- The bytes of an address sent to the flash: `ADDR_BYTES` of them, most significant first; four in mode 4 (R85). -/
def celAddress (s : State) (a : Nat) : List Byte :=
  let n := if s.fld Reg.MEM_CEL_CFG 2 0 = 4 then 4 else s.fld Reg.MEM_CEL_RDCMD 10 8
  (bytesLE n a).reverse

/-- An opcode as sent: mode 4 appends its extension (R85). -/
def celOpcode (s : State) (op : Nat) : List Byte :=
  let b := BitVec.ofNat 8 op
  if s.fld Reg.MEM_CEL_CFG 2 0 = 4 then [b, if s.rbit Reg.MEM_CEL_CFG 15 then ~~~b else b] else [b]

/-- The range a Cellar operation programs or erases: its first byte and its length (R89). -/
def celRange (op paddr len : Nat) : Nat × Nat :=
  match op with
  | 1 => (paddr, len + 1)
  | 2 => (paddr, 0x1000)
  | 3 => (paddr, 0x10000)
  | _ => (0, 0)

/-- The range and length checks of R89, and the configured size (R90 check 2). -/
def celRangeOk (s : State) (op paddr len : Nat) (noData : Bool) : Bool :=
  match op with
  | 1 => decide (paddr % 256 + len + 1 ≤ 256) && decide (paddr + len + 1 ≤ cellarSize s)
  | 2 => decide (paddr % 0x1000 = 0) && decide (paddr + 0x1000 ≤ cellarSize s)
  | 3 => decide (paddr % 0x10000 = 0) && decide (paddr + 0x10000 ≤ cellarSize s)
  | 4 => noData || decide (len ≤ 3)
  | _ => false

/-- The crates a lane selects: the one its lane value names, and those of its records that have latched a job and have
reached neither their render commit nor a final outcome (R402). -/
def laneCrates (s : State) (n : Lane) : List Nat :=
  let w := s.reg (Reg.PLC_JOB n)
  let now := if bits w 31 24 = 255 then [] else [bits w 16 0]
  let kept := (s.lane n).recs.filterMap fun r =>
    if decide (r.state = .latched) && (s.cmp.renders.any fun q => decide (q.lane = n) && decide (q.serial = r.serial)) then
      r.set.map fun x => bits x.job 16 0
    else none
  now ++ kept

/-- The extent of a crate in the Cellar: its start and its length, from its header (R377, R378). -/
def crateExtent (s : State) (crate : Nat) : Nat × Nat := (crate * 4096, u32 (s.mem.cellarBytes (crate * 4096) 64) 16)

/-- Two byte ranges meet. -/
def meet (a b : Nat × Nat) : Bool := decide (a.1 < b.1 + b.2) && decide (b.1 < a.1 + a.2)

/-- The range overlaps a crate that a lane in IN_SERVICE or DRAINING selects (R90 check 3). -/
def crateInUse (s : State) (r : Nat × Nat) : Bool :=
  allLanes.any fun n =>
    (decide (s.laneState n = .inService) || decide (s.laneState n = .draining)) &&
      (s.laneCrates n).any fun c => meet r (s.crateExtent c)

/-- A verification entry is valid (R397). -/
def verValid (s : State) (k : Nat) : Bool := s.rbit (Reg.CMP_CRATE_VER k) 24

/-- A verification entry is invalidated (R389). -/
def verDrop (s : State) (k : Nat) : State := s.setFld (Reg.CMP_CRATE_VER k) 24 24 0

/-- The acceptance of an operation that changes the range `r`, or of a COMMAND (`none`), invalidates the entries it
meets and ends a verification of a crate it meets (R389). -/
def verInvalidate (s : State) (r : Option (Nat × Nat)) : State :=
  let hit := fun (crate len : Nat) => match r with
    | none => true
    | some r => meet r (crate * 4096, len)
  let s := (List.range 8).foldl (fun s k =>
    if s.verValid k &&
        hit (s.fld (Reg.CMP_CRATE_VER k) 16 0) ((s.crates.entries[k]?).map (·.length) |>.getD 0) then s.verDrop k else s) s
  match s.crates.run with
  | none => s
  | some v =>
    if hit v.crate (s.crateExtent v.crate).2 then
      { s with crates := { s.crates with run := some { v with changed := true } } }
    else s

/-- `RESULT` of `MEM_CEL_PSTAT`, with `PDONE` or `PFAIL` where it gives one (R101). -/
def celResult (s : State) (r : Nat) : State :=
  let s := s.setFld Reg.MEM_CEL_PSTAT 7 4 r
  if r = 2 then s.setFlag Reg.MEM_CEL_PSTAT 0 else if 3 ≤ r then s.setFlag Reg.MEM_CEL_PSTAT 1 else s

/-- The bytes of `MEM_CEL_PBUF`. -/
def celBuf (s : State) (n : Nat) : List Byte :=
  ((List.range 64).flatMap fun k => bytesLE 4 (s.reg (Reg.MEM_CEL_PBUF k)).toNat).take n

/-- What an operation sends to the flash after WREN (R90 step 2). -/
def celSend (s : State) (op paddr len : Nat) (noData : Bool) : List Byte :=
  match op with
  | 1 => s.celOpcode (s.fld Reg.MEM_CEL_OPCODES 15 8) ++ s.celAddress paddr ++ s.celBuf (len + 1)
  | 2 => s.celOpcode (s.fld Reg.MEM_CEL_OPCODES 23 16) ++ s.celAddress paddr
  | 3 => s.celOpcode (s.fld Reg.MEM_CEL_OPCODES 31 24) ++ s.celAddress paddr
  | _ => s.celOpcode (s.fld Reg.MEM_CEL_PCTRL 31 24) ++ (if noData then [] else s.celBuf (len + 1))

/-- A write of 1 to `MEM_CEL_PGO`, after its commit (R90): false where it receives an error response. -/
def celGo (s : State) : State × Bool :=
  let paddr := s.fld Reg.MEM_CEL_PADDR 28 0
  let w := s.reg Reg.MEM_CEL_PCTRL
  let op := bits w 2 0
  let len := bits w 15 8
  if s.mem.celRun.isSome then (s, false)
  else if !s.celRangeOk op paddr len (bit w 17) then ((s.celResult 6).raise Kind.celRange (word paddr), true)
  else if op ≠ 4 ∧ s.crateInUse (celRange op paddr len) then ((s.celResult 5).raise Kind.celInUse (word paddr), true)
  else
    let s := s.celResult 1
    let s := s.verInvalidate (if op = 4 then none else some (celRange op paddr len))
    let s := (s.emit (.flash (s.celOpcode (s.fld Reg.MEM_CEL_OPCODES 7 0)))).emit (.flash (s.celSend op paddr len (bit w 17)))
    let run : CelRun :=
      { op := op, addr := paddr, len := len, data := s.celBuf (len + 1), verify := bit w 16,
        pollAt := s.tick + s.fld Reg.MEM_CEL_POLL 15 8 * 100,
        timeoutAt := s.tick + s.fld Reg.MEM_CEL_POLL 31 20 * 100000 }
    (s.modMem fun m => { m with celRun := some run }, true)

/-- What the flash holds once an operation has ended (R89); a raw command's effect on the content is not known to the
interface and none is modelled. -/
def celApply (m : Mem) (r : CelRun) : Mem :=
  match r.op with
  | 1 => m.programCellar r.addr r.data
  | 2 => m.eraseCellar r.addr 0x1000
  | 3 => m.eraseCellar r.addr 0x10000
  | _ => m

/-- The read-back of R90 step 4. -/
def celVerify (m : Mem) (r : CelRun) : Bool :=
  match r.op with
  | 1 => !r.verify || decide (m.cellarBytes r.addr r.data.length = r.data)
  | _ => true

/-- Free bytes are stored over a Cellar range whose content is undefined (R165). -/
def celScramble (s : State) (a : Nat) : Nat → State
  | 0 => s
  | k + 1 =>
    let (f, s) := s.drawFree
    celScramble (s.modMem fun m => m.setCellarByte (a + k) (Config.freeByte f)) a k

/-- The range of a Cellar operation that is cut off holds undefined bytes (R165). -/
def celCut (s : State) : State :=
  match s.mem.celRun with
  | none => s
  | some r =>
    let (a, n) := celRange r.op r.addr r.len
    (s.celScramble a n).modMem fun m => { m with celRun := none }

/-- A status poll returns a byte (R90 step 3): busy, or the operation completes. -/
def celPoll (s : State) (status : Byte) : State :=
  match s.mem.celRun with
  | none => s
  | some r =>
    let s := s.emit (.flash (s.celOpcode (s.fld Reg.MEM_CEL_POLL 7 0)))
    if status.toNat.testBit (s.fld Reg.MEM_CEL_POLL 19 16) then
      s.modMem fun m => { m with celRun := some { r with pollAt := s.tick + s.fld Reg.MEM_CEL_POLL 15 8 * 100 } }
    else
      let s := s.modMem fun m => { celApply m r with celRun := none }
      if celVerify s.mem r then (s.celResult 2).commit
      else ((s.celResult 4).commit).raise Kind.celVerify (word r.addr)

/-- The poll timeout (R90): what the range holds then is not defined. -/
def celTimeout (s : State) : State :=
  match s.mem.celRun with
  | none => s
  | some r => ((s.celCut.celResult 3).commit).raise Kind.celTimeout (word r.addr)

/-! ### The Loft -/

/-- The region of a Loft offset that the owner may write, as its start and its size (R92). -/
def ownerRegion (o : Nat) : Option (Nat × Nat) :=
  if o < 0x4000 then some (0, 0x4000)
  else if o < 0x8000 then some (o / 0x1000 * 0x1000, 0x1000)
  else if 0x9000 ≤ o ∧ o < 0xD000 then some (o / 0x1000 * 0x1000, 0x1000)
  else if 0x16000 ≤ o ∧ o < 0x40000 then some (0x16000, 0x2A000)
  else none

/-- The range check of R93. -/
def stagedRangeOk (src dst len : Nat) : Bool :=
  decide (src % 64 = 0 ∧ dst % 64 = 0 ∧ len % 64 = 0 ∧ 64 ≤ len ∧ len ≤ 16384) &&
    match ownerRegion dst with
    | some (b, n) => decide (dst + len ≤ b + n)
    | none => false

/-- The energy of a staged write of `n` bytes, in microjoules (R137). -/
def stagedEnergy (n : Nat) : Nat := 200 + 12 * (n / 64)

/-- The reservation of a staged write (R123, R137). -/
def stagedHolder : StagedFor → ResFor
  | .owner => .staged 4 0
  | .key i q t _ _ => .staged 9 (16 + (q.toNat * 64 + t.toNat) * 9 + i.val)
  | .map h => .staged (22 + h.val) 2
  | .fires h => .staged (22 + h.val) 3
  | .ckpt _ => .staged 13 4

/-- A staged write of one requester has been accepted and has not switched. -/
def stagedBusy (s : State) (p : StagedFor → Bool) : Bool := s.mem.staged.any fun w => p w.who

/-- A staged write is accepted: its bytes are in the internal buffer (R94). -/
def stage (s : State) (who : StagedFor) (offset : Nat) (data : List Byte) : State :=
  s.modMem fun m => { m with staged := m.staged ++ [⟨who, offset, data⟩] }

/-- A staged write with its reservation: false where the Pantry refuses it (R137). -/
def stageReserved (s : State) (who : StagedFor) (offset : Nat) (data : List Byte) : State × Bool :=
  let e := stagedEnergy data.length
  if s.wouldGrant false e then ((s.grant (stagedHolder who) e).stage who offset data, true) else (s.refuse none, false)

/-- `RESULT` of `MEM_LFT_STAT`, with `LDONE` or `LFAIL` where it gives one (R101). -/
def lftResult (s : State) (r : Nat) : State :=
  let s := s.setFld Reg.MEM_LFT_STAT 7 4 r
  if r = 2 then s.setFlag Reg.MEM_LFT_STAT 0 else if 3 ≤ r then s.setFlag Reg.MEM_LFT_STAT 1 else s

/-- The owner's staged write is BUSY. -/
def ownerStaged (s : State) : Bool := s.stagedBusy fun w => match w with | .owner => true | _ => false

/-- A write of 1 to `MEM_LFT_GO`, after its commit, when no owner staged write is BUSY (R93). -/
def lftGo (s : State) (env : MemEnv) : State :=
  let src := (s.reg Reg.MEM_LFT_SSRC).toNat
  let dst := s.fld Reg.MEM_LFT_SDST 17 0
  let len := s.fld Reg.MEM_LFT_SLEN 14 0
  if !stagedRangeOk src dst len then s.lftResult 3
  else if !(decide (larderBase ≤ src ∧ src + len ≤ larderBase + 0x400000) && !s.isolated 2) then s.lftResult 4
  else
    match s.badWords env src (len / 8) with
    | [] =>
      let data := (List.range (len / 8)).flatMap fun k =>
        bytesLE 8 ((s.mem.word64 (larderIdx src + k)).getD 0).toNat
      let (s, ok) := s.stageReserved .owner dst data
      if ok then s.lftResult 1 else s.lftResult 5
    | l => (s.lftResult 4).noteReads l

/-- The share of the Loft's endurance consumed, in permille (R97). -/
def wearPermille (s : State) : Nat := min 1000 (s.mem.wear / 4000000)

/-- The map switches to a staged write's content (R94, R97): its bytes, the wear, and the debit of its reservation. -/
def lftSwitch (s : State) (w : Staged) : State :=
  let was := s.wearPermille
  let s := s.modMem fun m =>
    let m := m.setLoftBytes w.offset w.data
    { m with staged := m.staged.drop 1, wear := m.wear + w.data.length / 64 }
  let s := (s.setReg Reg.MEM_LFT_WEAR (word s.wearPermille)).debitAll (stagedHolder w.who)
  if was < 1000 ∧ s.wearPermille = 1000 then s.raise Kind.lftWorn 0 else s

/-- A staged write fails after its retries (R94): the old content stays. -/
def lftFail (s : State) (w : Staged) : State :=
  let s := (s.modMem fun m => { m with staged := m.staged.drop 1 }).debitAll (stagedHolder w.who)
  s.raise Kind.lftWriteFail (word w.offset)

/-! ### Scrubbing -/

/-- The index in its bank of the next word that a bank's scrubber visits (R81). -/
def scrubAt (s : State) (b : Nat) : Nat := Tab.get (fun _ => 0) s.mem.scrub b

/-- A bank's scrubber visits one word: a void word is skipped, a corrected one counted, an uncorrectable one voided (R81). -/
def scrubBank (env : MemEnv) (s : State) (b : Nat) : State :=
  let i := s.scrubAt b
  let a := larderBase + 8 * (32768 * b + i)
  let s := s.modMem fun m => { m with scrub := Tab.set (fun _ => 0) m.scrub b ((i + 1) % 32768) }
  let s := if b = 0 ∧ i = 32767 then s.setReg Reg.MEM_LRD_SCRUB (s.reg Reg.MEM_LRD_SCRUB + 1) else s
  match s.mem.word64 (32768 * b + i) with
  | none => s
  | some _ =>
    if hasUe env a then s.noteRead (.uncorr a)
    else if hasCe env a then s.noteCorrected ⟨[(a, .corrected)], false⟩
    else s

/-- Every bank's scrubber visits one word (R81). -/
def scrub (s : State) (env : MemEnv) : State := (List.range 16).foldl (scrubBank env) s

end State
end Sys2Proof.Machine
end

