-- ==== Sys2Proof/Machine/Calendar.lean ====
section
/-! DEFINITION. The calendar, the shift table, the counters and their checkpoints (17_dates_codes R419-R423, R428-R434). -/

namespace Sys2Proof.Machine
namespace State

/-! ### The calendar -/

/-- A second boundary (R420, R422): midnight advances the day; after the last day the calendar clears `SET` and stops. -/
def secondBoundary (s : State) : State :=
  let c := s.cal
  if c.isSet then
    if c.second + 1 < 86400 then (s.modCal fun c => { c with second := c.second + 1 }).commit
    else if c.day < lastDayNumber then
      ((s.modCal fun c => { c with second := 0, day := c.day + 1 }).setFlag Reg.CAL_EVT 0).commit
    else (s.modCal fun c => { c with isSet := false, day := 0, second := 0 }).commit
  else s

/-- The calendar is set from `CAL_SET_DAY` and `CAL_SET_TIME` at the GO commit (R421). -/
def calSet (s : State) : State :=
  let d := s.fld Reg.CAL_SET_DAY 16 0
  let t := s.fld Reg.CAL_SET_TIME 16 0
  s.modCal fun c => { c with day := d, second := t, isSet := true }

/-- The values to be taken at a GO commit are legal (R421). -/
def calSetOk (s : State) : Bool := decide (s.fld Reg.CAL_SET_DAY 16 0 ≤ lastDayNumber) && decide (s.fld Reg.CAL_SET_TIME 16 0 < 86400)

/-! ### The shift table -/

/-- The shift table (R428, R441). -/
def shiftTable (s : State) : List ShiftEntry :=
  (List.range 8).map fun k =>
    let a := s.reg (Reg.CAL_SHIFT_A k)
    ⟨bit a 31, bits a 10 0, bits a 22 16, bytesLE 4 (s.reg (Reg.CAL_SHIFT_B k)).toNat⟩

/-- The shift code at a latch: empty where no entry is selected or the calendar is not set (R428). -/
def shiftCode (s : State) : List Byte :=
  if s.cal.isSet then
    match selectShift s.shiftTable s.cal.day s.cal.second with
    | some e => e.code
    | none => []
  else []

/-! ### Counters -/

/-- Fields of counter `k` (R441). -/
def cntEn (s : State) (k : Nat) : Bool := s.rbit (Reg.CAL_CNT_CFG k) 0
def cntRoll (s : State) (k : Nat) : Bool := s.rbit (Reg.CAL_CNT_CFG k) 1
def cntDayReset (s : State) (k : Nat) : Bool := s.rbit (Reg.CAL_CNT_CFG k) 2
def cntStep (s : State) (k : Nat) : Int := signed 16 (s.fld (Reg.CAL_CNT_CFG k) 31 16)
def cntStart (s : State) (k : Nat) : Nat := (s.reg (Reg.CAL_CNT_START k)).toNat
def cntEnd (s : State) (k : Nat) : Nat := (s.reg (Reg.CAL_CNT_END k)).toNat
def cntVal (s : State) (k : Nat) : Nat := (s.reg (Reg.CAL_CNT_VAL k)).toNat

/-- `LAST_DAY` of a counter (R429). -/
def cntLastDay (s : State) (k : Nat) : Option Nat :=
  if s.rbit (Reg.CAL_CNT_LASTDAY k) 31 then none else some (s.fld (Reg.CAL_CNT_LASTDAY k) 16 0)

/-- A counter's production day (R430); none while `SET` is 0, and where the day would lie before day 0. -/
def cntDay (s : State) (k : Nat) : Option Nat :=
  if s.cal.isSet then productionDay s.cal.day s.cal.second (s.fld (Reg.CAL_CNT_DAYSTART k) 10 0) else none

/-- The counter resets to `START` at this production day (R430). -/
def cntResets (s : State) (k : Nat) : Bool :=
  s.cntDayReset k && (s.cntDay k).isSome && decide (s.cntDay k ≠ s.cntLastDay k)

/-- The view of a counter at a latch (R430). -/
def cntView (s : State) (k : Nat) : Word := if s.cntResets k then word (s.cntStart k) else s.reg (Reg.CAL_CNT_VAL k)

/-- `LAST_DAY` as a register word (R432, R441). -/
def lastDayWord : Option Nat → Word
  | some d => word d
  | none => 0x80000000

/-- A counter steps (R429, R430). -/
def stepCounter (s : State) (k : Nat) : State :=
  let v := if s.cntResets k then s.cntStart k else s.cntVal k
  let (v, beyond) := counterNext (s.cntStart k) (s.cntEnd k) (s.cntStep k) (s.cntRoll k) v
  let day := s.cntDay k
  let s := s.setReg (Reg.CAL_CNT_VAL k) (word v)
  let s := if day.isSome then s.setReg (Reg.CAL_CNT_LASTDAY k) (lastDayWord day) else s
  (if beyond then s.setFlag Reg.CAL_EVT 1 else s).commit

/-- The counters that a granted product of lane n steps (R430). -/
def stepCounters (s : State) (n : Lane) : State :=
  (List.range 16).foldl (fun (s : State) (k : Nat) =>
    if s.cntEn k && s.rbit (Reg.CAL_CNT_CFG k) (4 + n.val) then s.stepCounter k else s) s

/-- `VAL` and `LAST_DAY` of every counter, in the order of R432. -/
def cntWords (s : State) : List Word :=
  (List.range 16).flatMap fun k => [s.reg (Reg.CAL_CNT_VAL k), s.reg (Reg.CAL_CNT_LASTDAY k)]

/-- The legality of a counter's configuration while `EN` is 1 (R429). -/
def cntOk (cfg start end_ : Word) : Bool :=
  let step := signed 16 (bits cfg 31 16)
  decide (step ≠ 0) &&
    (!bit cfg 0 || !((decide (step > 0) && decide (start.toNat > end_.toNat)) || (decide (step < 0) && decide (start.toNat < end_.toNat))))

/-! ### Checkpoints -/

/-- The checkpoint region of the Loft (R92, R432). -/
def ckptOffset : Nat := 0x15000

/-- The checkpoint region is valid (R432, R434). -/
def ckptOk (b : List Byte) : Bool :=
  decide (u32 b 0 = 0x4B434C47) && decide (u16 b 4 = 1) && decide (u32 b 144 = crc32c (b.take 144))

/-- `SEQ` of the checkpoint that the region holds; 0 where it holds none. -/
def ckptSeq (s : State) : Nat :=
  let b := s.mem.loftBytes ckptOffset 192
  if ckptOk b then u32 b 8 else 0

/-- The bytes of a checkpoint (R432). -/
def ckptBytes (s : State) (clean : Bool) : List Byte :=
  let l := bytesLE 4 0x4B434C47 ++ bytesLE 2 1 ++ [BitVec.ofNat 8 (b2n clean), 0] ++ bytesLE 4 (s.ckptSeq + 1) ++ bytesLE 4 0 ++
    s.cntWords.flatMap fun w => bytesLE 4 w.toNat
  l ++ bytesLE 4 (crc32c l) ++ List.replicate 44 0

/-- A checkpoint is requested at its period (R433): nothing where nothing has changed, `CKPT_FAIL` on a refusal. -/
def ckptRequest (s : State) : State :=
  if s.unitInReset 13 || decide (s.cal.ckpt = s.cntWords) then s
  else if s.stagedBusy (fun w => match w with | .ckpt _ => true | _ => false) then s
  else
    let (t, ok) := s.stageReserved (.ckpt false) ckptOffset (s.ckptBytes false)
    if ok then t else (t.setFlag Reg.CAL_EVT 2).commit

/-- The final checkpoint of HOLD, which needs no reservation (R144, R433). -/
def ckptFinal (s : State) : State := s.stage (.ckpt true) ckptOffset (s.ckptBytes true)

/-- A checkpoint has switched (R433): its number, and the values it holds. -/
def ckptSwitched (s : State) (w : Staged) : State :=
  (s.setReg Reg.CAL_CKPT_STAT (word (u32 w.data 8))).modCal fun c => { c with ckpt := wordsOf 32 (w.data.drop 16) }

/-- One counter resumes (R434), with its message where it gives one. -/
def resumeCounter (b : List Byte) (s : State) (k : Nat) : State :=
  let ok := ckptOk b
  let v := u32 b (16 + 8 * k)
  let clean := decide (u8 b 6 = 1)
  let val :=
    if !ok then s.cntStart k
    else if clean then v
    else counterSteps (s.cntStart k) (s.cntEnd k) (s.cntStep k) (s.cntRoll k) (s.reg (Reg.CAL_CNT_SKIP k)).toNat v
  let beyond := ok && !clean && counterEnds (s.cntStart k) (s.cntEnd k) (s.cntStep k) (s.cntRoll k) (s.reg (Reg.CAL_CNT_SKIP k)).toNat v
  let s := if beyond then s.setFlag Reg.CAL_EVT 1 else s
  let day := if ok then word (u32 b (20 + 8 * k)) &&& 0x8001FFFF else 0x80000000
  let s := (s.setReg (Reg.CAL_CNT_VAL k) (word val)).setReg (Reg.CAL_CNT_LASTDAY k) day
  if s.cntEn k && !(ok && clean) then (s.setFlag Reg.CAL_EVT 3).raise Kind.calCheckpoint (word k) else s

/-- Every counter resumes during bring-up (R434). -/
def resumeCounters (s : State) : State :=
  let b := s.mem.loftBytes ckptOffset 192
  let s := (List.range 16).foldl (resumeCounter b) s
  s.modCal fun c => { c with ckpt := if ckptOk b then wordsOf 32 (b.drop 16) else [] }

end State
end Sys2Proof.Machine
end

