-- ==== Sys2Proof/Machine/DataMatrix.lean ====
section
/-! DEFINITION. Data Matrix ECC 200: encodation, Reed-Solomon and module placement (17_dates_codes R436-R439). -/

namespace Sys2Proof.Machine

/-- One character of a message: a byte, or FNC1 (`none`). -/
abbrev DmChar := Option Nat

/-- An ASCII digit. -/
def dmDigit (c : DmChar) : Option Nat :=
  match c with
  | some b => if 48 ≤ b ∧ b ≤ 57 then some (b - 48) else none
  | none => none

/-- The codewords of a message, without the leading FNC1 and the padding (R436). The fuel is the message length. -/
def dmEncode : Nat → List DmChar → List Nat
  | 0, _ => []
  | _, [] => []
  | f + 1, [c] =>
    match c with
    | none => 232 :: dmEncode f []
    | some b => if b ≤ 127 then [b + 1] else [235, b - 127]
  | f + 1, c :: d :: rest =>
    match dmDigit c, dmDigit d with
    | some x, some y => (130 + 10 * x + y) :: dmEncode f rest
    | _, _ =>
      match c with
      | none => 232 :: dmEncode f (d :: rest)
      | some b => if b ≤ 127 then (b + 1) :: dmEncode f (d :: rest) else 235 :: (b - 127) :: dmEncode f (d :: rest)

/-- Data capacity and check codewords of the supported sizes (R436). -/
def dmSizes : List (Nat × Nat × Nat) :=
  [(10, 3, 5), (12, 5, 7), (14, 8, 10), (16, 12, 12), (18, 18, 14), (20, 22, 18), (22, 30, 20), (24, 36, 24), (26, 44, 28)]

/-- The symbol a message of `n` codewords takes: the smallest that fits, or the one asked for (R436). -/
def dmSymbol (size n : Nat) : Option (Nat × Nat × Nat) :=
  if size = 0 then dmSizes.find? (fun e => decide (n ≤ e.2.1))
  else (dmSizes.find? (fun e => e.1 == size)).filter (fun e => decide (n ≤ e.2.1))

/-- The padding of R436 from codeword `n` on; the fuel is the number of codewords still to come. -/
def dmPad : Nat → Nat → List Nat
  | 0, _ => []
  | f + 1, n =>
    let r := ((149 * (n + 1)) % 253) + 1
    let v := 129 + r
    (if v > 254 then v - 254 else v) :: dmPad f (n + 1)

/-- The data codewords filled up to the capacity. -/
def dmFill (cap : Nat) (cw : List Nat) : List Nat :=
  let n := cw.length
  if n < cap then cw ++ [129] ++ dmPad (cap - n - 1) (n + 1) else cw

/-- Multiplication by 2 in GF(256) with the polynomial 0x12D (R437). -/
def gfDouble (x : Nat) : Nat := if 2 * x ≥ 256 then (2 * x) ^^^ 0x12D else 2 * x

/-- `alog` of R437. -/
def gfAlog : Nat → Nat
  | 0 => 1
  | i + 1 => gfDouble (gfAlog i)

/-- `gmul` of R437, as shift-and-add over the bits of `b` from the least significant. -/
def gfMulBits : Nat → Nat → Nat → Nat
  | 0, _, _ => 0
  | k + 1, a, b => (if b % 2 = 1 then a else 0) ^^^ gfMulBits k (gfDouble a) (b / 2)

/-- Multiplication in GF(256) (R437). -/
def gfMul (a b : Nat) : Nat := gfMulBits 8 a b

/-- One round of the generator polynomial: `c[j] = c[j-1] xor gmul(c[j], a)`, from the coefficient 0 up; `prev` is the
coefficient below. -/
def dmGenRound (a : Nat) : Nat → List Nat → List Nat
  | _, [] => []
  | prev, c :: cs => (prev ^^^ gfMul c a) :: dmGenRound a c cs

/-- The generator polynomial after `i` rounds of R437, coefficients 0 to `k`. -/
def dmGen (k : Nat) : Nat → List Nat
  | 0 => 1 :: List.replicate k 0
  | i + 1 => dmGenRound (gfAlog (i + 1)) 0 (dmGen k i)

/-- One data codeword through the check register `r[0 .. k-1]` (R437). -/
def dmCheckStep (c r : List Nat) (d : Nat) : List Nat :=
  let f := d ^^^ r.getLastD 0
  List.zipWith (fun a b => a ^^^ b) (0 :: r.dropLast) (c.map (gfMul f))

/-- The check codewords in the order they follow the data (R437). -/
def dmCheck (k : Nat) (data : List Nat) : List Nat :=
  (data.foldl (dmCheckStep ((dmGen k k).take k)) (List.replicate k 0)).reverse

/-- Modules placed so far: key `r * s + c`, with codeword number and bit. -/
abbrev DmGrid := List (Nat × Nat × Nat)

/-- What stands at a module, if it is placed. -/
def DmGrid.at (g : DmGrid) (key : Nat) : Option (Nat × Nat) := (g.find? (fun e => e.1 == key)).map (·.2)

/-- `module` of R438. -/
def dmModule (s : Nat) (t : Nat) (g : DmGrid) (p : Int × Int × Nat) : DmGrid :=
  let (r, c, b) := p
  let w : Int := 4 - (((s + 4) % 8 : Nat) : Int)
  let (r, c) := if r < 0 then (r + s, c + w) else (r, c)
  let (r, c) := if c < 0 then (r + w, c + s) else (r, c)
  ((r * s + c).toNat, t, b) :: g

/-- `utah` of R438. -/
def dmUtah (s : Nat) (r c : Int) (t : Nat) (g : DmGrid) : DmGrid :=
  [(r - 2, c - 2, 1), (r - 2, c - 1, 2), (r - 1, c - 2, 3), (r - 1, c - 1, 4), (r - 1, c, 5), (r, c - 2, 6),
   (r, c - 1, 7), (r, c, 8)].foldl (dmModule s t) g

/-- The four corner cases of R438. -/
def dmCorner (s k t : Nat) (g : DmGrid) : DmGrid :=
  let n : Int := s
  let ps : List (Int × Int × Nat) :=
    match k with
    | 1 => [(n - 1, 0, 1), (n - 1, 1, 2), (n - 1, 2, 3), (0, n - 2, 4), (0, n - 1, 5), (1, n - 1, 6), (2, n - 1, 7), (3, n - 1, 8)]
    | 2 => [(n - 3, 0, 1), (n - 2, 0, 2), (n - 1, 0, 3), (0, n - 4, 4), (0, n - 3, 5), (0, n - 2, 6), (0, n - 1, 7), (1, n - 1, 8)]
    | 3 => [(n - 3, 0, 1), (n - 2, 0, 2), (n - 1, 0, 3), (0, n - 2, 4), (0, n - 1, 5), (1, n - 1, 6), (2, n - 1, 7), (3, n - 1, 8)]
    | _ => [(n - 1, 0, 1), (n - 1, n - 1, 2), (0, n - 3, 3), (0, n - 2, 4), (0, n - 1, 5), (1, n - 3, 6), (1, n - 2, 7), (1, n - 1, 8)]
  ps.foldl (dmModule s t) g

/-- The module (r, c) lies in the matrix and is empty. -/
def dmFree (s : Nat) (r c : Int) (g : DmGrid) : Bool := (DmGrid.at g (r * s + c).toNat).isNone

/-- The upward sweep of R438, with fuel. -/
def dmUp (s : Nat) : Nat → Int → Int → Nat → DmGrid → Int × Int × Nat × DmGrid
  | 0, r, c, t, g => (r, c, t, g)
  | f + 1, r, c, t, g =>
    let (t, g) := if r < s ∧ c ≥ 0 ∧ dmFree s r c g then (t + 1, dmUtah s r c t g) else (t, g)
    let r := r - 2
    let c := c + 2
    if r < 0 ∨ c ≥ s then (r, c, t, g) else dmUp s f r c t g

/-- The downward sweep of R438, with fuel. -/
def dmDown (s : Nat) : Nat → Int → Int → Nat → DmGrid → Int × Int × Nat × DmGrid
  | 0, r, c, t, g => (r, c, t, g)
  | f + 1, r, c, t, g =>
    let (t, g) := if r ≥ 0 ∧ c < s ∧ dmFree s r c g then (t + 1, dmUtah s r c t g) else (t, g)
    let r := r + 2
    let c := c - 2
    if r ≥ s ∨ c < 0 then (r, c, t, g) else dmDown s f r c t g

/-- The placement loop of R438, with fuel. -/
def dmPlace (s : Nat) : Nat → Int → Int → Nat → DmGrid → DmGrid
  | 0, _, _, _, g => g
  | f + 1, r, c, t, g =>
    let (t, g) := if r = s ∧ c = 0 then (t + 1, dmCorner s 1 t g) else (t, g)
    let (t, g) := if r = (s : Int) - 2 ∧ c = 0 ∧ s % 4 ≠ 0 then (t + 1, dmCorner s 2 t g) else (t, g)
    let (t, g) := if r = (s : Int) - 2 ∧ c = 0 ∧ s % 8 = 4 then (t + 1, dmCorner s 3 t g) else (t, g)
    let (t, g) := if r = (s : Int) + 4 ∧ c = 2 ∧ s % 8 = 0 then (t + 1, dmCorner s 4 t g) else (t, g)
    let (r, c, t, g) := dmUp s (s + 2) r c t g
    let (r, c, t, g) := dmDown s (s + 2) (r + 1) (c + 3) t g
    let r := r + 3
    let c := c + 1
    if r ≥ s ∧ c ≥ s then g else dmPlace s f r c t g

/-- The placement of an `s` by `s` mapping matrix (R438). -/
def dmGrid (s : Nat) : DmGrid := dmPlace s (2 * s) 4 0 1 []

/-- The mapping module (r, c) is dark, for the codewords `cw` (R438). -/
def dmMapDark (s : Nat) (g : DmGrid) (cw : List Nat) (r c : Nat) : Bool :=
  match DmGrid.at g (r * s + c) with
  | some (t, b) => (cw.getD (t - 1) 0).testBit (8 - b)
  | none => (r = s - 1 ∧ c = s - 1) ∨ (r = s - 2 ∧ c = s - 2)

/-- The symbol module (R, C) of an `n` by `n` symbol is dark: the finder pattern, or the mapping module within (R438). -/
def dmDark (n : Nat) (g : DmGrid) (cw : List Nat) (r c : Nat) : Bool :=
  if c = 0 ∨ r = n - 1 then true
  else if r = 0 then c % 2 = 0
  else if c = n - 1 then r % 2 = 1
  else dmMapDark (n - 2) g cw (r - 1) (c - 1)

/-- A Data Matrix symbol: its size and its codewords, data then check. -/
structure DmSymbol where
  size : Nat
  words : List Nat
  deriving DecidableEq, Repr

/-- The symbol of a message; `none` is the capacity failure (R435, R436). -/
def dmBuild (gs1 : Bool) (size : Nat) (msg : List DmChar) : Option DmSymbol :=
  if msg.length > 128 then none
  else
    let cw := (if gs1 then [232] else []) ++ dmEncode (msg.length + 1) msg
    match dmSymbol size cw.length with
    | none => none
    | some (n, cap, k) =>
      let data := dmFill cap cw
      some ⟨n, data ++ dmCheck k data⟩

/-- The inked content dots of a symbol (R439). -/
def dmDots (sym : DmSymbol) (modW modH : Nat) : List (Nat × Nat) :=
  let g := dmGrid (sym.size - 2)
  (List.range sym.size).flatMap fun r =>
    (List.range sym.size).flatMap fun c =>
      if dmDark sym.size g sym.words r c then
        (List.range modW).flatMap fun i => (List.range modH).map fun j => (modW * c + i, modH * r + j)
      else []

end Sys2Proof.Machine
end

