-- ==== Sys2Proof/Machine/Layout.lean ====
section
/-! DEFINITION. What a render draws: mark sources, layouts, fields, glyphs and boxes, from latched values to the dots of
a mark and the gathers it makes (16_compositor R398, R403-R410, R413; 17_dates_codes R427, R428, R431, R435, R440). -/

namespace Sys2Proof.Machine

/-- The conditions a render reports (R414, R440). -/
structure Conds where
  glyph : Bool
  field : Bool
  notSet : Bool
  dateRange : Bool
  dmCap : Bool
  deriving DecidableEq, Repr

namespace Conds
def none_ : Conds := ⟨false, false, false, false, false⟩
def glyph_ : Conds := ⟨true, false, false, false, false⟩
def field_ : Conds := ⟨false, true, false, false, false⟩
def notSet_ : Conds := ⟨false, false, true, false, false⟩
def dateRange_ : Conds := ⟨false, false, false, true, false⟩
def dmCap_ : Conds := ⟨false, false, false, false, true⟩
def or (a b : Conds) : Conds :=
  ⟨a.glyph || b.glyph, a.field || b.field, a.notSet || b.notSet, a.dateRange || b.dateRange, a.dmCap || b.dmCap⟩
end Conds

/-- What a field gives: its string, or none where it draws nothing, and its conditions. -/
structure FieldVal where
  text : Option (List Nat)
  conds : Conds
  deriving DecidableEq, Repr

/-- A field that draws nothing for a condition. -/
def FieldVal.nothing (c : Conds) : FieldVal := ⟨none, c⟩

/-- A string limited to `LEN_MAX` characters (R406). -/
def FieldVal.limited (t : List Nat) (lenMax : Nat) (c : Conds) : FieldVal :=
  ⟨some (t.take lenMax), if t.length > lenMax then c.or Conds.field_ else c⟩

/-- Characters up to the first 0x00, at most `k`; none where the bytes end first. -/
def zString : Nat → List Byte → Option (List Nat)
  | 0, _ => some []
  | _ + 1, [] => none
  | k + 1, b :: rest => if b = 0 then some [] else (zString k rest).map (b.toNat :: ·)

/-- Characters up to the first 0x00. -/
def upToZero : List Byte → List Nat
  | [] => []
  | b :: rest => if b = 0 then [] else b.toNat :: upToZero rest

/-- The bytes of words, lowest first. -/
def wordBytes (l : List Word) : List Byte := l.flatMap fun w => bytesLE 4 w.toNat

/-- A CONST field (R406). -/
def constField (tab e : List Byte) : FieldVal :=
  if (firstSet e 4 12).isSome || !decide (1 ≤ u8 e 1 ∧ u8 e 1 ≤ 64) then .nothing Conds.field_
  else match zString (u8 e 1) (tab.drop (u16 e 2)) with
    | some t => ⟨some t, Conds.none_⟩
    | none => .nothing Conds.field_

/-- A TEXT field: the latched text register, up to its first 0x00 (R406). -/
def textField (x : LatchSet) (e : List Byte) : FieldVal :=
  if (firstSet e 4 12).isSome || !decide (1 ≤ u8 e 1 ∧ u8 e 1 ≤ 32) || decide (u16 e 2 > 7) then .nothing Conds.field_
  else .limited (upToZero (wordBytes ((x.text.drop (8 * u16 e 2)).take 8))) (u8 e 1) Conds.none_

/-- The arguments of a DATE field: its entry and the latched values (R425, R427). -/
def dateArgs (x : LatchSet) (e : List Byte) : DateArgs :=
  { useOvr := (u8 e 10).testBit 1, ovrValid := bit x.dateOvr 31, ovrDay := bits x.dateOvr 16 0, set := x.calSet,
    day := x.day, second := x.second, dayStart := u16 e 8, addMonths := signed 16 (u16 e 6),
    addDays := signed 16 (u16 e 4), useShelf := (u8 e 10).testBit 0, shelf := signed 16 (bits x.shelf 15 0) }

/-- The month-name table of a DATE field: none where `NAMES_EN` = 0; `some none` where it lies outside the table (R427). -/
def dateNames (tab e : List Byte) : Option (Option (List Nat)) :=
  if (u8 e 10).testBit 2 then
    let t := (tab.drop (u16 e 12)).take 36
    some (if t.length = 36 then some (t.map (·.toNat)) else none)
  else none

/-- The parameters of a DATE field are legal (R427). -/
def dateOk (e : List Byte) : Bool :=
  decide (1 ≤ u8 e 1 ∧ u8 e 1 ≤ 64 ∧ u8 e 10 < 8 ∧ u8 e 11 = 0 ∧ u16 e 14 = 0 ∧ u16 e 8 ≤ 1439) &&
    decide (-2400 ≤ signed 16 (u16 e 6) ∧ signed 16 (u16 e 6) ≤ 2400)

/-- A DATE field (R427). -/
def dateField (x : LatchSet) (tab e : List Byte) : FieldVal :=
  match dateOk e, zString 64 (tab.drop (u16 e 2)), dateNames tab e with
  | false, _, _ => .nothing Conds.field_
  | _, none, _ => .nothing Conds.field_
  | _, _, some none => .nothing Conds.field_
  | true, some fmt, names =>
    match resultDay (dateArgs x e) with
    | .error .notSet => .nothing Conds.notSet_
    | .error .dateRange => .nothing Conds.dateRange_
    | .ok n =>
      match dateFormat n x.second (names.bind id) fmt with
      | some t => .limited t (u8 e 1) Conds.none_
      | none => .nothing Conds.field_

/-- A SHIFT field: the latched code up to its first 0x00 (R428). -/
def shiftField (x : LatchSet) (e : List Byte) : FieldVal :=
  if (firstSet e 2 14).isSome || !decide (1 ≤ u8 e 1 ∧ u8 e 1 ≤ 64) then .nothing Conds.field_
  else if !x.calSet then .nothing Conds.notSet_
  else if x.shift.isEmpty then .nothing Conds.field_
  else .limited (upToZero x.shift) (u8 e 1) Conds.none_

/-- A COUNTER field: the latched view (R431). -/
def counterField (x : LatchSet) (e : List Byte) : FieldVal :=
  if u16 e 2 ≠ 0 ∨ (firstSet e 7 9).isSome ∨ ¬(1 ≤ u8 e 1 ∧ u8 e 1 ≤ 64) ∨ 16 ≤ u8 e 4 ∨ u8 e 5 = 0 ∨ 10 < u8 e 5 ∨
      2 < u8 e 6 then .nothing Conds.field_
  else
    let (t, cut) := counterString (x.counters.getD (u8 e 4) 0).toNat (u8 e 5) (u8 e 6)
    .limited t (u8 e 1) (if cut then Conds.field_ else Conds.none_)

/-- A field table (R406): its bytes, `NFIELDS`, and whether its header is legal. A missing table has no fields. -/
structure FieldTab where
  bytes : List Byte
  count : Nat
  legal : Bool
  deriving DecidableEq, Repr

/-- The field table of a FIELD section's bytes; one too short for its header counts as missing. -/
def fieldTab (b : List Byte) : FieldTab :=
  if b.length < 16 then ⟨[], 0, true⟩ else ⟨b, u16 b 0, decide (u16 b 0 ≤ 64) && (firstSet b 2 14).isNone⟩

/-- The entry of field `f`, or none where it is reserved. -/
def FieldTab.entry (t : FieldTab) (f : Nat) : Option (List Byte) :=
  let e := (t.bytes.drop (16 + 16 * f)).take 16
  if t.legal && decide (f < t.count) && decide (e.length = 16) then some e else none

/-- The string of field `f`; a MATRIX field has none (R406, R427, R428, R431). -/
def fieldString (x : LatchSet) (t : FieldTab) (f : Nat) : FieldVal :=
  match t.entry f with
  | none => .nothing Conds.field_
  | some e =>
    match u8 e 0 with
    | 0x00 => if (firstSet e 4 12).isSome then .nothing Conds.field_ else ⟨some [], Conds.none_⟩
    | 0x01 => constField t.bytes e
    | 0x02 => textField x e
    | 0x10 => dateField x t.bytes e
    | 0x11 => shiftField x e
    | 0x12 => counterField x e
    | _ => .nothing Conds.field_

/-- A composition list (R435): the message, or none where the symbol draws nothing. The fuel is the length of the list. -/
def compose (x : LatchSet) (t : FieldTab) (gs1 : Bool) : Nat → List Byte → Option (List DmChar) × Conds
  | 0, _ => (none, Conds.field_)
  | _ + 1, [] => (none, Conds.field_)
  | fuel + 1, b :: rest =>
    match b.toNat with
    | 0 => (some [], Conds.none_)
    | 1 =>
      match rest with
      | [] => (none, Conds.field_)
      | n :: more =>
        if 1 ≤ n.toNat ∧ n.toNat ≤ 64 ∧ n.toNat ≤ more.length then
          let (m, c) := compose x t gs1 fuel (more.drop n.toNat)
          (m.map ((more.take n.toNat).map (fun b => some b.toNat) ++ ·), c)
        else (none, Conds.field_)
    | 2 =>
      match rest with
      | [] => (none, Conds.field_)
      | f :: more =>
        let v := fieldString x t f.toNat
        let (m, c) := compose x t gs1 fuel more
        ((match v.text, m with
          | some s, some m => some (s.map some ++ m)
          | _, _ => none), v.conds.or c)
    | 3 =>
      let (m, c) := compose x t gs1 fuel rest
      (m.map ((if gs1 then none else some 0x1D) :: ·), c)
    | _ => (none, Conds.field_)

/-- The parameters of a MATRIX field are legal (R435). -/
def matrixOk (e : List Byte) : Bool :=
  decide (u8 e 0 = 0x13 ∧ u8 e 1 = 1 ∧ 1 ≤ u8 e 5 ∧ u8 e 5 ≤ 16 ∧ 1 ≤ u8 e 6 ∧ u8 e 6 ≤ 16 ∧ u8 e 7 < 2) &&
    (firstSet e 8 8).isNone && (decide (u8 e 4 = 0) || dmSizes.any (fun z => z.1 == u8 e 4))

/-- The inked content dots of a MATRIX field, and its conditions (R435, R436, R439). -/
def matrixDots (x : LatchSet) (t : FieldTab) (f : Nat) : List (Nat × Nat) × Conds :=
  match t.entry f with
  | none => ([], Conds.field_)
  | some e =>
    if matrixOk e then
      let gs1 := (u8 e 7).testBit 0
      let items := t.bytes.drop (u16 e 2)
      match compose x t gs1 (items.length + 1) items with
      | (none, c) => ([], c)
      | (some m, c) =>
        match dmBuild gs1 (u8 e 4) m with
        | none => ([], c.or Conds.dmCap_)
        | some sym => (dmDots sym (u8 e 5) (u8 e 6), c)
    else ([], Conds.field_)

/-! ### Layouts -/

/-- A box of a layout (R404). -/
structure Box where
  kind : Nat
  orient : Nat
  col0 : Nat
  row0 : Nat
  width : Nat
  height : Nat
  field : Nat
  font : Nat
  drop : Nat
  spacing : Nat
  align : Nat
  rsvd : Nat
  deriving DecidableEq, Repr

/-- A box from its 16 bytes. -/
def readBox (b : List Byte) : Box :=
  ⟨u8 b 0, u8 b 1, u16 b 2, u16 b 4, u16 b 6, u16 b 8, u8 b 10, u8 b 11, u8 b 12, u8 b 13, u8 b 14, u8 b 15⟩

/-- A box is legal on a mark of `columns` columns and `dots` rows (R404, R405); a box of `KIND` 0 draws nothing and its
place, drop code and alignment are not judged. -/
def Box.ok (x : Box) (columns dots nf : Nat) : Bool :=
  decide (x.kind ≤ 4 ∧ x.orient < 16 ∧ x.font < 16 ∧ x.rsvd = 0) &&
    (!decide (x.kind = 0 ∨ x.kind = 3) || decide (x.field = 0)) &&
    (decide (x.kind = 0) ||
      decide (1 ≤ x.width ∧ 1 ≤ x.height ∧ x.col0 + x.width ≤ columns ∧ x.row0 + x.height ≤ dots ∧ 1 ≤ x.drop ∧ x.drop ≤ 3 ∧
        x.align ≤ 2)) &&
    (!decide (x.kind = 1 ∨ x.kind = 4) || decide (x.field < nf))

/-- The boxes of a layout after its header. -/
def readBoxes : Nat → List Byte → List Box
  | 0, _ => []
  | k + 1, l => readBox l :: readBoxes k (l.drop 16)

/-- A layout (R404). -/
structure Layout where
  mirrorCols : Bool
  boxes : List Box
  deriving DecidableEq, Repr

/-- A layout from its bytes, or none where it is invalid (R405). -/
def readLayout (b : List Byte) (columns colBytes nf : Nat) : Option Layout :=
  let boxes := readBoxes (u16 b 2) (b.drop 16)
  if b.length < 16 ∨ u16 b 0 = 0 ∨ 1024 < u16 b 0 ∨ 4 * colBytes < u16 b 0 ∨ 64 < u16 b 2 ∨ 1 < u16 b 4 ∨
      (firstSet b 6 10).isSome ∨ b.length < 16 + 16 * u16 b 2 then none
  else if boxes.all fun x => x.ok columns (u16 b 0) nf then some ⟨decide (u16 b 4 = 1), boxes⟩
  else none

/-! ### Drawing -/

/-- The content area of a box (R409). -/
def Box.content (x : Box) : Nat × Nat := if x.orient % 2 = 0 then (x.width, x.height) else (x.height, x.width)

/-- A content dot mapped to a mark column and raster row, or none where it is clipped (R410). -/
def Box.map (x : Box) (columns : Nat) (mirrorCols : Bool) (d : Nat × Nat) : Option (Nat × Nat) :=
  let (cw, ch) := x.content
  if d.1 < cw ∧ d.2 < ch then
    let u := if x.orient.testBit 2 then cw - 1 - d.1 else d.1
    let v := if x.orient.testBit 3 then ch - 1 - d.2 else d.2
    let (px, py) :=
      match x.orient % 4 with
      | 0 => (u, v)
      | 1 => (x.width - 1 - v, u)
      | 2 => (x.width - 1 - u, x.height - 1 - v)
      | _ => (v, x.height - 1 - u)
    let col := x.col0 + px
    some (if mirrorCols then columns - 1 - col else col, x.row0 + py)
  else none

/-- The dots of a mark: drop codes by column × 1,024 + row; a dot no box inks has code 0. -/
abbrev Raster := Tab Nat

/-- The drop code at a column and row. -/
def Raster.at (r : Raster) (col row : Nat) : Nat := Tab.get (fun _ => 0) r (1024 * col + row)

/-- A dot is inked: the larger drop code wins (R410). -/
def Raster.ink (r : Raster) (col row drop : Nat) : Raster :=
  if Raster.at r col row < drop then Tab.set (fun _ => 0) r (1024 * col + row) drop else r

/-- The content dots of a box are drawn; a clipped dot gives `CMP.FIELD` (R410). -/
def drawDots (x : Box) (columns : Nat) (mirrorCols : Bool) (r : Raster) (c : Conds) (dots : List (Nat × Nat)) :
    Raster × Conds :=
  dots.foldl (fun a d =>
    match x.map columns mirrorCols d with
    | some (col, row) => (Raster.ink a.1 col row x.drop, a.2)
    | none => (a.1, a.2.or Conds.field_)) (r, c)

/-- A glyph as gathered: its width, height and column words (R408). -/
structure Glyph where
  gw : Nat
  gh : Nat
  words : List Word
  deriving DecidableEq, Repr

/-- The inked dots of a glyph whose first column lies at content column `u0` (R408, R409). -/
def Glyph.dots (g : Glyph) (u0 : Nat) : List (Nat × Nat) :=
  let nw := (g.gh + 31) / 32
  (List.range g.gw).flatMap fun x =>
    (List.range g.gh).filterMap fun y =>
      if bit (g.words.getD (nw * x + y / 32) 0) (y % 32) then some (u0 + x, y) else none

/-- The first content column of the text (R409). -/
def Box.start (x : Box) (glyphs : List Glyph) : Nat :=
  let cw := x.content.1
  let total := (glyphs.map (·.gw)).sum + x.spacing * (glyphs.length - 1)
  if total > cw then 0 else if x.align = 1 then (cw - total) / 2 else if x.align = 2 then cw - total else 0

/-- The content dots of a line of glyphs (R409). -/
def lineDots (spacing : Nat) : Nat → List Glyph → List (Nat × Nat)
  | _, [] => []
  | u0, g :: rest => g.dots u0 ++ lineDots spacing (u0 + g.gw + spacing) rest

/-- One gather of the render channel: the byte offsets of its table and the words it fetched (R413). -/
structure GatherRun where
  offs : List Nat
  words : List Word
  deriving DecidableEq, Repr

/-- A gather that received an error response: the failing read, the elements of its run from the failing one on, and the
runs that completed before it (R350, R413). -/
structure GatherFail where
  read : Read
  residue : Nat
  runs : List GatherRun
  deriving DecidableEq, Repr

/-- Words at byte offsets from the glyph base, read one after the other; a failure counts the elements that are left. -/
def gatherWords (s : State) (env : MemEnv) (base : Nat) : List Nat → Except (Read × Nat) (List Word)
  | [] => .ok []
  | o :: rest =>
    match (if base + o < 2 ^ 32 then readBulk s env (base + o) 4 else .error (base + o)) with
    | .ok v =>
      match gatherWords s env base rest with
      | .ok l => .ok (word v :: l)
      | .error e => .error e
    | e => .error (e, rest.length + 1)

/-- The failure of a gather of `total` elements, `left` of them not moved: the residue counts its own run only. -/
def gatherFail (total : Nat) (e : Read × Nat) (runs : List GatherRun) : GatherFail :=
  let i := total - e.2
  ⟨e.1, min total ((i / 2048 + 1) * 2048) - i, runs⟩

/-- A gather is split into runs of at most 2,048 elements (R413). -/
def splitRuns : Nat → List Nat → List Word → List GatherRun
  | 0, _, _ => []
  | fuel + 1, offs, ws =>
    if offs.isEmpty then [] else ⟨offs.take 2048, ws.take 2048⟩ :: splitRuns fuel (offs.drop 2048) (ws.drop 2048)

/-- The runs of one gather. -/
def runsOf (offs : List Nat) (ws : List Word) : List GatherRun := splitRuns (offs.length / 2048 + 1) offs ws

/-- The font-index word of code `c` of font `f` of lane `n` (R407). -/
def fontWord (s : State) (n : Lane) (f c : Nat) : Word := s.mem.table (0xC0000 + 0x4000 * n.val + 4 * (256 * f + c))

/-- The glyph record offsets of the codes that are present, in string order (R407, R408). -/
def glyphOffsets (s : State) (n : Lane) (f : Nat) (base : Option Nat) (codes : List Nat) : List Nat :=
  if base.isNone then []
  else codes.filterMap fun c =>
    let w := fontWord s n f c
    if bit w 31 && decide (bits w 30 20 = 0) then some (bits w 19 0) else none

/-- A glyph header is legal (R408). -/
def headerOk (w : Word) : Bool :=
  decide (bits w 31 16 = 0 ∧ 1 ≤ bits w 7 0 ∧ bits w 7 0 ≤ 64 ∧ 1 ≤ bits w 15 8 ∧ bits w 15 8 ≤ 128)

/-- Column words of a header. -/
def headerCols (w : Word) : Nat := bits w 7 0 * ((bits w 15 8 + 31) / 32)

/-- The glyphs of the gathered headers and column words. -/
def cutGlyphs : List Word → List Word → List Glyph
  | [], _ => []
  | h :: rest, ws => ⟨bits h 7 0, bits h 15 8, ws.take (headerCols h)⟩ :: cutGlyphs rest (ws.drop (headerCols h))

/-- What a box's text draws: its glyphs, the gathers made, and whether a code is missing (R408, R413). -/
def fetchGlyphs (s : State) (env : MemEnv) (n : Lane) (f : Nat) (base : Option Nat) (codes : List Nat) :
    Except GatherFail (List Glyph × List GatherRun × Bool) :=
  let b := base.getD 0
  let offs := glyphOffsets s n f base codes
  let heads := offs.map (4 * ·)
  match gatherWords s env b heads with
  | .error e => .error (gatherFail heads.length e [])
  | .ok hw =>
    let good := (offs.zip hw).filter fun e => headerOk e.2
    let cols := good.flatMap fun e => (List.range (headerCols e.2)).map fun k => 4 * (e.1 + 1 + k)
    match gatherWords s env b cols with
    | .error e => .error (gatherFail cols.length e (runsOf heads hw))
    | .ok cw =>
      .ok (cutGlyphs (good.map (·.2)) cw, runsOf heads hw ++ runsOf cols cw, decide (good.length < codes.length))

/-! ### Mark sources -/

/-- Where a render finds its layout, fields and glyphs (R403, R407). -/
structure MarkSrc where
  /-- None where the mark block's header is illegal: the layout is invalid. -/
  layout : Option (List Byte)
  fields : FieldTab
  glyphBase : Option Nat
  deriving DecidableEq, Repr

/-- The window address of the crate of a `PLC_JOB` word. -/
def crateWindow (job : Word) : Nat := 0x20000000 + bits job 16 0 * 4096

/-- The entries of the crate's section table, through the window (R379). -/
def windowSects (s : State) (env : MemEnv) (job : Word) : Except Read (List Sect) :=
  match readBytes s env (crateWindow job + 20) 2 with
  | .error e => .error e
  | .ok b =>
    match readBytes s env (crateWindow job + 64) (16 * u16 b 0) with
    | .error e => .error e
    | .ok t => .ok (parseSects (u16 b 0) t)

/-- The bytes of a section; 0xFFFF names none. -/
def windowSect (s : State) (env : MemEnv) (job : Word) (sects : List Sect) (v : Nat) : Except Read (List Byte) :=
  match sects[v]? with
  | none => .ok []
  | some e => readBytes s env (crateWindow job + e.off) e.len

/-- The section table and the first 32 bytes of the job record of a latched job (R382, R403). -/
def windowJob (s : State) (env : MemEnv) (job : Word) : Except Read (List Sect × List Byte) :=
  match windowSects s env job with
  | .error e => .error e
  | .ok sects =>
    match sects.find? fun e => decide (e.typ = 1) && decide (e.idx = bits job 31 24) with
    | none => .error (.error (crateWindow job))
    | some e =>
      match readBytes s env (crateWindow job + e.off) 32 with
      | .error e => .error e
      | .ok b => .ok (sects, b)

/-- The glyph base of a latched product (R407). -/
def glyphBaseOf (x : LatchSet) (sects : List Sect) (jb : List Byte) : Option Nat :=
  if x.gcache ≠ 0 then some x.gcache.toNat
  else (sects[u16 jb 10]?).map fun e => crateWindow x.job + e.off

/-- A mark block's layout and field table (R403). -/
def markBlock (s : State) (env : MemEnv) (base : Nat) : Except Read (Option (List Byte) × FieldTab) :=
  match readBytes s env base 64 with
  | .error e => .error e
  | .ok h =>
    let ll := u32 h 0
    let fl := u32 h 4
    if ll < 16 ∨ 1040 < ll ∨ ll % 16 ≠ 0 ∨ 65536 < fl ∨ (firstSet h 8 56).isSome then .ok (none, fieldTab [])
    else
      match readBytes s env (base + 64) ll, readBytes s env (base + 64 + ll) fl with
      | .ok l, .ok f => .ok (some l, fieldTab f)
      | .error e, _ => .error e
      | _, .error e => .error e

/-- The mark source of a latched product (R403). -/
def markSrc (s : State) (env : MemEnv) (x : LatchSet) : Except Read MarkSrc :=
  if x.markBase ≠ 0 then
    match markBlock s env x.markBase.toNat with
    | .error e => .error e
    | .ok (l, f) =>
      if x.gcache ≠ 0 then .ok ⟨l, f, some x.gcache.toNat⟩
      else match windowJob s env x.job with
        | .error e => .error e
        | .ok (sects, jb) => .ok ⟨l, f, glyphBaseOf x sects jb⟩
  else
    match windowJob s env x.job with
    | .error e => .error e
    | .ok (sects, jb) =>
      match windowSect s env x.job sects (u16 jb 4), windowSect s env x.job sects (u16 jb 6) with
      | .ok l, .ok f => .ok ⟨some l, fieldTab f, glyphBaseOf x sects jb⟩
      | .error e, _ => .error e
      | _, .error e => .error e

/-! ### Renders -/

/-- What a complete render gives: the raster, the conditions and the gathers it made. -/
structure Rendered where
  raster : Raster
  conds : Conds
  runs : List GatherRun
  deriving DecidableEq, Repr

/-- Every content dot of a FILL box (R409). -/
def fillDots (x : Box) : List (Nat × Nat) :=
  (List.range x.content.1).flatMap fun u => (List.range x.content.2).map fun v => (u, v)

/-- The glyphs of a box's string are gathered and drawn (R409). -/
def drawText (s : State) (env : MemEnv) (n : Lane) (base : Option Nat) (columns : Nat) (m : Bool) (x : Box)
    (codes : List Nat) (a : Rendered) : Except GatherFail Rendered :=
  match fetchGlyphs s env n x.font base codes with
  | .error e => .error { e with runs := a.runs ++ e.runs }
  | .ok (gs, runs, missing) =>
    let c := if missing then a.conds.or Conds.glyph_ else a.conds
    let (r, c) := drawDots x columns m a.raster c (lineDots x.spacing (x.start gs) gs)
    .ok ⟨r, c, a.runs ++ runs⟩

/-- One box is drawn (R409). -/
def drawBox (s : State) (env : MemEnv) (n : Lane) (l : LatchSet) (src : MarkSrc) (columns : Nat) (m : Bool) (x : Box)
    (a : Rendered) : Except GatherFail Rendered :=
  match x.kind with
  | 1 =>
    let v := fieldString l src.fields x.field
    let a := { a with conds := a.conds.or v.conds }
    match v.text with
    | none => .ok a
    | some codes => drawText s env n src.glyphBase columns m x codes a
  | 2 => drawText s env n src.glyphBase columns m x [x.field] a
  | 3 =>
    let (r, c) := drawDots x columns m a.raster a.conds (fillDots x)
    .ok { a with raster := r, conds := c }
  | 4 =>
    let (dots, c) := matrixDots l src.fields x.field
    let (r, c) := drawDots x columns m a.raster (a.conds.or c) dots
    .ok { a with raster := r, conds := c }
  | _ => .ok a

/-- The boxes are drawn in table order (R404). -/
def drawBoxes (s : State) (env : MemEnv) (n : Lane) (l : LatchSet) (src : MarkSrc) (columns : Nat) (m : Bool) :
    List Box → Rendered → Except GatherFail Rendered
  | [], a => .ok a
  | x :: rest, a =>
    match drawBox s env n l src columns m x a with
    | .error e => .error e
    | .ok a => drawBoxes s env n l src columns m rest a

/-- The layout of a latched product, where it is valid (R405). -/
def MarkSrc.valid (src : MarkSrc) (columns colBytes : Nat) : Option Layout :=
  src.layout.bind fun b => readLayout b columns colBytes src.fields.count

/-- The tasks a render needs: one, and one for each box (R412); an invalid layout draws no box. -/
def tasksNeeded (s : State) (env : MemEnv) (n : Lane) (l : LatchSet) (columns : Nat) : Except Read Nat :=
  match markSrc s env l with
  | .error e => .error e
  | .ok src => .ok (1 + (match src.valid columns (s.colBytes n) with | some y => y.boxes.length | none => 0))

/-- A render of a latched product of `columns` columns: the work of R412 and R413, or the read that fails. -/
def render (s : State) (env : MemEnv) (n : Lane) (l : LatchSet) (columns : Nat) : Except GatherFail Rendered :=
  match markSrc s env l with
  | .error e => .error ⟨e, 0, []⟩
  | .ok src =>
    match src.valid columns (s.colBytes n) with
    | none => .ok ⟨[], Conds.field_, []⟩
    | some y => drawBoxes s env n l src columns y.mirrorCols y.boxes ⟨[], Conds.none_, []⟩

/-- The 64-bit word `j` of a column in the swath ring: rows 32 j to 32 j + 31, two bits each (R398). -/
def columnWord (r : Raster) (col j : Nat) : Nat :=
  ((List.range 32).map fun k => Raster.at r col (32 * j + k) * 4 ^ k).sum

/-- A column's slot is written: every byte, cleared rows included (R398, R412). -/
def writeColumn (m : Mem) (a colBytes : Nat) (r : Raster) (col : Nat) : Mem :=
  (List.range (colBytes / 8)).foldl (fun m j => m.writeLarder (a + 8 * j) 8 (columnWord r col j)) m

/-- The drop code of raster row `r` in the bytes of a column (R398). -/
def dropAt (b : List Byte) (row : Nat) : Nat := (u8 b (row / 4) >>> (2 * (row % 4))) % 4

end Sys2Proof.Machine
end

