-- ==== Sys2Proof/Machine/Compositor.lean ====
section
/-! DEFINITION. The compositor: the latch check, the start of a render, its tasks, its gathers and the render commit
(16_compositor R399, R400, R411-R415; 17_dates_codes R440). The free work of a render is done at its render commit, where
its result takes effect. -/

namespace Sys2Proof.Machine
namespace State

/-- The render channel of a lane, if `CHANNEL` names one (R418). -/
def renderChan (s : State) (n : Lane) : Option Chan :=
  let c := s.fld (Reg.CMP_RENDER n) 7 0
  if h : c < 24 then some ⟨c, h⟩ else none

/-- The lane's slot and its areas serve a product of `columns` columns (R411); none where the lane holds no slot. -/
def slotReady (s : State) (n : Lane) (columns : Nat) : Option Bool :=
  match s.laneSlot n with
  | none => none
  | some k =>
    some (decide (s.reg (Reg.CMP_RING_BASE n) ≠ 0) && decide (s.reg (Reg.CMP_STAGE n) ≠ 0) &&
      (match s.renderChan n with | some c => s.holds (holdSlot k) (resChan c) | none => false) &&
      decide (columns ≤ s.ringCols n))

/-! ### Tasks -/

/-- Tasks held by all renders (R412). -/
def tasksHeld (s : State) : Nat := (s.cmp.renders.map (·.tasks)).sum

/-- Renders obtain tasks in the order of their starts; none does while an earlier one waits (R412). -/
def giveTasks : Nat → List Render → List Render
  | _, [] => []
  | free, r :: rest =>
    if r.need ≤ r.tasks then r :: giveTasks free rest
    else if r.need - r.tasks ≤ free then { r with tasks := r.need } :: giveTasks (free - (r.need - r.tasks)) rest
    else r :: rest

/-- Free tasks go to the renders that wait; `PEAK` follows (R412, R418). -/
def shareTasks (s : State) : State :=
  if s.cmp.renders.all (fun r => decide (r.need ≤ r.tasks)) then s
  else
    let s := s.modCmp fun c => { c with renders := giveTasks (256 - s.tasksHeld) c.renders }
    if s.fld Reg.CMP_TASKS 24 16 < s.tasksHeld then s.setFld Reg.CMP_TASKS 24 16 s.tasksHeld else s

/-! ### The start of a render -/

/-- A layout that draws glyphs: one of its boxes is TEXT or BITMAP (R404, R413). -/
def drawsGlyphs (s : State) (env : MemEnv) (n : Lane) (x : LatchSet) (columns : Nat) : Bool :=
  match markSrc s env x with
  | .error _ => false
  | .ok src =>
    match src.valid columns (s.colBytes n) with
    | none => false
    | some y => y.boxes.any fun b => decide (b.kind = 1 ∨ b.kind = 2)

/-- The compositor enables the render channel that its slot holds, so that the channel is IDLE at a start (R335, R413,
R516). -/
def readyRenderChan (s : State) (n : Lane) : State :=
  match s.laneSlot n, s.renderChan n with
  | some k, some c => if s.holds (holdSlot k) (resChan c) && !s.unitInReset 11 then s.enableChan c else s
  | _, _ => s

/-- A render starts directly after its reservation is granted (R399, R412): its start slot, its tasks, and the read of
its layout, whose failing word is reported (R77, R79). A render that draws glyphs finds its channel enabled (R413). -/
def startRender (s : State) (n : Lane) (r : Rec) (env : MemEnv) : State :=
  match r.set with
  | none => s
  | some x =>
    let start := s.cmp.next[n]
    let next := (start + r.columns) % s.ringCols n
    let found := tasksNeeded s env n x r.columns
    let need := match found with | .ok k => k | .error _ => 1
    let q : Render := ⟨n, r.serial, need, 0, match found with | .ok _ => false | .error _ => true⟩
    let s := s.modCmp fun c => { c with next := c.next.set n next, renders := c.renders ++ [q] }
    let s := (s.putRec n { r with ring := some start }).shareTasks
    match found with
    | .ok _ => if drawsGlyphs s env n x r.columns then s.readyRenderChan n else s
    | .error e => s.noteRead e

/-- The render of a record. -/
def findRender (s : State) (n : Lane) (serial : Word) : Option Render :=
  s.cmp.renders.find? fun q => decide (q.lane = n) && decide (q.serial = serial)

/-- The render of a record leaves the compositor, and its tasks are free. -/
def endRender (s : State) (n : Lane) (serial : Word) : State :=
  (s.modCmp fun c => { c with renders := c.renders.filter fun q => !(decide (q.lane = n) && decide (q.serial = serial)) }).shareTasks

/-! ### The work of a render -/

/-- `k` bytes from address `a` lie in the Larder and a party may write their bank (R75). -/
def mayWrite (s : State) (party : Byte) (a k : Nat) : Bool :=
  decide (larderBase ≤ a ∧ a + k ≤ larderBase + 0x400000) && !s.isolated 2 && s.mayWriteBank party (bankOf a) &&
    s.mayWriteBank party (bankOf (a + k - 1))

/-- The address of column `k` of a record in the swath ring (R398, R399). -/
def columnAddr (s : State) (n : Lane) (start k : Nat) : Nat :=
  (s.reg (Reg.CMP_RING_BASE n)).toNat + s.colBytes n * ((start + k) % s.ringCols n)

/-- One gather of the render channel moves its elements through the staging area (R413). -/
def runGather (s : State) (n : Lane) (c : Chan) (g : GatherRun) : State :=
  let stage := (s.reg (Reg.CMP_STAGE n)).toNat
  let s := s.modMem fun m => (m.writeLarderWords stage (g.offs.map word)).writeLarderWords (stage + 8192) g.words
  s.unitRun c

/-- The channel halts at a gather that received an error response (R350, R414). -/
def gatherHalt (s : State) (c : Chan) (f : GatherFail) : State :=
  let s := s.noteRead f.read
  let a := match f.read with | .void a => a | .uncorr a => a | .bus a => a | .error a => a | .ok _ => 0
  let s := s.startChan c .unit
  match (s.chan c).state with
  | .queued =>
    let s := (s.modChan c fun x => { x with state := .running }).commit
    (s.latchHalt c (word a) 3 false false false f.residue).haltChan c Kind.hstBus (word a)
  | _ => s

/-- The places a render writes are open to its slot and its channel (R75, R414). -/
def renderPlaces (s : State) (n : Lane) (k : Fin 4) (c : Chan) (start columns : Nat) : Bool :=
  let stage := (s.reg (Reg.CMP_STAGE n)).toNat
  s.mayWrite (holdSlot k) stage 8192 && s.mayWrite (holdChan c) (stage + 8192) 8192 &&
    (List.range columns).all fun i => s.mayWrite (holdSlot k) (s.columnAddr n start i) (s.colBytes n)

/-- Every column of a rendered mark is written (R398, R412). -/
def writeColumns (s : State) (n : Lane) (start columns : Nat) (r : Raster) : State :=
  s.modMem fun m => (List.range columns).foldl (fun (m : Mem) (i : Nat) => writeColumn m (s.columnAddr n start i) (s.colBytes n) r i) m

/-- The work of a render that may still complete: the state after it, and its conditions, or none where a read, a write
or the channel fails it (R412-R414). -/
def renderWork (s : State) (n : Lane) (r : Rec) (env : MemEnv) : State × Option Conds :=
  match r.set, r.ring, s.laneSlot n, s.renderChan n with
  | some x, some start, some k, some c =>
    if !s.holds (holdSlot k) (resChan c) || !s.renderPlaces n k c start r.columns then (s, none)
    else
      match tasksNeeded s env n x r.columns with
      | .error e => (s.noteRead e, none)
      | .ok _ =>
        match render s env n x r.columns with
        | .error e => ((e.runs.foldl (fun (s : State) (g : GatherRun) => s.runGather n c g) s).gatherHalt c e, none)
        | .ok y =>
          if y.runs.isEmpty || decide ((s.chan c).state = .idle) then
            let s := y.runs.foldl (fun (s : State) (g : GatherRun) => s.runGather n c g) s
            (s.writeColumns n start r.columns y.raster, some y.conds)
          else (s, none)
  | _, _, _, _ => (s, none)

/-! ### The render commit -/

/-- A condition of a render is reported: its flag, its message with the trigger stamp, and a SUSPECT record (R414, R440). -/
def renderCond (s : State) (n : Lane) (serial : Word) (on : Bool) (evt flag : Nat) (k : Kind) : State :=
  if on && !s.unitInReset k.src then
    match s.findRec n serial with
    | none => s
    | some r =>
      let s := (s.setFlag evt flag).raiseLane k (BitVec.setWidth 32 r.trigger) n
      s.proposeRec n r .suspect Cause.content
  else s

/-- A render that is not complete at its trigger (R414). -/
def renderLate (s : State) (n : Lane) (r : Rec) : State :=
  let s := ((s.setFlag (Reg.CMP_EVT n) 0).bump (Reg.CMP_LATE n)).raiseLane Kind.cmpLate (BitVec.setWidth 32 r.trigger) n
  s.unmark n r Cause.content

/-- A complete render (R414, R440). -/
def renderDone (s : State) (n : Lane) (r : Rec) (c : Conds) : State :=
  let s := ((s.endRender n r.serial).bump (Reg.CMP_RENDERS n)).commit
  let s := s.renderCond n r.serial c.glyph (Reg.CMP_EVT n) 1 Kind.cmpGlyph
  let s := s.renderCond n r.serial c.field (Reg.CMP_EVT n) 2 Kind.cmpField
  let s := s.renderCond n r.serial c.notSet Reg.CAL_EVT 4 Kind.calNotSet
  let s := s.renderCond n r.serial c.dateRange Reg.CAL_EVT 5 Kind.calDateRange
  s.renderCond n r.serial c.dmCap Reg.CAL_EVT 6 Kind.calDmCapacity

/-- The render commit of a record (R414); `done` tells whether the free work has finished in time. -/
def renderCommit (s : State) (n : Lane) (r : Rec) (done : Bool) (env : MemEnv) : State :=
  match s.findRender n r.serial with
  | none => s.renderLate n r
  | some q =>
    if done && !q.failed && decide (q.need ≤ q.tasks) then
      match s.renderWork n r env with
      | (s, some c) => s.renderDone n r c
      | (s, none) => s.renderLate n r
    else s.renderLate n r

/-- Every render of a lane that has not reached its render commit ends with the slot's revocation (R415). -/
def endRenders (s : State) (n : Lane) : State :=
  (s.cmp.renders.filter fun q => decide (q.lane = n)).foldl (fun (s : State) (q : Render) =>
    match s.findRec n q.serial with
    | some r => s.unmark n r Cause.content
    | none => s.endRender n q.serial) s

/-- `NEXT` becomes 0 whenever the lane takes a compositor slot (R399): the slot that renders for it is another one. -/
def trackSlots (s : State) : State :=
  allLanes.foldl (fun (s : State) (n : Lane) =>
    if s.cmp.slots[n] = s.laneSlot n then s
    else
      let took := (s.laneSlot n).isSome
      s.modCmp fun c => { c with slots := c.slots.set n (s.laneSlot n), next := if took then c.next.set n 0 else c.next }) s

end State
end Sys2Proof.Machine
end

