-- ==== Sys2Proof/Machine/Head.lean ====
section
/-! DEFINITION. Head ports: waveforms, geometry and codes, the firing decision, frames and firings, the port's states,
service firing and streams (18_head_firing R443-R461; nozzle substitution 19_head_health R478, R479, fire counts R484). -/

namespace Sys2Proof.Machine

/-- `STATE` of a head port (R462). -/
def HedState.code : HedState → Nat
  | .off => 0
  | .absent => 1
  | .ident => 2
  | .mismatch => 3
  | .power => 4
  | .ready => 5
  | .parked => 6
  | .fault => 7

/-- A segment of a waveform (R457). -/
structure Segment where
  level : Nat
  dur : Nat
  sel : Nat
  ramp : Bool
  deriving DecidableEq, Repr

/-- The emission delay of the head LVDS pairs, `d_em` of R452 (R532). -/
def headDelay : Nat := 4

namespace State

/-! ### Waveforms -/

/-- Word `k` of the waveform table of Hn (R457). -/
def wfWord (s : State) (h : Head) (k : Nat) : Word := s.mem.table (0x90000 + 0x4000 * h.val + 4 * k)

/-- The segments of waveform `w`, whatever its checks say. -/
def wfSegments (s : State) (h : Head) (w : Nat) : List Segment :=
  let d := s.wfWord h w
  (List.range (min (bits d 23 12) 1024)).map fun i =>
    let x := s.wfWord h (bits d 11 0 + i)
    ⟨bits x 11 0, bits x 23 12, bits x 26 24, bit x 27⟩

/-- A segment's length in samples at a time scale (R457). -/
def segLength (tsc : Nat) (g : Segment) : Nat := max (g.dur * tsc / 4096) 1

/-- The scaled length of waveform `w` at a time scale (R457). -/
def wfLength (s : State) (h : Head) (w tsc : Nat) : Nat := ((s.wfSegments h w).map (segLength tsc)).sum

/-- The byte offset of the first word of waveform `w` that fails the check of R459, if any. -/
def wfFault (s : State) (h : Head) (w tsc : Nat) : Option Nat :=
  let d := s.wfWord h w
  let start := bits d 11 0
  let nseg := bits d 23 12
  if nseg = 0 ∨ nseg > 1024 ∨ start < 16 ∨ start + nseg > 4096 ∨ bits d 31 24 ≠ 0 then some (4 * w)
  else
    match (List.range nseg).find? fun i =>
      let x := s.wfWord h (start + i)
      decide (bits x 31 28 ≠ 0) || decide (bits x 23 12 = 0) with
    | some i => some (4 * (start + i))
    | none => if s.wfLength h w tsc > 2047 then some (4 * w) else none

/-- The lower of two offsets. -/
def minOff (a b : Option Nat) : Option Nat :=
  match a, b with
  | some x, some y => some (min x y)
  | some x, none => some x
  | none, y => y

def wfFire (s : State) (h : Head) : Nat := s.fld (Reg.HED_WF h) 3 0
def wfSpit (s : State) (h : Head) : Nat := s.fld (Reg.HED_WF h) 7 4
def wfSrc (s : State) (h : Head) : Bool := s.rbit (Reg.HED_CTRL h) 4
def ampScale (s : State) (h : Head) : Nat := s.fld (Reg.HED_SCALE h) 15 0
def tScale (s : State) (h : Head) : Nat := s.fld (Reg.HED_SCALE h) 31 16

/-- The check of R459 at a time scale: the byte offset of the first failing word. -/
def tableFault (s : State) (h : Head) (tsc : Nat) : Option Nat :=
  minOff (s.wfFault h (s.wfFire h) tsc) (s.wfFault h (s.wfSpit h) tsc)

/-- A scaled length that a new time scale would take beyond 2,047 samples (R459, R473). -/
def scaleFits (s : State) (h : Head) (tsc : Nat) : Bool :=
  decide (s.wfLength h (s.wfFire h) tsc ≤ 2047) && decide (s.wfLength h (s.wfSpit h) tsc ≤ 2047)

/-- Samples `j` to `d` of a segment (R457). -/
def segSamples (idle amp prev : Int) (g : Segment) (d : Nat) : List (Nat × Nat) :=
  (List.range d).map fun (i : Nat) =>
    let j : Int := (i : Int) + 1
    let lv : Int := if g.ramp then prev + truncDiv (((g.level : Int) - prev) * j) d else g.level
    let out := idle + (lv - idle) * amp / 32768
    ((if out < 0 then 0 else if out > 4095 then 4095 else out.toNat), g.sel)

/-- The samples of a list of segments. -/
def playSegments (idle amp : Int) (tsc : Nat) : Int → List Segment → List (Nat × Nat)
  | _, [] => []
  | prev, g :: rest => segSamples idle amp prev g (segLength tsc g) ++ playSegments idle amp tsc g.level rest

/-- Level and select bits as the words the WF pair sends, the first with `SYNC` (R458). -/
def sampleWords : List (Nat × Nat) → List (BitVec 16)
  | [] => []
  | (o, c) :: rest => BitVec.ofNat 16 (o + 4096 * c + 32768) :: rest.map fun e => BitVec.ofNat 16 (e.1 + 4096 * e.2)

/-- `IDLE_LEVEL` of a head port. -/
def idleLevel (s : State) (h : Head) : Nat := s.fld (Reg.HED_WF h) 19 8

/-- The samples of a firing of waveform `w` (R457, R458). -/
def waveform (s : State) (h : Head) (w amp tsc : Nat) : List (BitVec 16) :=
  sampleWords (playSegments (s.idleLevel h) amp tsc (s.idleLevel h) (s.wfSegments h w))

/-! ### Geometry and pacing -/

def hedRows (s : State) (h : Head) : Nat := s.fld (Reg.HED_GEOM h) 2 0
def hedNpr (s : State) (h : Head) : Nat := s.fld (Reg.HED_GEOM h) 26 16
def hedCdiv (s : State) (h : Head) : Nat := s.fld (Reg.HED_CTRL h) 3 0

/-- Nozzles of a head (R448). -/
def nozzles (s : State) (h : Head) : Nat := s.hedRows h * s.hedNpr h

/-- The longer of the scaled lengths of `WF_FIRE` and `WF_SPIT`: W of R452. -/
def waveMax (s : State) (h : Head) : Nat :=
  max (if s.wfSrc h then s.fld (Reg.HED_WF h) 31 20 else s.wfLength h (s.wfFire h) (s.tScale h))
    (s.wfLength h (s.wfSpit h) (s.tScale h))

/-- The firing interval `T_EFF` (R452). -/
def tEff (s : State) (h : Head) : Nat :=
  max (s.fld (Reg.HED_PACE h) 15 0)
    (max (16 * s.hedCdiv h * (s.waveMax h + 1)) (s.hedCdiv h * (24 + s.nozzles h)))

/-- The first sample boundary at or after a tick (R452). -/
def boundaryAt (s : State) (h : Head) (a : Nat) : Nat :=
  let per := 16 * s.hedCdiv h
  let ck := (s.head h).ckStart.getD 0
  if a ≤ ck ∨ per = 0 then ck else ck + (a - ck + per - 1) / per * per

/-- `e` and `f` of R452 for a key at the present tick. -/
def planFire (s : State) (h : Head) : Nat × Nat :=
  let e := s.tick + headDelay
  let a := match (s.head h).fLast with
    | some l => max e (l + s.tEff h)
    | none => e
  (e, s.boundaryAt h a)

/-- The port makes firings: READY and not in block reset (R443). -/
def hedReady (s : State) (h : Head) : Bool := decide ((s.head h).state = .ready) && !s.unitInReset (18 + h.val)

/-- PRESENT is active (R462). -/
def presentNow (s : State) (h : Head) : Bool := decide ((s.head h).level = s.rbit (Reg.HED_ENABLE h) 1)

/-! ### Codes of a firing -/

/-- A row's geometry: `FIRST`, step, `DIRN`, `LAG`, pass mask (R448, R449). -/
structure RowGeom where
  first : Nat
  step : Nat
  neg : Bool
  lag : Nat
  pass : Nat
  deriving DecidableEq, Repr

/-- Row `r` of a head. -/
def rowGeom (s : State) (h : Head) (r : Nat) : RowGeom :=
  let w := s.reg (Reg.HED_ROW h r)
  ⟨bits w 9 0, bits w 11 10 + 1, bit w 12, bits w 23 16, s.fld (Reg.HED_PASS h r) 15 0⟩

/-- The raster row under nozzle `i` of a row (R449). -/
def RowGeom.raster (g : RowGeom) (i : Nat) : Int :=
  if g.neg then (g.first : Int) - (g.step * i : Nat) else (g.first : Int) + (g.step * i : Nat)

/-- The code of nozzle `i` of a row at emission `k`, under a pass mask (R449). `col j` is the data of mark column `j`. -/
def nozzleCode (g : RowGeom) (pass : Nat) (colBytes : Nat) (col : Nat → List Byte) (k i : Nat) : Nat :=
  if k < g.lag then 0
  else
    let j := k - g.lag
    let y := g.raster i
    if y < 0 ∨ y ≥ 4 * colBytes then 0
    else if pass.testBit (4 * (j % 4) + y.toNat % 4) then dropAt (col j) y.toNat else 0

/-- The map entry of a nozzle (R478). -/
def mapEntry (s : State) (h : Head) (i : Nat) : BitVec 16 := Tab.get (fun _ => 0) (s.health h).map i

/-- The class of a nozzle. -/
def nozClass (s : State) (h : Head) (i : Nat) : Nat := (s.mapEntry h i).toNat % 4

/-- The usable substitute of a FAILED or RETIRED nozzle (R479). -/
def substitute (s : State) (h : Head) (q : Nat) : Option Nat :=
  let e := (s.mapEntry h q).toNat
  let p := e / 8 % 1024
  let npr := s.hedNpr h
  if decide (2 ≤ e % 4) && e.testBit 2 && decide (p < s.nozzles h) && decide (p / npr ≠ q / npr) &&
      decide (s.nozClass h p ≤ 1) &&
      decide ((s.rowGeom h (p / npr)).raster (p % npr) = (s.rowGeom h (q / npr)).raster (q % npr)) then some p
  else none

/-- The fitted nozzles that are FAILED or RETIRED, in frame order. -/
def deadNozzles (s : State) (h : Head) : List Nat :=
  ((s.health h).map.filter fun e => decide (2 ≤ e.2.toNat % 4) && decide (e.1 < s.nozzles h)).map (·.1)

/-- FAILED nozzles without a usable substitute (R479). -/
def uncovered (s : State) (h : Head) : Nat :=
  ((s.deadNozzles h).filter fun q => decide (s.nozClass h q = 2) && (s.substitute h q).isNone).length

/-- The codes of a FIRE firing for a product at emission `k`, substitution applied (R449, R479). -/
def productCodes (s : State) (h : Head) (colBytes : Nat) (col : Nat → List Byte) (k : Nat) : List Nat :=
  let npr := s.hedNpr h
  let dead := s.deadNozzles h
  let subs := dead.filterMap fun q => (s.substitute h q).map fun p => (q, p)
  (List.range (s.nozzles h)).map fun i =>
    if dead.contains i then 0
    else
      let g := s.rowGeom h (i / npr)
      let own := nozzleCode g g.pass colBytes col k (i % npr)
      (subs.filter fun e => decide (e.2 = i)).foldl
        (fun c e => max c (nozzleCode g (s.rowGeom h (e.1 / npr)).pass colBytes col k (i % npr))) own

/-! ### Frames -/

/-- The bytes of four-code groups, the first code in the lowest bits (R455). -/
def packCodes : Nat → List Nat → List Byte
  | 0, _ => []
  | f + 1, l =>
    if l.isEmpty then []
    else BitVec.ofNat 8 (l.getD 0 0 + 4 * l.getD 1 0 + 16 * l.getD 2 0 + 64 * l.getD 3 0) :: packCodes f (l.drop 4)

/-- The header and body bytes of a frame, and its CRC (R455). -/
def frameBytes (seq : Byte) (type : Nat) (codes : List Nat) : List Byte :=
  let b := bytesLE 2 (seq.toNat + 256 * type + 1024 * 0x2D) ++ packCodes (codes.length + 1) codes
  b ++ bytesLE 4 (crc32c b)

/-- A frame leaves the port; `SEQ` advances (R455). -/
def sendFrame (s : State) (h : Head) (f type : Nat) (codes : List Nat) : State :=
  let s := s.emit (.nozzles h f type (s.head h).seq codes)
  s.modHead h fun x => { x with seq := x.seq + 1 }

/-- The trims of the trim table, two symbols per nozzle (R456); none where a read fails. -/
def trimCodes (s : State) (h : Head) (env : MemEnv) : Except Read (List Nat) :=
  let base := (s.reg (Reg.HED_TRIM_BASE h)).toNat
  let zeros := List.replicate (2 * s.nozzles h) 0
  if base = 0 then .ok zeros
  else match readBytes s env base 512 with
    | .error e => .error e
    | .ok b => .ok ((List.range (s.nozzles h)).flatMap fun i =>
        let t := u8 b (i / 2) / (if i % 2 = 0 then 1 else 16) % 16
        [t % 4, t / 4])

/-- The port reads the trim table and sends a TRIM frame (R456). -/
def sendTrim (s : State) (h : Head) (env : MemEnv) : State :=
  match s.trimCodes h env with
  | .ok l => s.sendFrame h (s.tick + headDelay) 2 l
  | .error e =>
    let s := (s.noteRead e).setFlag (Reg.HED_EVT h) 7
    (s.sendFrame h (s.tick + headDelay) 2 (List.replicate (2 * s.nozzles h) 0)).commit

/-! ### Messages -/

/-- A HED message with its flag; none while the unit is in block reset (R113, R462). -/
def hedRaise (s : State) (h : Head) (flag : Nat) (k : Kind) (addr : Word) : State :=
  if s.unitInReset (18 + h.val) then s else (s.setFlag (Reg.HED_EVT h) flag).raiseLane k addr h

/-- The check of R459 at a commit that writes the table or a register it reads; `HED_TEFF_Hn` follows. -/
def checkTable (s : State) (h : Head) : State :=
  let s := s.setFld (Reg.HED_TEFF h) 19 0 (min (s.tEff h) (2 ^ 20 - 1))
  match s.tableFault h (s.tScale h) with
  | some o => (s.modHead h fun x => { x with wfBad := true }).hedRaise h 5 (Kind.waveform h.val) (word o)
  | none => s.modHead h fun x => { x with wfBad := false }

/-! ### States -/

/-- A pin of a head port leaves the GL4480. -/
def hedPin (s : State) (h : Head) (name : String) (v : Bool) : State :=
  s.emit (.pin ("H" ++ toString h.val ++ name) (some v))

/-- A transition (R443): the state, the pins, and the firings that cannot be made any more. -/
def hedGo (s : State) (h : Head) (st : HedState) (headEn hvEn ck : Bool) : State :=
  let x := s.head h
  let s := s.setHead h { x with state := st, headEn := headEn, hvEn := hvEn, stepEnd := none,
                                ckStart := if ck then x.ckStart else none, fLast := if ck then x.fLast else none,
                                firings := if st = .ready then x.firings else [], svc := if st = .ready then x.svc else none,
                                stream := if st = .ready ∨ ck = true then x.stream else [], svcBuf := if st = .ready then x.svcBuf else [] }
  let s := if x.headEn = headEn then s else s.hedPin h "_HEAD_EN" headEn
  let s := if x.hvEn = hvEn then s else s.hedPin h "_HV_EN" hvEn
  let s := if st = .ready then s.setFlag (Reg.HED_EVT h) 6 else s
  s.commit

/-- The end of the port's timed step, `ms` milliseconds from now. -/
def hedTimer (s : State) (h : Head) (ms : Nat) : State :=
  s.modHead h fun x => { x with stepEnd := some (s.tick + ms * 100000) }

/-- The port enters ABSENT; `PRES_SETTLE` runs while PRESENT is active (R443). -/
def hedAbsent (s : State) (h : Head) : State :=
  let s := s.hedGo h .absent false false false
  if s.presentNow h then s.hedTimer h (s.fld (Reg.HED_SETTLE h) 15 0) else s

/-- What the loss of a head does to the lane's records (R447). -/
def loseHead (s : State) (h : Head) : State :=
  (s.lane h).recs.foldl (fun (s : State) (r : Rec) =>
    match r.state with
    | .printing => s.abandon h r Cause.head
    | .latched => s.unmark h r Cause.head
    | _ => s) s

/-- An accepted change of PRESENT (R443, R444, R447). -/
def hedPresent (s : State) (h : Head) (level : Bool) : State :=
  let s := s.modHead h fun x => { x with level := level }
  match (s.head h).state with
  | .off => s
  | .absent =>
    if s.presentNow h then
      (if (s.head h).stepEnd.isSome then s else s.hedTimer h (s.fld (Reg.HED_SETTLE h) 15 0))
    else s.modHead h fun x => { x with stepEnd := none }
  | _ =>
    if s.presentNow h then s
    else ((s.hedRaise h 0 (Kind.hedAbsent h.val) 0).hedGo h .absent false false false).loseHead h

/-- The port enters IDENT: the measurement takes 500 microseconds (R445). -/
def hedIdent (s : State) (h : Head) : State :=
  (s.hedGo h .ident false false false).modHead h fun x => { x with stepEnd := some (s.tick + 50000) }

/-- CK starts at the pins, `d_em` after the transition: `SEQ` 0, no previous firing (R452, R455). -/
def startCk (s : State) (h : Head) : State :=
  s.modHead h fun x => { x with logicOn := true, ckStart := some (s.tick + headDelay), fLast := none, seq := 0 }

/-- The end of `T_LOGIC`: CK, the trim frame, `HV_EN`, then `T_HV` (R443). -/
def logicEnd (s : State) (h : Head) (env : MemEnv) : State :=
  let s := ((s.startCk h).sendTrim h env).hedPin h "_HV_EN" true
  ((s.modHead h fun x => { x with hvEn := true }).hedTimer h (s.fld (Reg.HED_POWER h) 31 16)).commit

/-- The port enters POWER (R443); with `HEAD_EN` high from PARKED, `T_LOGIC` is skipped. -/
def hedPower (s : State) (h : Head) (env : MemEnv) : State :=
  let skip := decide ((s.head h).state = .parked) && (s.head h).headEn
  let s := (s.hedGo h .power true false false).modHead h fun x => { x with logicOn := false }
  if skip then s.logicEnd h env else s.hedTimer h (s.fld (Reg.HED_POWER h) 15 0)

/-- The measurement of R445 ends with a code. -/
def identEnd (s : State) (h : Head) (code : Nat) : State :=
  let s := s.setReg (Reg.HED_ID_CODE h) (word code)
  if s.fld (Reg.HED_ID h) 11 0 ≤ code ∧ code ≤ s.fld (Reg.HED_ID h) 27 16 then s.hedPower h MemEnv.quiet
  else (s.hedRaise h 1 (Kind.idMismatch h.val) (word code)).hedGo h .mismatch false false false

/-- The port enters READY from POWER or FAULT; the keep-wet waits start anew (R443, R482). -/
def hedToReady (s : State) (h : Head) : State :=
  (s.hedGo h .ready true true true).modHealth h fun x => { x with idleFrom := s.tick, spat := false }

/-- A READY port parks: in HOLD the head stays on (R143, R443). -/
def hedPark (s : State) (h : Head) (hold : Bool) : State :=
  if (s.head h).state = .ready then s.hedGo h .parked hold false false else s

/-- A PARKED port enters POWER when the Pantry enters RUN or SERVICE (R443). -/
def hedUnpark (s : State) (h : Head) : State :=
  if (s.head h).state = .parked then s.hedPower h MemEnv.quiet else s

/-- A block reset of HEDn (R447). -/
def resetHead (s : State) (h : Head) : State :=
  s.modHead h fun x => { x with seq := 0, firings := [], svc := none, svcBuf := [], stream := [] }

/-- The block reset completes: a port in READY or FAULT sends the trim frame and is READY (R447). -/
def resetHeadDone (s : State) (h : Head) (env : MemEnv) : State :=
  match (s.head h).state with
  | .ready => s.sendTrim h env
  | .fault => (s.sendTrim h env).hedToReady h
  | _ => s

/-! ### Emissions -/

/-- What an emission decides (R443, R452): a firing, a skip, or, where a read of its column data fails, a late firing. -/
inductive Emission where
  | fired | skipped | late
  deriving DecidableEq, Repr

/-- The column data of an emission: the ring column and the delay-store slots by mark column, or a read that fails (R451). -/
def columnData (s : State) (h : Head) (ring : Nat) (k : Nat) (env : MemEnv) : Except Read (Nat → List Byte) :=
  let cb := s.colBytes h
  let delay := (s.reg (Reg.HED_DELAY_BASE h)).toNat
  match readBytes s env ring cb with
  | .error e => .error e
  | .ok b =>
    let lags := (((List.range (s.hedRows h)).map fun r => (s.rowGeom h r).lag).filter fun l => decide (l ≠ 0) && decide (l ≤ k)).eraseDups
    let slots := lags.map fun l => (k - l, readBytes s env (delay + cb * ((k - l) % 256)) cb)
    match slots.findSome? fun e => match e.2 with | .error x => some x | .ok _ => none with
    | some x => .error x
    | none => .ok fun j =>
        if j = k then b
        else match slots.find? fun e => decide (e.1 = j) with
          | some (_, .ok l) => l
          | _ => []

/-- The port copies column `k` into the delay store (R451); a write that is refused leaves the slot as it was. -/
def copyDelay (s : State) (h : Head) (ring k : Nat) (env : MemEnv) : State :=
  let cb := s.colBytes h
  let a := (s.reg (Reg.HED_DELAY_BASE h)).toNat
  let d := a + cb * (k % 256)
  if decide (a ≠ 0) && decide (larderBase ≤ d ∧ d + cb ≤ larderBase + 0x400000) && !s.isolated 2 &&
      s.mayWriteBank (holdHed h) (bankOf d) then
    match readBytes s env ring cb with
    | .ok b => s.modMem fun m => m.writeLarderBytes d b
    | .error _ => s
  else s

/-- A firing is decided at `f`. -/
def pushFiring (s : State) (h : Head) (f : Nat) (use : FireFor) (codes : List Nat) : State :=
  s.modHead h fun x =>
    { x with firings := x.firings ++ [⟨f, use, codes, s.ampScale h, s.tScale h⟩], fLast := some f }

/-- Emission `k` of a record whose column lies at `ring` (R449-R454): fire or skip. -/
def decideColumn (s : State) (h : Head) (r : Rec) (k ring : Nat) (env : MemEnv) : State × Emission :=
  let s := s.copyDelay h ring k env
  let (e, f) := s.planFire h
  if f - e > s.fld (Reg.HED_PACE h) 31 16 then (s, .skipped)
  else
    match (if s.isolated (18 + h.val) || s.unitInReset (18 + h.val) then .error (.error ring) else s.columnData h ring k env) with
    | .ok col => (s.pushFiring h f (.column r.serial k) (s.productCodes h (s.colBytes h) col k), .fired)
    | .error x => (s.noteRead x, .late)

/-- `HED.LINK` at an emission (R443, R447): the port enters FAULT and the records are lost. -/
def linkFault (s : State) (h : Head) (k : Nat) : State :=
  ((s.hedRaise h 4 (Kind.hedLink h.val) (word k)).hedGo h .fault true true true).loseHead h

/-- A skipped emission (R453). -/
def skipColumn (s : State) (h : Head) (r : Rec) : State :=
  let lim := s.fld (Reg.HED_SKIP h) 11 0
  let q := { r with skips := r.skips + 1 }
  let s := (s.bump (Reg.HED_SKIPS h)).storeRec h q
  if r.skips ≤ lim ∧ lim < q.skips then
    (s.hedRaise h 3 (Kind.skipLimit h.val) (word q.skips)).proposeRec h q .incomplete Cause.head
  else s

/-! ### Firings -/

/-- The fire counts of the nozzles that a frame drives (R484). -/
def countFires (s : State) (h : Head) (codes : List Nat) : State :=
  let hit := (codes.zip (List.range codes.length)).filterMap fun e => if e.1 = 0 then none else some e.2
  if hit.isEmpty then s
  else s.modHealth h fun x =>
    { x with firesDirty := true,
             fires := hit.foldl (fun t i => Tab.set (fun _ => 0) t i (Tab.get (fun _ => 0) t i + 1)) x.fires }

/-- A firing of a record that its last emission has made FINAL is late: a record that counts as MARKED becomes INCOMPLETE. -/
def unmarkLast (s : State) (n : Lane) (r : Rec) : State :=
  let q := { r with cause := r.cause ||| BitVec.ofNat 16 (2 ^ Cause.head),
                    verdict := if r.verdict = .marked then .incomplete else r.verdict }
  let s := if r.verdict = .marked then
      let c := Reg.PLC_CNT_MARKED n
      ((s.setReg c (s.reg c - 1)).bump (Reg.PLC_CNT_INCOMPLETE n)) else s
  ((s.putRec n q).copySlot n q).commit

/-- A late firing of a product (R454): the mark is abandoned at emission `k`. -/
def fireLate (s : State) (h : Head) (serial : Word) (k : Nat) : State :=
  let s := s.modHead h fun x =>
    { x with firings := x.firings.filter fun q => match q.use with | .column n _ => !decide (n = serial) | _ => true }
  let s := s.hedRaise h 2 (Kind.dataLate h.val) (word k)
  match s.findRec h serial with
  | some r => if r.state = .printing then s.abandon h r Cause.head else s.unmarkLast h r
  | none => s

/-- The samples that a streamed firing plays: from the buffer and from what the channel delivers meanwhile (R460). The
second part tells whether one was missing. -/
def streamSamples (s : State) (h : Head) (l : List (BitVec 16)) : List (BitVec 16) × Bool :=
  let n := s.fld (Reg.HED_WF h) 31 20
  let idle := BitVec.ofNat 16 (s.idleLevel h)
  let played := (l.take n).map fun w => w &&& 0x7FFF
  let all := played ++ List.replicate (n - played.length) idle
  (match all with | [] => [] | w :: rest => (w ||| 0x8000) :: rest, decide (played.length < n))

/-- The frame type of a firing (R455). -/
def fireType : FireFor → Nat
  | .spit => 1
  | _ => 0

/-- The frame is latched and the waveform plays (R454, R455, R457, R460). True where a streamed sample was missing. -/
def playFiring (s : State) (h : Head) (q : Firing) (refill : List (BitVec 16)) : State × Bool :=
  let s := s.sendFrame h q.f (fireType q.use) q.codes
  if q.use ≠ .spit ∧ s.wfSrc h = true then
    let l := (s.head h).stream ++ refill
    let (w, miss) := s.streamSamples h l
    ((s.modHead h fun x => { x with stream := l.drop (s.fld (Reg.HED_WF h) 31 20) }).emit (.wave h q.f w), miss)
  else (s.emit (.wave h q.f (s.waveform h (if q.use = .spit then s.wfSpit h else s.wfFire h) q.amp q.tsc)), false)

/-- The counts of a firing that was made (R462, R484). -/
def countFiring (s : State) (h : Head) (q : Firing) : State := (s.bump (Reg.HED_FIRES h)).countFires h q.codes

/-- The next firing reaches its sample boundary (R454): it is made, or it is late. -/
def fire (s : State) (h : Head) (late : Bool) (refill : List (BitVec 16)) : State :=
  match (s.head h).firings with
  | [] => s
  | q :: rest =>
    let s := s.modHead h fun x => { x with firings := rest }
    match q.use with
    | .column serial k =>
      if late then s.fireLate h serial k
      else
        let (s, miss) := s.playFiring h q refill
        if miss then s.fireLate h serial k else (s.countFiring h q).commit
    | _ => (((s.playFiring h q refill).1).countFiring h q).commit

/-! ### Service firing and streams -/

/-- Lane n has a record in LATCHED or PRINTING. -/
def hedBusy (s : State) (h : Head) : Bool := s.marksHeld h

/-- The SVC command (R461); its conditions have been checked. -/
def startSvc (s : State) (h : Head) : State :=
  s.modHead h fun x => { x with svc := some (s.fld (Reg.HED_SVC_CNT h) 15 0, s.tick + s.fld (Reg.HED_SVC_PER h) 19 0) }

/-- Bytes of service data per firing (R461). -/
def svcBytes (s : State) (h : Head) : Nat := s.nozzles h / 4

/-- The codes of packed bytes, four per byte (R461). -/
def unpackCodes (l : List Byte) : List Nat := l.flatMap fun b => [b.toNat % 4, b.toNat / 4 % 4, b.toNat / 16 % 4, b.toNat / 64]

/-- A service firing falls due (R461): it fires the buffered codes, or it is counted late. -/
def svcFire (s : State) (h : Head) : State :=
  match (s.head h).svc with
  | none => s
  | some (left, at_) =>
    let s := s.modHead h fun x =>
      { x with svc := if left ≤ 1 then none else some (left - 1, at_ + s.fld (Reg.HED_SVC_PER h) 19 0) }
    let n := s.svcBytes h
    if (s.head h).svcBuf.length < n then
      ((s.bump (Reg.HED_SVC_LATE h)).setFlag (Reg.HED_EVT h) 8).commit
    else
      let codes := unpackCodes ((s.head h).svcBuf.take n)
      let s := s.modHead h fun x => { x with svcBuf := x.svcBuf.drop n }
      s.pushFiring h (s.planFire h).2 .service codes

/-- A latch on lane n ends service firing at once (R461). -/
def endSvc (s : State) (h : Head) : State := s.modHead h fun x => { x with svc := none }

/-- The samples of bytes, least significant byte first. -/
def samplesOf : Nat → List Byte → List (BitVec 16)
  | 0, _ => []
  | f + 1, l => if l.length < 2 then [] else BitVec.ofNat 16 (u16 l 0) :: samplesOf f (l.drop 2)

/-- A burst that a channel with a request line moves reaches the buffer of the head port that raises the line's requests
(R340, R460, R461). -/
def deliver (s : State) (line : Nat) (b : List Byte) : State :=
  if 1 ≤ line ∧ line ≤ 4 then
    let h : Head := ⟨(line - 1) % 4, by omega⟩
    s.modHead h fun x => { x with stream := x.stream ++ samplesOf b.length b }
  else if 5 ≤ line ∧ line ≤ 8 then
    let h : Head := ⟨(line - 5) % 4, by omega⟩
    s.modHead h fun x => { x with svcBuf := x.svcBuf ++ b }
  else s

/-- The buffer behind a request line has room for the burst of one more request, `waiting` requests not yet served
(R460, R461). -/
def lineRoom (s : State) (line waiting : Nat) : Bool :=
  if 1 ≤ line ∧ line ≤ 4 then
    let h : Head := ⟨(line - 1) % 4, by omega⟩
    s.wfSrc h && s.hedReady h && decide ((s.head h).stream.length + 32 * (waiting + 1) ≤ 64)
  else if 5 ≤ line ∧ line ≤ 8 then
    let h : Head := ⟨(line - 5) % 4, by omega⟩
    (s.head h).svc.isSome && decide ((s.head h).svcBuf.length + 64 * (waiting + 1) ≤ 2 * s.svcBytes h)
  else false

end State
end Sys2Proof.Machine
end

