-- ==== Sys2Proof/Machine/Health.lean ====
section
/-! DEFINITION. Head health: the heater loop, the temperature band and compensation, drop-gate scans, the health map,
keep-wet bursts and fire counts (19_head_health R464-R486). -/

namespace Sys2Proof.Machine

/-- `HEAT` of `HLT_STATE_Hn` (R487). -/
def HeatState.code : HeatState → Nat
  | .idle => 0
  | .energyWait => 1
  | .warming => 2
  | .regulating => 3
  | .holding => 4
  | .tripped => 5
  | .paused => 6

namespace State

/-! ### Fields -/

def heatEn (s : State) (h : Head) : Bool := s.rbit (Reg.HLT_CTRL h) 0
def compEn (s : State) (h : Head) : Bool := s.rbit (Reg.HLT_CTRL h) 1
def spitEn (s : State) (h : Head) : Bool := s.rbit (Reg.HLT_CTRL h) 2
def dutyMax (s : State) (h : Head) : Nat := s.fld (Reg.HLT_LOOP h) 31 16

/-- The last code converted (R487). -/
def thermCode (s : State) (h : Head) : Nat := s.fld (Reg.HLT_TEMP h) 27 16

/-- The last in-range temperature, signed 0.1 °C. -/
def thermTemp (s : State) (h : Head) : Int := signed 16 (s.fld (Reg.HLT_TEMP h) 15 0)

/-- A code is in range (R465). -/
def inRange (s : State) (h : Head) (code : Nat) : Bool :=
  decide (s.fld (Reg.HLT_THLIM h) 11 0 ≤ code) && decide (code ≤ s.fld (Reg.HLT_THLIM h) 27 16)

/-- Entry `k` of `TTAB`. -/
def ttab (s : State) (h : Head) (k : Nat) : Int := signed 16 (s.fld (Reg.HLT_TTAB h k) 15 0)

/-- The temperature of a code (R465). -/
def tempOf (s : State) (h : Head) (code : Nat) : Int :=
  let k := code / 256
  s.ttab h k + (s.ttab h (k + 1) - s.ttab h k) * (code % 256 : Nat) / 256

/-- A HLT message with its flag; none while the unit is in block reset (R113, R487). -/
def hltRaise (s : State) (h : Head) (flag : Nat) (k : Kind) (addr : Word) : State :=
  if s.unitInReset (22 + h.val) then s else (s.setFlag (Reg.HLT_EVT h) flag).raiseLane k addr h

/-- The heater is allowed (R464). -/
def heatAllowed (s : State) (h : Head) : Bool :=
  (match (s.head h).state with
    | .power => true
    | .ready => true
    | .fault => true
    | _ => false) && (decide (s.pwr.state = .run) || decide (s.pwr.state = .service))

/-! ### The heater states -/

/-- The averaged duty (R466). -/
def averageDuty (s : State) (h : Head) : Nat :=
  let l := (s.health h).good
  if l.isEmpty then 0 else l.sum / l.length

/-- A heater transition: the state and its duty; the warm-up energy is debited when the state leaves WARMING (R464, R470). -/
def heatGo (s : State) (h : Head) (st : HeatState) (duty : Nat) : State :=
  let was := (s.health h).heat
  let s := if was = .warming ∧ st ≠ .warming then s.debitAll (.warm h) else s
  (s.modHealth h fun x =>
    { x with heat := st, duty := duty, dutyNext := duty,
             band := if st = .regulating then x.band else false,
             freeze := if st = .warming ∨ st = .regulating then x.freeze else none,
             hold := if st = .holding then x.hold else none }).commit

/-- A freeze window starts with the present code as its reference (R468). -/
def startFreeze (s : State) (h : Head) : State := s.modHealth h fun x => { x with freeze := some (s.tick, s.thermCode h) }

/-- The warm-up reservation is requested (R470). -/
def requestWarm (s : State) (h : Head) : State :=
  let e := (s.reg (Reg.HLT_EWARM h)).toNat
  if s.wouldGrant false e then
    ((((s.grant (.warm h) e).heatGo h .warming 0).modHealth h fun x => { x with acc := 0, warmAt := s.tick })).startFreeze h
  else s.refuse none

/-- The heater enters ENERGY_WAIT and requests its reservation (R464, R470). -/
def heatWait (s : State) (h : Head) : State :=
  ((s.heatGo h .energyWait 0).modHealth h fun x => { x with good := [] }).requestWarm h

/-- The heater starts from IDLE, from a reset or from PAUSED (R464, R486). -/
def heatStart (s : State) (h : Head) : State :=
  if s.heatAllowed h then s.heatWait h else s.heatGo h .paused 0

/-- A write of `HEAT_EN` (R464). -/
def heatEnable (s : State) (h : Head) (on : Bool) : State :=
  if on then (if (s.health h).heat = .idle then s.heatStart h else s)
  else if (s.health h).heat = .idle then s else s.heatGo h .idle 0

/-- The heater follows what is allowed (R464). -/
def trackHeat (s : State) (h : Head) : State :=
  match (s.health h).heat with
  | .idle => s
  | .tripped => s
  | .paused => if s.heatAllowed h then s.heatWait h else s
  | _ => if s.heatAllowed h then s else s.heatGo h .paused 0

/-- Every heater follows what is allowed. -/
def trackHeats (s : State) : State := allLanes.foldl (fun (s : State) (h : Head) => s.trackHeat h) s

/-- The heater enters HOLDING at the averaged duty; a band of IN gives `HLT.TEMP_BAND` directly after (R469, R471). -/
def enterHolding (s : State) (h : Head) (frozen : Option Nat) : State :=
  let was := (s.health h).band
  let s := s.heatGo h .holding (s.averageDuty h)
  let s := s.modHealth h fun x => { x with hold := some (s.tick, frozen, 0) }
  if was then s.hltRaise h 3 (Kind.tempBand h.val) (BitVec.ofInt 32 (s.thermTemp h)) else s

/-- The heater trips with `HLT.HEATER_OFF` (R469, R470). -/
def heaterOff (s : State) (h : Head) : State := (s.hltRaise h 2 (Kind.heaterOff h.val) 0).heatGo h .tripped 0

/-- `HEAT_RESTART` (R464). -/
def heatRestart (s : State) (h : Head) : State := if (s.health h).heat = .tripped then s.heatStart h else s

/-! ### The loop period -/

/-- The duty of a loop period (R466): `acc` and the duty that the next PWM period takes. -/
def piDuty (s : State) (h : Head) (err : Int) : Nat × Nat :=
  let dm : Int := s.dutyMax h
  let acc : Int := (s.health h).acc + err * (s.fld (Reg.HLT_PI h) 31 16 : Nat)
  let acc := if acc < 0 then 0 else if acc > dm * 256 then dm * 256 else acc
  let d := (err * (s.fld (Reg.HLT_PI h) 15 0 : Nat) + acc) / 256
  let d := if d < 0 then 0 else if d > dm then dm else d
  (acc.toNat, d.toNat)

/-- The freeze window at a loop period (R468): restarts on a changed code or a low duty. -/
def slideFreeze (s : State) (h : Head) : State :=
  let x := s.health h
  match x.freeze with
  | none => s.startFreeze h
  | some (_, ref) =>
    let c := s.thermCode h
    if ((c : Int) - ref).natAbs > 1 ∨ x.duty ≤ s.fld (Reg.HLT_FREEZE h) 31 16 then s.startFreeze h else s

/-- The error of the loop (R466). -/
def heatErr (s : State) (h : Head) : Int := signed 16 (s.fld (Reg.HLT_SET h) 15 0) - s.thermTemp h

/-- An in-range loop period in WARMING or REGULATING sets the duty (R466, R468). -/
def loopDuty (s : State) (h : Head) : State :=
  let (acc, d) := s.piDuty h (s.heatErr h)
  (s.slideFreeze h).modHealth h fun x => { x with acc := acc, dutyNext := d }

/-- The band at an in-range loop period (R471): the first band IN ends WARMING. -/
def bandStep (s : State) (h : Head) : State :=
  let x := s.health h
  let e := (s.heatErr h).natAbs
  let band := s.fld (Reg.HLT_SET h) 23 16
  if x.heat = .warming then
    if e ≤ band then
      let d := x.dutyNext
      (((s.heatGo h .regulating x.duty).modHealth h fun x => { x with band := true, dutyNext := d }).startFreeze h)
    else s
  else if x.band ∧ band + s.fld (Reg.HLT_SET h) 31 24 < e then
    (s.modHealth h fun x => { x with band := false }).hltRaise h 3 (Kind.tempBand h.val) (BitVec.ofInt 32 (s.thermTemp h))
  else if x.band = false ∧ e ≤ band then (s.modHealth h fun x => { x with band := true }).commit
  else s

/-- A loop period in HOLDING with an in-range code (R469). -/
def holdStep (s : State) (h : Head) : State :=
  match (s.health h).hold with
  | none => s
  | some (t, ref, n) =>
    let good := match ref with
      | some r => decide (((s.thermCode h : Int) - r).natAbs > 1)
      | none => decide (4 ≤ n + 1)
    if good then
      let d := (s.health h).duty
      ((s.heatGo h .regulating d).modHealth h fun x => { x with acc := d * 256 }).startFreeze h
    else s.modHealth h fun x => { x with hold := some (t, ref, n + 1) }

/-- New scales of an in-range loop period (R473). -/
def compensate (s : State) (h : Head) : State :=
  let dt : Int := s.thermTemp h - signed 16 (s.fld (Reg.HLT_COMP_REF h) 15 0)
  let ca := s.reg (Reg.HLT_COMP_A h)
  let ct := s.reg (Reg.HLT_COMP_T h)
  let amp : Int := (bits ca 15 0 : Nat) + signed 16 (bits ca 31 16) * dt / 256
  let tsc : Int := (bits ct 15 0 : Nat) + signed 16 (bits ct 31 16) * dt / 256
  let amp := if amp < 0x4000 then 0x4000 else if amp > 0xFFFF then 0xFFFF else amp
  let tsc := if tsc < 0x0800 then 0x0800 else if tsc > 0x2000 then 0x2000 else tsc
  let v := word (amp.toNat + tsc.toNat * 65536)
  if v = s.reg (Reg.HED_SCALE h) then s
  else if (s.tableFault h tsc.toNat).isSome ∧ s.tableFault h (s.tScale h) = none then (s.setFlag (Reg.HLT_EVT h) 8).commit
  else ((s.setReg (Reg.HED_SCALE h) v).checkTable h).commit

/-- What a loop period does in the present heater state (R464, R466-R471). -/
def loopState (s : State) (h : Head) (ok : Bool) (code : Nat) : State :=
  match (s.health h).heat, ok with
  | .energyWait, true => s.requestWarm h
  | .energyWait, false => (s.hltRaise h 0 (Kind.thermLost h.val) (word code)).heatGo h .tripped 0
  | .warming, true => (s.loopDuty h).bandStep h
  | .regulating, true => (s.loopDuty h).bandStep h
  | .warming, false => (s.hltRaise h 0 (Kind.thermLost h.val) (word code)).enterHolding h none
  | .regulating, false => (s.hltRaise h 0 (Kind.thermLost h.val) (word code)).enterHolding h none
  | .holding, true => s.holdStep h
  | .holding, false => s.modHealth h fun x => { x with hold := x.hold.map fun e => (e.1, e.2.1, 0) }
  | _, _ => s

/-- The scales follow the temperature in this heater state (R473). -/
def compensates (s : State) (h : Head) : Bool :=
  s.compEn h && decide ((s.health h).heat ≠ .holding) && decide ((s.health h).heat ≠ .tripped)

/-- A loop period with the code it converted (R465). -/
def loopPeriod (s : State) (h : Head) (code : Nat) : State :=
  if s.unitInReset (22 + h.val) then s
  else
    let ok := s.inRange h code
    let s := s.setFld (Reg.HLT_TEMP h) 27 16 code
    let s := s.setFld (Reg.HLT_TEMP h) 31 31 (b2n ok)
    let s := if ok then s.setFld (Reg.HLT_TEMP h) 15 0 (wrapInt 16 (s.tempOf h code)) else s
    let s := s.loopState h ok code
    if ok && s.compensates h then s.compensate h else s

/-- A PWM period ends (R466): a good period keeps its duty, and the new duty takes effect. -/
def pwmPeriod (s : State) (h : Head) : State :=
  match (s.health h).heat with
  | .warming => s.modHealth h fun x => { x with good := (x.duty :: x.good).take 64, duty := x.dutyNext }
  | .regulating => s.modHealth h fun x => { x with good := (x.duty :: x.good).take 64, duty := x.dutyNext }
  | _ => s

/-- The freeze window runs out (R468). -/
def freezeEnd (s : State) (h : Head) : State :=
  match (s.health h).freeze with
  | none => s
  | some (_, ref) => (s.hltRaise h 1 (Kind.thermFrozen h.val) (word (s.thermCode h))).enterHolding h (some ref)

/-- The tick at which the freeze window ends (R468). -/
def freezeDue (s : State) (h : Head) : Option Nat :=
  (s.health h).freeze.map fun e => e.1 + s.fld (Reg.HLT_FREEZE h) 15 0 * 10000000

/-- The tick at which `HOLD_T` expires (R469). -/
def holdDue (s : State) (h : Head) : Option Nat :=
  if (s.health h).heat = .holding then (s.health h).hold.map fun e => e.1 + s.fld (Reg.HLT_HOLD h) 15 0 * 10000000 else none

/-- The tick at which `WARM_MAX` expires (R470). -/
def warmDue (s : State) (h : Head) : Option Nat :=
  if (s.health h).heat = .warming then some ((s.health h).warmAt + s.fld (Reg.HLT_HOLD h) 31 16 * 100000000) else none

/-! ### The health map -/

/-- A map entry set. -/
def setEntry (s : State) (h : Head) (i : Nat) (v : BitVec 16) : State :=
  s.modHealth h fun x => { x with map := Tab.set (fun _ => 0) x.map i v }

/-- An owner write of a map entry (R480). -/
def writeEntry (s : State) (h : Head) (i : Nat) (v : Nat) : State :=
  let was := s.nozClass h i
  let s := s.setEntry h i (BitVec.ofNat 16 (v % 8192))
  if s.nozClass h i = 2 ∧ was ≠ 2 then s.hltRaise h 4 (Kind.nozzleFail h.val) (word i) else s

/-- The Loft offsets of the map and fire-count regions (R481, R485). -/
def mapOffset (h : Head) : Nat := 0x9000 + 0x1000 * h.val
def firesOffset (h : Head) : Nat := 0xD000 + 0x2000 * h.val

/-- A health-map region is valid (R481). -/
def mapRegionOk (h : Head) (b : List Byte) : Bool :=
  decide (u32 b 0 = 0x484E4C47) && decide (u16 b 4 = 1) && decide (u8 b 6 = h.val) && decide (u8 b 7 = 0) &&
    decide (u32 b 12 = 0) && (List.range 1024).all (fun i => decide (u16 b (16 + 2 * i) < 8192)) &&
    decide (u32 b 2064 = crc32c (b.take 2064))

/-- A sparse map of the values that `f` gives for indexes from `i` on. -/
def tabFrom {α : Type} [DecidableEq α] (z : α) (f : Nat → α) : Nat → Nat → Tab α
  | _, 0 => []
  | i, k + 1 => if f i = z then tabFrom z f (i + 1) k else (i, f i) :: tabFrom z f (i + 1) k

/-- The map that a region holds. -/
def readMap (b : List Byte) : Tab (BitVec 16) := tabFrom 0 (fun i => BitVec.ofNat 16 (u16 b (16 + 2 * i))) 0 1024

/-- The bytes of a map save (R481). -/
def mapBytes (s : State) (h : Head) : List Byte :=
  let l := bytesLE 4 0x484E4C47 ++ bytesLE 2 1 ++ [BitVec.ofNat 8 h.val, 0] ++ bytesLE 4 ((s.health h).mapSeq.toNat + 1) ++
    bytesLE 4 0 ++ (List.range 1024).flatMap fun i => bytesLE 2 (s.mapEntry h i).toNat
  l ++ bytesLE 4 (crc32c l) ++ List.replicate 44 0

/-- The map is loaded from a valid region (R481): false where the region fails its check. -/
def loadMap (s : State) (h : Head) : State × Bool :=
  let b := s.mem.loftBytes (mapOffset h) 2112
  if mapRegionOk h b then (s.modHealth h fun x => { x with map := readMap b, mapSeq := word (u32 b 8) }, true) else (s, false)

/-- A save of the map is requested (R481). -/
def saveMap (s : State) (h : Head) : State :=
  if s.stagedBusy (fun w => decide (w = .map h)) then (s.setFlag (Reg.HLT_EVT h) 9).commit
  else
    let (t, ok) := s.stageReserved (.map h) (mapOffset h) (s.mapBytes h)
    if ok then t.modHealth h fun x => { x with mapSeq := x.mapSeq + 1 } else (t.setFlag (Reg.HLT_EVT h) 9).commit

/-- `MAP_LOAD` (R481). -/
def mapLoad (s : State) (h : Head) : State :=
  let (t, ok) := s.loadMap h
  if ok then t else (t.setFlag (Reg.HLT_EVT h) 9).commit

/-- A fire-count region is valid (R485). -/
def fireRegionOk (h : Head) (b : List Byte) : Bool :=
  decide (u32 b 0 = 0x43464C47) && decide (u16 b 4 = 1) && decide (u8 b 6 = h.val) && decide (u8 b 7 = 0) &&
    decide (u32 b 12 = 0) && decide (u32 b 6160 = crc32c (b.take 6160))

/-- The count of a nozzle (R484). -/
def fireCount (s : State) (h : Head) (i : Nat) : Nat := (Tab.get (fun _ => (0 : BitVec 48)) (s.health h).fires i).toNat

/-- The bytes of a fire-count save (R485). -/
def fireBytes (s : State) (h : Head) : List Byte :=
  let l := bytesLE 4 0x43464C47 ++ bytesLE 2 1 ++ [BitVec.ofNat 8 h.val, 0] ++ bytesLE 4 ((s.health h).fireSeq.toNat + 1) ++
    bytesLE 4 0 ++ (List.range 1024).flatMap fun i => bytesLE 6 (s.fireCount h i)
  l ++ bytesLE 4 (crc32c l) ++ List.replicate 44 0

/-- The fire counts are loaded at bring-up (R485). -/
def loadFires (s : State) (h : Head) : State × Bool :=
  let b := s.mem.loftBytes (firesOffset h) 6208
  if fireRegionOk h b then
    (s.modHealth h fun x =>
      { x with fires := tabFrom 0 (fun i => BitVec.ofNat 48 (leBytes ((b.drop (16 + 6 * i)).take 6))) 0 1024,
               fireSeq := word (u32 b 8) }, true)
  else (s, false)

/-- A save of the fire counts falls due (R485). -/
def saveFires (s : State) (h : Head) : State :=
  if (s.health h).firesDirty = false ∨ s.unitInReset (22 + h.val) ∨ s.stagedBusy (fun w => decide (w = .fires h)) then s
  else
    let (t, ok) := s.stageReserved (.fires h) (firesOffset h) (s.fireBytes h)
    if ok then t.modHealth h fun x => { x with fireSeq := x.fireSeq + 1, firesDirty := false }
    else (t.setFlag (Reg.HLT_EVT h) 9).commit

/-- The regions of a head are loaded at bring-up (R481, R485). -/
def loadHealth (s : State) (h : Head) : State :=
  let (s, m) := s.loadMap h
  let (s, f) := s.loadFires h
  (s.setFld Reg.HLT_LOFT_STAT h.val h.val (b2n m)).setFld Reg.HLT_LOFT_STAT (8 + h.val) (8 + h.val) (b2n f)

/-! ### Scans -/

/-- A scan or a keep-wet burst runs. -/
def scanning (s : State) (h : Head) : Bool := (s.health h).scan.isSome
def spitting (s : State) (h : Head) : Bool := (s.health h).burst.isSome

/-- The nozzles of a scan, in frame order, without the RETIRED ones (R474, R475). -/
def scanList (s : State) (h : Head) : List Nat :=
  let first := s.fld (Reg.HLT_SCAN h) 9 0
  let last := s.fld (Reg.HLT_SCAN h) 25 16
  ((List.range (last + 1 - first)).map (first + ·)).filter fun i => decide (s.nozClass h i ≠ 3)

/-- The SCAN command, its conditions checked (R474, R475); `level` is the lowest of four conversions of the gate. -/
def startScan (s : State) (h : Head) (level : Nat) : State :=
  if level < s.fld (Reg.HLT_GATE h) 27 16 then s.hltRaise h 5 (Kind.gateFail h.val) 0
  else
    let at_ := s.tick + s.fld (Reg.HLT_SCAN_PER h) 19 0
    let l := s.scanList h
    s.modHealth h fun x =>
      { x with scan := some ⟨l, s.fld (Reg.HLT_SCAN_SHOT h) 7 0, at_, [], if l.isEmpty then some at_ else none, []⟩ }

/-- The codes of a frame in which one nozzle fires. -/
def oneNozzle (s : State) (h : Head) (i code : Nat) : List Nat :=
  (List.range (s.nozzles h)).map fun k => if k = i then code else 0

/-- A scan after one shot of its first nozzle (R475). -/
def nextShot (c : Scan) (per nshots : Nat) : Scan :=
  if c.shots ≤ 1 then { c with todo := c.todo.drop 1, shots := nshots, nextAt := c.nextAt + per }
  else { c with shots := c.shots - 1, nextAt := c.nextAt + per }

/-- A shot falls due (R475). -/
def shoot (s : State) (h : Head) : State :=
  match (s.health h).scan with
  | none => s
  | some c =>
    match c.todo with
    | [] => s
    | i :: _ =>
      let ready := s.hedReady h
      let f := if ready then (s.planFire h).2 else s.tick + headDelay
      let s := if ready then s.pushFiring h f (.shot i) (s.oneNozzle h i (s.fld (Reg.HLT_SCAN h) 29 28)) else s
      let gs := s.fld (Reg.HLT_GWIN h) 15 0
      let ge := s.fld (Reg.HLT_GWIN h) 31 16
      let d := nextShot c (s.fld (Reg.HLT_SCAN_PER h) 19 0) (s.fld (Reg.HLT_SCAN_SHOT h) 7 0)
      let ws := c.windows.filter fun w => decide (s.tick ≤ w.2.2.1)
      s.modHealth h fun x =>
        { x with scan := some { d with windows := if ready then ws ++ [(i, f + gs, f + ge, false)] else ws,
                                       endAt := if d.todo.isEmpty then some (f + ge) else none } }

/-- A hit of a nozzle. -/
def addHit (l : List (Nat × Nat)) (i : Nat) : List (Nat × Nat) :=
  if l.any (fun e => e.1 == i) then l.map fun e => if e.1 = i then (i, e.2 + 1) else e else l ++ [(i, 1)]

/-- An accepted fall at the gate (R475): every open window that has not scored takes a hit. -/
def gateFall (s : State) (h : Head) : State :=
  match (s.health h).scan with
  | none => s
  | some c =>
    let on := fun (w : Nat × Nat × Nat × Bool) => decide (w.2.1 ≤ s.tick) && decide (s.tick ≤ w.2.2.1) && !w.2.2.2
    let hits := (c.windows.filter on).foldl (fun l w => addHit l w.1) c.hits
    s.modHealth h fun x =>
      { x with scan := some { c with windows := c.windows.map fun w => if on w then (w.1, w.2.1, w.2.2.1, true) else w, hits := hits } }

/-- Hits of a nozzle in a scan. -/
def hitsOf (l : List (Nat × Nat)) (i : Nat) : Nat := ((l.find? fun e => e.1 == i).map (·.2)).getD 0

/-- The class that a scan gives (R476). -/
def scanClass (s : State) (h : Head) (hits : Nat) : Nat :=
  if s.fld (Reg.HLT_SCAN_SHOT h) 15 8 ≤ hits then 0
  else if hits ≤ s.fld (Reg.HLT_SCAN_SHOT h) 23 16 then 2
  else 1

/-- The classes of a scan are applied to the map (R476). -/
def applyScan (s : State) (h : Head) (res : List (Nat × Nat × Nat)) : State :=
  let was := fun i => s.nozClass h i
  let s := res.foldl (fun (s : State) (e : Nat × Nat × Nat) =>
    s.setEntry h e.1 ((s.mapEntry h e.1 &&& 0xFFFC) ||| BitVec.ofNat 16 e.2.1)) s
  let s := s.modHealth h fun x => { x with scan := none, hits := res.foldl (fun t e => Tab.set (fun _ => 0) t e.1 e.2.2) x.hits }
  let n := fun c => (res.filter fun e => decide (e.2.1 = c)).length
  let s := ((s.setReg (Reg.HLT_SCAN_RES h) (word (n 2 + n 1 * 65536))).setFlag (Reg.HLT_EVT h) 6).commit
  let s := res.foldl (fun (s : State) (e : Nat × Nat × Nat) =>
    if e.2.1 = 2 ∧ was e.1 ≠ 2 then s.hltRaise h 4 (Kind.nozzleFail h.val) (word e.1) else s) s
  if res.any (fun e => decide (e.2.1 ≠ was e.1)) then s.saveMap h else s

/-- The scan end (R476). -/
def scanEnd (s : State) (h : Head) : State :=
  match (s.health h).scan with
  | none => s
  | some c =>
    let res := (s.scanList h).map fun i => (i, s.scanClass h (hitsOf c.hits i), hitsOf c.hits i)
    if 8 ≤ res.length ∧ (res.all fun e => decide (e.2.1 = 2)) = true then
      (s.modHealth h fun x => { x with scan := none }).hltRaise h 5 (Kind.gateFail h.val) 0
    else s.applyScan h res

/-- A latch ends a scan without results (R477). -/
def abortScan (s : State) (h : Head) : State :=
  if s.scanning h then ((s.modHealth h fun x => { x with scan := none }).setFlag (Reg.HLT_EVT h) 7).commit else s

/-! ### Keep-wet bursts -/

/-- A burst may start (R482). -/
def mayBurst (s : State) (h : Head) : Bool :=
  s.spitEn h && s.hedReady h && !s.unitInReset (22 + h.val) && (s.printing h).isNone && !s.scanning h && !s.spitting h &&
    (s.head h).svc.isNone

/-- A keep-wet burst starts, where it may (R482, R483). -/
def startBurst (s : State) (h : Head) : State :=
  if s.mayBurst h then
    let e := (s.reg (Reg.HLT_ESPIT h)).toNat
    let s := s.modHealth h fun x => { x with idleFrom := s.tick, spat := true }
    if s.wouldGrant false e then
      (s.grant (.spit h) e).modHealth h fun x => { x with burst := some ⟨0, s.tick + s.fld (Reg.HLT_SPIT_PER h) 19 0⟩ }
    else (((s.refuse none).setFlag (Reg.HLT_EVT h) 10).bump (Reg.HLT_SPIT_SKIPS h)).commit
  else s

/-- The tick at which the wait before the next burst ends (R482). -/
def spitDue (s : State) (h : Head) : Option Nat :=
  if s.spitEn h && s.hedReady h && !s.spitting h then
    let x := s.health h
    some (x.idleFrom + (if x.spat then s.fld (Reg.HLT_SPIT h) 31 16 else s.fld (Reg.HLT_SPIT h) 15 0) * 100000)
  else none

/-- The end of that wait (R482); a burst that may not start leaves the wait to run again. -/
def spitWaitEnd (s : State) (h : Head) : State :=
  if s.mayBurst h then s.startBurst h else s.modHealth h fun x => { x with idleFrom := s.tick }

/-- The codes of keep-wet firing `g` (R483). -/
def spitCodes (s : State) (h : Head) (g : Nat) : List Nat :=
  let w := s.reg (Reg.HLT_SPIT_B h)
  let n := bits w 15 12
  (List.range (s.nozzles h)).map fun i => if s.nozClass h i ≤ 1 ∧ i % n = g % n then bits w 9 8 else 0

/-- A burst ends (R483). -/
def endBurst (s : State) (h : Head) : State :=
  if s.spitting h then ((s.debitAll (.spit h)).modHealth h fun x => { x with burst := none }).commit else s

/-- A keep-wet firing falls due (R483). -/
def spitFire (s : State) (h : Head) : State :=
  match (s.health h).burst with
  | none => s
  | some b =>
    let s := if s.hedReady h then s.pushFiring h (s.planFire h).2 .spit (s.spitCodes h b.g) else s
    if s.fld (Reg.HLT_SPIT_B h) 7 0 ≤ b.g + 1 then s.endBurst h
    else s.modHealth h fun x => { x with burst := some ⟨b.g + 1, b.nextAt + s.fld (Reg.HLT_SPIT_PER h) 19 0⟩ }

/-- A latch on lane n ends what it must not share the head with (R461, R477, R483). -/
def latchHead (s : State) (h : Head) : State := ((s.abortScan h).endBurst h).endSvc h

/-- An emission on lane n restarts the keep-wet wait (R482). -/
def emitted (s : State) (h : Head) : State := s.modHealth h fun x => { x with idleFrom := s.tick, spat := false }

/-! ### Products -/

/-- What R472 and R479 make of a record that latches: UNMARKED, SUSPECT, or nothing. -/
def healthVerdict (s : State) (h : Head) : Option Verdict :=
  let x := s.health h
  if s.heatEn h then
    match x.heat with
    | .energyWait => some .unmarked
    | .warming => some .unmarked
    | .paused => some .unmarked
    | .holding => some .suspect
    | .tripped => some .suspect
    | .regulating => if x.band && decide (s.uncovered h = 0) then none else some .suspect
    | .idle => if s.uncovered h = 0 then none else some .suspect
  else if s.uncovered h = 0 then none
  else some .suspect

/-- A block reset of HLTn (R486). -/
def resetHealth (s : State) (h : Head) : State :=
  let s := ((s.release (.warm h)).release (.spit h)).modHealth h fun x => { x with scan := none, burst := none, heat := .idle, duty := 0, dutyNext := 0, band := false, freeze := none, hold := none }
  s

/-- The heater state machine is entered again after the block reset (R486). -/
def resetHealthDone (s : State) (h : Head) : State := if s.heatEn h then s.heatStart h else s

end State
end Sys2Proof.Machine
end

