-- ==== Sys2Proof/Machine/Reject.lean ====
section
/-! DEFINITION. Reject outputs and line signals: the rejecting conditions and the driven level, gate actions and windows,
forced rejects and their release, readback, LIVE, READY and IRQ_OUT (20_reject_line R488-R501; 02_determinism R64;
06_reset_straps_absence R169). -/

namespace Sys2Proof.Machine

namespace Ev
def readback (n : Lane) : Nat := 44 + n.val
end Ev

namespace State

/-! ### Fields -/

def rejOut (s : State) (n : Lane) : Nat := s.fld (Reg.REJ_CFG n) 1 0
def rejPulse (s : State) (n : Lane) : Bool := s.rbit (Reg.REJ_CFG n) 4
def rejTime (s : State) (n : Lane) : Bool := s.rbit (Reg.REJ_CFG n) 5
def rejLevel (s : State) (n : Lane) : Bool := s.rbit (Reg.REJ_CFG n) 6
def rejRb (s : State) (n : Lane) : Bool := s.rbit (Reg.REJ_CFG n) 7
def rejWidth (s : State) (n : Lane) : Nat := s.fld (Reg.REJ_WIDTH n) 15 0
def rejGap (s : State) (n : Lane) : Nat := s.fld (Reg.REJ_WIDTH n) 31 16
def bypass (s : State) (n : Lane) : Bool := s.rbit (Reg.REJ_CTRL n) 0
def inhEn (s : State) (n : Lane) : Bool := s.rbit (Reg.REJ_CTRL n) 1
def gateDist (s : State) (n : Lane) : Nat := s.fld (Reg.REJ_GATE n) 23 0

/-- A `FORCE` bit of the lane is 1 (R493). -/
def forced (s : State) (n : Lane) : Bool := (s.rejLane n).forceOverrun || (s.rejLane n).forceFull

/-- The lane is OPEN or CLOSING (R506). -/
def shut (s : State) (n : Lane) : Bool := decide (s.laneState n = .open_) || decide (s.laneState n = .closing)

/-! ### The output -/

/-- The output of the lane is rejecting (R491, R501, R506); it is so from chip reset until the lane has a job (R169). -/
def rejecting (s : State) (n : Lane) : Bool :=
  (s.rejLane n).window.isSome || s.forced n || (s.rejLane n).span.isSome || (s.rejLane n).spanDue ||
    s.unitInReset 34 || s.shut n

/-- The VIO outputs are driven: the core runs, VIO stands, and the scan logic does not own the pins (R163, R174, R548). -/
def pinsDriven (s : State) : Bool := s.coreOn && s.boot.vioOk && !s.boot.scanHeld

/-- The level driven on the lane's output; none while it is undriven (R488). -/
def rejDrive (s : State) (n : Lane) : Option Bool :=
  if s.fitted n && s.pinsDriven then
    if s.rejecting n then (if s.rejPulse n then some (s.rejLevel n) else none)
    else some (if s.rejPulse n then !s.rejLevel n else s.rejLevel n)
  else none

/-- The output follows its conditions; each change of the driven level is sampled 200 ticks later (R491, R496). SLEEP holds
the level. -/
def trackRej (s : State) (n : Lane) : State :=
  if s.pwr.state = .sleep ∨ s.rejDrive n = (s.rejLane n).drive then s
  else
    let d := s.rejDrive n
    (s.modRejLane n fun x => { x with drive := d, rbAt := if d.isSome then some (s.tick + 200) else none }).emit
      (.pin ("REJ" ++ toString (s.rejOut n)) d)

/-- Every lane's output follows its conditions. -/
def trackRejs (s : State) : State := allLanes.foldl (fun (s : State) (n : Lane) => s.trackRej n) s

/-! ### Windows and gate actions -/

/-- The end that a window starting now has (R490). -/
def windowEnd (s : State) (n : Lane) : WinEnd :=
  if s.rejTime n then .time (s.tick + s.rejWidth n * 10000) else .pos ((s.lane n).pc + BitVec.ofNat 48 (s.rejWidth n))

/-- A window that starts now starts before the merge limit of the latest one (R490). -/
def merges (s : State) (n : Lane) : Bool :=
  match s.rejTime n, (s.rejLane n).lastEnd with
  | true, some (.time t) => decide (s.tick < t + s.rejGap n * 10000)
  | false, some (.pos p) => !pcGe (s.lane n).pc (p + BitVec.ofNat 48 (s.rejGap n))
  | _, _ => false

/-- A rejecting outcome starts a window, or moves the end of the one it merges with (R490). -/
def startWindow (s : State) (n : Lane) : State :=
  let m := s.merges n && s.rejPulse n
  let e := s.windowEnd n
  let s := (s.modRejLane n fun x => { x with window := some e, lastEnd := some e }).commit
  if m then (s.setFlag (Reg.REJ_EVT n) 1).raise Kind.pulseMerge (word (s.rejOut n)) else s

/-- The next record of the lane at its gate: the oldest whose gate position the high-water mark has reached (R265, R489). -/
def atGate (s : State) (n : Lane) : Option Rec := (s.lane n).recs.find? fun r => pcGe (s.lane n).hwm r.gate

/-- An outcome that the gate passes (R28). -/
def gatePasses (v : Verdict) : Bool := decide (v = .marked) || decide (v = .bypassed)

/-- The gate action of a final record (R489): it is counted and freed, and a rejecting outcome starts a window. -/
def passGate (s : State) (n : Lane) (r : Rec) : State :=
  if gatePasses r.verdict then
    let s := if s.rejecting n then s.bump (Reg.REJ_CNT_COVERED n) else s
    ((s.bump (Reg.REJ_CNT_PASS n)).freeRec n r).commit
  else ((s.bump (Reg.REJ_CNT_REJ n)).freeRec n r).startWindow n

/-- The gate action of the lane: nothing while no final record stands at the gate. -/
def gateAction (s : State) (n : Lane) : State :=
  match s.atGate n with
  | some r => if r.state = .final then s.passGate n r else s
  | none => s

/-- The tick at which a window in time ends. -/
def windowDue (s : State) (n : Lane) : Option Nat :=
  match (s.rejLane n).window with
  | some (.time t) => some t
  | _ => none

/-- The window of the lane ends, where its end has come (R490). -/
def endWindow (s : State) (n : Lane) : State :=
  let beyond := match (s.rejLane n).window with
    | some (.time t) => decide (t ≤ s.tick)
    | some (.pos p) => pcGe (s.lane n).hwm p
    | none => false
  if beyond then (s.modRejLane n fun x => { x with window := none }).commit else s

/-- The unrecorded span of the lane ends, where its end has come (R169). -/
def endSpan (s : State) (n : Lane) : State :=
  match (s.rejLane n).span with
  | some p => if pcGe (s.lane n).pc p then (s.modRejLane n fun x => { x with span := none }).commit else s
  | none => s

/-- A span that waits for a job starts once the lane has one (R169). -/
def startSpans (s : State) : State :=
  allLanes.foldl (fun (s : State) (n : Lane) =>
    if (s.rejLane n).spanDue && decide (s.maxRate n ≠ 0) && s.coreOn && !s.unitInReset (14 + n.val) && !s.unitInReset 34 then
      (s.startSpan n).commit else s) s

/-! ### Forced reject and release -/

/-- Lane n uses the rank 1 input of an index of R43 (R493). -/
def usesInput (s : State) (n : Lane) (i : Nat) : Bool :=
  let enc (e : Nat) := decide (s.laneEnc n = some (if e = 0 then (0 : Enc) else 1)) ||
    (match s.carryAxis n with | some x => decide (s.axMaster x = e) | none => false)
  if i ≤ 2 then enc 0
  else if i ≤ 5 then enc 1
  else if i ≤ 7 then decide (s.fld (Reg.PLC_SRC n) 2 0 = 3 + (i - 6))
  else if i ≤ 11 then decide (s.carryAxis n = some (if i % 2 = 0 then (4 : Axis) else 5))
  else if 18 ≤ i ∧ i ≤ 21 then decide (s.fld (Reg.PLC_PE n) 1 0 = i - 18)
  else if 22 ≤ i ∧ i ≤ 25 then decide (n.val = i - 22)
  else if 26 ≤ i ∧ i ≤ 29 then decide (n.val = i - 26)
  else decide (i = 30) && s.inhEn n

/-- A forced reject starts, at the commit of the message that the caller makes next (R493). -/
def force (s : State) (n : Lane) (full : Bool) : State :=
  (s.modRejLane n fun x => if full then { x with forceFull := true } else { x with forceOverrun := true }).setFlag (Reg.REJ_EVT n) 3

/-- A pin event found the admission queue of its input full (R64): it is discarded, and every lane that uses the input
rejects until the owner releases it. -/
def admitOverrun (s : State) (i : Nat) : State :=
  (allLanes.foldl (fun (s : State) (n : Lane) => if s.fitted n && s.usesInput n i then s.force n false else s) s).raise
    Kind.admitOverrun (word i)

/-- The release of a forced reject (R494): no effect while no `FORCE` bit is 1. -/
def releaseForce (s : State) (n : Lane) : State :=
  if s.forced n then (s.modRejLane n fun x => { x with forceOverrun := false, forceFull := false }).startSpan n else s

/-! ### Readback -/

/-- The tick of the next readback sample (R496). -/
def readbackDue (s : State) (n : Lane) : Option Nat :=
  if s.rejRb n && (s.rejLane n).drive.isSome then
    let p := s.dueAt (Ev.readback n) s.boot.doneAt 100000
    match (s.rejLane n).rbAt with
    | some t => some (if s.booted then min t p else t)
    | none => if s.booted then some p else none
  else none

/-- A readback sample of the lane's ball (R496). -/
def readbackSample (s : State) (n : Lane) (level : Bool) : State :=
  match (s.rejLane n).drive with
  | some d =>
    let o := s.rejOut n
    let s := (s.setFired (Ev.readback n) s.tick).modRej fun r =>
      { r with pins := BitVec.ofNat 4 ((r.pins.toNat &&& (15 - 2 ^ o)) + (if level then 2 ^ o else 0)) }
    let was := (s.rejLane n).rbDiffers
    let s := s.modRejLane n fun x => { x with rbAt := none, rbDiffers := level != d }
    if level != d && !was then (s.setFlag (Reg.REJ_EVT n) 0).raise Kind.readback (word o) else s
  | none => s

/-! ### Line signals -/

/-- Half a period of LIVE in ticks (R497). -/
def liveHalf (s : State) : Nat := 50000000 / s.fld Reg.REJ_LINE_CFG 8 0

/-- A LIVE edge falls due: it is emitted, or dropped where the commit arbiter was late (R497). -/
def liveEdge (s : State) (late : Bool) : State :=
  match s.rej.liveAt with
  | none => s
  | some t =>
    let s := s.modRej fun r => { r with liveAt := some (t + s.liveHalf) }
    if late then s.bump Reg.REJ_LIVE_DROP
    else
      let v := !s.rej.live
      ((s.modRej fun r => { r with live := v }).emit (.pin "LIVE" (some v))).commit

/-- LIVE starts with a rising edge (R167, R497, R501). -/
def startLive (s : State) : State :=
  (s.modRej fun r => { r with live := true, liveAt := some (s.tick + s.liveHalf) }).emit (.pin "LIVE" (some true))

/-- Lane n is ready (R498). -/
def laneReady (s : State) (n : Lane) : Bool :=
  if s.bypass n && !s.forced n then true
  else
    decide (s.laneState n = .inService) && decide (s.maxRate n ≠ 0) && s.hedReady n && !(s.head n).wfBad &&
      (!s.heatEn n || (s.health n).band) && (match s.carryAxis n with | some x => s.cycleReady x | none => true) &&
      (s.laneSlot n).isSome && !s.forced n

/-- READY is high (R498). -/
def readyCond (s : State) : Bool :=
  s.booted && decide (s.pwr.state = .run) &&
    allLanes.all fun n => !s.fitted n || !s.rbit Reg.REJ_LINE_CFG (12 + n.val) || s.laneReady n

/-- The action word of an event of a timer lets its flag contribute (R253). -/
def tmrIrq (s : State) : Bool :=
  allTimers.any fun t => ([0, 1, 2, 3, 4] : List Nat).any fun k => s.rbit (Reg.TMR_STAT t) k && bit (s.tmAct t k) 24

/-- Some channel's flag contributes (R353, R376). -/
def hstIrq (s : State) : Bool :=
  allChans.any fun c =>
    let w := s.reg (Reg.HST_EVT c)
    bit w 1 || bit w 2 || ((bit w 0 || bit w 8) && s.rbit (Reg.HST_CFG c) 30)

/-- `REJ_IRQ_SRC` (R500). -/
def irqSrc (s : State) : Nat := b2n s.fltIrq + 2 * b2n s.tmrIrq + 4 * b2n s.hstIrq

/-- IRQ_OUT is asserted (R500). -/
def irqCond (s : State) : Bool := decide (s.irqSrc &&& s.fld Reg.REJ_IRQ_MASK 2 0 ≠ 0)

/-- A line signal takes the level of its condition. -/
def trackPin (s : State) (now was : Bool) (put : Rej → Rej) (ball : String) (level : Option Bool) : State :=
  if now = was then s else (s.modRej put).emit (.pin ball level)

/-- READY, IRQ_OUT and ERR_OUT follow their conditions (R120, R498, R500); IRQ_OUT is an open drain. -/
def trackLine (s : State) : State :=
  let s := s.trackPin s.readyCond s.rej.ready (fun x => { x with ready := s.readyCond }) "READY" (some s.readyCond)
  let s := s.trackPin s.irqCond s.rej.irq (fun x => { x with irq := s.irqCond }) "IRQ_OUT" (if s.irqCond then some false else none)
  s.trackPin s.errActive s.rej.err (fun x => { x with err := s.errActive }) "ERR_OUT" (some s.errActive)

/-! ### Inhibit and block reset -/

/-- An accepted change of INHIBIT_N (R495). -/
def inhibitChange (s : State) (level : Bool) : State := s.modRej fun r => { r with inhibit := level }

/-- A block reset of REJ starts (R501): every window ends, and each lane's span waits for the reset's completion. -/
def resetRej (s : State) : State :=
  allLanes.foldl (fun (s : State) (n : Lane) =>
    s.modRejLane n fun x => { x with window := none, lastEnd := none, span := none, spanDue := s.fitted n, rbAt := none }) s

end State
end Sys2Proof.Machine
end

