-- ==== Sys2Proof/Machine/Product.lean ====
section
/-! DEFINITION. The course of a product: photo-eye edges, the latch and its checks in order, column emissions, the stall
window and late commits (10_placement R271-R286; 01_on_the_line R33; 16_compositor R411; 18_head_firing R446, R452;
19_head_health R472; 20_reject_line R492, R495). -/

namespace Sys2Proof.Machine
namespace State

/-! ### Creation -/

/-- The stamp of a new record's trigger and latch point (R276). -/
def trigPos (s : State) (n : Lane) (edge : Pc) : Pc := edge + BitVec.ofNat 48 (s.fld (Reg.PLC_TRIG n) 23 0)

/-- `lead_pc` (R276). -/
def leadPc (s : State) (n : Lane) : Nat := (s.fld (Reg.PLC_LEAD n) 10 0 * (s.reg (Reg.PLC_PITCH n)).toNat) >>> 16

/-- A record made from a photo-eye edge at the present count (R273, R275, R276). -/
def newRec (s : State) (n : Lane) : Rec :=
  let edge := (s.lane n).pc
  let trigger := s.trigPos n edge
  { slot := (s.lane n).nextSlot, serial := s.reg (Reg.PLC_SERIAL n) + 1, state := .created, verdict := .pending, cause := 0,
    edge := edge, trigger := trigger, latch := trigger - BitVec.ofNat 48 (s.leadPc n),
    gate := trigger + BitVec.ofNat 48 (s.gateDist n), columns := 0, job := 0, pitch := 0, latchAt := 0, eFix := 0, eCol := 0, col := 0, last := 0, skips := 0,
    counted := false, abandoned := false, set := none, ring := none }

/-- The record is created: a commit; where LOS of the source encoder is active it is SUSPECT (R269). -/
def createRec (s : State) (n : Lane) : State :=
  let r := s.newRec n
  let r := if s.losHold n then r.propose .suspect Cause.position else r
  let s := s.modLane n fun l => { l with recs := l.recs ++ [r], nextSlot := (l.nextSlot + 1) % 128, lastEdge := some r.edge }
  ((s.setReg (Reg.PLC_SERIAL n) r.serial).commit).storeRec n r

/-- The count is at least `HOLDOFF` above the previous record's edge stamp (R271). -/
def heldOff (s : State) (n : Lane) : Bool :=
  let h := s.fld (Reg.PLC_HOLDOFF n) 23 0
  match (s.lane n).lastEdge with
  | some e => decide (h ≠ 0) && !pcGe (s.lane n).pc (e + BitVec.ofNat 48 h)
  | none => false

/-- The second, third and fourth conditions of R271 hold. -/
def mayCreate (s : State) (n : Lane) : Bool :=
  decide (s.laneState n = .inService) && decide (s.maxRate n ≠ 0) && decide ((s.lane n).pc = (s.lane n).hwm) && !s.heldOff n

/-- The edge is of the kind and on the ball that the lane selects (R271). -/
def peSelected (s : State) (n : Lane) (p : Fin 4) (rising : Bool) : Bool :=
  s.rbit (Reg.PLC_PE n) 8 && decide (s.fld (Reg.PLC_PE n) 1 0 = p.val) && edgeOf (s.fld (Reg.PLC_PE n) 5 4) rising

/-- 128 records are in flight (R272). -/
def recordsFull (s : State) (n : Lane) : State :=
  let edge := BitVec.setWidth 32 (s.lane n).pc
  ((s.force n true).setFlag (Reg.PLC_EVT n) 1).raiseLane (Kind.recordsFull n.val) edge n

/-- A selected photo-eye edge (R271, R272, R287). -/
def peEdge (s : State) (n : Lane) : State :=
  if s.unitInReset (14 + n.val) || !s.mayCreate n then s.bump (Reg.PLC_PE_IGNORED n)
  else if (s.lane n).recs.length < 128 then s.createRec n
  else s.recordsFull n

/-- An accepted change of a photo-eye ball (R271). -/
def photoEye (s : State) (p : Fin 4) (level : Bool) : State :=
  let old := s.plc.pe[p]
  let s := s.modPlc fun q => { q with pe := q.pe.set p level }
  if old == level then s
  else allLanes.foldl (fun (s : State) (n : Lane) => if s.peSelected n p level then s.peEdge n else s) s

/-! ### The latch -/

/-- Of the records a predicate selects, the one with the lowest position, then the lowest serial number (R265). -/
def earliest (sel : Rec → Bool) (pos : Rec → Pc) : List Rec → Option Rec
  | [] => none
  | r :: rest =>
    match earliest sel pos rest with
    | none => if sel r then some r else none
    | some q => if sel r && pcGe (pos q) (pos r) then some r else some q

/-- The record whose latch is due (R265). -/
def latchNext (s : State) (n : Lane) : Option Rec :=
  earliest (fun r => decide (r.state = .created) && pcGe (s.lane n).hwm r.latch) (·.latch) (s.lane n).recs

/-- The latched set as it stands (R278, R423, R430). -/
def freeze (s : State) (n : Lane) : LatchSet :=
  { job := s.reg (Reg.PLC_JOB n), markBase := s.reg (Reg.PLC_MARK_BASE n), gcache := s.reg (Reg.CMP_GCACHE n),
    text := (List.range 64).map fun k => s.reg (Reg.CMP_TEXT (64 * n.val + k)),
    shelf := s.reg (Reg.CAL_SHELF n), dateOvr := s.reg (Reg.CAL_DATE_OVR n), day := s.cal.day, second := s.cal.second,
    calSet := s.cal.isSet, shift := s.shiftCode, counters := (List.range 16).map fun k => s.cntView k }

/-- The last column position of the lane's previous record that left or will leave a mark (R276, R495). -/
def prevLast (s : State) (n : Lane) (r : Rec) : Option Pc :=
  match ((s.lane n).recs.takeWhile fun q => !decide (q.serial = r.serial)).reverse.find? fun q => q.marks with
  | some q => some q.lastPos
  | none => (s.lane n).lastCol

/-- The record latches: LATCHED, with its columns, job, pitch and latched set (R273, R276, R278). -/
def takeLatch (s : State) (n : Lane) (r : Rec) : State :=
  let r := { r with state := .latched, columns := (s.lane n).cols, job := BitVec.ofNat 8 (s.fld (Reg.PLC_JOB n) 31 24),
                    pitch := (s.reg (Reg.PLC_PITCH n)).toNat, set := some (s.freeze n), latchAt := (s.lane n).pc,
                    eFix := (s.reg (Reg.PWR_MARK n)).toNat, eCol := s.fld (Reg.PWR_MARKCOL n) 15 0 }
  let s := if (s.lane n).outside then s.bump (Reg.DEV_ENV_COUNT n) else s
  s.commit.storeRec n r

/-- What a check at the latch makes of a record (R282, R300, R411, R446, R472, R492, R495). -/
inductive LatchStop where
  | bypass
  /-- Gate-short (R492). -/
  | short
  /-- Overlap (R276). -/
  | overlap
  /-- UNMARKED with a cause and nothing more. -/
  | cause (k : Nat)
  /-- The slot does not serve the product, with the message of R411. -/
  | slot
  deriving DecidableEq, Repr

/-- INHIBIT_N or `BYPASS` bypasses the record (R495). -/
def bypassed (s : State) (n : Lane) : Bool := s.bypass n || (s.inhEn n && !s.rej.inhibit)

/-- The first check that stops a record at its latch (R282, R276, R300, R411, R446, R472, R492, R495). -/
def latchStop (s : State) (n : Lane) (r : Rec) : Option LatchStop :=
  if s.bypassed n then some .bypass
  else if s.maxRate n = 0 then some (.cause Cause.noJob)
  else if !pcGt r.gate r.lastPos then some .short
  else if (match s.prevLast n r with | some p => !pcGt r.trigger p | none => false) then some .overlap
  else if (match s.carryAxis n with | some x => !s.cycleReady x | none => false) then some (.cause Cause.axis)
  else match s.slotReady n r.columns with
    | none => some (.cause Cause.content)
    | some false => some .slot
    | some true =>
      if !s.hedReady n || (s.head n).wfBad then some (.cause Cause.head)
      else if s.healthVerdict n = some .unmarked then some (.cause Cause.health)
      else none

/-- A record that is stopped at its latch becomes final. -/
def stopLatch (s : State) (n : Lane) (r : Rec) (why : LatchStop) : State :=
  match why with
  | .bypass => s.closeRec n { r with verdict := if r.verdict = .pending then .bypassed else r.verdict }
  | .short => ((s.bump (Reg.REJ_CNT_SHORT n)).setFlag (Reg.REJ_EVT n) 2).unmark n r Cause.overlap
  | .overlap => (s.bump (Reg.PLC_OVERLAP n)).unmark n r Cause.overlap
  | .cause k => s.unmark n r k
  | .slot =>
    let s := s.unmark n r Cause.content
    s.raiseLane Kind.cmpLate (BitVec.setWidth 32 r.trigger) n

/-- A record of a lane, by its serial number, changed while it is not final. -/
def whileLatched (s : State) (n : Lane) (serial : Word) (f : State → Rec → State) : State :=
  match s.findRec n serial with
  | some r => if r.state = .latched then f s r else s
  | none => s

/-- The conditions that make a latched record SUSPECT (R33, R269, R472, R479). -/
def latchSuspects (s : State) (n : Lane) (serial : Word) : State :=
  let s := s.whileLatched n serial fun s r =>
    if s.healthVerdict n = some .suspect then s.proposeRec n r .suspect Cause.health else s
  let s := s.whileLatched n serial fun s r =>
    if (s.lane n).outside && s.rbit Reg.DEV_ENV_CTRL n.val then s.proposeRec n r .suspect Cause.envelope else s
  s.whileLatched n serial fun s r => if s.losHold n then s.proposeRec n r .suspect Cause.position else s

/-- The energy of a mark (R137). -/
def markEnergy (r : Rec) : Nat := r.eFix + r.columns * r.eCol

/-- What follows the grant: the counters step, the carriage cycle and the render start (R300, R412, R430). -/
def afterGrant (s : State) (n : Lane) (env : MemEnv) (r : Rec) : State :=
  let s := s.stepCounters n
  let s := match s.carryAxis n with | some x => (s.startCycle x).camPoint x | none => s
  s.startRender n r env

/-- The reservation of a mark (R27, R136, R137). -/
def reserveMark (s : State) (n : Lane) (env : MemEnv) (r : Rec) : State :=
  let e := markEnergy r
  if s.wouldGrant true e then (s.grant (.mark n r.serial) e).afterGrant n env r
  else (s.unmark n r Cause.refused).refuse (some n)

/-- The checks at the latch, then the reservation (R273, R278). -/
def latchChecks (s : State) (n : Lane) (env : MemEnv) (r : Rec) : State :=
  match s.latchStop n r with
  | some why => s.stopLatch n r why
  | none => (s.latchSuspects n r.serial).whileLatched n r.serial fun s r => s.reserveMark n env r

/-- The latch of the next record that is due (R278): it ends a scan, a burst and service firing of the head first. -/
def latch (s : State) (n : Lane) (env : MemEnv) : State :=
  match s.latchNext n with
  | none => s
  | some r => ((s.latchHead n).takeLatch n r).whileLatched n r.serial fun s r => s.latchChecks n env r

/-! ### Emissions -/

/-- The record whose next column is due, and that column's number (R265): a LATCHED record enters the print window with
its column 0. -/
def columnNext (s : State) (n : Lane) : Option Rec :=
  earliest (fun r => (decide (r.state = .latched) || decide (r.state = .printing)) && pcGe (s.lane n).hwm (r.pos r.col))
    (fun r => r.pos r.col) (s.lane n).recs

/-- The debit of emission `k` (R138). -/
def debitColumn (s : State) (n : Lane) (r : Rec) (k : Nat) : State :=
  s.debit (.mark n r.serial) (if k = 0 then r.eFix + r.eCol else r.eCol)

/-- The emission is made: it is a commit, it is stamped into the record, and the keep-wet wait restarts (R22, R275, R482). -/
def stampColumn (s : State) (n : Lane) (r : Rec) (k : Nat) : State :=
  let r := { r with state := .printing, col := k + 1, last := (s.lane n).pc }
  (((s.debitColumn n r k).commit).emitted n).storeRec n r

/-- The last column has been emitted: the record becomes final (R273, R274). -/
def finishMark (s : State) (n : Lane) (serial : Word) (k : Nat) : State :=
  match s.findRec n serial with
  | some r => if r.state = .printing ∧ k + 1 = r.columns then s.closeRec n r else s
  | none => s

/-- What the head port makes of the emission (R449-R454); `link` tells of a HEAD link failure at it (R443). -/
def emitColumn (s : State) (n : Lane) (r : Rec) (k : Nat) (link : Bool) (env : MemEnv) : State :=
  if link then s.linkFault n k
  else
    let ring := match r.ring with | some start => s.columnAddr n start k | none => 0
    match s.decideColumn n r k ring env with
    | (s, .fired) => s
    | (s, .skipped) => (match s.findRec n r.serial with | some r => s.skipColumn n r | none => s)
    | (s, .late) => s.fireLate n r.serial k

/-- Emission `k` of a record that prints. -/
def printColumn (s : State) (n : Lane) (r : Rec) (link : Bool) (env : MemEnv) : State :=
  let k := r.col
  let s := s.stampColumn n r k
  match s.findRec n r.serial with
  | some q => if q.state = .printing then (s.emitColumn n q k link env).finishMark n r.serial k else s
  | none => s

/-- The next column of the lane falls due (R452). Column 0 is preceded by the render commit (R414). -/
def columnDue (s : State) (n : Lane) (done link : Bool) (env : MemEnv) : State :=
  match s.columnNext n with
  | none => s
  | some r =>
    match r.state with
    | .latched =>
      let s := s.renderCommit n r done env
      (match s.findRec n r.serial with
       | some r => if r.state = .latched then s.printColumn n r link env else s
       | none => s)
    | _ => s.printColumn n r link env

/-! ### Stall and late commits -/

/-- The end of the lane's stall window (R284). -/
def stallDue (s : State) (n : Lane) : Option Nat :=
  if (s.lane n).stallDone then none else some ((s.lane n).countAt + s.fld (Reg.PLC_LIMITS n) 13 0 * 10000)

/-- The stall window ends (R284): a mark in the print window is abandoned, and its head spits. -/
def stallEnd (s : State) (n : Lane) : State :=
  let s := s.modLane n fun l => { l with stallDone := true }
  match s.printing n with
  | none => s
  | some r =>
    let s := s.abandon n r Cause.stall
    let s := (s.setFlag (Reg.PLC_EVT n) 2).raiseLane (Kind.stall n.val) (BitVec.setWidth 32 (s.lane n).hwm) n
    s.startBurst n

/-- The most recently latched record that is still LATCHED and whose trigger lies above the present count (R280). -/
def lateRec (s : State) (n : Lane) : Option Rec :=
  (s.lane n).recs.reverse.find? fun r => decide (r.state = .latched) && pcGt r.trigger (s.lane n).pc

/-- A commit to the latched set of the lane is late (R280). -/
def commitLate (s : State) (n : Lane) : State :=
  match s.lateRec n with
  | none => s
  | some r =>
    let p := (s.lane n).pc.toNat
    let q := r.latchAt.toNat
    let s := (s.setReg (Reg.PLC_LATE_CMT_LO n) (word p)).setReg (Reg.PLC_LATE_CMT_HI n) (word (p / 2 ^ 32))
    let s := (s.setReg (Reg.PLC_LATE_LATCH_LO n) (word q)).setReg (Reg.PLC_LATE_LATCH_HI n) (word (q / 2 ^ 32))
    (s.setFlag (Reg.PLC_EVT n) 0).raiseLane (Kind.commitLate n.val) (word q) n

end State
end Sys2Proof.Machine
end

