-- ==== Sys2Proof/Machine/Hatch.lean ====
section
/-! DEFINITION. The Hatch: lane states and their commands, the self-check, NEW_HEAD, and lease transfers
(21_hatch R503-R514). -/

namespace Sys2Proof.Machine

/-- `STATE` of `HAT_LANE_STATE_Ln` (R519). -/
def LaneState.code : LaneState → Nat
  | .open_ => 0
  | .closing => 1
  | .inService => 2
  | .draining => 3

namespace State

/-! ### Transitions -/

/-- The tick at which `CLOSE_WAIT` of a lane ends. -/
def closeEnd (s : State) (n : Lane) : Option Nat := s.hat.closeEnd[n]

/-- A lane changes state: one commit, with its flag and its STATE item (R503). -/
def toLane (s : State) (n : Lane) (st : LaneState) : State :=
  let old := s.laneState n
  let s := (s.setLaneState n st).modHat fun h => { h with closeEnd := h.closeEnd.set n none }
  let s := match st with
    | .inService => s.setFlag (Reg.HAT_LANE_EVT n) 1
    | .open_ => s.setFlag (Reg.HAT_LANE_EVT n) 2
    | _ => s
  s.commit.stateItem 2 (some n) old.code st.code

/-- A lane enters OPEN: its deferred writes are discarded (R65, R503). -/
def enterOpen (s : State) (n : Lane) : State := (s.toLane n .open_).discardDeferred n

/-- A lane enters IN_SERVICE from CLOSING: its unrecorded span starts, and the hold-off begins anew (R271, R508). -/
def enterService (s : State) (n : Lane) : State :=
  ((s.toLane n .inService).modLane n fun l => { l with lastEdge := none }).startSpan n

/-! ### The self-check -/

/-- The bit of a condition that fails. -/
def failBit (ok : Bool) (k : Nat) : Nat := if ok then 0 else 2 ^ k

/-- The areas and channel that the lane's slot must hold (R507 bits [2] to [4]). -/
def checkSlot (s : State) (n : Lane) (k : Fin 4) : Nat :=
  let base := (s.reg (Reg.CMP_RING_BASE n)).toNat
  let stage := (s.reg (Reg.CMP_STAGE n)).toNat
  failBit (decide (base ≠ 0) && s.areaHeld (holdSlot k) base (s.ringCols n * s.colBytes n)) 2 +
    failBit (decide (stage ≠ 0) && s.areaHeld (holdSlot k) stage 16384) 3 +
    failBit (match s.renderChan n with | some c => s.holds (holdSlot k) (resChan c) | none => false) 4

/-- The delay store that lagging rows need (R507 bit [5]). -/
def delayOk (s : State) (n : Lane) : Bool :=
  ((List.range (s.hedRows n)).all fun r => decide ((s.rowGeom n r).lag = 0)) ||
    s.areaHeld (holdHed n) (s.reg (Reg.HED_DELAY_BASE n)).toNat (256 * s.colBytes n)

/-- The axis that carries the lane (R507 bit [8]). -/
def carryOk (s : State) (n : Lane) : Bool :=
  match s.carryAxis n with
  | none => true
  | some x => s.holds (holdPlc n) (resAxis x) && s.cycleReady x

/-- The timer whose overflow the lane counts (R507 bit [9]). -/
def sourceOk (s : State) (n : Lane) : Bool :=
  if s.fld (Reg.PLC_SRC n) 2 0 = 5 then
    let t : TimerId := ⟨s.fld (Reg.PLC_SRC n) 7 4 % 16, by omega⟩
    s.holds (holdPlc n) (resTimer t) && s.tmRun t
  else true

/-- The sources whose retirement keeps the lane out of service (R507 bit [10]). -/
def noneRetired (s : State) (n : Lane) : Bool :=
  ([14 + n.val, 18 + n.val, 22 + n.val] ++ (match s.carryAxis n with | some x => [26 + x.val] | none => [])).all fun k =>
    decide (s.srcState k ≠ 2)

/-- The failing conditions of the self-check (R507). -/
def checkBits (s : State) (n : Lane) : Nat :=
  failBit (s.areaHeld (holdPlc n) (s.reg (Reg.PLC_REC_BASE n)).toNat 4096) 0 +
    (match s.laneSlot n with | some k => s.checkSlot n k | none => 2 + 4 + 8 + 16) +
    failBit (s.delayOk n) 5 + failBit (s.hedReady n && !(s.head n).wfBad) 6 +
    failBit (!s.heatEn n || (s.health n).band) 7 + failBit (s.carryOk n) 8 + failBit (s.sourceOk n) 9 +
    failBit (s.noneRetired n) 10

/-- The self-check of a CLOSING lane is evaluated: it passes, or `HAT_CHECK_Ln` shows what fails (R507). -/
def evaluate (s : State) (n : Lane) : State :=
  let b := s.checkBits n
  let s := s.setReg (Reg.HAT_CHECK n) (word b)
  if b = 0 then s.enterService n else s

/-- A DRAINING lane without a record enters OPEN; a CLOSING lane is checked again (R503, R507). -/
def trackLane (s : State) (n : Lane) : State :=
  match s.laneState n with
  | .draining => if (s.lane n).recs.isEmpty && !s.unitInReset (14 + n.val) then s.enterOpen n else s
  | .closing => s.evaluate n
  | _ => s

/-- Every lane's state follows its records and its self-check; nothing happens while HAT is held in reset. -/
def trackLanes (s : State) : State :=
  if s.coreOn && !s.unitInReset 35 then allLanes.foldl (fun (s : State) (n : Lane) => s.trackLane n) s else s

/-- `CLOSE_WAIT` ends with a check failing (R507). -/
def closeFail (s : State) (n : Lane) : State :=
  if s.laneState n = .closing then
    ((s.setFlag (Reg.HAT_LANE_EVT n) 0).raiseLane Kind.selfCheck (word n.val) n).enterOpen n
  else s

/-! ### Commands -/

/-- OPEN (R505): the records end and are discarded, and so is the deferred queue. -/
def laneOpen (s : State) (n : Lane) : State :=
  match s.laneState n with
  | .open_ => s
  | .closing => s.enterOpen n
  | _ => ((s.endRecords n Cause.noJob).discardRecs n).enterOpen n

/-- DRAIN (R504). -/
def laneDrain (s : State) (n : Lane) : State := if s.laneState n = .inService then s.toLane n .draining else s

/-- CLOSE (R504, R507). -/
def laneClose (s : State) (n : Lane) : State :=
  if s.laneState n = .open_ then
    (s.toLane n .closing).modHat fun h => { h with closeEnd := h.closeEnd.set n (some (s.tick + s.fld Reg.HAT_CTRL 15 0 * 10000000)) }
  else s

/-- NEW_HEAD (R509). -/
def newHead (s : State) (n : Lane) : State :=
  let s := (s.modHealth n fun x => { x with fires := [], map := [], firesDirty := true }).commit
  (s.saveMap n).saveFires n

/-- A lane command is accepted, or the code that refuses it (R504). `k` is its bit. -/
def laneRefusal (s : State) (n : Lane) (k : Nat) : Option Code :=
  if !s.fitted n then some .badValue
  else
    let st := s.laneState n
    match k with
    | 0 => if st = .open_ ∨ st = .closing then some .busy else none
    | 1 => none
    | 2 => if st = .inService ∨ st = .draining then some .busy else none
    | _ => if st = .open_ ∧ s.scanning n = false then none else some .busy

/-- The command has no effect in the lane's state (R504). -/
def laneIdle (s : State) (n : Lane) (k : Nat) : Bool :=
  match k with
  | 0 => decide (s.laneState n = .draining)
  | 1 => decide (s.laneState n = .open_)
  | 2 => decide (s.laneState n = .closing)
  | _ => false

/-- A lane command by its bit (R504). -/
def laneCommand (s : State) (n : Lane) (k : Nat) : State :=
  match k with
  | 0 => s.laneDrain n
  | 1 => s.laneOpen n
  | 2 => s.laneClose n
  | _ => s.newHead n

/-! ### Transfers -/

/-- Every lane to which the holders belong is OPEN (R513). -/
def lanesOpen (s : State) (a b : Byte) : Bool :=
  ([s.laneOf a, s.laneOf b].filterMap id).all fun n => decide (s.laneState n = .open_)

/-- Some lane that is not OPEN satisfies a condition. -/
def liveLane (s : State) (p : Lane → Bool) : Bool := allLanes.any fun n => decide (s.laneState n ≠ .open_) && p n

/-- A channel may move (R513). -/
def chanMoves (s : State) (c : Chan) (open_ : Bool) : Bool :=
  (decide ((s.chan c).state = .disabled) || (decide ((s.chan c).state = .idle) && (s.chan c).pendStart.isNone)) &&
    (open_ || (decide (s.chReqLine c = 0) && !s.liveLane fun n => decide (s.renderChan n = some c)))

/-- A timer may move (R513). -/
def timerMoves (s : State) (t : TimerId) (open_ : Bool) : Bool :=
  !s.tmRun t &&
    (open_ ||
      (!(s.liveLane fun n => decide (s.fld (Reg.PLC_SRC n) 2 0 = 5) && decide (s.fld (Reg.PLC_SRC n) 7 4 = t.val)) &&
        !(allTimers.any fun u => s.tmRun u && (decide (s.tmLink u = t) || (decide (s.tmSrc u = 11) && decide (s.tmOvfSrc u = t.val))))))

/-- An axis may move (R513). -/
def axisMoves (s : State) (x : Axis) (open_ : Bool) : Bool :=
  (decide ((s.axis x).state = .disabled) || decide ((s.axis x).state = .idle)) && (open_ || !s.rbit (Reg.MOT_CFG x) 12)

/-- The condition of R513 for resource `r` and the new holder `b`. -/
def transferOk (s : State) (r : Nat) (b : Byte) : Bool :=
  let open_ := s.lanesOpen (s.holder r) b
  if h : 16 ≤ r ∧ r < 40 then s.chanMoves ⟨r - 16, by omega⟩ open_
  else if h : 44 ≤ r ∧ r < 60 then s.timerMoves ⟨r - 44, by omega⟩ open_
  else if h : 60 ≤ r ∧ r < 66 then s.axisMoves ⟨r - 60, by omega⟩ open_
  else open_

/-- The transfer of resource `r` to `b` (R513): nothing where `b` holds it already. -/
def transfer (s : State) (r : Nat) (b : Byte) : State :=
  if s.holder r = b then s else s.setLease r { s.lease r with holder := b }

end State
end Sys2Proof.Machine
end

