-- ==== Sys2Proof/Machine/Pantry.lean ====
section
/-! DEFINITION. The Pantry: classification, reservoir samples, charging, power states, HOLD and SLEEP
(05_pantry R129-R150; 02_determinism R41; 09_timers R257). What a chip reset does is in Machine/Lifecycle.lean. -/

namespace Sys2Proof.Machine

/-- The `PWR_STATE` codes (R151). -/
def PowerState.code : PowerState → Nat
  | .off => 0
  | .classify => 1
  | .charge => 2
  | .service => 3
  | .run => 4
  | .hold => 5
  | .sleep => 6
  | .dark => 7

/-- The power at the powered device of clause 104 for classes 10 to 15, in mW (R130: the manual gives class 15 alone). -/
def classPower (c : Nat) : Nat := [1230, 3200, 8400, 7700, 20000, 52000].getD (c - 10) 1230

/-- Decoded straps from eight conversions each, in millivolts (R153, R155). -/
def strapLevel (mv : Nat) : Nat :=
  if mv < 50 then 0 else if mv < 150 then 1 else if mv < 285 then 2 else if mv < 475 then 3 else if mv < 770 then 4
  else if mv < 1260 then 5 else if mv ≤ 2000 then 6 else 7

/-- The level that occurs most often; a tie goes to the lower one (R155). -/
def decodeStrap (conv : List Nat) : Strap :=
  let l := conv.map strapLevel
  let count (k : Nat) := (l.filter (· == k)).length
  let best := (List.range 8).foldl (fun b k => if count k > count b then k else b) 0
  ⟨BitVec.ofNat 3 best, decide (count best < l.length)⟩

namespace State

/-! ### Fields -/

def vFloor (s : State) : Nat := s.fld Reg.PWR_RES_LOW 15 0
def vDark (s : State) : Nat := s.fld Reg.PWR_RES_LOW 31 16
def vRun (s : State) : Nat := s.fld Reg.PWR_RES_HIGH 15 0
def vFull (s : State) : Nat := s.fld Reg.PWR_RES_HIGH 31 16
def iMax (s : State) : Nat := s.fld Reg.PWR_INCAP 31 16
def ifsMa (s : State) : Nat := s.fld Reg.PWR_SENSE 31 16

/-! ### Transitions -/

/-- The straps are sampled (R152). -/
def sampleStraps (s : State) (conv : List (List Nat)) : State :=
  s.modBoot fun b => { b with straps := Vector.ofFn fun i => decodeStrap (conv.getD i.val []) }

/-- `PD_ISO_EN` in a power state (R140). -/
def isoEn (p : PowerState) : Bool :=
  match p with
  | .charge => true
  | .service => true
  | .run => true
  | .sleep => true
  | _ => false

/-- The Pantry changes state: a commit with its STATE item while the core runs (R140, R207). -/
def goPwr (s : State) (p : PowerState) : State :=
  let old := s.pwr.state
  let s := s.modPwr fun q => { q with state := p }
  let s := if isoEn p = isoEn old then s else s.emit (.pin "PD_ISO_EN" (some (isoEn p)))
  if s.coreOn then s.commit.stateItem 1 none old.code p.code else s

/-- `RAIL_EN` takes a level. -/
def setRail (s : State) (v : Bool) : State :=
  if s.pwr.railEn = v then s else (s.modPwr fun p => { p with railEn := v }).emit (.pin "RAIL_EN" (some v))

/-- The Pantry enters CHARGE with the granted class (R130, R140). -/
def enterCharge (s : State) : State :=
  let g := if s.pwr.classRead then s.offered else 10
  let s := (s.setFld Reg.PWR_INPUT 15 0 (classPower g)).modPwr fun p =>
    { p with granted := g, chargeK := 0, fullStop := false, duty := 0 }
  s.goPwr .charge

/-- `PD_PGOOD` goes high (R140): CHARGE from CLASSIFY, or from DARK with the straps sampled anew (R152). -/
def pgoodHigh (s : State) (conv : List (List Nat)) : State :=
  let s := s.modPwr fun p => { p with pgood := true }
  match s.pwr.state with
  | .classify => s.enterCharge
  | .dark => (s.sampleStraps conv).enterCharge
  | _ => s

/-! ### The charger -/

/-- The charger runs in this state (R140). -/
def charging (s : State) : Bool := isoEn s.pwr.state

/-- `i_set` of a sample of `v` mV, the `V_FULL` stop included (R133). -/
def chargeSet (s : State) (v : Nat) : Nat × Bool :=
  let cap := min (s.fld Reg.PWR_INCAP 15 0) (s.fld Reg.PWR_INPUT 15 0)
  let i := if v = 0 then s.iMax else min (cap * s.fld Reg.PWR_INPUT 25 16 / v) s.iMax
  let k := s.pwr.chargeK
  let i := if s.pwr.state = .charge ∧ k ≤ 200 then min i (s.iMax * k / 200) else i
  let stop := if v ≥ s.vFull then true else if v + 50 < s.vFull then false else s.pwr.fullStop
  (if stop then 0 else i, stop)

/-- The charge current of a sample (R133): true where the charger charges at it. -/
def chargeStep (s : State) (v : Nat) : State × Bool :=
  if s.charging then
    let s := s.modPwr fun p => { p with chargeK := p.chargeK + 1 }
    let (i, stop) := s.chargeSet v
    let duty := min (if s.ifsMa = 0 then 65535 else i * 65535 / s.ifsMa) 65535
    (s.modPwr fun p => { p with duty := duty, fullStop := stop }, decide (i ≠ 0))
  else (s.modPwr fun p => { p with duty := 0, fullStop := false }, false)

/-- A measurement ends (R134): `C_MEAS`, and `CAP_LOW` below 80 % of `C_CFG`. -/
def measure (s : State) (q : BitVec 64) : State :=
  let c := q.toInt / (10 * ((s.vRun : Int) - (s.vFloor : Int)))
  let c := if c < 0 then 0 else min c.toNat 65535
  let s := (s.setFld Reg.PWR_RES_CAP 31 16 c).modPwr fun p => { p with capQ := none, capArmed := false }
  if c * 100 < s.fld Reg.PWR_RES_CAP 15 0 * 80 ∧ s.coreOn = true then (s.setFlag Reg.PWR_EVT 3).commit else s

/-- The capacitance measurement at a sample (R134). -/
def capStep (s : State) (v : Nat) (i : BitVec 16) (on : Bool) : State :=
  if v < s.vFloor then s.modPwr fun p => { p with capQ := none, capArmed := true }
  else match s.pwr.capQ with
    | some q =>
      if !on then s.modPwr fun p => { p with capQ := none, capArmed := false }
      else if v ≥ s.vRun then s.measure q
      else s.modPwr fun p => { p with capQ := some (q + BitVec.signExtend 64 i) }
    | none =>
      if s.pwr.capArmed then
        if v ≥ s.vRun then s.measure 0
        else s.modPwr fun p => { p with capQ := some (BitVec.signExtend 64 i), capArmed := false }
      else s

/-! ### HOLD -/

/-- The Pantry enters HOLD (R140, R143): the entry and its message, then heaters, keep-wet spitting and the charger stop. -/
def enterHold (s : State) : State :=
  let from_ := if s.pwr.state = .sleep then .run else s.pwr.state
  let s := s.bumpFld Reg.PWR_COUNTS 15 0
  let s := (s.modPwr fun p => { p with holdFrom := from_, backCount := 0, parked := false, duty := 0 }).goPwr .hold
  if s.coreOn then
    let s := (s.setFlag Reg.PWR_EVT 0).raise Kind.pwrInputLost (word s.vLow)
    allLanes.foldl (fun (s : State) (h : Head) => s.endBurst h) s
  else s

/-- Every flying carriage has parked (R143). -/
def parkDone (s : State) : Bool := s.pwr.parked && !(allAxes.any fun x => (s.axis x).parking)

/-- Parking (R143): once no mark reservation is live, each flying carriage parks and HV_EN is released. -/
def park (s : State) : State :=
  if s.pwr.state = .hold ∧ s.coreOn = true ∧ s.markLive = false ∧ s.pwr.parked = false then
    let s := s.modPwr fun p => { p with parked := true }
    let s := allAxes.foldl (fun (s : State) (x : Axis) => if s.rbit (Reg.MOT_CFG x) 12 then s.parkAxis x else s) s
    allLanes.foldl (fun (s : State) (h : Head) => s.hedPark h true) s
  else s

/-- Heads that are parked enter POWER (R443). -/
def unparkHeads (s : State) : State := allLanes.foldl (fun (s : State) (h : Head) => s.hedUnpark h) s

/-- The input has returned and parking is complete (R140, R146). -/
def leaveHold (s : State) : State :=
  let s := s.modPwr fun p => { p with parked := false, backCount := 0, chargeK := 0, fullStop := false }
  let s := (if s.coreOn then s.setFlag Reg.PWR_EVT 1 else s).goPwr s.pwr.holdFrom
  match s.pwr.state with
  | .charge => s
  | _ => s.unparkHeads

/-! ### SLEEP -/

/-- The session timers restart with a full period (R213). -/
def restartKeepalive (s : State) : State :=
  allSess.foldl (fun (s : State) (i : Sess) =>
    if (s.sess i).bound then s.modSess i fun x => { x with refreshed := s.tick, sentAt := s.tick, evtSentAt := s.tick } else s) s

/-- Entry to SLEEP (R150, R174, R257, R302, R330, R443): axes stop, TOUT pins go low, heads park. -/
def enterSleep (s : State) : State :=
  let s := s.goPwr .sleep
  let s := allAxes.foldl (fun (s : State) (x : Axis) => s.sleepAxis x) s
  let s := s.modTmr fun t => { t with toutSaved := BitVec.ofNat 4 (s.fld Reg.TMR_TOUT 3 0) }
  let s := ([0, 1, 2, 3] : List Nat).foldl (fun s p => s.toutLevel p false) s
  let s := allLanes.foldl (fun (s : State) (h : Head) => s.hedPark h false) s
  s.modPwr fun p => { p with slowTicks := 0 }

/-- The GL4480 wakes after `slow` SLOW32K ticks (R41, R150, R257-R259): the tick and the timers are made up, then RUN. -/
def wake (s : State) (slow cause : Nat) : State :=
  let add := slow * 390625 / 128
  let crossed := decide ((s.tick + add) / 100000 ≠ s.tick / 100000) || decide (add ≠ 0)
  let s := { s with tick := s.tick + add }
  let s := allLanes.foldl (fun (s : State) (n : Lane) => if crossed then s.modLane n fun l => { l with madeUp := true } else s) s
  let s := allTimers.foldl (fun (s : State) (t : TimerId) => s.makeUp slow t) s
  let s := (s.setReg Reg.PWR_WAKE_CAUSE (word (2 ^ cause))).setFlag Reg.PWR_EVT 4
  let saved := s.tmr.toutSaved
  let s := (s.modPwr fun p => { p with slowTicks := slow }).goPwr .run
  let s := ([0, 1, 2, 3] : List Nat).foldl (fun s p => s.toutLevel p (saved.toNat.testBit p)) s
  let s := (s.modRej fun r => { r with liveAt := r.liveAt.map fun _ => s.tick + s.liveHalf }).restartKeepalive
  s.reportMissed.unparkHeads

/-- A wake source is enabled (R150). -/
def wakes (s : State) (k : Nat) : Bool :=
  decide (k = 5) || decide (k = 6) || (decide (k < 5) && s.rbit Reg.PWR_WAKE_EN k)

/-- A wake by source `k` after `slow` SLOW32K ticks; nothing outside SLEEP or where the source is not enabled. -/
def wakeBy (s : State) (slow k : Nat) : State :=
  if s.pwr.state = .sleep ∧ s.wakes k = true then s.wake (min slow 0xFFFFFFFF) k else s

/-! ### Owner requests -/

/-- A product record is in flight on some lane (R142). -/
def anyRecord (s : State) : Bool := allLanes.any fun n => !(s.lane n).recs.isEmpty

/-- A request for a power state is refused with `BUSY` (R142). -/
def pwrBusy (s : State) (target : Nat) : Bool :=
  let st := s.pwr.state
  if st.code = target then false
  else match target with
    | 3 => decide (st ≠ .run) || s.markLive
    | 4 => decide (st ≠ .service) || decide (s.strapMode = 2) || (match s.vLed with | some v => decide (v < s.vRun) | none => true)
    | _ => decide (st ≠ .run) || s.markLive || s.anyRecord

/-- An accepted request takes effect (R142). -/
def pwrRequest (s : State) (target : Nat) : State :=
  if s.pwr.state.code = target then s
  else match target with
    | 3 => s.goPwr .service
    | 4 => s.goPwr .run
    | _ => s.enterSleep

/-! ### Samples -/

/-- `v_mv`, `i_ma` and `b_mv` of a sample (R131). -/
def convert (s : State) (v : BitVec 12) (i : BitVec 12) (b : BitVec 12) : Nat × BitVec 16 × Nat :=
  let vfs := s.fld Reg.PWR_SENSE 15 0
  (v.toNat * vfs / 4096, BitVec.ofInt 16 (i.toInt * (s.ifsMa : Int) / 2048), b.toNat * vfs / 4096)

/-- The sample is recorded; one that is admitted joins the ledger's four, and ages the spent pool (R131, R132, R138). -/
def recordSample (s : State) (v : Nat) (i : BitVec 16) (b : Nat) (pgood : Bool) : State :=
  s.modPwr fun p =>
    { p with vNow := v, iNow := i, bNow := b, pgood := pgood, classRead := p.classRead && pgood,
             samples := if s.ticking then (v :: p.samples).take 4 else p.samples,
             spent := if s.ticking then agePool p.spent else p.spent }

/-- The input is lost at a sample (R141). -/
def inputLost (s : State) : Bool := !s.pwr.pgood || decide (s.pwr.bNow < s.fld Reg.PWR_BUS 15 0)

/-- A sample in CHARGE (R140): back to CLASSIFY or on to HOLD where the input fails, the rails at `V_FLOOR`, and RUN or
SERVICE once bring-up is complete. -/
def sampleCharge (s : State) : State :=
  if !s.pwr.railEn && !s.pwr.pgood then (s.modPwr fun p => { p with retry := false }).goPwr .classify
  else if s.pwr.railEn && s.inputLost then s.enterHold
  else if !s.pwr.railEn then (if !s.pwr.retry && decide (s.vFloor ≤ s.pwr.vNow) then s.setRail true else s)
  else match s.vLed with
    | some v => if s.booted && decide (s.vRun ≤ v) then s.goPwr (if s.strapMode = 2 then .service else .run) else s
    | none => s

/-- A sample in HOLD (R140, R141, R144, R146): the input's return is counted; true where the Pantry must enter DARK. -/
def sampleHold (s : State) : State × Bool :=
  let s := s.modPwr fun p => { p with backCount := if s.inputLost then 0 else p.backCount + 1 }
  if s.pwr.vNow ≤ s.vDark then
    if s.pwr.finalCkpt.isSome then (s, false)
    else if s.coreOn then
      ((s.modPwr fun p => { p with finalCkpt := some (s.tick + 1000000) }).ckptFinal, false)
    else (s, true)
  else if s.pwr.finalCkpt.isNone && decide (s.fld Reg.PWR_BUS 31 16 * 10 < s.pwr.backCount) && (s.parkDone || !s.coreOn) then
    (s.leaveHold, false)
  else (s, false)

/-- What a sample makes of the power state; true where the Pantry must enter DARK with cause 1 (R140-R146). -/
def sampleState (s : State) : State × Bool :=
  match s.pwr.state with
  | .charge => (s.sampleCharge, false)
  | .service => (if s.inputLost then s.enterHold else s, false)
  | .run => (if s.inputLost then s.enterHold else s, false)
  | .sleep => (if s.inputLost then (s.wake s.pwr.slowTicks 5).enterHold else s, false)
  | .hold => s.sampleHold
  | _ => (s, false)

/-- A sample set of the Pantry (R131-R146). -/
def sample (s : State) (v i b : BitVec 12) (pgood : Bool) : State × Bool :=
  let (vm, im, bm) := s.convert v i b
  let s := s.recordSample vm im bm pgood
  let (s, on) := s.chargeStep vm
  (s.capStep vm im on).sampleState

end State
end Sys2Proof.Machine
end

