-- ==== Sys2Proof/Machine/Lifecycle.lean ====
section
/-! DEFINITION. The life of the core: how a reset starts, what it leaves, how chip reset completes, and the power-on reset
and DARK (06_reset_straps_absence R160-R166, R174, R550; 05_pantry R144, R149; 04_fault_collector R114, R127). -/

namespace Sys2Proof.Machine
namespace State

/-! ### The First Bin -/

/-- The First Bin group as it stands: head, address, order stamp and placement stamp (R115, R126). -/
def binWords (s : State) : List Word :=
  match s.rbit Reg.FLT_BIN_STAT 0, s.flt.bin with
  | true, some m =>
    let b := faultRecord m
    [word (u32 b 0 + 0x10000), word (u32 b 4), word (u32 b 8), word (u32 b 12), word (u32 b 16), word (u32 b 20)]
  | _, _ => [0, 0, 0, 0, 0, 0]

/-- The First Bin is copied into the `FLT_PRIOR_` registers (R114, R127). -/
def copyPrior (s : State) : State :=
  (List.range 6).foldl (fun (s : State) (k : Nat) => s.setReg (Reg.FLT_PRIOR k) (s.binWords.getD k 0)) s

/-! ### Pins -/

/-- Pins take levels. -/
def pins (s : State) (l : List String) (v : Option Bool) : State := l.foldl (fun (s : State) (n : String) => s.emit (.pin n v)) s

/-- Balls that a reset drives low, and those that it leaves undriven (R174). -/
def lowPins : List String := ["LIVE", "READY", "TRAP_OUT", "RESET_OUT_N"]
def openPins : List String :=
  ["ERR_OUT", "IRQ_OUT", "REJ0", "REJ1", "REJ2", "REJ3", "HEAD_EN", "HV_EN", "HEATER", "TOUT0", "TOUT1", "TOUT2", "TOUT3"]

/-- Balls that are low during bring-up and were undriven in reset (R174). -/
def bringupPins : List String := ["ERR_OUT", "HEAD_EN", "HV_EN", "HEATER", "TOUT0", "TOUT1", "TOUT2", "TOUT3"]

/-! ### What a reset leaves -/

/-- The Pantry across a chip reset: its state goes on, and its ledger is empty (R164). -/
def keptPantry (p : Pantry) : Pantry := { p with samples := [], live := [], spent := [], refused := false, parked := false }

/-- The memories across a chip reset: flash and Loft, the staged writes that run, and the wear (R78, R164). -/
def keptMem (m : Mem) : Mem := { reset.mem with cellar := m.cellar, loft := m.loft, staged := m.staged, wear := m.wear }

/-- The core as a chip reset leaves it: every unit at its reset state, the always-on domain and the memories kept. -/
def freshCore (s : State) : State :=
  let n := s.fittedCount
  { reset with
    tick := s.tick, order := s.order, regs := Tab.clear s.regs (fun a => !regKept a),
    boot := s.boot, pwr := keptPantry s.pwr, mem := keptMem s.mem, cal := { s.cal with ckpt := [] },
    rej := { reset.rej with lanes := Vector.ofFn fun i => rejLane0 (decide (i.val < n)) },
    hat := { reset.hat with leases := leases0 n }, free := s.free, out := s.out, pending := s.pending }

/-- A chip reset begins: the First Bin is kept, a Cellar operation is cut off, and every unit falls to its reset state
(R114, R164 steps 1 and 2, R165). -/
def beginReset (s : State) : State := (s.copyPrior.celCut).freshCore

/-- Bring-up and request state that a reset ends. -/
def bootReset (b : Boot) (p : CorePhase) : Boot :=
  { b with phase := p, reqAt := none, claimWaitEnd := none, resetOut := false, doneAt := 0 }

/-- A warm reset starts (R160-R164): in SLEEP the Pantry enters RUN. While the core is held in a reset already, that reset's
cause stays the recorded one. -/
def startReset (s : State) (cause source : Nat) : State :=
  if s.coreOn then
    let s := s.beginReset.modBoot fun b => bootReset b (.reset cause source)
    let s := if s.pwr.state = .sleep then s.goPwr .run else s
    (s.pins lowPins (some false)).pins openPins none
  else s

/-- Levels that are accepted when chip reset completes (R550). -/
def takeLevels (s : State) (l : Levels) : State :=
  let enc (i : Fin 2) : EncIn := ⟨l.encA[i], l.encB[i], l.encZ[i], l.encLos[i]⟩
  let fb (i : Fin 2) : EncIn := ⟨l.fbA[i], l.fbB[i], l.fbZ[i], false⟩
  let s := s.modPlc fun p =>
    { p with pe := l.pe, encs := Vector.ofFn enc, fbs := Vector.ofFn fb, steps := Vector.ofFn fun i => (l.step[i], l.dir[i]) }
  let s := s.modTmr fun t => { t with aux := l.aux }
  let s := s.modRej fun r => { r with inhibit := l.inhibit }
  let s := allLanes.foldl (fun (s : State) (h : Head) => s.modHead h fun x => { x with level := l.present[h] }) s
  ([0, 1] : List (Fin 2)).foldl (fun (s : State) (i : Fin 2) =>
    s.modAxis ⟨4 + i.val, by omega⟩ fun a =>
      { a with faultNow := decide (l.drive[i] = s.rbit (Reg.MOT_CFG (4 + i.val)) 1) }) s

/-- Chip reset completes (R164 step 4): tick 0, order stamp 0, every Larder word void, the cause recorded and counted. -/
def completeReset (s : State) (cause source : Nat) (l : Levels) : State :=
  let s := s.freshCore
  let s := { s with tick := 0, order := 0 }.modBoot fun b => { bootReset b .bringup with resetPin := false, vioOk := b.vioOk || decide (cause ≤ 2) }
  let s := s.setReg Reg.DEV_RESET_CAUSE (word (cause + 0x100 * source))
  let s := if cause ≤ 2 then s.bumpFld Reg.DEV_RESET_COUNT 15 0 else s.bumpFld Reg.DEV_RESET_COUNT 31 16
  let s := (s.setReg Reg.MEM_LFT_WEAR (word s.wearPermille)).takeLevels l
  s.pins bringupPins (some false)

/-- Core reset is released (R161, R163, R164): once the causes have ended and no staged write runs. -/
def releaseReset (s : State) (l : Levels) : State :=
  match s.boot.phase with
  | .reset cause source =>
    if l.resetN && !s.boot.scanHeld && s.mem.staged.isEmpty then s.completeReset cause source l else s
  | _ => s

/-- RESET_OUT_N rises 1 ms after chip reset completes (R164 step 5). -/
def releaseOut (s : State) : State :=
  if s.coreOn && !s.boot.resetOut then
    ((s.advanceTo 100000).modBoot fun b => { b with resetOut := true }).emit (.pin "RESET_OUT_N" (some true))
  else s

/-! ### DARK and power-on -/

/-- The core is off: nothing of it remains, and a staged write that had not switched leaves the old content (R95). -/
def coreOff (s : State) : State :=
  let s := s.beginReset.modBoot fun b => bootReset b .off
  let s := s.modMem fun m => { m with staged := [] }
  (s.pins lowPins none).pins openPins none

/-- The Pantry enters DARK with a cause (R140, R144, R149); the next cold reset records cause 2 (R160). -/
def goDark (s : State) (cause : Nat) : State :=
  let s := (s.coreOff.setFld Reg.PWR_CAUSE 3 0 cause).setRail false
  (s.modBoot fun b => { b with coldCause := 2, resetPin := false }).modPwr fun p =>
    { p with state := .dark, finalCkpt := none, retry := false, duty := 0, backCount := 0 }

/-- The VAON power-on reset (R140, R151): the always-on domain falls to its reset values, and the Pantry enters OFF. -/
def powerOnReset (s : State) : State :=
  let s := s.coreOff
  let s := { s with regs := [], cal := reset.cal, tick := 0, order := 0 }
  let s := s.setRail false
  { s with boot := { s.boot with coldCause := 1, resetPin := false },
           pwr := { reset.pwr with state := .off, classRead := false, pgood := false, railEn := false, vNow := 0 } }

/-- A rail is outside its window (R149): a message and DARK with the timing of R114, or DARK at once while the core is held. -/
def railOut (s : State) (rail : Nat) : State :=
  if s.coreOn then
    let s := (s.setFld Reg.PWR_RAIL_STAT rail rail 0).raise Kind.pwrRail (word rail)
    let s := s.modFlt fun f => { f with due := f.due.filter fun d => !decide (d = (5, true)) }
    if bit (s.reaction 5 0) 1 then s.modFlt fun f => { f with resetPending := some ⟨5, true, s.tick + 200000⟩ }
    else s.goDark 2
  else if s.pwr.railEn then s.goDark 2
  else s

/-- A bring-up attempt of the rails fails (R149, R166). -/
def railFail (s : State) : State :=
  if s.pwr.railEn && decide (s.boot.phase = .off) then
    ((s.setRail false).bumpFld Reg.PWR_COUNTS 31 16).modPwr fun p => { p with retry := true }
  else s

/-- The next attempt (R149). -/
def railRetry (s : State) : State :=
  if s.pwr.retry && decide (s.pwr.state = .charge) then (s.modPwr fun p => { p with retry := false }).setRail true else s

/-- TB100 locks in a cold reset (R166 step 5): chip reset completes once RESET_N is high. -/
def tb100Lock (s : State) (l : Levels) : State :=
  if s.pwr.railEn && decide (s.boot.phase = .off) then
    (s.modBoot fun b => { b with phase := .reset b.coldCause 0, resetPin := !l.resetN }).releaseReset l
  else s

/-! ### Chip resets that a fault calls for -/

/-- A message has called for a chip reset (R114): at once where its source makes no trap, else once the trap has left. -/
def callReset (s : State) (src : Nat) : State :=
  if bit (s.reaction src 0) 1 then
    match s.flt.resetPending with
    | some _ => s
    | none => s.modFlt fun f => { f with resetPending := some ⟨src, false, s.tick + 200000⟩ }
  else s.startReset 4 src

/-- The reset that waits for its trap to leave starts (R114, R149). -/
def pendingStart (s : State) : State :=
  match s.flt.resetPending with
  | none => s
  | some p =>
    let s := s.advanceTo (match s.flt.trapEnd with | some t => min t p.deadline | none => p.deadline)
    if p.rail then s.goDark 2 else s.startReset 4 p.source

end State
end Sys2Proof.Machine
end

