-- ==== Sys2Proof/Machine/Resets.lean ====
section
/-! DEFINITION. Block resets: revocation, what each unit's reset does, completion and the restoration of leases; and the
recovery, retirement and release of fault sources (04_fault_collector R111-R113, R117-R119, R123, R124, R552;
21_hatch R515, R516; 02_determinism R61, R66). -/

namespace Sys2Proof.Machine
namespace State

/-! ### Revocation -/

/-- One commit for what has happened since `t`, unless it has made one itself. -/
def oneCommit (s t : State) : State := if s.order = t.order then s.commit else s

/-- The party of a unit in the lease table (R511): PLCn and HEDn; no other unit holds leases in its own name. -/
def partyOf (u : Nat) : Byte :=
  if 14 ≤ u ∧ u < 18 then BitVec.ofNat 8 (0x10 + (u - 14))
  else if 18 ≤ u ∧ u < 22 then BitVec.ofNat 8 (0x14 + (u - 18))
  else 0

/-- Resource numbers by kind in the order of R123: axes, channels, slots, banks. -/
def revocable : List Nat :=
  ((List.range 6).map (60 + ·)) ++ ((List.range 24).map (16 + ·)) ++ ((List.range 4).map (40 + ·)) ++ List.range 16

/-- The leases that a block reset of unit `u` revokes (R123, R124, R515). -/
def toRevoke (s : State) (u : Nat) : List Nat :=
  if u = 11 then revocable.filter fun r => decide (16 ≤ r ∧ r < 40) && decide (s.holder r ≠ 0)
  else if u = 12 then revocable.filter fun r => decide (40 ≤ r ∧ r < 44) && decide (s.holder r ≠ 0)
  else revocable.filter fun r => s.holds (partyOf u) r

/-- What the revocation of a resource does to it (R123): an axis stops, a channel is disabled, a slot's renders end, a
bank becomes void. -/
def revokeEffect (s : State) (r : Nat) : State :=
  if r < 16 then s.modMem fun m => m.voidBank r
  else if h : r < 40 then s.revokeChan ⟨r - 16, by omega⟩
  else if r < 44 then
    allLanes.foldl (fun (s : State) (n : Lane) =>
      if (s.laneSlot n).map (fun k => 40 + k.val) = some r then s.endRenders n else s) s
  else if h : 60 ≤ r ∧ r < 66 then s.axStop ⟨r - 60, by omega⟩
  else s

/-- A revoked entry (R515). -/
def revokedLease (e : Lease) (u : Nat) : Lease := ⟨0, e.holder, true, some u, 0⟩

/-- A lease is revoked for the reset of unit `u`: one commit. -/
def revokeLease (u : Nat) (s : State) (r : Nat) : State :=
  ((s.revokeEffect r).setLease r (revokedLease (s.lease r) u)).oneCommit s

/-- The code of a channel or slot as a holder (R511). -/
def holderCode (r : Nat) : Byte := if r < 40 then BitVec.ofNat 8 (0x20 + (r - 16)) else BitVec.ofNat 8 (0x40 + (r - 40))

/-- The leases that a revoked channel or slot held are re-recorded against its own holder (R515). -/
def rerecord (u : Nat) (s : State) (e : Nat × Byte) : State :=
  (List.range 66).foldl (fun (s : State) (q : Nat) =>
    if s.holder q = holderCode e.1 then
      (s.setLease q { s.lease q with holder := e.2, restore := holderCode e.1, by_ := some u, heir := e.2 }).commit
    else s) s

/-- Reservations recorded against a unit: the unspent balances return (R123). -/
def revokeEnergy (s : State) (u : Nat) : State :=
  (s.pwr.live.filter fun r => decide (resUnit r.holder = u)).foldl (fun (s : State) (r : Reservation) => (s.release r.holder).commit) s

/-- Every revocation before a block reset of unit `u` (R123, R124, R515). -/
def revokeAll (s : State) (u : Nat) : State :=
  let l := s.toRevoke u
  let held := l.map fun r => (r, s.holder r)
  let s := l.foldl (revokeLease u) s
  let s := if u = 11 ∨ u = 12 then held.foldl (rerecord u) s else s
  s.revokeEnergy u

/-! ### What each unit's reset does -/

/-- Steps 1 to 3 of R86, where `INIT_EN` is 1: what the interface sends. -/
def celInit (s : State) : State :=
  let w := s.reg Reg.MEM_CEL_INIT
  if bit w 31 then
    let s := if bit w 17 then s.emit (.flash [0x06]) else s
    s.emit (.flash ([BitVec.ofNat 8 (bits w 7 0)] ++ (if bit w 16 then [0, 0, 0, 0] else []) ++ [BitVec.ofNat 8 (bits w 15 8)]))
  else s

/-- A block reset of CEL cuts an operation off: TIMEOUT and `PFAIL` without a message (R113, R165). -/
def resetCel (s : State) : State :=
  let s := match s.mem.celRun with
    | some r => (s.verInvalidate (some (celRange r.op r.addr r.len))).celCut.celResult 3
    | none => s
  s.emit (.pin "CEL_RST_N" (some false))

/-- A block reset of a link port: the link drops, and the addresses learned on the port go (R113). -/
def resetPort (s : State) (p : Fin 2) : State :=
  s.modLnk fun l => { l with ports := l.ports.set p { l.ports[p] with up := false },
                             table := l.table.filter fun e => !decide (e.port = p.val) }

/-- A block reset of WSL (R113): what is owed is discarded, and the keepalives restart. -/
def resetWsl (s : State) : State :=
  let s := s.modSes fun x => { x with lpHeld := [] }
  allSess.foldl (fun (s : State) (i : Sess) => (s.disown i).modSess i fun x =>
    { x with outstanding := [], cache := [], events := [], unacked := [],
             drops := x.drops + x.events.length + (x.unacked.map fun m => m.items.length).sum, refreshed := s.tick }) s

/-- A block reset of SES (R113): the election closes without an owner, nonces are void, the local port's queues are empty. -/
def resetSes (s : State) : State :=
  let s := if s.ses.electEnd.isSome then s.closeElection none else s
  let s := allSess.foldl (fun (s : State) (i : Sess) => s.modSess i fun x => { x with nonce := none }) s
  s.modSes fun x => { x with lpIn := [], lpOut := [], lpDelivered := false, lpHeld := [] }

/-- The configuration registers of a channel (R355, R376). -/
def chanConfig (c : Chan) : List Nat :=
  [Reg.HST_CFG c, Reg.HST_BASE c, Reg.HST_DUE c, Reg.HST_REC c, Reg.HST_SHELF_CFG c, Reg.HST_CURS c, Reg.HST_CURD c]

/-- A block reset of HST (R354): every channel is DISABLED, its configuration registers at their reset values. -/
def resetHst (s : State) : State :=
  allChans.foldl (fun (s : State) (c : Chan) =>
    (chanConfig c).foldl (fun (s : State) (a : Nat) => s.setReg a (regReset a)) (s.disableChan c)) s

/-- A block reset of HAT (R112, R519): CLOSING lanes open without a message, and no check result is left. -/
def resetHat (s : State) : State :=
  allLanes.foldl (fun (s : State) (n : Lane) =>
    (if s.laneState n = .closing then s.enterOpen n else s).setReg (Reg.HAT_CHECK n) 0) s

/-- A lane, head or axis by its place among the units. -/
def unit4 (u base : Nat) : Fin 4 := ⟨(u - base) % 4, by omega⟩
def unit6 (u : Nat) : Axis := ⟨(u - 26) % 6, by omega⟩

/-- What a block reset does to the unit itself, after the revocations (R112, R113). The units without a case here keep what
they hold. -/
def resetUnit (s : State) (u : Nat) : State :=
  if u = 3 then s.resetCel
  else if u = 6 then s.resetPort 0
  else if u = 7 then s.resetPort 1
  else if u = 8 then s.resetWsl
  else if u = 9 then s.resetSes
  else if u = 10 then s.resetTimers
  else if u = 11 then s.resetHst
  else if 14 ≤ u ∧ u < 18 then s.discardRecs (unit4 u 14)
  else if 18 ≤ u ∧ u < 22 then s.resetHead (unit4 u 18)
  else if 22 ≤ u ∧ u < 26 then s.resetHealth (unit4 u 22)
  else if 26 ≤ u ∧ u < 32 then s.resetAxis (unit6 u)
  else if u = 34 then s.resetRej
  else if u = 35 then s.resetHat
  else s

/-- A block reset of unit `u` starts (R111 step 5): the records of PLCn end first (R287), then the revocations, then the
reset itself. A unit that is in block reset already is skipped. -/
def startBlock (s : State) (u : Nat) : State :=
  if s.unitInReset u then s
  else
    let s := if 14 ≤ u ∧ u < 18 then s.endRecords (unit4 u 14) Cause.position else s
    let s := (s.revokeAll u).resetUnit u
    s.modFlt fun f => { f with inReset := u :: f.inReset }

/-! ### Completion -/

/-- What the end of its block reset does to a unit (R86, R113, R169, R287, R447, R486, R501). -/
def unitDone (s : State) (u : Nat) (env : MemEnv) : State :=
  if u = 3 then (s.emit (.pin "CEL_RST_N" (some true))).celInit
  else if 14 ≤ u ∧ u < 18 then
    let n : Lane := unit4 u 14
    let s := s.modRejLane n fun x => { x with spanDue := x.spanDue || s.fitted n }
    if s.laneState n = .draining then s.trackLane n else s
  else if 18 ≤ u ∧ u < 22 then s.resetHeadDone (unit4 u 18) env
  else if 22 ≤ u ∧ u < 26 then s.resetHealthDone (unit4 u 22)
  else if u = 34 then s.startLive
  else s

/-- The isolation bit of a port (R61, R67). -/
def setIso (s : State) (p : Nat) (v : Bool) : State :=
  if p < 32 then s.setFld Reg.DEV_LAD_ISO_LO p p (b2n v) else s.setFld Reg.DEV_LAD_ISO_HI (p - 32) (p - 32) (b2n v)

/-- The restoration of one entry succeeds (R516): nobody has taken the resource since. -/
def mayRestore (e : Lease) : Bool := decide (e.holder = 0) || (decide (e.heir ≠ 0) && decide (e.holder = e.heir))

/-- The restoration of resource `r` (R516): it succeeds, or is denied with `HAT.LEASE_DENIED`. -/
def restoreLease (s : State) (r : Nat) : State :=
  let e := s.lease r
  if mayRestore e then (s.setLease r ⟨e.restore, 0, false, none, 0⟩).commit
  else
    let s := s.setLease r { e with restore := 0, by_ := none, heir := 0 }
    (s.setFlag Reg.HAT_EVT 0).raise Kind.leaseDenied (word r)

/-- Every entry that the reset of unit `u` revoked or re-recorded is restored, in ascending order (R516). -/
def restoreAll (s : State) (u : Nat) : State :=
  (List.range 66).foldl (fun (s : State) (r : Nat) => if (s.lease r).by_ = some u then s.restoreLease r else s) s

/-- The block reset of unit `u` is over. -/
def finishBlock (s : State) (u : Nat) (env : MemEnv) : State :=
  let s := s.modFlt fun f => { f with inReset := f.inReset.filter fun k => !decide (k = u) }
  ((s.unitDone u env).setIso u false).restoreAll u

/-- A block reset completes (R61, R516); one that is held goes on (R117). -/
def completeBlock (s : State) (u : Nat) (env : MemEnv) : State :=
  if s.flt.inReset.contains u && !s.flt.held.contains u then s.finishBlock u env else s

/-! ### Recovery -/

/-- The tick at which the quiet period of a source ends (R118). -/
def quietDue (s : State) (src : Nat) : Option Nat := Tab.get (fun _ => none) s.flt.quietEnd src

/-- `WIN_COUNT` after a recovery at the present tick (R118). -/
def winNext (s : State) (src : Nat) : Nat :=
  let n := s.fld (Reg.FLT_RECOV src) 24 16
  let start := Tab.get (fun _ => 0) s.flt.winStart src
  if n = 0 ∨ bits (s.reaction src 2) 27 16 * 100000000 ≤ s.tick - start then 1 else n + 1

/-- The window of a source starts now (R118). -/
def winRestart (s : State) (src : Nat) : State :=
  s.modFlt fun f => { f with winStart := Tab.set (fun _ => 0) f.winStart src s.tick }

/-- A retired source's unit is held in block reset where its entry says so; LAD has none of its own (R117, R552). -/
def holdRetired (s : State) (src : Nat) : State :=
  if bit (s.reaction src 0) 2 ∧ src ≠ 1 then
    (s.startBlock src).modFlt fun f => { f with held := src :: f.held }
  else s

/-- The recovery of a source (R118). -/
def recover (s : State) (src : Nat) : State :=
  let n := s.winNext src
  let s := if n = 1 then s.winRestart src else s
  let s := (s.bumpFld (Reg.FLT_RECOV src) 15 0).bump Reg.FLT_RECOV_GLOBAL
  let s := s.setFld (Reg.FLT_RECOV src) 24 16 n
  let s := s.modFlt fun f => { f with quietEnd := Tab.set (fun _ => none) f.quietEnd src none }
  if n > bits (s.reaction src 2) 7 0 then
    ((s.setSrcState src 2).setFlags Reg.FLT_EVT 3).commit.holdRetired src
  else ((s.setSrcState src 0).setFlag Reg.FLT_EVT 0).commit

/-- Ports that are isolated, in ascending order. -/
def isolatedPorts (s : State) : List Nat := (List.range 36).filter fun p => s.isolated p

/-- The release of LAD resets the unit at every isolated port, where `BLOCK_RESET` is 1 (R552). -/
def releaseLad (s : State) : State :=
  if bit (s.reaction 1 0) 2 then (s.isolatedPorts.filter (· ≠ 0)).foldl startBlock s else s

/-- The owner's release of a source (R119): nothing where it is not RETIRED. -/
def releaseSource (s : State) (src : Nat) : State :=
  if s.srcState src = 2 then
    let s := (s.setSrcState src 0).setFld (Reg.FLT_RECOV src) 24 16 0
    let was := s.flt.held.contains src
    let s := s.modFlt fun f => { f with held := f.held.filter fun k => !decide (k = src) }
    let s := if was then s.finishBlock src MemEnv.quiet else s
    if src = 1 then s.releaseLad else s
  else s

/-! ### The Ladder's watchdog -/

/-- A Ladder port is wedged (R60, R61, R66): it is isolated and reported, or, for port 0, the chip is reset. -/
def wedge (s : State) (p : Nat) : State :=
  if p = 0 then s.startReset 7 1
  else
    let s := (s.setIso p true).bump Reg.DEV_LAD_WEDGES
    ((s.setFld Reg.DEV_LAD_STAT 13 8 p).setFlag Reg.DEV_LAD_STAT 0).raise Kind.wedge (word p)

/-- A reset that a message has selected runs (R111 steps 5 and 6): a unit's block reset, or a source's chip reset. -/
def runDue (s : State) (d : Nat × Bool) : State := if d.2 then s.callReset d.1 else s.startBlock d.1

/-- Takes the first reset that is due. -/
def flushOne (s : State) : State :=
  match s.flt.due with
  | [] => s
  | d :: rest => (s.modFlt fun f => { f with due := rest }).runDue d

/-- The resets that messages have selected run, each after the message that selected it. A unit in reset selects none, so
that no more follow than there are units and sources; `n` bounds the rounds. -/
def flushN : Nat → State → State
  | 0, s => s
  | n + 1, s => if s.flt.due.isEmpty then s else flushN n s.flushOne

/-- Every reset that is due runs. -/
def flush (s : State) : State := flushN 128 s

end State
end Sys2Proof.Machine
end

