-- ==== Sys2Proof/Machine/Crates.lean ====
section
/-! DEFINITION. Crate verification, job selection and deselection, standing-job selection, and the classes of the claim
keys (15_borzel_crates R388-R396; 10_placement R282; 08_sessions R224, R225). -/

namespace Sys2Proof.Machine
namespace State

/-! ### Claim keys -/

/-- The 64 bytes of a claim-key slot (R224). -/
def keySlot (s : State) (k : Nat) : List Byte := s.mem.loftBytes (0x8000 + 0x40 * k) 64

/-- The class of a slot's content: 0 EMPTY, 1 INSTALLED, 2 DAMAGED (R224). -/
def keyClassOf (b : List Byte) : Nat :=
  if (b.take 40).all fun x => decide (x = 0xFF) then 0
  else if u32 b 32 = 1 ∧ crc32c (b.take 36) = u32 b 36 then 1
  else 2

/-- `SES_KEY_STAT` takes the classes of the slots (R224, R239). -/
def classKeys (s : State) : State :=
  let c (v : Nat) : Nat := ((List.range 8).map fun k => b2n (decide (keyClassOf (s.keySlot k) = v)) * 2 ^ k).sum
  s.setReg Reg.SES_KEY_STAT (word (c 1 + 256 * c 2))

/-- The key of an INSTALLED slot. -/
def installedKey (s : State) (k : Nat) : Option (List Byte) :=
  if k < 8 ∧ s.rbit Reg.SES_KEY_STAT k then some ((s.keySlot k).take 32) else none

/-- The claim key of a priority for a session (R225). -/
def claimKey (s : State) (i : Sess) (p : Nat) : Option (List Byte) :=
  if 8 ≤ p ∨ s.rbit Reg.SES_KEY_STAT (8 + p) then none
  else match s.installedKey p with
    | some k => some k
    | none => if i.val = 0 then some (List.replicate 32 0) else none

/-! ### Verification -/

/-- The crate as the Cellar window gives it: `answers` is false where the flash makes no DQS transition, which mode 4 alone
watches (R87, R377). -/
def crateSrc (s : State) (crate : Nat) (answers : Bool) : CrateSrc :=
  ⟨s.mem, cellarSize s, crate * 4096, (!answers && decide (s.fld Reg.MEM_CEL_CFG 2 0 = 4)) || s.isolated 3⟩

/-- `CEL.BUS` of a crate read that the flash did not answer (R87). -/
def crateBus (s : State) (crate : Nat) (answers : Bool) (e : CrateFail) : State :=
  if e.reason = Why.read ∧ !answers ∧ s.fld Reg.MEM_CEL_CFG 2 0 = 4 ∧ !s.isolated 3 then
    s.raise Kind.celBus (word (crate * 4096 + e.off))
  else s

/-- A read of the Cellar is held while an operation runs or its unit is in block reset (R91, R113). -/
def celHeld (s : State) : Bool := s.mem.celRun.isSome || s.unitInReset 3

/-- `RESULT` of a verification is BUSY. -/
def verBusy (s : State) : Bool := decide (s.fld Reg.CMP_CRATE_VSTAT 7 4 = 1)

/-- A verification starts at its VGO commit (R388). -/
def verStart (s : State) : State :=
  let s := s.setFld Reg.CMP_CRATE_VSTAT 7 4 1
  { s with crates := { s.crates with run := some ⟨s.fld Reg.CMP_CRATE_VADDR 16 0, false⟩ } }

/-- No verification runs any more. -/
def verEnd (s : State) : State := { s with crates := { s.crates with run := none } }

/-- The results of a failed verification (R388, R394). -/
def verFail (s : State) (reason : Nat) (off : Word) : State :=
  let s := (s.setFld Reg.CMP_CRATE_VSTAT 15 8 reason).setFld Reg.CMP_CRATE_VSTAT 7 4 3
  ((s.setFlag Reg.CMP_CRATE_VSTAT 1).setReg Reg.CMP_CRATE_VOFF off).commit

/-- The valid entry that holds a crate (R389). -/
def verEntry (s : State) (crate : Nat) : Option (Fin 8) :=
  ([0, 1, 2, 3, 4, 5, 6, 7] : List (Fin 8)).find? fun k => s.verValid k.val && decide (s.fld (Reg.CMP_CRATE_VER k.val) 16 0 = crate)

/-- The entry written least recently. -/
def oldestVer (s : State) : Fin 8 :=
  ([1, 2, 3, 4, 5, 6, 7] : List (Fin 8)).foldl
    (fun (b : Fin 8) (k : Fin 8) => if s.crates.entries[k].age < s.crates.entries[b].age then k else b) 0

/-- The entry that a passed verification writes (R389). -/
def verSlot (s : State) (crate : Nat) : Fin 8 :=
  match s.verEntry crate with
  | some k => k
  | none =>
    match ([0, 1, 2, 3, 4, 5, 6, 7] : List (Fin 8)).find? fun k => !s.verValid k.val with
    | some k => k
    | none => s.oldestVer

/-- A verification entry is written (R389). -/
def verWrite (s : State) (crate : Nat) (h : Header) : State :=
  let k := s.verSlot crate
  let s := s.setReg (Reg.CMP_CRATE_VER k.val) (word (crate + h.sigSlot * 2 ^ 20 + 2 ^ 24 + b2n h.signed * 2 ^ 25))
  let s := s.setReg (Reg.CMP_CRATE_VHCRC k.val) (word h.hcrc)
  { s with crates := { s.crates with entries := s.crates.entries.set k ⟨h.len, s.crates.nextAge⟩, nextAge := s.crates.nextAge + 1 } }

/-- The results of a passed verification (R388, R389). -/
def verPass (s : State) (crate : Nat) (h : Header) : State :=
  let s := (s.setFld Reg.CMP_CRATE_VSTAT 15 8 0).setFld Reg.CMP_CRATE_VSTAT 7 4 2
  ((s.setFlag Reg.CMP_CRATE_VSTAT 0).verWrite crate h).commit

/-- The verification of a crate now, with its results (R388): the failure, or nothing. -/
def verRun (s : State) (crate : Nat) (answers : Bool) : State × Option CrateFail :=
  match verifyCrate (s.crateSrc crate answers) s.installedKey with
  | .ok h => (s.verPass crate h, none)
  | .error e => ((s.crateBus crate answers e).verFail e.reason (word e.off), some e)

/-- The completion of the verification that runs (R388, R389); the offset of reason CHANGED, which names no field, is free.
While the Cellar's reads are held, it does not complete. -/
def verComplete (s : State) (answers : Bool) : State :=
  match s.crates.run with
  | none => s
  | some v =>
    if s.celHeld then s
    else if v.changed then
      let (k, s) := s.drawFree
      s.verEnd.verFail Why.changed (Config.freeWord k)
    else (s.verEnd.verRun v.crate answers).1

/-! ### Job selection -/

/-- What an accepted selection loads (R391, R392). -/
structure Selection where
  job : JobRec
  env : Envelope
  waveform : List Word
  font : List Word
  calib : Option Calib
  values : List (Nat × Word)

/-- The words of a section padded with 0 to `n` words. -/
def padWords (n : Nat) (b : List Byte) : List Word :=
  let l := wordsOf (b.length / 4) b
  l ++ List.replicate (n - l.length) 0

/-- An envelope entry matches the lane (R383). -/
def envMatches (s : State) (n : Lane) (j : JobRec) (e : Envelope) : Bool :=
  decide (word e.pitch = s.reg (Reg.PLC_PITCH n)) && decide (e.lead = s.fld (Reg.PLC_LEAD n) 10 0) &&
    decide (j.headClass = s.fld (Reg.HED_CTRL n) 8 8) && (j.carried == (s.carryAxis n).isSome)

/-- The entry passes R384. -/
def envRated (e : Envelope) : Bool := decide (e.maxRate * 1000 ≤ 60 * e.prodPitch) && decide (e.maxRate * 65536 ≤ 48 * e.pitch)

/-- A table window holds these words from an address on. -/
def tableHolds (s : State) (a : Nat) : List Word → Bool
  | [] => true
  | w :: rest => decide (s.mem.table a = w) && tableHolds s (a + 4) rest

def waveBase (n : Lane) : Nat := 0x90000 + 0x4000 * n.val
def fontBase (n : Lane) : Nat := 0xC0000 + 0x4000 * n.val
def sineBase (x : Axis) : Nat := 0x80000 + 0x1000 * x.val
def camBase (x : Axis) : Nat := 0xA0000 + 0x400 * x.val

/-- The bytes of an optional section, its CRC checked. -/
def optSect (c : CrateSrc) (h : Header) (v : Nat) : Except CrateFail (List Byte) :=
  if v = 0xFFFF then .ok [] else readSect c (h.sect v)

/-- The verification entry that checks 3 and 4 of R390 ask for: it holds the crate and its `HCRC`. -/
def verHolds (s : State) (crate : Nat) (h : Header) : Option (Fin 8) :=
  match s.verEntry crate with
  | some k => if s.reg (Reg.CMP_CRATE_VHCRC k.val) = word h.hcrc then some k else none
  | none => none

/-- Checks 3 and 4 of R390. -/
def checkPolicy (s : State) (crate : Nat) (h : Header) : Except CrateFail Unit := do
  let sig := s.rbit Reg.CMP_CRATE_POLICY 1
  let v := s.verHolds crate h
  need (!(s.rbit Reg.CMP_CRATE_POLICY 0 || sig) || v.isSome) Why.notVerified 60
  need (!sig || (h.signed && (match v with | some k => s.rbit (Reg.CMP_CRATE_VER k.val) 25 | none => false))) Why.signature 6

/-- Checks 5 and 6 of R390. -/
def checkEnvelope (s : State) (n : Lane) (j : JobRec) : Except CrateFail Envelope := do
  match j.envs.find? (s.envMatches n j) with
  | none => .error ⟨Why.envelope, j.off + 32⟩
  | some e =>
    need (envRated e) Why.limits (e.off + 8)
    return e

/-- Check 7 of R390: the sections that the job names. -/
def checkSections (s : State) (n : Lane) (c : CrateSrc) (h : Header) (j : JobRec) (e : Envelope) : Except CrateFail Selection := do
  let _ ← optSect c h j.layout
  let _ ← optSect c h j.field
  let font ← optSect c h j.fontIdx
  let wave ← optSect c h j.waveform
  let cal ← optSect c h j.calib
  let dflt ← optSect c h j.defaults
  let calib ← if j.calib = 0xFFFF then pure none else (readCalib (h.sect j.calib).off cal).map some
  let values ← if j.defaults = 0xFFFF then pure [] else readDefaults n.val (h.sect j.defaults).off dflt
  need (match calib with
    | some k => k.sine.isNone || (match s.carryAxis n with | some x => isStepper x | none => false)
    | none => true) Why.job (h.sect j.calib).off
  return ⟨j, e, padWords 4096 wave, padWords 4096 font, calib, values⟩

/-- The loads of CALIB are allowed (R391, R315). -/
def calibFree (s : State) (n : Lane) (k : Calib) : Bool :=
  match s.carryAxis n with
  | none => true
  | some x =>
    let st := (s.axis x).state
    (k.sine.isNone || decide (st = .disabled)) &&
      (decide (k.camPoints = 0) || (s.tableHolds (camBase x) k.cams && decide (s.camPoints x = k.camPoints)) ||
        decide (st = .disabled) || decide (st = .idle))

/-- Check 8 of R390: every table load is allowed (R391). -/
def checkLoads (s : State) (n : Lane) (h : Header) (x : Selection) : Except CrateFail Unit := do
  let busy := s.hedBusy n
  need (!busy || s.tableHolds (waveBase n) x.waveform) Why.tableBusy (h.sect x.job.waveform).off
  need (!busy || s.tableHolds (fontBase n) x.font) Why.tableBusy (if x.job.fontIdx = 0xFFFF then x.job.off + 8 else (h.sect x.job.fontIdx).off)
  match x.calib with
  | some k => need (s.calibFree n k) Why.tableBusy (h.sect x.job.calib).off
  | none => pure ()

/-- The eight checks of R390. -/
def checkSelection (s : State) (n : Lane) (crate job : Nat) (answers : Bool) : Except CrateFail Selection := do
  let c := s.crateSrc crate answers
  let h ← readHeader c
  need (decide (job < h.jobs)) Why.job 22
  match h.jobSect job with
  | none => .error ⟨Why.job, 22⟩
  | some e =>
    let b ← readSect c e
    let j ← readJob h job e.off b
    s.checkPolicy crate h
    let v ← s.checkEnvelope n j
    let x ← s.checkSections n c h j v
    s.checkLoads n h x
    return x

/-- A refusal is recorded on its lane (R394). -/
def recordRefusal (s : State) (n : Lane) (reason : Nat) (off : Word) : State :=
  (s.setReg (Reg.CMP_CRATE_REFUSE n) (word reason)).setReg (Reg.CMP_CRATE_ROFF n) off

/-- The response code of a refused selection (R390). -/
def refusalCode (s : State) (crate : Nat) (answers : Bool) (e : CrateFail) : Code :=
  if e.reason = Why.read then (if (s.crateSrc crate answers).broken then .memError else .badAddress)
  else if e.reason = Why.tableBusy then .busy
  else .badValue

/-- Steps 2 and 3 of R392 for the carrying axis (R391). -/
def loadCalib (s : State) (n : Lane) (k : Calib) : State :=
  match s.carryAxis n with
  | none => s
  | some x =>
    let s := match k.sine with
      | some l => s.modMem fun m => m.setTableWords (sineBase x) l
      | none => s
    if k.camPoints = 0 then s
    else (s.modMem fun m => m.setTableWords (camBase x) k.cams).setFld (Reg.MOT_GEAR x) 6 0 k.camPoints

/-- Steps 1 to 4 of R392: the effects of an accepted selection; the caller commits, and then checks the waveform table (R459). -/
def applySelection (s : State) (n : Lane) (w : Word) (x : Selection) : State :=
  let s := s.setReg (Reg.PLC_JOB n) w
  let s := (s.setReg (Reg.DEV_ENV_RATE n) (word x.env.maxRate)).setReg (Reg.DEV_ENV_COUNT n) 0
  let s := (s.setReg (Reg.PWR_MARK n) (word x.job.eFix)).setReg (Reg.PWR_MARKCOL n) (word x.job.eCol)
  let s := s.modLane n fun l => { l with cols := x.job.columns }
  let s := s.modMem fun m => (m.setTableWords (waveBase n) x.waveform).setTableWords (fontBase n) x.font
  let s := match x.calib with
    | some k => s.loadCalib n k
    | none => s
  x.values.foldl (fun (s : State) (e : Nat × Word) => s.setReg e.1 e.2) s

/-- `JOB` = 255 deselects (R282, R393). -/
def deselect (s : State) (n : Lane) (w : Word) : State := (s.setReg (Reg.PLC_JOB n) w).setReg (Reg.DEV_ENV_RATE n) 0

/-! ### Standing jobs -/

/-- The standing-job region of a lane (R92, R395). -/
def standingRegion (s : State) (n : Lane) : List Byte := s.mem.loftBytes (0x4000 + 0x1000 * n.val) 0x1000

/-- `SJ_VALID` of every lane (R395). -/
def checkStanding (s : State) : State :=
  s.setFld Reg.MEM_LFT_IMAGE 3 0 ((allLanes.map fun n =>
    (match readStanding n.val (s.standingRegion n) with | .ok _ => 1 | .error _ => 0) * 2 ^ n.val).sum)

/-- The reason of a field of the region that fails (R394, R396), by its offset. -/
def standingReason (o : Nat) : Nat :=
  if o = 0 then Why.magic else if o = 4 then Why.format else if o = 12 then Why.job else Why.header

/-- The checks of a standing-job selection after its own verification (R396). -/
def checkStandingJob (s : State) (n : Lane) (b : List Byte) (j : Standing) (answers : Bool) :
    Except CrateFail (Selection × List (Nat × Word)) := do
  let h ← readHeader (s.crateSrc j.crate answers)
  need (decide (h.hcrc = j.hcrc)) Why.hcrc 0x80000010
  let x ← s.checkSelection n j.crate j.job answers
  let l ← standingValues n.val b j.nval
  return (x, l)

/-- A standing-job selection fails (R171, R396). -/
def standingFail (s : State) (n : Lane) (reason off : Nat) : State :=
  (s.recordRefusal n reason (word off)).raise Kind.lftSjBad (word n.val)

/-- The standing job of lane n is selected, or `LFT.SJ_BAD` commits (R171, R396). -/
def selectStanding (s : State) (n : Lane) (answers : Bool) : State :=
  match readStanding n.val (s.standingRegion n) with
  | .error o => s.standingFail n (standingReason o) (0x80000000 + o)
  | .ok j =>
    match s.verRun j.crate answers with
    | (s, some e) => s.standingFail n e.reason e.off
    | (s, none) =>
      match s.checkStandingJob n (s.standingRegion n) j answers with
      | .error e => (s.crateBus j.crate answers e).standingFail n e.reason e.off
      | .ok (x, l) =>
        let s := s.applySelection n (word (j.crate + j.job * 2 ^ 24)) x
        ((l.foldl (fun (s : State) (e : Nat × Word) => s.setReg e.1 e.2) s).commit).checkTable n

/-- Standalone running begins (R170, R171). -/
def enterStandalone (s : State) (answers : Bool) : State :=
  let s := ((s.setFld Reg.DEV_STATUS 1 1 1).commit).stateItem 4 none 0 1
  (allLanes.filter fun n => s.fitted n).foldl (fun (s : State) (n : Lane) => s.selectStanding n answers) s

end State
end Sys2Proof.Machine
end

