-- ==== Sys2Proof/Machine/AxisBus.lean ====
section
/-! DEFINITION. The axis bus: its boundaries, the downlink, and the evaluation of the uplinks (11_motion_profiles
R306, R309-R312). -/

namespace Sys2Proof.Machine
namespace State

def axbEn (s : State) : Bool := s.rbit Reg.MOT_AXB_CFG 0
def axbPeriod (s : State) : Nat := s.fld Reg.MOT_AXB_PERIOD 16 0

/-- Ticks from a boundary to the uplink evaluation: cycle 408 + `UP_DELAY` of CK (R310). -/
def axbEval (s : State) : Nat := (408 + s.fld Reg.MOT_AXB_CFG 23 16) * s.fld Reg.MOT_AXB_CFG 15 8

def modAxb (s : State) (f : Axb → Axb) : State := { s with mot := { s.mot with axb := f s.mot.axb } }

/-- `EN` is set: the boundaries count from this commit (R310). -/
def axbStart (s : State) : State :=
  s.modAxb fun b => { b with first := true, nextAt := s.tick + s.axbPeriod, prevSet := Vector.replicate 2 0,
                             misses := Vector.replicate 2 0, evalAt := none }

/-- `EN` is cleared: no frame follows, and none is evaluated. -/
def axbStop (s : State) : State := s.modAxb fun b => { b with evalAt := none }

/-- The tick of the next boundary (R310). -/
def axbDue (s : State) : Option Nat := if s.axbEn then some s.mot.axb.nextAt else none

/-- The slot of a servo axis that is not `VALID` (R311). -/
def emptySlot : List Byte := List.replicate 10 0

/-- The slot of a servo axis: control, set-point, and the feed-forward `vff` (R311). -/
def axbSlot (s : State) (i : Fin 2) (vff : Word) : List Byte :=
  let a := s.axis (servoAxis i)
  [BitVec.ofNat 8 (b2n (decide (a.state ≠ .disabled)) + 2 * b2n (decide (a.state = .halt)) + 4), 0] ++
    bytesLE 4 (BitVec.setWidth 32 a.cmd).toNat ++ bytesLE 4 vff.toNat

/-- The set-point of a slot as it is sent (R311). -/
def setPoint (s : State) (i : Fin 2) : Word :=
  if s.axOutMode (servoAxis i) then BitVec.setWidth 32 (s.axis (servoAxis i)).cmd else 0

/-- `VFF` of a slot; before the first frame there is no previous set-point, and the value is free. -/
def axbVff (s : State) (i : Fin 2) : State × Word :=
  if s.mot.axb.first then
    let (k, s) := s.drawFree
    (s, Config.freeWord k)
  else (s, s.setPoint i - s.mot.axb.prevSet[i])

/-- One slot of the downlink. -/
def axbField (s : State) (i : Fin 2) : State × List Byte :=
  if s.axOutMode (servoAxis i) then
    let (s, v) := s.axbVff i
    (s, s.axbSlot i v)
  else (s, emptySlot)

/-- The frame of a boundary leaves (R310, R311). -/
def axbFrame (s : State) : State :=
  let q : Byte := if s.mot.axb.first then 0 else s.mot.axb.seq + 1
  let (s, a) := s.axbField 0
  let (s, b) := s.axbField 1
  let l := [0x51, q] ++ a ++ b
  let sp : Vector Word 2 := Vector.ofFn fun i => s.setPoint i
  let s := s.emit (.axisBus (l ++ bytesLE 4 (crc32c l)))
  s.modAxb fun x => { x with seq := q, first := false, prevSet := sp, sent := sp, evalAt := some (s.tick + s.axbEval) }

/-- A boundary (R310); while MOT4 is held in reset it passes without a frame. -/
def axbBoundary (s : State) : State :=
  if s.axbEn then
    let s := s.modAxb fun b => { b with nextAt := b.nextAt + s.axbPeriod }
    if s.unitInReset 30 then s else s.axbFrame
  else s

/-- An uplink is a miss (R312). -/
def axbMiss (s : State) (i : Fin 2) (b : List Byte) : Bool :=
  !(decide (b.length = 12) && decide (u8 b 0 = 0x60 + i.val) && decide (u8 b 1 = s.mot.axb.seq.toNat) &&
    decide (u32 b 8 = crc32c (b.take 8)))

/-- A miss is counted; a `VALID` axis that reaches `MISS_MAX` stops with `MOT.AXIS_BUS` (R312). -/
def noteMiss (s : State) (i : Fin 2) : State :=
  let k := s.mot.axb.misses[i] + 1
  let s := (s.bump Reg.MOT_AXB_MISS).modAxb fun x => { x with misses := x.misses.set i k }
  if s.axOutMode (servoAxis i) ∧ k = s.fld Reg.MOT_AXB_CFG 27 24 then
    s.motMessage (servoAxis i) (Kind.axisBus (4 + i.val)) (word s.mot.axb.seq.toNat)
  else s

/-- A good uplink: the position, the freeze window it may slide, and a `FAULT` bit that rises (R307, R309, R312). -/
def noteUplink (s : State) (i : Fin 2) (b : List Byte) : State :=
  let x := servoAxis i
  let fault := (u8 b 2).testBit 1
  let was := s.mot.axb.upFault[i]
  let s := (s.setReg (Reg.MOT_AXB_UP i) (word (u32 b 4))).modAxb fun q =>
    { q with misses := q.misses.set i 0, upFault := q.upFault.set i fault }
  let s := if s.rbit (Reg.MOT_CFG x) 17 then s.slideFbWin x else s
  if fault && !was then s.motMessage x (Kind.motDrive x.val) 0 else s

/-- The evaluation of one uplink, with the following check of an axis whose set-points go over the bus (R306, R312). -/
def evalUplink (s : State) (i : Fin 2) (b : List Byte) : State :=
  let s := if s.axbMiss i b then s.noteMiss i else s.noteUplink i b
  if s.axOutMode (servoAxis i) then s.followCheck (servoAxis i) (to64 (sword s.mot.axb.sent[i])) else s

/-- The uplink evaluation of the latest frame (R310, R312). -/
def axbEvaluate (s : State) (b4 b5 : List Byte) : State :=
  match s.mot.axb.evalAt with
  | none => s
  | some _ => ((s.modAxb fun x => { x with evalAt := none }).evalUplink 0 b4).evalUplink 1 b5

end State
end Sys2Proof.Machine
end

