-- ==== Sys2Proof/Machine/View.lean ====
section
/-! DEFINITION. What a read returns: registers whose value follows the state, snapshot groups (R14), table windows and
memory, and the reads of session operations (00_scope R14-R17; 02_determinism R49; 03_address_space R69, R73; the register
tables of every chapter). -/

namespace Sys2Proof.Machine
namespace State

/-! ### Derived registers -/

/-- Words of fields: value and lowest bit of each. -/
def pack (l : List (Nat × Nat)) : Word := word (l.foldl (fun (n : Nat) (e : Nat × Nat) => n + e.1 * 2 ^ e.2) 0)

/-- A signed number as a field of `w` bits. -/
def field (w : Nat) (i : Int) : Nat := wrapInt w i

/-- `DEV_STRAPS` (R177). -/
def viewStraps (s : State) : Word :=
  let f (i : Fin 4) : Nat := s.boot.straps[i].level.toNat + 8 * b2n s.boot.straps[i].unstable
  pack [(f 0, 0), (f 1, 4), (f 2, 8), (f 3, 12)]

/-- `DEV_STATUS` (R156, R159, R177). `STANDALONE` is held in its register. -/
def viewStatus (s : State) : Word :=
  pack [(b2n s.booted, 0), (b2n (s.rbit Reg.DEV_STATUS 1), 1), (s.strapMode, 2), (b2n s.localPrec, 4),
        (b2n (decide (6 ≤ s.boot.straps[2].level.toNat)), 5), (2 ^ s.fittedCount - 1, 8),
        (s.boot.straps[0].level.toNat % 2, 12)]

/-- The lane is inside its envelope (R32, R36). -/
def inside (s : State) (n : Lane) : Bool := decide (s.maxRate n ≠ 0) && !(s.lane n).outside

/-- A sum over the lanes of `v n` at bit `n`. -/
def laneBits (v : Lane → Bool) : Nat := (allLanes.map fun n => b2n (v n) * 2 ^ n.val).sum

def viewPort (s : State) : Word :=
  let a := s.lnk.ports[0]
  let b := s.lnk.ports[1]
  pack [(b2n a.up, 0), (b2n a.amp24, 1), (b2n b.up, 4), (b2n b.amp24, 5)]

/-- `LNK_SES_STAT_n` (R214). -/
def viewSesStat (s : State) (i : Sess) : Word :=
  let x := s.sess i
  if x.bound then
    let fr := match x.peer with | .lp => 0 | .ether _ => 1 | .udp _ _ => 2
    let port := match x.peer with | .lp => 0 | _ => (s.learned x.route.mac).getD x.route.port % 2
    pack [(1, 0), (fr, 1), (port, 3), (x.outstanding.length % 128, 8), (x.nextSeq.toNat, 16)]
  else 0

/-- `LNK_SES_KA_n` (R214). -/
def viewSesKa (s : State) (i : Sess) : Word :=
  let x := s.sess i
  if x.bound then pack [(x.kaMs % 65536, 0), ((match x.peer with | .udp _ p => p.toNat | _ => 0), 16)] else 0

/-- `LNK_SES_PEER_n` (R214): octets 2 to 5 of a MAC address, octet 2 lowest. -/
def viewSesPeer (s : State) (i : Sess) : Word :=
  if (s.sess i).bound then
    match (s.sess i).peer with
    | .lp => 0
    | .ether m => word (leBytes ((macBytes m).drop 2))
    | .udp ip _ => ip
  else 0

/-- `LNK_SES_EVT_n` (R211, R214). -/
def viewSesEvt (s : State) (i : Sess) : Word :=
  let x := s.sess i
  pack [(min x.drops 0xFFFF, 0), (itemsHeld x true + itemsHeld x false, 16)]

/-- `SES_ELECT` (R240). -/
def viewElect (s : State) : Word :=
  if s.ses.electEnd.isSome then
    match s.leader with
    | some i => pack [(1, 0), (i.val, 8), ((match (s.sess i).cand with | some (p, _) => p | none => 0), 12)]
    | none => 1
  else 0

/-- `SES_ROLE` (R240). -/
def viewRole (s : State) : Word :=
  word ((allSess.map fun i => b2n (s.sess i).bound * 2 ^ i.val + b2n (s.sess i).cand.isSome * 2 ^ (16 + i.val)).sum)

/-- `PWR_STATE` (R151). -/
def viewPwr (s : State) : Word :=
  pack [(s.pwr.state.code, 0), (s.pwr.granted, 8), (s.offered, 12), (b2n (decide (6 ≤ s.boot.straps[3].level.toNat)), 16)]

/-- `v_led` as a field; 0 before four samples. -/
def vLedField (s : State) : Nat := s.vLed.getD 0

def viewTimer (s : State) (t : TimerId) : Nat := (s.timer t).count.toNat

/-- `PLC_STAT_Ln` (R288). -/
def viewPlc (s : State) (n : Lane) : Word :=
  pack [(b2n (s.printing n).isSome, 0), (b2n (decide ((s.lane n).pc ≠ (s.lane n).hwm)), 1), (b2n (s.losHold n), 2)]

/-- `MOT_STATE_Xn` (R313). -/
def viewMot (s : State) (x : Axis) : Word :=
  let a := s.axis x
  pack [(a.state.code, 0), (b2n a.suspect, 8), (b2n a.cycle, 9), (b2n a.faultNow, 10)]

/-- `MOT_DRV_STAT_Xn` (R332). -/
def viewDrv (s : State) (x : Axis) : Word :=
  let d := (s.axis x).drive
  pack [(d.phase.toNat, 0), (s.csNow x, 16), (b2n d.standstill, 24), (b2n d.rampEnd.isSome, 25), (b2n d.ocOff, 26)]

/-- `MOT_CHOP_A_Xn`, `MOT_CHOP_B_Xn` (R332). -/
def viewChop (c : Coil) : Word := pack [(c.tgt.toNat, 0), (field 12 c.off.toInt, 16)]

/-- `HST_STATE_HCc` (R355); every command's bursts have ended, so none is outstanding. -/
def viewChan (s : State) (c : Chan) : Word := pack [((s.chan c).state.code, 0), (b2n (s.chan c).pendStart.isSome, 8)]

/-- `HST_SHAFT_STAT_s` (R355). -/
def viewShaft (s : State) (f : Shaft) : Word :=
  let q := (allChans.filter fun c => decide (s.chShaft c = f) && decide ((s.chan c).state = .queued)).length
  let busy := allChans.any fun c => decide (s.chShaft c = f) && decide ((s.chan c).state = .running)
  pack [((match s.hst.served[f] with | some c => c.val | none => 0), 0), (b2n busy, 8), (q, 16)]

/-- `CMP_STAT_Ln` (R418). -/
def viewCmp (s : State) (n : Lane) : Word :=
  pack [(b2n (s.laneSlot n).isSome, 0), ((s.cmp.renders.filter fun q => decide (q.lane = n)).length, 8)]

/-- `HED_STATE_Hn` (R462). -/
def viewHed (s : State) (h : Head) : Word :=
  let x := s.head h
  pack [(x.state.code, 0), (b2n x.wfBad, 8), (b2n (s.presentNow h), 9), (b2n x.svc.isSome, 10)]

/-- `HLT_STATE_Hn` (R487). -/
def viewHlt (s : State) (h : Head) : Word :=
  let x := s.health h
  pack [(x.heat.code, 0), (b2n x.band, 4), (b2n x.scan.isSome, 5), (b2n x.burst.isSome, 6), (x.duty, 16)]

/-- `HLT_NOZ_Hn` (R487). -/
def viewNoz (s : State) (h : Head) : Word :=
  let i := s.fld (Reg.HLT_NOZ_SEL h) 9 0
  pack [((s.mapEntry h i).toNat % 8192, 0), (min (Tab.get (fun _ => 0) (s.health h).hits i) 63, 16)]

/-- `HLT_NOZ_STAT_Hn` (R479, R487). -/
def viewNozStat (s : State) (h : Head) : Word :=
  pack [(s.uncovered h, 0), (((s.deadNozzles h).filter fun q => decide (s.nozClass h q = 2)).length, 16)]

/-- `REJ_STAT_Ln` (R502). -/
def viewRej (s : State) (n : Lane) : Word :=
  let x := s.rejLane n
  pack [(b2n x.forceOverrun, 0), (b2n x.forceFull, 1), (b2n (x.span.isSome || x.spanDue), 2), (b2n x.window.isSome, 3), (b2n (s.rejecting n), 4),
        (b2n (s.laneReady n), 5)]

/-- `REJ_LINE_STAT` (R502). -/
def viewLine (s : State) : Word :=
  pack [(b2n s.rej.live, 0), (b2n s.rej.ready, 1), (b2n s.rej.inhibit, 2), (b2n s.errActive, 3), (b2n s.rej.irq, 4),
        (b2n s.flt.trapEnd.isSome, 5), (s.rej.pins.toNat, 8)]

/-- `HAT_LEASE_r` (R519). -/
def viewLease (s : State) (r : Nat) : Word :=
  let e := s.lease r
  pack [(e.holder.toNat, 0), (e.restore.toNat, 8), (b2n e.revoked, 16)]

/-- The low and high words of a 48-bit or 64-bit number. -/
def lo32 (n : Nat) : Word := word n
def hi32 (n : Nat) : Word := word (n / 2 ^ 32)

/-- A register of block DEV, FLT or CAL whose value follows the state. -/
def viewDev (s : State) (a : Nat) : Option Word :=
  if a = Reg.DEV_STRAPS then some s.viewStraps
  else if a = Reg.DEV_STATUS then some s.viewStatus
  else if a = Reg.DEV_ENV_STAT then some (putBits (s.reg a) 11 8 (laneBits s.inside))
  else if Reg.DEV_DEFER 0 ≤ a ∧ a ≤ Reg.DEV_DEFER 3 ∧ a % 4 = 0 then
    some (putBits (s.reg a) 4 0 (s.lane ⟨(a - Reg.DEV_DEFER 0) / 4 % 4, by omega⟩).deferred.length)
  else none

/-- A register of block SES or LNK whose value follows the state. -/
def viewLnk (s : State) (a : Nat) : Option Word :=
  if a = Reg.SES_ELECT then some s.viewElect
  else if a = Reg.SES_ROLE then some s.viewRole
  else if a = Reg.LNK_PORT_STAT then some s.viewPort
  else if a = Reg.LNK_STA_MAC_LO then some (word (leBytes ((macBytes s.stationMac).take 4)))
  else if a = Reg.LNK_STA_MAC_HI then some (word (leBytes ((macBytes s.stationMac).drop 4)))
  else if a = Reg.LNK_STA_IP then some s.stationIp
  else if Reg.LNK_SES_STAT 0 ≤ a ∧ a < Reg.LNK_SES_STAT 9 then
    let i : Sess := ⟨(a - Reg.LNK_SES_STAT 0) / 16 % 9, by omega⟩
    match a % 16 with
    | 0 => some (s.viewSesStat i)
    | 4 => some (s.viewSesKa i)
    | 8 => some (s.viewSesPeer i)
    | 12 => some (s.viewSesEvt i)
    | _ => none
  else none

/-- A register of block PWR whose value follows the state. -/
def viewPower (s : State) (a : Nat) : Option Word :=
  if a = Reg.PWR_STATE then some s.viewPwr
  else if a = Reg.PWR_MEAS then some (pack [(s.vLedField, 0), (s.pwr.iNow.toNat, 16)])
  else if a = Reg.PWR_BUS_NOW then some (pack [(min s.pwr.bNow 0xFFFF, 0)])
  else none

/-- A register of a lane base of block PLC whose value follows the state. -/
def viewLaneReg (s : State) (n : Lane) (o : Nat) : Option Word :=
  match o with
  | 0x08 => some (lo32 (s.lane n).pc.toNat)
  | 0x0C => some (hi32 (s.lane n).pc.toNat)
  | 0x10 => some (lo32 (s.lane n).hwm.toNat)
  | 0x14 => some (hi32 (s.lane n).hwm.toNat)
  | 0x44 => some (s.viewPlc n)
  | 0x58 => some (word (s.lane n).recs.length)
  | _ => none

/-- A register of an axis base whose value follows the state. -/
def viewAxisReg (s : State) (x : Axis) (o : Nat) : Option Word :=
  let m := s.axis x
  match o with
  | 0x08 => some (s.viewMot x)
  | 0x24 => some (BitVec.setWidth 32 m.cmd)
  | 0x28 => some (BitVec.setWidth 32 m.emit)
  | 0x60 => some (lo32 m.mpos.toNat)
  | 0x64 => some (hi32 m.mpos.toNat)
  | 0x68 => some (lo32 m.mhwm.toNat)
  | 0x6C => some (hi32 m.mhwm.toNat)
  | 0x70 => some (lo32 m.anchor.toNat)
  | 0x74 => some (hi32 m.anchor.toNat)
  | 0x78 => some (lo32 m.ratio.toNat)
  | 0x7C => some (hi32 m.ratio.toNat)
  | 0xA0 => if isStepper x then some (s.viewDrv x) else none
  | 0xA4 => if isStepper x then some (pack [(m.drive.load, 0), (m.drive.atceil, 16)]) else none
  | 0xA8 => if isStepper x then some (viewChop m.drive.coilA) else none
  | 0xAC => if isStepper x then some (viewChop m.drive.coilB) else none
  | 0xB4 => some (pack [(m.drive.pend, 0), (b2n m.drive.idirNeg, 16)])
  | _ => none

/-- A register of block HST whose value follows the state. -/
def viewHst (s : State) (a : Nat) : Option Word :=
  if a < 0x8600 then
    let c : Chan := ⟨(a - 0x8000) / 0x40 % 24, by omega⟩
    match a % 0x40 with
    | 0x14 => some (s.viewChan c)
    | 0x28 => some (if (s.chan c).dropped then 0xFFFFFFFF else (s.chan c).pos)
    | 0x38 => some (word (s.chan c).head)
    | _ => none
  else if 0x8800 ≤ a ∧ a < 0x8840 ∧ a % 0x10 = 4 then some (s.viewShaft ⟨(a - 0x8800) / 0x10 % 4, by omega⟩)
  else if 0x8A00 ≤ a ∧ a < 0x8B80 then
    let x := s.chan ⟨(a - 0x8A00) / 0x10 % 24, by omega⟩
    match a % 0x10 with
    | 8 => some x.cs
    | 12 => some x.cd
    | _ => none
  else if 0x8C00 ≤ a ∧ a < 0x8CC0 ∧ a % 4 = 0 then
    let x := s.chan ⟨(a - 0x8C00) / 8 % 24, by omega⟩
    if a % 8 = 0 then some (pack [(x.lc[0].toNat, 0), (x.lc[1].toNat, 16)]) else some (pack [(x.lc[2].toNat, 0), (x.lc[3].toNat, 16)])
  else none

/-- A register of a lane base of block CMP, or `CMP_TASKS`, whose value follows the state. -/
def viewCmpReg (s : State) (a : Nat) : Option Word :=
  if a = Reg.CMP_TASKS then some (putBits (s.reg a) 8 0 s.tasksHeld)
  else if a < 0x9100 then
    let n : Lane := ⟨(a - 0x9000) / 0x40 % 4, by omega⟩
    match a % 0x40 with
    | 0x14 => some (word s.cmp.next[n])
    | 0x1C => some (s.viewCmp n)
    | _ => none
  else none

/-- A register of a head base of block HLT whose value follows the state. -/
def viewHltReg (s : State) (h : Head) (o : Nat) : Option Word :=
  match o with
  | 0x08 => some (s.viewHlt h)
  | 0x5C => some (s.viewNoz h)
  | 0x60 => some (s.viewNozStat h)
  | 0x7C => some (lo32 (s.fireCount h (s.fld (Reg.HLT_FC_SEL h) 9 0)))
  | 0x80 => some (hi32 (s.fireCount h (s.fld (Reg.HLT_FC_SEL h) 9 0)))
  | _ => none

/-- A register of block REJ or HAT whose value follows the state. -/
def viewRejReg (s : State) (a : Nat) : Option Word :=
  if a = Reg.REJ_LINE_STAT then some s.viewLine
  else if a = Reg.REJ_IRQ_SRC then some (word s.irqSrc)
  else if a < 0xD100 ∧ a % 0x40 = 0x10 then some (s.viewRej ⟨(a - 0xD000) / 0x40 % 4, by omega⟩)
  else if 0xE000 ≤ a ∧ a < 0xE080 ∧ a % 0x20 = 4 then some (word (s.laneState ⟨(a - 0xE000) / 0x20 % 4, by omega⟩).code)
  else if 0xE100 ≤ a ∧ a < 0xE208 ∧ a % 4 = 0 then some (s.viewLease ((a - 0xE100) / 4))
  else none

/-- The value of a register that follows the state, by block; none where the register holds its value. -/
def derived (s : State) (a : Nat) : Option Word :=
  match a / 0x1000 with
  | 0 => s.viewDev a
  | 1 => s.viewLnk a
  | 2 => s.viewLnk a
  | 3 => s.viewPower a
  | 4 => if a = Reg.FLT_ERR then some (putBits (s.reg a) 8 8 (b2n s.errActive)) else none
  | 5 =>
    if a < 0x5400 ∧ a % 0x40 = 8 then some (lo32 (s.viewTimer ⟨(a - 0x5000) / 0x40 % 16, by omega⟩))
    else if a < 0x5400 ∧ a % 0x40 = 12 then some (hi32 (s.viewTimer ⟨(a - 0x5000) / 0x40 % 16, by omega⟩))
    else none
  | 6 =>
    if a < 0x6400 then s.viewLaneReg ⟨(a - 0x6000) / 0x100 % 4, by omega⟩ (a % 0x100)
    else if a = Reg.PLC_ENC_STAT 0 then some (putBits (s.reg a) 8 8 (b2n (s.losNow 0)))
    else if a = Reg.PLC_ENC_STAT 1 then some (putBits (s.reg a) 8 8 (b2n (s.losNow 1)))
    else none
  | 7 => if a < 0x7600 then s.viewAxisReg ⟨(a - 0x7000) / 0x100 % 6, by omega⟩ (a % 0x100) else none
  | 8 => s.viewHst a
  | 9 => s.viewCmpReg a
  | 11 => if a < 0xB400 ∧ a % 0x100 = 8 then some (s.viewHed ⟨(a - 0xB000) / 0x100 % 4, by omega⟩) else none
  | 12 => if a < 0xC400 then s.viewHltReg ⟨(a - 0xC000) / 0x100 % 4, by omega⟩ (a % 0x100) else none
  | 13 => s.viewRejReg a
  | 14 => s.viewRejReg a
  | _ => none

/-- What a register reads as; an unused address reads 0 (R17, R69). -/
def readReg (s : State) (a : Nat) : Word :=
  if (regAt a).isSome then (match s.derived a with | some w => w | none => s.reg a) else 0

/-! ### Snapshot groups -/

/-- Several registers set. -/
def setRegs (s : State) (l : List (Nat × Word)) : State := l.foldl (fun (s : State) (e : Nat × Word) => s.setReg e.1 e.2) s

/-- The registers of a snapshot group with the values of the present cut, by the group's lowest address (R14). -/
def groupValues (s : State) (a : Nat) : List (Nat × Word) :=
  if a = Reg.DEV_ORDER_LO then
    [(Reg.DEV_ORDER_LO, lo32 s.order), (Reg.DEV_ORDER_HI, hi32 s.order), (Reg.DEV_TICK_LO, lo32 s.tick), (Reg.DEV_TICK_HI, hi32 s.tick)]
  else if a = Reg.PWR_LEDGER_HEAD_LO then
    [(Reg.PWR_LEDGER_HEAD_LO, lo32 s.headroom), (Reg.PWR_LEDGER_HEAD_HI, hi32 (s.headroom % 2 ^ 48)),
     (Reg.PWR_LEDGER_HELD_LO, lo32 s.held), (Reg.PWR_LEDGER_HELD_HI, hi32 (s.held % 2 ^ 48)), (Reg.PWR_LEDGER_V, word s.vLedField)]
  else if a = Reg.FLT_BIN_HEAD then
    [Reg.FLT_BIN_HEAD, Reg.FLT_BIN_ADDR, Reg.FLT_BIN_ORDER_LO, Reg.FLT_BIN_ORDER_HI, Reg.FLT_BIN_PLACE_LO, Reg.FLT_BIN_PLACE_HI].zip
      s.binWords
  else if a = Reg.CAL_NOW_DAY then
    let d := dateOf s.cal.day
    [(Reg.CAL_NOW_DAY, pack [(s.cal.day, 0), (b2n s.cal.isSet, 31)]), (Reg.CAL_NOW_TIME, word s.cal.second),
     (Reg.CAL_NOW_YMD, pack [(d.2.2, 0), (d.2.1, 8), (d.1, 16)])]
  else []

/-- Every group whose lowest register is among the addresses is captured (R14). -/
def capture_ (s : State) (l : List Nat) : State :=
  (l.filter fun a => [Reg.DEV_ORDER_LO, Reg.PWR_LEDGER_HEAD_LO, Reg.FLT_BIN_HEAD, Reg.CAL_NOW_DAY].contains a).foldl
    (fun (s : State) (a : Nat) => s.setRegs (s.groupValues a)) s

/-! ### Reads of session operations -/

/-- The word at an address, or the failed read (R69, R73, R77, R79, R87). -/
def readWord (s : State) (env : MemEnv) (a : Nat) : Read :=
  if s.isolated (portOf s a) then .error a
  else match regionOf s a with
    | .register => .ok (s.readReg a).toNat
    | .table => if tableAllocated a then (if tableUsed a then .ok (s.mem.table a).toNat else .ok 0) else .error a
    | .none => .error a
    | _ => readBulk s env a 4

/-- An address that a session read refuses with `BAD_ADDRESS` (R69): it lies in no region, or in no allocated window. -/
def badRead (s : State) (a : Nat) : Bool :=
  decide (a % 4 ≠ 0) ||
  match regionOf s a with
  | .none => true
  | .table => !tableAllocated a
  | _ => false

/-- The words of a read at one cut, or the first failed one (R49). -/
def readAll (s : State) (env : MemEnv) : List Nat → Except Read (List Word)
  | [] => .ok []
  | a :: rest =>
    match s.readWord env a with
    | .ok v => (match readAll s env rest with | .ok l => .ok (word v :: l) | .error e => .error e)
    | e => .error e

end State
end Sys2Proof.Machine
end

