-- ==== Sys2Proof/Machine/HoistRun.lean ====
section
/-! DEFINITION. What a Hoist run does: element accesses, the transfer patterns, their checks and halts, the instructions of a
program, and Shelf descriptors (13_hoist_transfers R341-R350; 14_hoist_programs R356-R375). -/

namespace Sys2Proof.Machine

/-- `E` of a transfer. -/
def Xfer.size (x : Xfer) : Nat := 2 ^ x.esize

/-- Elements of a transfer. -/
def Xfer.total (x : Xfer) : Nat := x.n * x.rows

/-- The pattern takes its addresses from a table (R342). -/
def Xfer.indexed (x : Xfer) : Bool := decide (x.pat = .gather) || decide (x.pat = .scatter)

/-- A linear transfer, or a 2D transfer with equal strides: a copy through a buffer (R346). -/
def Xfer.buffered (x : Xfer) : Bool := decide (x.pat = .linear) || (decide (x.pat = .twoD) && decide (x.sstride = x.dstride))

/-- Row and column of element `i` in processing order (R342, R346). -/
def Xfer.place (x : Xfer) (i : Nat) : Nat × Nat :=
  let r := i / x.n
  let j := i % x.n
  if x.buffered && decide (x.src < x.dst) then
    (if x.sstride < 0 then r else x.rows - 1 - r, x.n - 1 - j)
  else if x.buffered && decide (x.dst < x.src) then
    (if x.sstride < 0 then x.rows - 1 - r else r, j)
  else (r, j)

/-- Source and destination of element `i` in processing order; `off` is its table offset (R342). -/
def Xfer.addrs (x : Xfer) (i off : Nat) : Int × Int :=
  let (r, j) := x.place i
  match x.pat with
  | .gather => ((x.src + off : Nat), (x.dst + x.size * i : Nat))
  | .scatter => ((x.src + x.size * i : Nat), (x.dst + off : Nat))
  | _ => ((x.src : Int) + r * x.sstride + x.size * j, (x.dst : Int) + r * x.dstride + x.size * j)

/-- Elements of the burst that starts at element `i`: within the row and within a 64-byte block on either side (R343). -/
def Xfer.burst (x : Xfer) (i : Nat) : Nat :=
  if x.indexed then 1
  else
    let a := x.addrs i 0
    let same (k : Nat) : Bool :=
      let b := x.addrs (i + k) 0
      decide ((i + k) / x.n = i / x.n) && decide (i + k < x.total) && decide (b.1 / 64 = a.1 / 64) && decide (b.2 / 64 = a.2 / 64)
    ((List.range 64).takeWhile same).length

/-- `SWAP` of an element (R345). -/
def swapBytes (esize swap : Nat) (b : List Byte) : List Byte :=
  let g (i : Nat) : Byte := b.getD i 0
  match swap with
  | 1 => (List.range (2 ^ esize)).map fun i => g (if i % 2 = 0 then i + 1 else i - 1)
  | 2 => (List.range (2 ^ esize)).map fun i => g (i / 4 * 4 + (i + 2) % 4)
  | 3 => (List.range (2 ^ esize)).map fun i => g (i / 4 * 4 + 3 - i % 4)
  | _ => b

/-- A `SWAP` that R345 does not reserve. -/
def swapOk (esize swap : Nat) : Bool :=
  decide (swap = 0) || (decide (swap = 1) && decide (1 ≤ esize)) || decide (2 ≤ esize)

/-- A byte extent of the rows of a 2D transfer (R347). -/
def extent (a : Nat) (rows n e : Nat) (stride : Int) : Int × Int :=
  let l := (a : Int) + ((rows : Int) - 1) * stride
  (min (a : Int) l, max (a : Int) l + (e * n : Nat))

/-- A 2D transfer that R347 refuses. -/
def Xfer.overlaps (x : Xfer) : Bool :=
  decide (x.pat = .twoD) &&
    (let s := extent x.src x.rows x.n x.size x.sstride
     let d := extent x.dst x.rows x.n x.size x.dstride
     (decide (x.sstride ≠ x.dstride) && decide (s.1 < d.2) && decide (d.1 < s.2)) ||
       (decide (1 < x.rows) && decide (x.dstride.natAbs < x.size * x.n)))

/-- The first address that fails the alignment check before any element moves, and whether it is a destination (R344). -/
def Xfer.misaligned (x : Xfer) : Option (Int × Bool) :=
  if x.indexed then (if x.table % 4 ≠ 0 then some ((x.table : Int), false) else none)
  else
    let e : Int := x.size
    let row1 := decide (1 < x.rows)
    (([((x.src : Int), false), ((x.dst : Int), true)] ++
      (if row1 then [((x.src : Int) + x.sstride, false), ((x.dst : Int) + x.dstride, true)] else [])).find? fun a => a.1 % e ≠ 0)

/-- Why an element does not move: halt kind (1 or 3), address, direction, table entry, and the failing read. -/
structure ElemFail where
  kind : Nat
  addr : Nat
  write : Bool
  table : Bool
  read : Read

/-- What becomes of an element. -/
inductive Elem where
  /-- It has moved: the destination, and its bytes. -/
  | ok (s : State) (dst : Nat) (b : List Byte)
  /-- Its read is held (R91). -/
  | held
  | fail (e : ElemFail)

namespace State

/-! ### Accesses -/

/-- A read at this address is held (R91). -/
def heldAt (s : State) (a : Nat) : Bool := decide (regionOf s a = .cellar) && s.celHeld && !s.isolated 3

/-- A read of `n` bytes by a Hoist channel (R70, R73). -/
def hoistRead (s : State) (env : MemEnv) (a n : Nat) : Read :=
  match regionOf s a with
  | .register => if n = 4 then s.readWord env a else .error a
  | .table => if n = 4 then s.readWord env a else .error a
  | _ => readBulk s env a n

/-- A read captures the snapshot group whose lowest register it names (R14). -/
def captureAt (s : State) (a : Nat) : State := if a < 0x10000 then s.capture_ [a] else s

/-- A register that a Hoist channel may write (R73). -/
def celReg (a : Nat) : Bool :=
  decide (a = Reg.MEM_CEL_PADDR) || decide (a = Reg.MEM_CEL_PCTRL) || decide (a = Reg.MEM_CEL_PGO) ||
    (decide (Reg.MEM_CEL_PBUF 0 ≤ a ∧ a ≤ Reg.MEM_CEL_PBUF 63) && decide (a % 4 = 0))

/-- The writable bits of a register: `OUT_MODE` and `FB_EN` are reserved on X0 to X3 (R313), and the stepper fields of
`MOT_DRV_CFG` on X4 and X5 (R332). -/
def rwMask (a : Nat) : Word :=
  if a = Reg.MOT_CFG 0 ∨ a = Reg.MOT_CFG 1 ∨ a = Reg.MOT_CFG 2 ∨ a = Reg.MOT_CFG 3 then 0xF7F21332
  else if a = Reg.MOT_DRV_CFG 4 ∨ a = Reg.MOT_DRV_CFG 5 then 0x000F3000
  else match regAt a with | some (r, _) => word r.rw | none => 0

/-- A write of one of the `MEM_CEL_P` registers by a Hoist channel: a commit; none where it receives an error response (R89,
R90, R362). -/
def hoistReg (s : State) (a : Nat) (v : Word) : Option State :=
  if s.isolated (portOf s a) then none
  else if a = Reg.MEM_CEL_PGO then
    if bit v 0 then (match s.commit.celGo with | (t, true) => some t | (_, false) => none) else some s.commit
  else some ((s.setReg a ((s.reg a &&& ~~~(rwMask a)) ||| (v &&& rwMask a))).commit)

/-- A write of bytes by a Hoist channel (R72, R73, R75): none where it receives an error response. -/
def hoistWrite (s : State) (c : Chan) (a : Nat) (b : List Byte) : Option State :=
  match regionOf s a with
  | .larder =>
    if !s.isolated 2 && s.mayWriteBank (holdChan c) (bankOf a) then some (s.modMem fun m => m.writeLarder a b.length (leBytes b)) else none
  | .register => if b.length = 4 ∧ celReg a then s.hoistReg a (word (leBytes b)) else none
  | _ => none

/-- The address of a failed read, for the halt registers. -/
def failAddr : Read → Nat → Nat
  | .void a, _ => a
  | .uncorr a, _ => a
  | .bus a, _ => a
  | .error a, _ => a
  | .ok _, a => a

/-! ### Elements -/

/-- The table offset of element `i` (R342, R348); 0 where the pattern has no table. -/
def tableOff (s : State) (env : MemEnv) (x : Xfer) (i : Nat) : Except Elem Nat :=
  if x.indexed then
    let t := x.table + 4 * i
    if 2 ^ 32 ≤ t then .error (.fail ⟨3, t, false, true, .error t⟩)
    else if s.heldAt t then .error .held
    else match s.hoistRead env t 4 with
      | .ok v => .ok v
      | e => .error (.fail ⟨3, t, false, true, e⟩)
  else .ok 0

/-- The read and the write of an element whose addresses are known (R342-R345, R350). -/
def moveBytes (s : State) (c : Chan) (env : MemEnv) (x : Xfer) (src dst : Int) : Elem :=
  let e := x.size
  if x.indexed && decide (src % (e : Int) ≠ 0) then .fail ⟨1, wrapInt 64 src, false, false, .ok 0⟩
  else if x.indexed && decide (dst % (e : Int) ≠ 0) then .fail ⟨1, wrapInt 64 dst, true, false, .ok 0⟩
  else if src < 0 ∨ (2 ^ 32 : Int) ≤ src then .fail ⟨3, wrapInt 64 src, false, false, .ok 0⟩
  else if s.heldAt src.toNat then .held
  else match s.hoistRead env src.toNat e with
    | .ok v =>
      let b := swapBytes x.esize x.swap (bytesLE e v)
      if dst < 0 ∨ (2 ^ 32 : Int) ≤ dst then .fail ⟨3, wrapInt 64 dst, true, false, .ok 0⟩
      else match (s.captureAt src.toNat).hoistWrite c dst.toNat b with
        | some t => .ok t dst.toNat b
        | none => .fail ⟨3, dst.toNat, true, false, .ok 0⟩
    | r => .fail ⟨3, src.toNat, false, false, r⟩

/-- Element `i` in processing order moves (R342-R348). -/
def moveElem (s : State) (c : Chan) (env : MemEnv) (x : Xfer) (i : Nat) : Elem :=
  match s.tableOff env x i with
  | .error e => e
  | .ok off => s.moveBytes c env x (x.addrs i off).1 (x.addrs i off).2

/-- How a part of a transfer ends. -/
inductive MoveEnd where
  /-- The elements asked for have moved. -/
  | done
  | held
  | fail (e : ElemFail)

/-- `k` elements move from element `i` on. The bytes moved are collected, the latest first, and the last destination is
kept in the channel. -/
def moveN (c : Chan) (env : MemEnv) (x : Xfer) : Nat → State → Nat → List Byte → State × Nat × List Byte × MoveEnd
  | 0, s, i, acc => (s, i, acc, .done)
  | k + 1, s, i, acc =>
    match s.moveElem c env x i with
    | .ok t dst b => moveN c env x k (t.modChan c fun y => { y with lastDst := some dst }) (i + 1) (b.reverse ++ acc)
    | .held => (s, i, acc, .held)
    | .fail e => (s, i, acc, .fail e)

/-! ### Halts -/

/-- The channel halts in a transfer of which `done` elements have moved (R344, R350). -/
def haltXfer (s : State) (c : Chan) (x : Xfer) (done : Nat) (e : ElemFail) : State :=
  let s := s.modChan c fun y => { y with xfer := some { x with done := done } }
  let s := s.noteRead e.read
  let s := s.latchHalt c (word e.addr) e.kind e.write false e.table (x.total - done)
  s.haltChan c (if e.kind = 1 then Kind.hstMisalign else Kind.hstBus) (word e.addr)

/-- Old or new byte by byte, as the bits of a free value say. -/
def mixBytes (f : Nat) (old new : List Byte) : List Byte :=
  (List.range new.length).map fun i => if f.testBit i then new.getD i 0 else old.getD i 0

/-- An element that may have been written after a write error (R350): each of its bytes holds its old or its new value. -/
def spillElem (s : State) (c : Chan) (env : MemEnv) (x : Xfer) (i : Nat) : State :=
  match s.moveElem c env x i with
  | .ok _ dst b =>
    match regionOf s dst, s.hoistRead MemEnv.quiet dst b.length with
    | .larder, .ok old =>
      let (f, s) := s.drawFree
      s.modMem fun m => m.writeLarder dst b.length (leBytes (mixBytes (Config.freeWord f).toNat (bytesLE b.length old) b))
    | .larder, .void _ =>
      let (f, s) := s.drawFree
      if bit (Config.freeWord f) 0 then s.modMem fun m => m.writeLarder dst b.length (leBytes b) else s
    | _, _ => s
  | _ => s

/-- Up to `n` bursts after element `i` may have been written (R350). -/
def spill (c : Chan) (env : MemEnv) (x : Xfer) : Nat → State → Nat → State
  | 0, s, _ => s
  | n + 1, s, i =>
    if x.total ≤ i then s
    else
      let k := max 1 (x.burst i)
      let s := (List.range k).foldl (fun (s : State) (j : Nat) => s.spillElem c env x (i + j)) s
      spill c env x n s (i + k)

/-- A halt in a transfer; after a write error the bursts already issued may have been written (R350). -/
def failXfer (s : State) (c : Chan) (env : MemEnv) (x : Xfer) (done : Nat) (e : ElemFail) : State :=
  let s := if e.write && decide (e.kind = 3) then spill c env x 15 s (done + 1) else s
  s.haltXfer c x done e

/-- The checks before any element moves (R344, R347): the halted state, or none where they pass. -/
def xferRefused (s : State) (c : Chan) (x : Xfer) : Option State :=
  match x.misaligned with
  | some (a, w) => some (s.haltXfer c x 0 ⟨1, wrapInt 64 a, w, false, .ok 0⟩)
  | none =>
    if x.overlaps then
      let s := s.modChan c fun y => { y with xfer := some x }
      some ((s.latchHalt c (word x.src) 2 false false false x.total).haltChan c Kind.hstOverlap (word c.val))
    else none

/-! ### Transfers -/

/-- The run goes on after its transfer: cursors advance, and the next instruction is current (R358). -/
def afterXfer (s : State) (c : Chan) (x : Xfer) : State :=
  s.modChan c fun y => { y with xfer := none, cs := y.cs + x.advS, cd := y.cd + x.advD, pos := x.next }

/-- A part of a transfer has ended: `fin` makes what follows the whole transfer. -/
def endPart (fin : State → State) (c : Chan) (env : MemEnv) (x : Xfer) (r : State × Nat × List Byte × MoveEnd) : State :=
  let s := r.1.deliver (r.1.chReqLine c) r.2.2.1.reverse
  match r.2.2.2 with
  | .fail e => s.failXfer c env x r.2.1 e
  | _ =>
    if r.2.1 = x.total then fin s
    else s.modChan c fun y => { y with xfer := some { x with done := r.2.1 } }

/-- Bursts of a request-paced channel: one for each request that waits; then the channel waits for the next (R340). -/
def reqBursts (fin : State → State) (c : Chan) (env : MemEnv) : Nat → State → Xfer → State
  | 0, s, x => (s.modChan c fun y => { y with xfer := some x }).waitChan c .request
  | n + 1, s, x =>
    let s := s.setFld (Reg.HST_REQ c) 7 0 (s.reqPend c - 1)
    let r := moveN c env x (x.burst x.done) s x.done []
    match r.2.2.2 with
    | .done => if r.2.1 = x.total then endPart fin c env x r
               else reqBursts fin c env n (r.1.deliver (r.1.chReqLine c) r.2.2.1.reverse) { x with done := r.2.1 }
    | _ => endPart fin c env x r

/-- A transfer goes on: wholly, or burst by burst for a channel with a request line (R340, R341). -/
def runXfer (fin : State → State) (s : State) (c : Chan) (env : MemEnv) (x : Xfer) : State :=
  match (if x.done = 0 then s.xferRefused c x else none) with
  | some t => t
  | none =>
    if s.chReqLine c = 0 then endPart fin c env x (moveN c env x (x.total - x.done) s x.done [])
    else reqBursts fin c env (s.reqPend c) s x

/-! ### Instructions -/

/-- A decoded instruction (R357-R363); `bytes` is its length. -/
inductive HInstr where
  | xfer (x : Xfer)
  | loop (ctr iter back : Nat)
  | waitSig (n : Nat)
  | waitMem (addr : Nat) (mask value : Word)
  | waitDelay (ticks : Nat)
  | signal (dst : Nat) (n : Nat)
  | setMem (addr : Nat) (v : Word)
  | setCur (src : Bool) (v : Word)
  | end_
  deriving DecidableEq, Repr

/-- The length of an instruction by its opcode; 0 for a reserved one (R356). -/
def instrBytes (op : Nat) : Nat :=
  match op with
  | 1 => 16 | 2 => 24 | 3 => 24 | 4 => 24 | 5 => 8 | 6 => 16 | 7 => 8 | 8 => 16 | 15 => 8
  | _ => 0

/-- Word `k` of an instruction. -/
def wd (l : List Word) (k : Nat) : Word := l.getD k 0

/-- A transfer instruction at `pos` (R357, R358); none where a reserved bit or a reserved `SWAP` is set. -/
def decodeXfer (y : ChanSt) (l : List Word) (op : Nat) : Option HInstr :=
  let w := wd l 0
  let e := 2 ^ bits w 9 8
  let sc := bit w 12
  let dc := bit w 13
  let src := if sc then y.cs + wd l 2 else wd l 2
  let dst := if dc then y.cd + wd l 3 else wd l 3
  let adv (on : Bool) (n : Int) : Word := if on then BitVec.ofInt 32 n else 0
  let next := y.pos + word (instrBytes op)
  let w1 := wd l 1
  if bits w 31 14 ≠ 0 ∨ !swapOk (bits w 9 8) (bits w 11 10) then none
  else match op with
    | 1 =>
      let n := bits w1 23 0 + 1
      if bits w1 31 24 ≠ 0 then none
      else some (.xfer ⟨.linear, bits w 9 8, bits w 11 10, src.toNat, dst.toNat, n, 1, 0, 0, 0, 0,
        adv sc (e * n : Nat), adv dc (e * n : Nat), next⟩)
    | 2 =>
      let n := bits w1 15 0 + 1
      let rows := bits w1 31 16 + 1
      let ss := (wd l 4).toInt
      let ds := (wd l 5).toInt
      some (.xfer ⟨.twoD, bits w 9 8, bits w 11 10, src.toNat, dst.toNat, n, rows, ss, ds, 0, 0,
        adv sc (rows * ss), adv dc (rows * ds), next⟩)
    | _ =>
      let n := bits w1 15 0 + 1
      let gather := decide (op = 3)
      if bits w1 31 16 ≠ 0 ∨ wd l 5 ≠ 0 then none
      else some (.xfer ⟨if gather then .gather else .scatter, bits w 9 8, bits w 11 10, src.toNat, dst.toNat, n, 1, 0, 0,
        (wd l 4).toNat, 0, adv (sc && !gather) (e * n : Nat), adv (dc && gather) (e * n : Nat), next⟩)

/-- A WAIT instruction (R360). -/
def decodeWait (l : List Word) : Option HInstr :=
  let w := wd l 0
  if bits w 15 10 ≠ 0 ∨ bits w 31 19 ≠ 0 then none
  else match bits w 9 8 with
    | 0 => if wd l 1 = 0 ∧ wd l 2 = 0 ∧ wd l 3 = 0 then some (.waitSig (bits w 18 16)) else none
    | 1 => if bits w 18 16 = 0 then some (.waitMem (wd l 1).toNat (wd l 2) (wd l 3)) else none
    | 2 => if bits w 18 16 = 0 ∧ wd l 1 = 0 ∧ wd l 2 ≠ 0 ∧ wd l 3 = 0 then some (.waitDelay (wd l 2).toNat) else none
    | _ => none

/-- A SET instruction (R362). -/
def decodeSet (l : List Word) : Option HInstr :=
  let w := wd l 0
  if bits w 31 10 ≠ 0 ∨ wd l 3 ≠ 0 then none
  else match bits w 9 8 with
    | 0 => some (.setMem (wd l 2).toNat (wd l 1))
    | 1 => if wd l 2 = 0 then some (.setCur true (wd l 1)) else none
    | 2 => if wd l 2 = 0 then some (.setCur false (wd l 1)) else none
    | _ => none

/-- The instruction that words spell for a channel (R356-R363); none is a program fault (R368). -/
def decodeInstr (y : ChanSt) (l : List Word) : Option HInstr :=
  let w := wd l 0
  match bits w 7 0 with
  | 5 =>
    if bits w 15 10 = 0 ∧ bits w 31 16 ≠ 0 ∧ bits (wd l 1) 31 16 = 0 ∧ bits (wd l 1) 15 0 ≠ 0 then
      some (.loop (bits w 9 8) (bits w 31 16) (bits (wd l 1) 15 0))
    else none
  | 6 => decodeWait l
  | 7 => if bits w 15 13 = 0 ∧ bits w 31 19 = 0 ∧ wd l 1 = 0 ∧ bits w 12 8 < 24 then some (.signal (bits w 12 8) (bits w 18 16)) else none
  | 8 => decodeSet l
  | 15 => if bits w 31 8 = 0 ∧ wd l 1 = 0 then some .end_ else none
  | op => if 1 ≤ op ∧ op ≤ 4 then decodeXfer y l op else none

/-- What a fetch gives. -/
inductive Fetched where
  | instr (op : Nat) (i : HInstr)
  | held
  | fault (r : Read)

/-- An address from which instructions are fetched (R366). -/
def fetchable (s : State) (a : Nat) : Bool := decide (regionOf s a = .larder) || decide (regionOf s a = .cellar)

/-- `k` words at `a`, each from the Larder or the Cellar window. -/
def fetchWords (s : State) (env : MemEnv) : Nat → Nat → Except Read (List Word)
  | _, 0 => .ok []
  | a, k + 1 =>
    if s.fetchable a then
      match readBulk s env a 4 with
      | .ok v => (match fetchWords s env (a + 4) k with | .ok l => .ok (word v :: l) | .error e => .error e)
      | e => .error e
    else .error (.error a)

/-- The instruction at the channel's position (R356, R366). -/
def fetchInstr (s : State) (env : MemEnv) (c : Chan) : Fetched :=
  let y := s.chan c
  let a := y.pos.toNat
  if s.heldAt a then .held
  else match s.fetchWords env a 1 with
    | .error e => .fault e
    | .ok l =>
      let op := bits (wd l 0) 7 0
      if instrBytes op = 0 then .fault (.ok 0)
      else match s.fetchWords env a (instrBytes op / 4) with
        | .error e => .fault e
        | .ok l => (match decodeInstr y l with | some i => .instr op i | none => .fault (.ok 0))

/-- A program fault at the current instruction (R368). -/
def programFault (s : State) (c : Chan) (r : Read) : State :=
  let s := s.noteRead r
  let a := (s.chan c).pos
  (s.latchHalt c a 4 false false false 0).haltChan c Kind.hstProgram a

/-- The channel halts in an instruction without elements, with residue 0 (R360, R362). -/
def haltWord (s : State) (c : Chan) (kind a : Nat) (write confirm : Bool) (r : Read) : State :=
  let s := s.noteRead r
  (s.latchHalt c (word a) kind write confirm false 0).haltChan c (if kind = 1 then Kind.hstMisalign else Kind.hstBus) (word a)

/-- The position moves on. -/
def advancePos (s : State) (c : Chan) (n : Nat) : State := s.modChan c fun y => { y with pos := y.pos + word n }

/-- The channel holds at an instruction that this command may execute: RUNNING, with no abort and no completion under way. -/
def mayExecute (s : State) (c : Chan) : Bool :=
  decide ((s.chan c).state = .running) && !(s.chan c).aborting && !(s.chan c).ready

/-- The run is paced (R338). -/
def isPaced (s : State) (c : Chan) : Bool := decide ((s.chan c).kind ≠ .free)

/-- LOOP (R359). -/
def execLoopOp (s : State) (c : Chan) (ctr iter back : Nat) : State :=
  let y := s.chan c
  let k : Fin 4 := ⟨ctr % 4, by omega⟩
  let v := (if y.lc[k] = 0 then BitVec.ofNat 16 iter else y.lc[k]) - 1
  s.setChan c { y with lc := y.lc.set k v, pos := if v ≠ 0 then y.pos - word (8 * back) else y.pos + 8 }

/-- The flag that a WAIT consumes is cleared, without a change of the generation (R360). -/
def takeSig (s : State) (c : Chan) (n : Nat) : State := (s.setFld (Reg.HST_SIG c) n n 0).commit

/-- The Shelf head of a waiting channel is read again (R371): QUEUED where it is owned, a fault where the read fails. -/
def shelfReread (s : State) (c : Chan) (env : MemEnv) : State :=
  match (s.chan c).wait with
  | some (.empty _) =>
    let a := (s.chan c).pos
    match readBulk s env a.toNat 8 with
    | .ok v =>
      if v % 2 = 1 then s.wakeChan c else s.modChan c fun y => { y with wait := some (.empty s.tick) }
    | e =>
      let s := s.noteRead e
      (s.latchHalt c a 5 false false false 0).haltChan c Kind.hstShelf a
  | _ => s

/-- A flag of a channel is set (R361): a WAIT that waits for it consumes it, and an empty Shelf is kicked. -/
def setSig (s : State) (c : Chan) (n : Nat) (env : MemEnv) : State :=
  if (s.chan c).state = .disabled then s
  else
    let s := (s.setFlag (Reg.HST_SIG c) n).commit
    if (s.chan c).wait = some (.sig n) then ((s.takeSig c n).wakeChan c).advancePos c 16
    else s.shelfReread c env

/-- SIGNAL (R361, R365). -/
def execSignalOp (s : State) (c : Chan) (dst n : Nat) (env : MemEnv) : State :=
  let t : Chan := ⟨dst % 24, by omega⟩
  if s.isPaced c ∨ s.holder (resChan t) ≠ s.holder (resChan c) then s.programFault c (.ok 0)
  else (s.setSig t n env).advancePos c 8

/-- WAIT on a signal (R360). -/
def execWaitSig (s : State) (c : Chan) (n : Nat) : State :=
  if s.rbit (Reg.HST_SIG c) n then (s.takeSig c n).advancePos c 16 else s.waitChan c (.sig n)

/-- WAIT on a memory word (R360). -/
def execWaitMem (s : State) (c : Chan) (a : Nat) (mask value : Word) (env : MemEnv) : State :=
  if a % 4 ≠ 0 then s.haltWord c 1 a false false (.ok 0)
  else if s.heldAt a then s
  else match s.hoistRead env a 4 with
    | .ok v =>
      let s := s.captureAt a
      if word v &&& mask = value then s.advancePos c 16 else s.waitChan c (.mem a mask value s.tick)
    | e => s.haltWord c 3 (failAddr e a) false false e

/-- SET of a memory word (R362). -/
def execSetMem (s : State) (c : Chan) (a : Nat) (v : Word) : State :=
  if a % 4 ≠ 0 then s.haltWord c 1 a true false (.ok 0)
  else match s.hoistWrite c a (bytesLE 4 v.toNat) with
    | some t => (t.modChan c fun y => { y with lastDst := some a }).advancePos c 16
    | none => s.haltWord c 3 a true false (.ok 0)

/-- The run's completion becomes ready under its completion mode (R349): a CONFIRMED run reads its last destination first. -/
def makeReady (s : State) (c : Chan) (env : MemEnv) : State :=
  match (if s.chConfirmed c then (s.chan c).lastDst else none) with
  | some a =>
    let r := if a < 0x100000 then s.hoistRead env (a / 4 * 4) 4 else s.hoistRead env a 1
    (match r with
     | .ok _ => s.modChan c fun y => { y with ready := true }
     | e => s.haltWord c 3 a false true e)
  | none => s.modChan c fun y => { y with ready := true }

/-- An instruction that is not a transfer, at the current position. -/
def runPlain (s : State) (c : Chan) (i : HInstr) (env : MemEnv) : State :=
  match i with
  | .xfer _ => s
  | .loop ctr iter back => s.execLoopOp c ctr iter back
  | .waitSig n => if s.isPaced c then s.programFault c (.ok 0) else s.execWaitSig c n
  | .waitMem a m v => if s.isPaced c then s.programFault c (.ok 0) else s.execWaitMem c a m v env
  | .waitDelay t => if s.isPaced c then s.programFault c (.ok 0) else s.waitChan c (.delay (s.tick + t))
  | .signal t n => s.execSignalOp c t n env
  | .setMem a v => if s.isPaced c then s.programFault c (.ok 0) else s.execSetMem c a v
  | .setCur true v => (s.modChan c fun y => { y with cs := v }).advancePos c 16
  | .setCur false v => (s.modChan c fun y => { y with cd := v }).advancePos c 16
  | .end_ => s.makeReady c env

/-- The instruction at the current position runs where its opcode is `op` (R364); a fetch that fails is a program fault, and
an instruction of another opcode is left to its own command. -/
def runInstr (s : State) (c : Chan) (op : Nat) (env : MemEnv) : State :=
  if !s.mayExecute c || s.chShelf c then s
  else
    let s := s.noteCorrected env
    match (s.chan c).xfer with
    | some x =>
      if (match x.pat with | .linear => 1 | .twoD => 2 | .gather => 3 | .scatter => 4) = op then
        s.runXfer (fun t => t.afterXfer c x) c env x
      else s
    | none =>
      match s.fetchInstr env c with
      | .held => s
      | .fault r => s.programFault c r
      | .instr o i =>
        if o = op then
          match i with
          | .xfer x => s.runXfer (fun t => t.afterXfer c x) c env x
          | i => s.runPlain c i env
        else s

/-! ### Waits -/

/-- A memory wait reads its word again 1,000 ticks after the previous read (R360). -/
def pollMem (s : State) (c : Chan) (env : MemEnv) : State :=
  match (s.chan c).state, (s.chan c).wait with
  | .waiting, some (.mem a m v t) =>
    let s := s.advanceTo (t + 1000)
    if s.heldAt a then s
    else match s.hoistRead env a 4 with
      | .ok r =>
        let s := (s.noteCorrected env).captureAt a
        if word r &&& m = v then (s.wakeChan c).advancePos c 16
        else s.modChan c fun y => { y with wait := some (.mem a m v s.tick) }
      | e => s.haltWord c 3 (failAddr e a) false false e
  | _, _ => s

/-- A delay ends (R360). -/
def delayEnd (s : State) (c : Chan) : State :=
  match (s.chan c).state, (s.chan c).wait with
  | .waiting, some (.delay t) => (((s.advanceTo t).wakeChan c)).advancePos c 16
  | _, _ => s

/-! ### Shelves -/

def shSlots (s : State) (c : Chan) : Nat := s.fld (Reg.HST_SHELF_CFG c) 12 0
def shPoll (s : State) (c : Chan) : Nat := s.fld (Reg.HST_SHELF_CFG c) 23 16

/-- The ring lies wholly in the Larder, with an aligned base (R369). -/
def ringOk (s : State) (c : Chan) : Bool :=
  let b := (s.reg (Reg.HST_BASE c)).toNat
  decide (b % 32 = 0) && decide (larderBase ≤ b ∧ b + 32 * s.shSlots c ≤ larderBase + 0x400000)

/-- A Shelf fault at the current slot (R374). -/
def shelfFault (s : State) (c : Chan) (write : Bool) (r : Read) : State :=
  let s := s.noteRead r
  let a := (s.chan c).pos
  (s.latchHalt c a 5 write false false 0).haltChan c Kind.hstShelf a

/-- A descriptor's transfer (R370); none where R374 refuses it. -/
def decodeDesc (l : List Word) (pos : Word) : Option Xfer :=
  let w := wd l 0
  let pat := bits w 5 4
  let cnt := wd l 2
  let ok := decide (bits w 3 3 = 0) && decide (bits w 15 10 = 0) && swapOk (bits w 7 6) (bits w 9 8) &&
    (decide (pat = 1) || decide (bits w 31 16 = 0)) && decide (wd l 7 = 0) && (decide (pat = 1) || decide (wd l 6 = 0)) &&
    (decide (pat ≠ 0) || decide (wd l 5 = 0)) && decide (if pat = 0 then bits cnt 31 24 = 0 else bits cnt 31 16 = 0)
  if !ok then none
  else
    let e := bits w 7 6
    let sw := bits w 9 8
    let src := (wd l 3).toNat
    let dst := (wd l 4).toNat
    match pat with
    | 0 => some ⟨.linear, e, sw, src, dst, bits cnt 23 0 + 1, 1, 0, 0, 0, 0, 0, 0, pos⟩
    | 1 => some ⟨.twoD, e, sw, src, dst, bits cnt 15 0 + 1, bits w 31 16 + 1, (wd l 5).toInt, (wd l 6).toInt, 0, 0, 0, 0, pos⟩
    | 2 => some ⟨.gather, e, sw, src, dst, bits cnt 15 0 + 1, 1, 0, 0, (wd l 5).toNat, 0, 0, 0, pos⟩
    | _ => some ⟨.scatter, e, sw, src, dst, bits cnt 15 0 + 1, 1, 0, 0, (wd l 5).toNat, 0, 0, 0, pos⟩

/-- The head advances after a write-back; `LAST` makes the completion ready (R371, R372). -/
def shelfNext (s : State) (c : Chan) (w : Word) (env : MemEnv) : State :=
  let s := if bit w 2 then (s.setFlag (Reg.HST_SIG c) 8).commit else s
  let h := ((s.chan c).head + 1) % max 1 (s.shSlots c)
  let base := s.reg (Reg.HST_BASE c)
  let s := s.modChan c fun y =>
    { y with xfer := none, shelf := none, head := h, seqCount := y.seqCount + 1,
             pos := if bit w 1 then y.pos else base + word (32 * h) }
  if bit w 1 then s.makeReady c env else s

/-- The write-back of a descriptor (R372), on behalf of the party that holds the channel. -/
def writeBack (s : State) (c : Chan) (w : Word) (env : MemEnv) : State :=
  let a := (s.chan c).pos.toNat
  if decide (regionOf s a = .larder) && !s.isolated 2 && s.mayWriteBank (s.holder (resChan c)) (bankOf a) then
    let v := (w &&& ~~~1#32).toNat + (s.chan c).seqCount.toNat * 2 ^ 32
    (s.modMem fun m => m.writeLarder a 8 v).shelfNext c w env
  else (s.modChan c fun y => { y with xfer := none, shelf := some ⟨w, true⟩ }).shelfFault c true (.ok 0)

/-- A descriptor whose transfer runs goes on (R371 step 3, R374). -/
def runDesc (s : State) (c : Chan) (r : ShelfRun) (x : Xfer) (env : MemEnv) : State :=
  (s.modChan c fun y => { y with shelf := some r }).runXfer (fun t => t.writeBack c r.word0 env) c env x

/-- The head slot is read (R371 steps 1 and 2). -/
def readDesc (s : State) (c : Chan) (env : MemEnv) : State :=
  let a := (s.chan c).pos
  if !s.ringOk c then s.shelfFault c false (.ok 0)
  else match s.fetchWords env a.toNat 2 with
    | .error e => s.shelfFault c false e
    | .ok l =>
      if !bit (wd l 0) 0 then s.waitChan c (.empty s.tick)
      else match s.fetchWords env a.toNat 8 with
        | .error e => s.shelfFault c false e
        | .ok l =>
          match decodeDesc l a with
          | none => s.shelfFault c false (.ok 0)
          | some x => s.runDesc c ⟨wd l 0, false⟩ x env

/-- The head descriptor of a Shelf channel is processed, or goes on where it stood (R371, R374). -/
def runShelf (s : State) (c : Chan) (env : MemEnv) : State :=
  if !s.mayExecute c || !s.chShelf c then s
  else
    let s := s.noteCorrected env
    match (s.chan c).shelf, (s.chan c).xfer with
    | some r, some x => s.runDesc c r x env
    | some r, none => if r.writeBack then s.writeBack c r.word0 env else s.readDesc c env
    | none, _ => s.readDesc c env

/-- The next poll of an empty ring (R371). -/
def shelfPoll (s : State) (c : Chan) (env : MemEnv) : State :=
  match (s.chan c).state, (s.chan c).wait with
  | .waiting, some (.empty t) =>
    if s.shPoll c = 0 then s else ((s.advanceTo (t + 1000 * s.shPoll c)).noteCorrected env).shelfReread c env
  | _, _ => s

/-! ### Errors from outside -/

/-- The transfer that a channel runs: the one in progress, or the one its position names. -/
def currentXfer (s : State) (c : Chan) : Option Xfer :=
  match (s.chan c).xfer with
  | some x => some x
  | none =>
    if s.chShelf c then none
    else match s.fetchInstr MemEnv.quiet c with
      | .instr _ (.xfer x) => some x
      | _ => none

/-- The read of element `k` receives an error response (R350); before it, the elements move as they otherwise would. -/
def busErrorAt (s : State) (c : Chan) (k : Nat) : State :=
  match (if (s.chan c).state = .running ∧ !(s.chan c).ready then s.currentXfer c else none) with
  | none => s
  | some x =>
    if k < x.done ∨ x.total ≤ k then s
    else match (if x.done = 0 then s.xferRefused c x else none) with
      | some t => t
      | none =>
        let r := moveN c MemEnv.quiet x (k - x.done) s x.done []
        match r.2.2.2 with
        | .fail e => r.1.failXfer c MemEnv.quiet x r.2.1 e
        | .held => r.1.modChan c fun y => { y with xfer := some { x with done := r.2.1 } }
        | .done =>
          match r.1.tableOff MemEnv.quiet x k with
          | .error (.fail e) => r.1.haltXfer c x k e
          | .error _ => r.1.modChan c fun y => { y with xfer := some { x with done := k } }
          | .ok off =>
            let a := wrapInt 64 (x.addrs k off).1
            let bus := decide (regionOf s a = .cellar) && decide (s.fld Reg.MEM_CEL_CFG 2 0 = 4)
            r.1.haltXfer c x k ⟨3, a, false, false, if bus then .bus a else .error a⟩

/-- A posted write error arrives after the completion (R349): the completion stands. -/
def postedError (s : State) (c : Chan) (addr : Word) : State :=
  if s.chConfirmed c || s.unitInReset 11 then s else (s.setFlag (Reg.HST_EVT c) 5).raise Kind.hstBus addr

/-! ### Completion -/

/-- A completion that is ready commits as a free commit (R338): of a free run, of a unit's run, or of one already late. -/
def commitRun (s : State) (c : Chan) : State :=
  let y := s.chan c
  if y.state = .running ∧ y.ready then
    match y.kind with
    | .paced _ => if y.late then s.completeChan c else s
    | _ => s.completeChan c
  else s

/-- A paced run is under way: its due key lies ahead or has come (R338). -/
def dueKey (s : State) (c : Chan) : Option Nat :=
  match (s.chan c).kind, (s.chan c).state with
  | .paced _, .disabled => none
  | .paced _, .idle => none
  | .paced d, _ => if (s.chan c).late then none else some d
  | _, _ => none

/-- The due key of a paced run (R338): the completion commits, or a late marker does. -/
def atDueKey (s : State) (c : Chan) : State :=
  match s.dueKey c with
  | none => s
  | some d =>
    let s := s.advanceTo d
    if (s.chan c).ready then s.completeChan c else s.lateMarker c

/-- The abort of a channel ends once the current burst has (R353). -/
def abortEnd (s : State) (c : Chan) : State := if (s.chan c).aborting then s.endAbort c .running else s

end State
end Sys2Proof.Machine
end

