-- ==== Sys2Proof/Machine/WriteRules.lean ====
section
/-! DEFINITION. What a write of a register or table word must satisfy: the addresses a session may write (R17, R69-R73), the
reserved encodings (R17), the leases and the states in which a write is accepted. Every check of a value is judged on the
state that the whole write would leave (R194). -/

namespace Sys2Proof.Machine

/-- `x` lies in `lo` to `hi`. -/
def between (x lo hi : Nat) : Bool := decide (lo ≤ x ∧ x ≤ hi)

/-- A Larder address of an alignment. -/
def larderAligned (a al : Nat) : Bool := decide (0x10000000 ≤ a ∧ a < 0x10400000 ∧ a % al = 0)

/-- The writable, clearable and triggering bits of a register. -/
def w1gMask (a : Nat) : Word := match regAt a with | some (r, _) => word r.w1g | none => 0
def wtMask (a : Nat) : Word := match regAt a with | some (r, _) => word r.wt | none => 0

/-- Exactly one of the lowest `n` bits is set. -/
def oneBit (v : Word) : Nat → Bool
  | 0 => false
  | n + 1 => (bit v n && decide (v.toNat % 2 ^ n = 0)) || (!bit v n && oneBit v n)

/-- The lowest bit that is set among the lowest `n`, counted from `k` on. -/
def lowBit (v : Word) : Nat → Nat → Nat
  | 0, k => k
  | n + 1, k => if bit v k then k else lowBit v n (k + 1)

/-- The instance of an address among registers of a base and stride. -/
def inst4 (a base stride : Nat) : Fin 4 := ⟨(a - base) / stride % 4, by omega⟩
def inst6 (a : Nat) : Axis := ⟨(a - 0x7000) / 0x100 % 6, by omega⟩
def inst16 (a base stride : Nat) : TimerId := ⟨(a - base) / stride % 16, by omega⟩
def inst24 (a base stride : Nat) : Chan := ⟨(a - base) / stride % 24, by omega⟩

namespace State

/-! ### Places -/

/-- A session may write at this address: a register but the four that only a Hoist channel writes, a table word of its
chapter, or a Larder word (R17, R69, R70, R73). -/
def writableAt (s : State) (a : Nat) : Bool :=
  decide (a % 4 = 0) &&
  match regionOf s a with
  | .register => (regAt a).isSome && !celReg a
  | .table => tableAllocated a && tableUsed a
  | .larder => true
  | _ => false

/-- A register without a writable field (R19). -/
def readOnlyAt (a : Nat) : Bool :=
  decide (a < 0x10000) && decide (rwMask a = 0) && decide (w1gMask a = 0) && decide (wtMask a = 0)

/-- The word of a write touches a field that only the owner writes (R18, R56, R73, R237). -/
def ownerOnly (a : Nat) (v : Word) : Bool :=
  if a < 0x10000 then decide (rwMask a ≠ 0) || decide (v &&& w1gMask a ≠ 0) || decide (v &&& wtMask a ≠ 0)
  else decide (a < 0x10000000)

/-! ### Leases -/

/-- The timer whose lease a write needs (R260). -/
def timerAt (a : Nat) : Option TimerId :=
  if 0x5000 ≤ a ∧ a < 0x5400 then some (inst16 a 0x5000 0x40)
  else if 0x5400 ≤ a ∧ a < 0x5480 then some (inst16 a 0x5400 8)
  else if 0x5480 ≤ a ∧ a < 0x54C0 then some (inst16 a 0x5480 4)
  else if 0x54C0 ≤ a ∧ a < 0x5500 then some (inst16 a 0x54C0 4)
  else none

/-- The channel whose lease a write needs: an RW field or a command (R335, R376). -/
def chanAt (a : Nat) : Option Chan :=
  if 0x8000 ≤ a ∧ a < 0x8600 then
    (if a % 0x40 = 0x18 ∨ a % 0x40 = 0x3C then none else some (inst24 a 0x8000 0x40))
  else if 0x8A00 ≤ a ∧ a < 0x8B80 then some (inst24 a 0x8A00 0x10)
  else none

/-- The axis whose lease a write needs: its configuration, cam table and sine table (R291, R315). -/
def axisAt (a : Nat) : Option Axis :=
  if 0x7000 ≤ a ∧ a < 0x7600 then
    (if a % 0x100 = 4 ∨ a % 0x100 = 0xC ∨ a % 0x100 = 0xB0 then none else some (inst6 a))
  else if 0x80000 ≤ a ∧ a < 0x84000 then some ⟨(a - 0x80000) / 0x1000 % 6, by omega⟩
  else if 0xA0000 ≤ a ∧ a < 0xA1800 then some ⟨(a - 0xA0000) / 0x400 % 6, by omega⟩
  else none

/-- The write needs a lease that the owner role does not hold (R75, R260, R291, R315, R335). `owner` tells that the session is
the owner. -/
def leaseMissing (s : State) (owner : Bool) (a : Nat) (v : Word) : Bool :=
  if 0x10000000 ≤ a then !(owner && s.mayWriteBank holdOwner (bankOf a))
  else
    (match timerAt a with
     | some t => !s.holds holdOwner (resTimer t) && (decide ((s.reg a ^^^ v) &&& rwMask a ≠ 0) || decide (v &&& wtMask a ≠ 0))
     | none => false) ||
    (match chanAt a with | some c => !s.holds holdOwner (resChan c) | none => false) ||
    (match axisAt a with | some x => !s.holds holdOwner (resAxis x) | none => false)

/-! ### Reserved encodings -/

/-- Blocks DEV, SES and LNK (R67, R162, R177, R179, R214, R222, R240). -/
def legalLink (s : State) (a : Nat) (v : Word) : Bool :=
  if a = Reg.DEV_RESET_REQ then !bit v 0 || decide (bits v 31 16 = 0x4480)
  else if a = Reg.DEV_BOOT then decide (bits v 15 0 ≤ 600)
  else if a = Reg.DEV_LAD_WD then between (bits v 17 0) 25 250000
  else if a = Reg.SES_CTRL then decide (bits v 9 0 ≤ 1000) && (bit v 16 || !s.localPrec)
  else if a = Reg.LNK_PORTA_CFG ∨ a = Reg.LNK_PORTB_CFG then
    decide (bits v 2 1 ≠ 0) && (bit v 0 || decide (bits v 2 1 ≠ 3))
  else if a = Reg.LNK_NETMASK then decide (~~~v &&& (~~~v + 1) = 0)
  else if a = Reg.LNK_ETYPE then
    let e := bits v 15 0
    decide (0x600 ≤ e ∧ e ≠ 0x800 ∧ e ≠ 0x806 ∧ e ≠ 0x8100)
  else if a = Reg.LNK_UDP_PORT then decide (bits v 15 0 ≠ 0)
  else if a = Reg.LNK_VLAN then !bit v 12 || (decide (bits v 11 0 ≠ 0) && decide (bits v 11 0 ≠ 4095))
  else if a = Reg.LNK_EVT_RETRY then between (bits v 15 0) 10 1000
  else true

/-- Blocks PWR and FLT (R119, R126, R142, R145, R151). -/
def legalPower (s : State) (a : Nat) (v : Word) : Bool :=
  if a = Reg.PWR_REQ then decide (bits v 2 0 = 3 ∨ bits v 2 0 = 4 ∨ bits v 2 0 = 6)
  else if a = Reg.PWR_RES_CAP then between (bits v 15 0) 1000 40000
  else if a = Reg.PWR_RES_LOW ∨ a = Reg.PWR_RES_HIGH then
    decide (s.vFloor < s.vDark ∧ s.vDark < s.vRun ∧ s.vRun < s.vFull ∧ s.vFull ≤ 16000)
  else if a = Reg.PWR_SENSE then decide (bits v 15 0 ≠ 0)
  else if a = Reg.PWR_INPUT then between (bits v 25 16) 500 1000
  else if a = Reg.PWR_BUS then between (bits v 31 16) 10 10000
  else if a = Reg.FLT_CTRL then decide (bits v 15 8 ≠ 0) && decide (bits v 7 0 ≠ 0)
  else if a = Reg.FLT_RELEASE then decide (bits v 5 0 < 36)
  else true

/-- The chain of overflow sources from timer `t` comes back to `first` (R246). -/
def ovfCycle (s : State) (first : TimerId) : Nat → TimerId → Bool
  | 0, _ => false
  | n + 1, t =>
    if s.tmSrc t = 11 then
      let u : TimerId := ⟨s.tmOvfSrc t % 16, by omega⟩
      decide (u = first) || ovfCycle s first n u
    else false

/-- Block TMR (R246, R250, R254, R262). -/
def legalTimer (s : State) (a : Nat) (v : Word) : Bool :=
  if a < 0x5400 then
    let o := a % 0x40
    if o = 0 then
      let t := inst16 a 0x5000 0x40
      decide (bits v 3 0 ≤ 11) && !s.ovfCycle t 16 t
    else if o = 4 then decide (bits v 31 16 ≠ 0)
    else if o < 0x10 then true
    else match (o - 0x10) % 12 with
      | 4 => decide (bits v 17 16 ≠ 3) && decide (bits v 23 20 ≤ 11) && !(decide (bits v 17 16 = 2) && decide (bits v 25 24 = 0))
      | 8 => decide (bits v 20 16 < 24) && !(bit v 2 && bit v 3)
      | _ => true
  else if 0x5480 ≤ a ∧ a < 0x54C0 then decide (bits v 20 16 < 24) && !bit v 0 && !(bit v 2 && bit v 3)
  else if 0x5700 ≤ a ∧ a < 0x5710 then between (bits v 13 4) 2 1000 && !(bit v 0 && decide (bits v 2 1 = 0))
  else true

/-- Block PLC (R263, R277, R288). -/
def legalPlacement (s : State) (a : Nat) (v : Word) : Bool :=
  if a < 0x6400 then
    let n := inst4 a 0x6000 0x100
    match a % 0x100 with
    | 0x00 =>
      decide (bits v 2 0 ≤ 5) && !(decide (bits v 2 0 = 5) && (s.tmLane ⟨bits v 7 4 % 16, by omega⟩).isSome)
    | 0x04 => between v.toNat 1 0x1000000
    | 0x18 => (decide (bits v 5 4 = 1) || decide (bits v 5 4 = 2)) && between (bits v 25 16) 2 1000
    | 0x1C => decide (s.leadPc n ≤ bits v 23 0)
    | 0x20 => between v.toNat 0x4000 0xFFFFFF && decide (s.leadPc n ≤ s.fld (Reg.PLC_TRIG n) 23 0)
    | 0x24 => between (bits v 10 0) 1 1024 && decide (s.leadPc n ≤ s.fld (Reg.PLC_TRIG n) 23 0)
    | 0x28 => between (bits v 13 0) 1 10000 && decide (bits v 31 16 ≠ 0)
    | 0x2C => larderAligned v.toNat 4096
    | 0x34 => decide (v = 0) || larderAligned v.toNat 64
    | _ => true
  else if a = Reg.PLC_ENC_CFG 0 ∨ a = Reg.PLC_ENC_CFG 1 then between (bits v 13 4) 2 1000
  else if a = Reg.PLC_CSTEP_CFG 0 ∨ a = Reg.PLC_CSTEP_CFG 1 then
    between (bits v 13 4) 2 1000 && !(bit v 0 && decide (bits v 17 16 = 0))
  else true

/-- Another axis carries the lane that axis `x` would carry (R290). -/
def carryClash (s : State) (x : Axis) : Bool :=
  s.rbit (Reg.MOT_CFG x) 12 &&
    allAxes.any fun y =>
      decide (y ≠ x) && s.rbit (Reg.MOT_CFG y) 12 && decide (s.fld (Reg.MOT_CFG y) 9 8 = s.fld (Reg.MOT_CFG x) 9 8)

/-- KEEP or LOSE of an axis in carriage-cycle gearing (R328). -/
def ssClash (s : State) (x : Axis) : Bool :=
  s.axGmode x && isStepper x && (decide (s.ssMode x = 1) || decide (s.ssMode x = 2))

/-- An axis's motion registers (R289, R290, R305, R313, R328). -/
def legalAxis (s : State) (x : Axis) (o : Nat) (v : Word) : Bool :=
  match o with
  | 0x00 =>
    !(bit v 17 && !s.rbit (Reg.MOT_CFG x) 0) && decide (bits v 26 24 ≤ 3) &&
      !(isStepper x && decide (bits v 26 24 = 1)) && !s.carryClash x && !s.ssClash x
  | 0x04 => oneBit v 8
  | 0x2C => decide (2 ≤ bits v 15 0) && decide (bits v 31 16 ≠ 0)
  | 0x34 => decide (bits v 13 0 ≤ 10000) && decide (bits v 29 16 ≤ 10000)
  | 0x3C => decide (bits v 31 16 ≠ 0)
  | _ => true

/-- An axis's drive-stage registers (R316, R317, R323, R326, R328, R332): on X4 and X5 only the interpolator's fields and the
gap act. -/
def legalDrive (s : State) (x : Axis) (o : Nat) (v : Word) : Bool :=
  match o with
  | 0x80 =>
    decide (bits v 19 16 ≤ 8) &&
      (!isStepper x ||
        (decide (bits v 3 0 ≤ 8) && decide (bits v 6 4 ≤ 4) && decide (bits v 9 8 ≠ 3) && !s.ssClash x))
  | 0x84 =>
    decide (bits v 7 0 ≠ 0) && decide (bits v 15 8 ≤ bits v 7 0) && decide (bits v 23 16 ≤ bits v 7 0) &&
      decide (bits v 27 24 ≠ 0) && decide (bits v 31 28 ≠ 0)
  | 0x88 => decide (bits v 9 0 < bits v 25 16)
  | 0x90 => between (bits v 13 0) 1 10000 && between (bits v 31 16) 1 10000
  | 0x94 =>
    decide (10 ≤ bits v 7 0) && decide (2 ≤ bits v 15 8) && decide (bits v 31 24 ≠ 0) &&
      decide (bits v 31 24 + bits v 23 16 ≤ s.fld (Reg.MOT_CHOP_LIMIT x) 27 16)
  | 0x98 => between (bits v 11 0) 2 1024 && between (bits v 15 12) 1 8 && decide (bits v 26 16 ≤ 1023)
  | 0x9C =>
    decide (bits v 11 0 ≠ 0) &&
      decide (s.fld (Reg.MOT_CHOP_TIME x) 31 24 + s.fld (Reg.MOT_CHOP_TIME x) 23 16 ≤ bits v 27 16)
  | 0xB8 => decide (v ≠ 0)
  | _ => true

/-- The axis bus (R310, R313). -/
def legalBus (s : State) (a : Nat) (v : Word) : Bool :=
  (if a = Reg.MOT_AXB_CFG then decide (4 ≤ bits v 15 8) && decide (2 ≤ bits v 23 16) && decide (bits v 27 24 ≠ 0)
   else if a = Reg.MOT_AXB_PERIOD then between (bits v 16 0) 6250 100000 else true) &&
  (if a = Reg.MOT_AXB_CFG ∨ a = Reg.MOT_AXB_PERIOD then decide (s.axbEval < s.axbPeriod) else true)

/-- Block MOT. -/
def legalMotion (s : State) (a : Nat) (v : Word) : Bool :=
  if a < 0x7600 then
    let x := inst6 a
    if a % 0x100 < 0x80 then s.legalAxis x (a % 0x100) v else s.legalDrive x (a % 0x100) v
  else s.legalBus a v

/-- A channel asks for requests on a shaft that serves run to completion (R339). -/
def reqClash (s : State) (c : Chan) : Bool :=
  decide (s.chReqLine c ≠ 0) && !s.rbit (Reg.HST_SHAFT_CFG (s.chShaft c)) 0

/-- Block HST (R334, R336, R339, R340, R355, R376). -/
def legalHoist (s : State) (a : Nat) (v : Word) : Bool :=
  if a < 0x8600 then
    let c := inst24 a 0x8000 0x40
    match a % 0x40 with
    | 0x00 =>
      decide (bits v 9 8 ≤ 1) && decide (bits v 23 20 ≤ 8) && decide (bits v 28 24 < 24) &&
        !(bit v 17 && decide (bits v 28 24 = c.val)) && !s.reqClash c
    | 0x04 => decide (v.toNat % 8 = 0)
    | 0x08 => decide (v ≠ 0)
    | 0x0C => decide (v = 0) || larderAligned v.toNat 16
    | 0x10 => oneBit v 5
    | 0x34 => between (bits v 12 0) 2 4096
    | _ => true
  else if 0x8800 ≤ a ∧ a < 0x8840 then
    let f := inst4 a 0x8800 0x10
    bit v 0 || !(allChans.any fun c => decide (s.chShaft c = f) && decide (s.chReqLine c ≠ 0))
  else true

/-- Block CMP (R397, R418). -/
def legalCompositor (a : Nat) (v : Word) : Bool :=
  if a < 0x9100 then
    match a % 0x40 with
    | 0x00 => decide (v = 0) || larderAligned v.toNat 64
    | 0x04 => decide (bits v 2 0 ≤ 4)
    | 0x08 => decide (v.toNat % 4 = 0)
    | 0x0C => decide (bits v 7 0 < 24) || decide (bits v 7 0 = 0xFF)
    | 0x10 => decide (v = 0) || larderAligned v.toNat 16384
    | _ => true
  else true

/-- Block CAL (R421, R428, R429, R441). -/
def legalCalendar (s : State) (a : Nat) (v : Word) : Bool :=
  if a = Reg.CAL_SET_GO then !bit v 0 || s.calSetOk
  else if a = Reg.CAL_CKPT_CFG then decide (bits v 11 0 ≤ 3600)
  else if 0xA100 ≤ a ∧ a < 0xA140 ∧ a % 8 = 0 then decide (bits v 10 0 ≤ 1439)
  else if 0xA300 ≤ a ∧ a < 0xA340 ∧ a % 16 = 4 then decide (bits v 16 0 ≤ 73048)
  else if 0xA400 ≤ a ∧ a < 0xA600 then
    let k := (a - 0xA400) / 0x20
    match a % 0x20 with
    | 0x10 => decide (bits v 10 0 ≤ 1439)
    | 0x00 => decide (bits v 31 16 ≠ 0) && (!bit v 0 || cntOk v (s.reg (Reg.CAL_CNT_START k)) (s.reg (Reg.CAL_CNT_END k)))
    | 0x04 => !s.cntEn k || cntOk (s.reg (Reg.CAL_CNT_CFG k)) v (s.reg (Reg.CAL_CNT_END k))
    | 0x08 => !s.cntEn k || cntOk (s.reg (Reg.CAL_CNT_CFG k)) (s.reg (Reg.CAL_CNT_START k)) v
    | _ => true
  else true

/-- A lag in a fitted row needs a delay store (R448). -/
def lagOk (s : State) (h : Head) : Bool :=
  decide (s.reg (Reg.HED_DELAY_BASE h) ≠ 0) ||
    ((List.range (s.hedRows h)).all fun (r : Nat) => decide ((s.rowGeom h r).lag = 0))

/-- Values of a head's geometry that go together (R448, R462). -/
def geometryOk (s : State) (h : Head) : Bool :=
  decide (s.nozzles h ≤ 1024) && decide (s.hedNpr h % 4 = 0) && s.lagOk h &&
    decide (16 * s.hedCdiv h ≤ s.fld (Reg.HED_PACE h) 31 16) &&
    !(s.wfSrc h && decide (s.fld (Reg.HED_WF h) 31 20 = 0))

/-- Block HED (R443, R444, R448, R459, R461, R462). -/
def legalHead (s : State) (a : Nat) (v : Word) : Bool :=
  let h := inst4 a 0xB000 0x100
  match a % 0x100 with
  | 0x00 => !bit v 0 || s.fitted h
  | 0x04 => oneBit v 3
  | 0x10 => decide (bits v 3 0 ≠ 0) && s.geometryOk h
  | 0x14 => between (bits v 2 0) 1 4 && between (bits v 26 16) 4 1024 && s.geometryOk h
  | 0x18 => decide (bits v 31 20 ≤ 2047) && s.geometryOk h
  | 0x1C => decide (0x4000 ≤ bits v 15 0) && between (bits v 31 16) 0x800 0x2000 && s.scaleFits h (bits v 31 16)
  | 0x20 => decide (2084 ≤ bits v 15 0) && s.geometryOk h
  | 0x34 => between (bits v 15 0) 1 10000 && between (bits v 31 16) 1 10000
  | 0x38 => between (bits v 15 0) 1 10000
  | 0x3C => decide (v = 0) || larderAligned v.toNat 64
  | 0x60 => decide (bits v 15 0 ≠ 0)
  | 0x64 => decide (s.tEff h ≤ bits v 19 0)
  | 0x68 => (decide (v = 0) || larderAligned v.toNat (256 * s.colBytes h)) && s.lagOk h
  | o => if 0x40 ≤ o ∧ o < 0x60 ∧ o % 8 = 0 then s.lagOk h else true

/-- Block HLT (R474, R483, R487). The range of a scan is checked at its command. -/
def legalHealth (s : State) (a : Nat) (v : Word) : Bool :=
  if a = Reg.HLT_FC_CFG then decide (bits v 11 0 ≤ 3600)
  else
    match a % 0x100 with
    | 0x04 => oneBit v 4
    | 0x10 => decide (bits v 23 16 ≠ 0)
    | 0x18 => between (bits v 9 0) 1 1000
    | 0x1C => between (bits v 19 0) 1000 1000000
    | 0x20 => decide (bits v 11 0 < bits v 27 16)
    | 0x24 => between (bits v 15 0) 1 6000
    | 0x28 => between (bits v 15 0) 1 6000 && between (bits v 31 16) 1 3600
    | 0x40 => decide (2 ≤ bits v 31 28)
    | 0x44 => decide (bits v 15 0 < bits v 31 16)
    | 0x48 => decide (bits v 29 28 ≠ 0)
    | 0x4C => between (bits v 7 0) 1 63 && decide (bits v 23 16 < bits v 15 8)
    | 0x64 => decide (bits v 15 0 ≠ 0) && decide (bits v 31 16 ≠ 0)
    | 0x68 => decide (bits v 7 0 ≠ 0) && decide (bits v 9 8 ≠ 0) && decide (bits v 15 12 ≠ 0)
    | 0x6C => decide (s.tEff (inst4 a 0xC000 0x100) ≤ bits v 19 0)
    | _ => true

/-- Two fitted lanes name one output (R488). -/
def outClash (s : State) (n : Lane) : Bool :=
  s.fitted n && allLanes.any fun m => decide (m ≠ n) && s.fitted m && decide (s.rejOut m = s.rejOut n)

/-- A window in time within its range (R502). -/
def widthOk (s : State) (n : Lane) : Bool :=
  decide (s.rejWidth n ≠ 0) && (!s.rejTime n || (decide (s.rejWidth n ≤ 10000) && decide (s.rejGap n ≤ 10000)))

/-- Blocks REJ and HAT (R488, R502, R504, R511, R519). -/
def legalLine (s : State) (a : Nat) (v : Word) : Bool :=
  if a = Reg.REJ_LINE_CFG then between (bits v 8 0) 10 500 && between (bits v 25 16) 2 1000
  else if 0xD000 ≤ a ∧ a < 0xD100 then
    let n := inst4 a 0xD000 0x40
    match a % 0x40 with
    | 0x00 => !s.outClash n && s.widthOk n
    | 0x04 => decide (bits v 23 0 ≠ 0)
    | 0x08 => s.widthOk n
    | _ => true
  else if 0xE000 ≤ a ∧ a < 0xE080 ∧ a % 0x20 = 0 then oneBit v 4
  else if a = Reg.HAT_CTRL then between (bits v 15 0) 1 6000
  else if 0xE100 ≤ a ∧ a < 0xE208 then mayHold (BitVec.ofNat 8 (bits v 7 0)) ((a - 0xE100) / 4)
  else true

/-- Mode 4 of the Cellar needs four address bytes (R101). -/
def celModeOk (s : State) : Bool :=
  !(decide (s.fld Reg.MEM_CEL_CFG 2 0 = 4) && decide (s.fld Reg.MEM_CEL_RDCMD 10 8 ≠ 4))

/-- Block MEM (R85, R101). -/
def legalMemory (s : State) (a : Nat) (v : Word) : Bool :=
  if a = Reg.MEM_CEL_CFG then decide (bits v 23 20 ≤ 9) && decide (bits v 11 8 ≠ 0) && decide (bits v 2 0 ≤ 4) && s.celModeOk
  else if a = Reg.MEM_CEL_RDCMD then (decide (bits v 10 8 = 3) || decide (bits v 10 8 = 4)) && s.celModeOk
  else if a = Reg.MEM_CEL_POLL then
    decide (bits v 31 20 ≠ 0) && decide (bits v 19 16 ≤ 7) && decide (bits v 15 8 ≠ 0)
  else true

/-- A table word (R110, R315). -/
def legalTable (a : Nat) (v : Word) : Bool :=
  if a < 0x84000 then decide (bits v 15 12 = 0) && decide (bits v 31 28 = 0)
  else if 0xB0000 ≤ a ∧ a < 0xB1000 then
    let src := (a - 0xB0000) / 0x40
    match a % 0x40 with
    | 0 => !(bit v 2 && (decide (src = 0) || decide (src = 2) || decide (src = 4) || decide (src = 5)))
    | 4 => between (bits v 15 0) 10 60000
    | 8 => between (bits v 7 0) 1 254 && between (bits v 27 16) 1 3600
    | _ => true
  else true

/-- The word places no reserved encoding at address `a` (R17); `s` is the state that the whole write would leave. -/
def legalWord (s : State) (a : Nat) (v : Word) : Bool :=
  if 0x10000000 ≤ a then true
  else if 0x10000 ≤ a then legalTable a v
  else match a / 0x1000 with
    | 0 => s.legalLink a v
    | 1 => s.legalLink a v
    | 2 => s.legalLink a v
    | 3 => s.legalPower a v
    | 4 => s.legalPower a v
    | 5 => s.legalTimer a v
    | 6 => s.legalPlacement a v
    | 7 => s.legalMotion a v
    | 8 => s.legalHoist a v
    | 9 => legalCompositor a v
    | 10 => s.legalCalendar a v
    | 11 => s.legalHead a v
    | 12 => s.legalHealth a v
    | 13 => s.legalLine a v
    | 14 => s.legalLine a v
    | _ => s.legalMemory a v

end State

end Sys2Proof.Machine
end

