-- ==== Sys2Proof/Machine/Writes.lean ====
section
/-! DEFINITION. A write of registers, table words and Larder words: the checks that depend on the state at its commit, the
accesses, the commit and what it starts (R12-R20, R31, R55-R59, R72-R80, R194-R196, R206, R551). -/

namespace Sys2Proof.Machine

/-- The place of a response code in the order of R206; the codes of an access come after every other. -/
def Code.rank : Code → Nat
  | .badOp => 0
  | .badLength => 1
  | .badAddress => 2
  | .readOnly => 3
  | .notOwner => 4
  | .notLeased => 5
  | .badValue => 6
  | .tooLate => 7
  | .busy => 8
  | _ => 9

/-- The code that comes first in the order of R206. -/
def firstCode : List Code → Option Code
  | [] => none
  | c :: l => match firstCode l with
    | none => some c
    | some d => some (if c.rank ≤ d.rank then c else d)

/-- Words of a write: address and value. -/
abbrev Words := List (Nat × Word)

namespace State

/-- The RW bits of the words placed in their registers. The entries of the health map and of the lease table are set by the
actions of their own registers. -/
def placeWords (s : State) (ws : Words) : State :=
  ws.foldl (fun (s : State) (w : Nat × Word) =>
    if 0x10000 ≤ w.1 ∨ (0xC000 ≤ w.1 ∧ w.1 < 0xC400 ∧ w.1 % 0x100 = 0x5C) ∨ (0xE100 ≤ w.1 ∧ w.1 < 0xE208) then s
    else s.setReg w.1 ((s.reg w.1 &&& ~~~(rwMask w.1)) ||| (w.2 &&& rwMask w.1))) s

/-! ### The lane of a job selection -/

/-- The lane whose job a word selects or deselects (R282). -/
def jobLane (a : Nat) : Option Lane :=
  if 0x6000 ≤ a ∧ a < 0x6400 ∧ a % 0x100 = 0x30 then some (inst4 a 0x6000 0x100) else none

/-- A word that selects a job, which reads the Cellar (R390). -/
def selectsJob (w : Nat × Word) : Bool := (jobLane w.1).isSome && decide (bits w.2 31 24 ≠ 255)

/-- The outcome of the checks of a selection (R390): nothing where the word selects no job. -/
def selectionOf (s : State) (env : MemEnv) (w : Nat × Word) : Option (Lane × Except CrateFail Selection) :=
  match jobLane w.1 with
  | some n => if selectsJob w then some (n, s.checkSelection n (bits w.2 16 0) (bits w.2 31 24) (!env.noDqs)) else none
  | none => none

/-- The code of a refused selection. -/
def selectionCode (s : State) (env : MemEnv) (w : Nat × Word) : Option Code :=
  match s.selectionOf env w with
  | some (_, .error e) => some (s.refusalCode (bits w.2 16 0) (!env.noDqs) e)
  | _ => none

/-- A refused selection is recorded on its lane (R87, R394). -/
def noteSelection (s : State) (env : MemEnv) (w : Nat × Word) : State :=
  match s.selectionOf env w with
  | some (n, .error e) => (s.crateBus (bits w.2 16 0) (!env.noDqs) e).recordRefusal n e.reason (word e.off)
  | _ => s

/-! ### States in which a write is accepted -/

/-- Lane geometry may be written (R277, R418, R448, R488). -/
def laneFree (s : State) (n : Lane) : Bool := decide (s.laneState n = .open_) || decide (s.maxRate n = 0)

/-- `BUSY` unless a condition holds. -/
def busyUnless (b : Bool) : Option Code := if b then none else some .busy

/-- A command of an axis (R293). -/
def axisRefusal (s : State) (x : Axis) (v : Word) : Option Code :=
  match s.axCommand x (lowBit v 8 0) with
  | .error c => some c
  | .ok _ => none

/-- An axis's registers, cam table and sine table (R291, R293, R315). -/
def motionRefusal (s : State) (a : Nat) (v : Word) : Option Code :=
  if 0x7000 ≤ a ∧ a < 0x7600 ∧ a % 0x100 = 4 then s.axisRefusal (inst6 a) v
  else match axisAt a with
    | some x =>
      let st := (s.axis x).state
      busyUnless (decide (st = .disabled) || (decide (st = .idle) && decide (a < 0x80000 ∨ 0x90000 ≤ a)))
    | none => none

/-- A channel is DISABLED or IDLE (R335). -/
def chanFree (s : State) (c : Chan) : Bool := decide ((s.chan c).state = .disabled) || decide ((s.chan c).state = .idle)

/-- Block HST (R335, R339, R376). -/
def hoistRefusal (s : State) (a : Nat) : Option Code :=
  if 0x8000 ≤ a ∧ a < 0x8600 then
    let o := a % 0x40
    if o = 0 ∨ o = 4 ∨ o = 8 ∨ o = 0xC ∨ o = 0x34 then busyUnless (s.chanFree (inst24 a 0x8000 0x40)) else none
  else if 0x8800 ≤ a ∧ a < 0x8840 then
    busyUnless (allChans.all fun c => decide (s.chShaft c ≠ inst4 a 0x8800 0x10) || s.chanFree c)
  else none

/-- Commands and registers of a head port (R444, R448, R456, R459, R461, R473). -/
def headRefusal (s : State) (a : Nat) (v : Word) : Option Code :=
  let h := inst4 a 0xB000 0x100
  let ready := decide ((s.head h).state = .ready) && !s.hedBusy h
  match a % 0x100 with
  | 0x00 => busyUnless (bit v 0 || !s.hedBusy h || decide ((s.head h).state = .off))
  | 0x04 => busyUnless (bit v 0 || ready)
  | 0x1C => busyUnless (!s.compEn h)
  | o => if o = 0x10 ∨ o = 0x14 ∨ o = 0x18 ∨ o = 0x20 ∨ (0x40 ≤ o ∧ o < 0x60) ∨ o = 0x68 then busyUnless (s.laneFree h) else none

/-- The conditions of a SCAN command (R474): reserved encodings, then the states that refuse it. -/
def scanRefusal (s : State) (h : Head) : Option Code :=
  let first := s.fld (Reg.HLT_SCAN h) 9 0
  let last := s.fld (Reg.HLT_SCAN h) 25 16
  let per := s.fld (Reg.HLT_SCAN_PER h) 19 0
  if last < first ∨ s.nozzles h ≤ last ∨ per < s.tEff h ∨ per ≤ s.fld (Reg.HLT_GWIN h) 31 16 then some .badValue
  else busyUnless (decide ((s.head h).state = .ready) && !s.hedBusy h && !s.scanning h && !(s.head h).svc.isSome && !s.spitting h)

/-- Commands and registers of a health unit (R474, R480, R487). -/
def healthRefusal (s : State) (a : Nat) (v : Word) : Option Code :=
  let h := inst4 a 0xC000 0x100
  match a % 0x100 with
  | 0x04 => if bit v 1 then s.scanRefusal h else if bit v 2 then busyUnless (!s.hedBusy h && !s.scanning h) else none
  | 0x5C => busyUnless (!s.hedBusy h && !s.scanning h)
  | o =>
    if o = 0x20 ∨ (0x90 ≤ o ∧ o < 0xD4) then
      busyUnless (decide ((s.health h).heat = .idle) || decide ((s.health h).heat = .tripped))
    else if (0x40 ≤ o ∧ o ≤ 0x50) ∨ (0x64 ≤ o ∧ o ≤ 0x70) then busyUnless (!s.scanning h && !s.spitting h)
    else none

/-- Blocks REJ and HAT (R488, R504, R513). -/
def lineRefusal (s : State) (a : Nat) (v : Word) : Option Code :=
  if 0xD000 ≤ a ∧ a < 0xD100 then
    (if a % 0x40 = 0 ∨ a % 0x40 = 4 then busyUnless (s.laneFree (inst4 a 0xD000 0x40)) else none)
  else if 0xE000 ≤ a ∧ a < 0xE080 ∧ a % 0x20 = 0 then s.laneRefusal (inst4 a 0xE000 0x20) (lowBit v 4 0)
  else if 0xE100 ≤ a ∧ a < 0xE208 then
    let r := (a - 0xE100) / 4
    let b := BitVec.ofNat 8 (bits v 7 0)
    busyUnless (decide (s.holder r = b) || s.transferOk r b)
  else none

/-- The code with which the state at the commit refuses a word. `t` is the state that the whole write would leave. -/
def stateRefusal (s t : State) (a : Nat) (v : Word) : Option Code :=
  if a = Reg.PWR_REQ then busyUnless (!bit v 31 || !s.pwrBusy (bits v 2 0))
  else if a = Reg.CMP_CRATE_VGO then busyUnless (!bit v 0 || !s.verBusy)
  else if a = Reg.MEM_LFT_GO then busyUnless (!bit v 0 || !s.ownerStaged)
  else if 0x6000 ≤ a ∧ a < 0x6400 then
    let o := a % 0x100
    if o = 0 ∨ o = 4 ∨ (0x18 ≤ o ∧ o ≤ 0x24) ∨ o = 0x2C then busyUnless (s.laneFree (inst4 a 0x6000 0x100)) else none
  else if 0x9000 ≤ a ∧ a < 0x9100 then
    let o := a % 0x40
    if o = 0 ∨ o = 4 ∨ o = 0xC ∨ o = 0x10 then busyUnless (s.laneFree (inst4 a 0x9000 0x40)) else none
  else if 0x90000 ≤ a ∧ a < 0xA0000 then busyUnless (!s.hedBusy (inst4 a 0x90000 0x4000))
  else match a / 0x1000 with
    | 8 => s.hoistRefusal a
    | 11 => s.headRefusal a v
    | 12 => t.healthRefusal a v
    | 13 => s.lineRefusal a v
    | 14 => s.lineRefusal a v
    | _ => s.motionRefusal a v

/-- The code of the checks that are made at admission too: places, access rights, leases, reserved encodings (R51, R195). -/
def staticRefusal (s : State) (owner : Bool) (ws : Words) : Option Code :=
  if ws.any fun w => !s.writableAt w.1 then some .badAddress
  else if ws.any fun w => readOnlyAt w.1 then some .readOnly
  else if !owner && ws.any (fun w => ownerOnly w.1 w.2) then some .notOwner
  else if ws.any fun w => s.leaseMissing owner w.1 w.2 then some .notLeased
  else
    let t := s.placeWords ws
    if ws.any fun w => !t.legalWord w.1 w.2 then some .badValue else none

/-- The code of the checks that are made at the commit. -/
def commitRefusal (s : State) (env : MemEnv) (ws : Words) : Option Code :=
  let t := s.placeWords ws
  firstCode (ws.filterMap (fun w => s.stateRefusal t w.1 w.2) ++ ws.filterMap (s.selectionCode env))

/-! ### The accesses -/

/-- The read of R80 that a word makes: the failing word, if it fails. -/
def mergeRead (s : State) (env : MemEnv) (a : Nat) : Option Read :=
  if 0x10000000 ≤ a ∧ hasUe env a = true ∧ (s.mem.word64 (larderIdx a)).isSome = true then some (.uncorr (a / 8 * 8)) else none

/-- Why the access of one word fails (R62, R80). -/
def accessCode (s : State) (env : MemEnv) (a : Nat) : Option Code :=
  if s.isolated (portOf s a) then some .isolated else if (s.mergeRead env a).isSome then some .memError else none

/-- The reads of R80 that fail, each word once. -/
def failedMerges (s : State) (env : MemEnv) (ws : Words) : List Read :=
  (ws.filterMap fun w => if s.isolated (portOf s w.1) then none else s.mergeRead env w.1).eraseDups

/-! ### What a write leaves undone -/

/-- The word makes no commit (R13, R551): a stale clear, a trigger that is 0, or a command that has no effect. -/
def mootCommand (s : State) (a : Nat) (v : Word) : Bool :=
  if 0x7000 ≤ a ∧ a < 0x7600 ∧ a % 0x100 = 4 then
    let st := (s.axis (inst6 a)).state
    match lowBit v 8 0 with
    | 0 => decide (st ≠ .disabled)
    | 1 => decide (st = .disabled)
    | 6 => !s.axMoves (inst6 a)
    | 7 => decide (st ≠ .halt)
    | _ => false
  else if 0x8000 ≤ a ∧ a < 0x8600 then
    let c := inst24 a 0x8000 0x40
    let st := (s.chan c).state
    if a % 0x40 = 0x38 then !bit v 31 || !(match (s.chan c).wait with | some (.empty _) => true | _ => false)
    else match lowBit v 5 0 with
      | 0 => decide (st ≠ .disabled)
      | 1 => decide (st = .disabled)
      | 3 => decide (st = .disabled) || decide (st = .idle)
      | 4 => decide (st ≠ .halted)
      | _ => false
  else if 0xB000 ≤ a ∧ a < 0xB400 then bit v 0 && decide ((s.head (inst4 a 0xB000 0x100)).state ≠ .fault)
  else if 0xC000 ≤ a ∧ a < 0xC400 then bit v 0 && decide ((s.health (inst4 a 0xC000 0x100)).heat ≠ .tripped)
  else if 0xE000 ≤ a ∧ a < 0xE080 then s.laneIdle (inst4 a 0xE000 0x20) (lowBit v 4 0)
  else decide (v &&& wtMask a = 0)

/-- The word changes nothing, so that the write makes no commit for it (R551). -/
def moot (s : State) (w : Nat × Word) : Bool :=
  let (a, v) := w
  if 0x10000 ≤ a then false
  else if a = Reg.PWR_REQ then bit v 31 && decide (s.pwr.state.code = bits v 2 0)
  else if a = Reg.FLT_RELEASE then bit v 31 && decide (s.srcState (bits v 5 0) ≠ 2)
  else if 0xE100 ≤ a ∧ a < 0xE208 then decide (s.holder ((a - 0xE100) / 4) = BitVec.ofNat 8 (bits v 7 0))
  else if rwMask a ≠ 0 then false
  else if w1gMask a ≠ 0 then decide (v &&& w1gMask a = 0) || !s.clearFresh a v
  else s.mootCommand a v

/-- The word tries to clear flags with a generation that is not current, or past its guard (R13, R57). -/
def staleClear (s : State) (w : Nat × Word) : Bool :=
  decide (w.1 < 0x10000) && decide (w.2 &&& w1gMask w.1 ≠ 0) && !s.clearFresh w.1 w.2

/-! ### Stores -/

/-- The words of a write that has no refusal, stored: selections first, then the other words (R392, R194). -/
def storeWords (s : State) (env : MemEnv) (ws : Words) : State :=
  let s := ws.foldl (fun (s : State) (w : Nat × Word) =>
    match jobLane w.1 with
    | none => s
    | some n =>
      match s.selectionOf env w with
      | some (_, .ok x) => s.applySelection n (w.2 &&& rwMask w.1) x
      | some (_, .error _) => s
      | none => s.deselect n (w.2 &&& rwMask w.1)) s
  let s := s.placeWords (ws.filter fun w => !(jobLane w.1).isSome)
  ws.foldl (fun (s : State) (w : Nat × Word) =>
    if 0x10000000 ≤ w.1 then s.modMem fun m => m.writeLarder w.1 4 w.2.toNat
    else if 0x10000 ≤ w.1 then s.modMem fun m => m.setTable w.1 (w.2 &&& tableMask w.1)
    else if w.2 &&& w1gMask w.1 = 0 then s
    else
      let s := s.clearFlags w.1 w.2 (w1gMask w.1)
      if w.1 = Reg.FLT_BIN_STAT ∧ bit w.2 0 then s.modFlt fun f => { f with bin := none } else s) s

/-! ### What a write starts -/

/-- `T_EFF` is shown (R452, R462). -/
def showTeff (s : State) (h : Head) : State := s.setFld (Reg.HED_TEFF h) 19 0 (min (s.tEff h) (2 ^ 20 - 1))

/-- The link of a port drops without a message (R179, R182). -/
def dropLink (s : State) (p : Nat) : State :=
  s.modLnk fun l => { l with ports := l.ports.setIfInBounds p ⟨false, false⟩ }

/-- Blocks DEV, SES, LNK, PWR and FLT. -/
def linkEffect (old : State) (s : State) (a : Nat) (v : Word) : State :=
  if a = Reg.DEV_RESET_REQ then (if bit v 0 then s.modBoot fun b => { b with reqAt := some (s.tick + 100000) } else s)
  else if a = Reg.SES_CTRL then (if old.rbit a 16 && !bit v 16 && (s.sess 0).bound then s.endSession 0 else s)
  else if a = Reg.LNK_PORTA_CFG then s.dropLink 0
  else if a = Reg.LNK_PORTB_CFG then s.dropLink 1
  else if a = Reg.PWR_REQ then (if bit v 31 then s.pwrRequest (bits v 2 0) else s)
  else if a = Reg.FLT_RELEASE then (if bit v 31 then s.releaseSource (bits v 5 0) else s)
  else s

/-- The TOUT pins of a force field (R252). -/
def forcePins (s : State) (v : Word) (lo : Nat) (high : Bool) : State :=
  (List.range 4).foldl (fun (s : State) (p : Nat) => if bit v (lo + p) then s.toutLevel p high else s) s

/-- Block TMR (R243, R251, R252, R256). -/
def timerEffect (old : State) (s : State) (a : Nat) (v : Word) : State :=
  if 0x5000 ≤ a ∧ a < 0x5400 ∧ a % 0x40 = 0 then
    let t := inst16 a 0x5000 0x40
    let s := if s.tmRun t && (!old.tmRun t || decide (old.tmSrc t ≠ s.tmSrc t)) then
        s.modTimer t fun x => { x with hwm := match s.tmLane t with | some n => (s.lane n).pc | none => x.hwm }
      else s
    if bit v 31 then
      s.tmLoad t (BitVec.ofNat 48 ((s.reg (Reg.TMR_LOAD_LO t)).toNat + s.fld (Reg.TMR_LOAD_HI t) 15 0 * 2 ^ 32))
    else s
  else if 0x5700 ≤ a ∧ a < 0x5710 then
    let p := inst4 a 0x5700 4
    if bit v 0 && !old.rbit a 0 then s.modTmr fun t => { t with tclkAt := t.tclkAt.set p s.tick } else s
  else if a = Reg.TMR_TOUT then (s.forcePins v 16 true).forcePins v 20 false
  else s

/-- The compare channels of a timer over whose value a write has passed (R248). -/
def lappedBy (s : State) (t : TimerId) (ws : Words) : Word :=
  word (((List.range 4).map fun (c : Nat) =>
    if (ws.any fun w => decide (w.1 = Reg.TMR_VAL_LO t c) || decide (w.1 = Reg.TMR_VAL_HI t c)) &&
        decide (s.tmMode t c = 1) && decide (((s.timer t).count - s.tmVal t c).toNat < 2 ^ 47) then 2 ^ (12 + c) else 0).sum)

/-- The flags of R248 that a commit sets, one hardware set for each timer. -/
def setLapped (s : State) (ws : Words) : State :=
  allTimers.foldl (fun (s : State) (t : TimerId) =>
    if s.lappedBy t ws = 0 then s else s.setFlags (Reg.TMR_STAT t) (s.lappedBy t ws)) s

/-- Block PLC (R269, R277). -/
def placementEffect (old : State) (s : State) (a : Nat) : State :=
  if 0x6000 ≤ a ∧ a < 0x6400 then
    (if a % 0x100 = 0 ∨ a % 0x100 = 4 then
      s.modLane (inst4 a 0x6000 0x100) fun l => { l with frac := 0, hwm := l.pc, reversed := false }
     else s)
  else if a = Reg.PLC_ENC_CFG 0 then (if s.losNow 0 && !old.losNow 0 then s.losActive 0 else s)
  else if a = Reg.PLC_ENC_CFG 1 then (if s.losNow 1 && !old.losNow 1 then s.losActive 1 else s)
  else s

/-- Block MOT (R293, R309, R310). -/
def motionEffect (old : State) (s : State) (a : Nat) (v : Word) : State :=
  if a = Reg.MOT_AXB_CFG then
    (if bit v 0 && !old.rbit a 0 then s.axbStart else if !bit v 0 && old.rbit a 0 then s.axbStop else s)
  else if 0x7000 ≤ a ∧ a < 0x7600 then
    let x := inst6 a
    if a % 0x100 = 4 then (match s.axCommand x (lowBit v 8 0) with | .ok t => t | .error _ => s)
    else if a % 0x100 = 0 ∧ 4 ≤ x.val ∧ (bit v 1 != old.rbit a 1) = true then
      s.modAxis x fun m => { m with faultNow := !m.faultNow }
    else s
  else s

/-- Block HST (R334, R371). -/
def hoistEffect (s : State) (env : MemEnv) (a : Nat) (v : Word) : State :=
  if 0x8000 ≤ a ∧ a < 0x8600 then
    let c := inst24 a 0x8000 0x40
    if a % 0x40 = 0x10 then
      match lowBit v 5 0 with
      | 0 => s.enableChan c
      | 1 => s.disableChan c
      | 2 => s.startChan c .free
      | 3 => s.abortChan c
      | _ => s.resumeChan c
    else if a % 0x40 = 0x38 ∧ bit v 31 = true then s.shelfReread c env
    else s
  else s

/-- Blocks CMP and CAL (R388, R399, R421). -/
def compositorEffect (s : State) (a : Nat) (v : Word) : State :=
  if 0x9000 ≤ a ∧ a < 0x9100 then
    let n := inst4 a 0x9000 0x40
    if a % 0x40 = 0 ∨ a % 0x40 = 4 then s.modCmp fun c => { c with next := c.next.set n 0 } else s
  else if a = Reg.CMP_CRATE_VGO then (if bit v 0 then s.verStart else s)
  else if a = Reg.CAL_SET_GO then (if bit v 0 then s.calSet else s)
  else s

/-- `EN` and `PRES_POL` of a head port (R443, R444). -/
def enableHead (old : State) (s : State) (h : Head) (v : Word) : State :=
  let st := (s.head h).state
  if bit v 0 && decide (st = .off) then s.hedAbsent h
  else if !bit v 0 && decide (st ≠ .off) then s.hedGo h .off false false false
  else if (bit v 1 != old.rbit (Reg.HED_ENABLE h) 1) = true then s.hedPresent h (s.head h).level
  else s

/-- Block HED (R443, R456, R461). -/
def headEffect (old : State) (s : State) (env : MemEnv) (a : Nat) (v : Word) : State :=
  let h := inst4 a 0xB000 0x100
  match a % 0x100 with
  | 0x00 => enableHead old s h v
  | 0x04 =>
    if bit v 0 then (if (s.head h).state = .fault then s.hedToReady h else s)
    else if bit v 1 then s.sendTrim h env
    else s.startSvc h
  | 0x2C => if (s.head h).state = .mismatch then s.hedIdent h else s
  | 0x10 => s.showTeff h
  | 0x14 => s.showTeff h
  | 0x20 => s.showTeff h
  | _ => s

/-- Block HLT (R464, R474, R480-R482). -/
def healthEffect (old : State) (s : State) (gates : Vector (BitVec 12) 4) (a : Nat) (v : Word) : State :=
  let h := inst4 a 0xC000 0x100
  match a % 0x100 with
  | 0x00 =>
    let s := if bit v 2 && !old.rbit a 2 then s.modHealth h fun x => { x with idleFrom := s.tick, spat := false } else s
    if (bit v 0 != old.rbit a 0) = true then s.heatEnable h (bit v 0) else s
  | 0x04 =>
    if bit v 0 then s.heatRestart h
    else if bit v 1 then s.startScan h gates[h].toNat
    else if bit v 2 then s.mapLoad h
    else s.saveMap h
  | 0x5C => s.writeEntry h (s.fld (Reg.HLT_NOZ_SEL h) 9 0) (bits v 12 0)
  | _ => s

/-- Blocks REJ and HAT (R494, R504, R513). -/
def lineEffect (s : State) (a : Nat) (v : Word) : State :=
  if 0xD000 ≤ a ∧ a < 0xD100 then
    (if a % 0x40 = 0xC ∧ bit v 31 = true then s.releaseForce (inst4 a 0xD000 0x40) else s)
  else if 0xE000 ≤ a ∧ a < 0xE080 ∧ a % 0x20 = 0 then s.laneCommand (inst4 a 0xE000 0x20) (lowBit v 4 0)
  else if 0xE100 ≤ a ∧ a < 0xE208 then s.transfer ((a - 0xE100) / 4) (BitVec.ofNat 8 (bits v 7 0))
  else s

/-- What one word of a write starts at its commit. -/
def effect (old : State) (env : OpEnv) (s : State) (w : Nat × Word) : State :=
  let (a, v) := w
  if 0x10000 ≤ a then s
  else match a / 0x1000 with
    | 5 => timerEffect old s a v
    | 6 => placementEffect old s a
    | 7 => motionEffect old s a v
    | 8 => s.hoistEffect env.mem a v
    | 9 => s.compositorEffect a v
    | 10 => s.compositorEffect a v
    | 11 => if a < 0xB400 then headEffect old s env.mem a v else s
    | 12 => if a < 0xC400 then healthEffect old s env.gates a v else s
    | 13 => s.lineEffect a v
    | 14 => s.lineEffect a v
    | 15 => if a = Reg.MEM_LFT_GO ∧ bit v 0 = true then s.lftGo env.mem else s
    | _ => linkEffect old s a v

/-- The write changes the latched set of lane n (R278, R401, R423). -/
def touchesLatched (ws : Words) (n : Lane) : Bool :=
  ws.any fun w =>
    decide (w.1 = Reg.PLC_JOB n) || decide (w.1 = Reg.PLC_MARK_BASE n) || decide (w.1 = Reg.CMP_GCACHE n) ||
    decide (w.1 = Reg.CAL_SHELF n) || decide (w.1 = Reg.CAL_DATE_OVR n) ||
    decide (0x9400 + 0x100 * n.val ≤ w.1 ∧ w.1 < 0x9500 + 0x100 * n.val)

/-- The write changes what the waveform check of a head reads (R459). -/
def touchesTable (ws : Words) (h : Head) : Bool :=
  ws.any fun w =>
    decide (w.1 = Reg.HED_WF h) || decide (w.1 = Reg.HED_SCALE h) || decide (w.1 = Reg.PLC_JOB h) && selectsJob w ||
    decide (waveBase h ≤ w.1 ∧ w.1 < waveBase h + 0x4000)

/-- Late commits, waveform checks, then what each word starts, in address order. -/
def startAll (old : State) (env : OpEnv) (s : State) (ws : Words) : State :=
  let s := allLanes.foldl (fun (s : State) (n : Lane) => if touchesLatched ws n then s.commitLate n else s) s
  let s := allLanes.foldl (fun (s : State) (n : Lane) => if touchesTable ws n then s.checkTable n else s) s
  ws.foldl (fun (s : State) (w : Nat × Word) => effect old env s w) s

/-! ### The write -/

/-- A write whose accesses succeed (R194): stale clears are counted, and the words that have an effect commit together. The
order stamp is 0 where nothing commits (R551). -/
def makeWrite (s : State) (env : OpEnv) (ws : Words) : State × Nat :=
  let old := s
  let s := (ws.filter old.staleClear).foldl (fun (s : State) (w : Nat × Word) => s.bump (staleOf w.1)) s
  let live := ws.filter fun w => !old.moot w
  if live.isEmpty then (s, 0)
  else
    let fresh := live.filter fun w => !old.staleClear w
    let s := ((s.storeWords env.mem fresh).setLapped fresh).commit
    (startAll old env s fresh, s.order)

/-- The access of a write whose checks have passed (R62, R80, R194). -/
def accessWrite (s : State) (env : OpEnv) (ws : Words) : State × Code × Nat :=
  let s := s.noteCorrected { env.mem with ecc := env.mem.ecc.filter fun e => ws.any fun w => decide (w.1 / 8 = e.1 / 8) }
  match ws.findSome? (fun w => s.accessCode env.mem w.1) with
  | some c => ((s.failedMerges env.mem ws).foldl (fun (s : State) (r : Read) => s.noteRead r) s, c, 0)
  | none =>
    let (t, o) := s.makeWrite env ws
    (t, .ok, o)

/-- The energy that a refused command asked for is counted as refused (R139, R304). -/
def noteShort (s : State) (ws : Words) : State :=
  ws.foldl (fun (s : State) (w : Nat × Word) =>
    if 0x7000 ≤ w.1 ∧ w.1 < 0x7600 ∧ w.1 % 0x100 = 4 ∧ s.axShort (inst6 w.1) (lowBit w.2 8 0) = true then s.refuse none else s) s

/-- The checks at the commit, then the access. -/
def commitWrite (s : State) (env : OpEnv) (ws : Words) : State × Code × Nat :=
  match s.commitRefusal env.mem ws with
  | some c =>
    let s := if c = .busy then s.noteShort ws else s
    (ws.foldl (fun (s : State) (w : Nat × Word) =>
      if s.selectionCode env.mem w = some c then s.noteSelection env.mem w else s) s, c, 0)
  | none => s.accessWrite env ws

/-- A write of words, for the owner role or an observer: the state, the response code and the order stamp (R194, R206). -/
def writeWords (s : State) (owner : Bool) (env : OpEnv) (ws : Words) : State × Code × Nat :=
  match s.staticRefusal owner ws with
  | some c => (s, c, 0)
  | none => s.commitWrite env ws

end State

end Sys2Proof.Machine
end

