-- ==== Sys2Proof/Machine/Boot.lean ====
section
/-! DEFINITION. Bring-up: the configuration image, the Cellar, the lanes, `BOOT_DONE` and the entry to standalone running
(R86, R98-R100, R167-R171). -/

namespace Sys2Proof.Machine.State

/-! ### The configuration image -/

/-- The image as bytes from Loft offset 0 on. -/
def imageBytes (s : State) (n : Nat) : List Byte := s.mem.loftBytes 0 n

/-- The first four checks of the image and its CRC (R98, R100): the number of records, or the offset of the first failing
field. -/
def imageHeader (s : State) : Except Nat Nat :=
  let b := s.imageBytes 32
  if u32 b 0 ≠ 0x464F4C47 then .error 0
  else if u16 b 4 ≠ 1 then .error 4
  else if u32 b 12 ≠ 0x4480 then .error 12
  else
    let n := u16 b 6
    if 2043 < n then .error 6
    else
      let all := s.imageBytes (36 + 8 * n)
      if u32 all (32 + 8 * n) = crc32c (all.take (32 + 8 * n)) then .ok n else .error (32 + 8 * n)

/-- The records of an image of `n`, in order. -/
def imageRecords (s : State) (n : Nat) : Words :=
  (List.range n).map fun (k : Nat) =>
    let b := s.mem.loftBytes (32 + 8 * k) 8
    (u32 b 0, word (u32 b 4))

/-- What a record finds outside. -/
def imageEnv (answers : Bool) : OpEnv := { OpEnv.quiet with mem := ⟨[], !answers⟩ }

/-- A record passes the check of an owner write and names a register with an RW field (R100). -/
def recordOk (s : State) (r : Nat × Word) : Bool :=
  decide (r.1 < 0x10000) && decide (rwMask r.1 ≠ 0) && (s.staticRefusal true [r]).isNone

/-- The index of the first record that fails its check, each judged on what the records before it leave (R100). -/
def badRecord (answers : Bool) : State → Nat → Words → Option Nat
  | _, _, [] => none
  | s, k, r :: l => if s.recordOk r then badRecord answers (s.commitWrite (imageEnv answers) [r]).1 (k + 1) l else some k

/-- The records applied in order as owner writes: the state, the number applied, and whether one was refused (R100). -/
def applyRecords (answers : Bool) : State → Nat → Words → State × Nat × Bool
  | s, k, [] => (s, k, false)
  | s, k, r :: l =>
    match s.writeWords true (imageEnv answers) [r] with
    | (t, .ok, _) => applyRecords answers t (k + 1) l
    | (t, _, _) => (t, k, true)

/-- The image is bad from this offset on. -/
def imageBad (s : State) (o : Nat) : State := s.raise Kind.lftImageBad (word o)

/-- The image is read, checked and applied (R100). -/
def loadImage (s : State) (answers : Bool) : State :=
  match s.imageHeader with
  | .error o => s.imageBad o
  | .ok n =>
    let l := s.imageRecords n
    match badRecord answers s 0 l with
    | some k => s.imageBad (32 + 8 * k)
    | none =>
      let (t, k, stopped) := applyRecords answers s 0 l
      let t := t.setFld Reg.MEM_LFT_IMAGE 31 16 k
      if stopped then t.imageBad (32 + 8 * k) else t.setFld Reg.MEM_LFT_IMAGE 4 4 1

/-! ### Bring-up -/

/-- `HEAD_CLASS` of every head port from its strap (R156, R462). -/
def strapClass (s : State) : State :=
  allLanes.foldl (fun (s : State) (h : Head) =>
    s.setFld (Reg.HED_CTRL h) 8 8 (s.boot.straps[0].level.toNat % 2)) s

/-- Every fitted lane enters IN_SERVICE without a job (R157, R167 step 5). -/
def serveLanes (s : State) : State :=
  allLanes.foldl (fun (s : State) (n : Lane) => if s.fitted n then s.setLaneState n .inService else s) s

/-- Every TOUT pin takes its `IDLE` level (R252, R262). -/
def idleTout (s : State) : State :=
  (List.range 4).foldl (fun (s : State) (p : Nat) => s.toutLevel p (s.rbit Reg.TMR_TOUT (8 + p))) s

/-- Steps 1 to 3 of R167 and what follows them directly: straps, image, standing jobs, head regions, counters, claim keys and
the Cellar (R86, R224, R434, R481, R485). -/
def bringUp (s : State) (answers : Bool) : State :=
  let s := (s.strapClass.loadImage answers).checkStanding
  let s := allLanes.foldl (fun (s : State) (h : Head) => s.loadHealth h) s
  let s := s.resumeCounters.classKeys
  let s := allLanes.foldl (fun (s : State) (h : Head) => s.showTeff h) s
  s.celInit

/-- `CLAIM_WAIT` runs from `BOOT_DONE` in hosted mode, unless it is 0 (R170). -/
def startWait (s : State) : State :=
  let w := s.fld Reg.DEV_BOOT 15 0
  if s.strapMode = 0 ∧ w ≠ 0 then s.modBoot fun b => { b with claimWaitEnd := some (s.tick + w * 100000000) } else s

/-- `BOOT_DONE` (R167): bring-up completes; in standalone mode standalone running begins at once (R170). -/
def finishBoot (s : State) (answers : Bool) : State :=
  if s.boot.phase = .bringup then
    let s := ((s.releaseOut.bringUp answers).serveLanes).idleTout
    let s := (s.modBoot fun b => { b with phase := .running, doneAt := s.tick }).startLive.commit
    let s := if s.pwr.granted ≠ s.offered then s.raise Kind.pwrClass (word s.pwr.granted) else s
    let s := s.startWait
    if s.strapMode = 1 then s.enterStandalone answers else s
  else s

/-- `CLAIM_WAIT` ends with no claim accepted (R170). -/
def endWait (s : State) : State :=
  match s.boot.claimWaitEnd with
  | none => s
  | some t => ((s.advanceTo t).modBoot fun b => { b with claimWaitEnd := none }).enterStandalone true

end Sys2Proof.Machine.State
end

