-- ==== Sys2Proof/Machine/Sessions.lean ====
section
/-! DEFINITION. The operations of a session, one by one (07_link_waislink R192-R201; 08_sessions R225-R239): what each does,
and how it is answered. -/

namespace Sys2Proof.Machine

/-- How an operation is answered: at once with a code, an order stamp and data, or later. -/
inductive Answer where
  | now (c : Code) (order : Nat) (data : List Byte)
  | later
  deriving DecidableEq, Repr

/-- An operation is refused. -/
abbrev refusal (c : Code) : Answer := .now c 0 []

namespace State

/-- The session is owner. -/
def isOwner (s : State) (i : Sess) : Bool := decide (s.owner = some i)

/-- Messages are admitted: the core runs, TB100 does not stand, and WSL is not in block reset (R113, R183). -/
def admits (s : State) : Bool := s.coreOn && decide (s.pwr.state ≠ .sleep) && !s.unitInReset 8

/-! ### READ and READ_LIST -/

/-- An owner's read that returns data empties the wrap guards it names (R57). -/
def zeroGuards (s : State) (addrs : List Nat) : State :=
  addrs.foldl (fun (s : State) (a : Nat) => if w1gMask a = 0 then s else s.setGuard a 0) s

/-- The detections of an environment at the words of some addresses. -/
def envAt (env : MemEnv) (addrs : List Nat) : MemEnv :=
  { env with ecc := env.ecc.filter fun e => addrs.any fun a => decide (a / 8 = e.1 / 8) }

/-- A read that failed (R193). -/
def Read.isFail : Read → Bool
  | .ok _ => false
  | _ => true

/-- The code of a failed read at an address (R193). -/
def readCode (s : State) (a : Nat) : Code := if s.isolated (portOf s a) then .isolated else .memError

/-- The reads of a list of addresses at one cut (R14, R49, R57, R193): the first failed word gives the code, and every failing
word its message. -/
def readAt (s : State) (owner : Bool) (env : MemEnv) (addrs : List Nat) : State × Answer :=
  let s := s.noteCorrected (envAt env addrs)
  match addrs.find? fun a => Read.isFail (s.readWord env a) with
  | none =>
    let s := s.capture_ addrs
    let data := addrs.flatMap fun a => match s.readWord env a with | .ok v => bytesLE 4 v | _ => []
    (if owner then s.zeroGuards addrs else s, .now .ok s.order data)
  | some a =>
    let c := s.readCode a
    let fails := ((addrs.map (s.readWord env)).filter Read.isFail).eraseDups
    (fails.foldl (fun (s : State) (r : Read) => s.noteRead r) s, refusal c)

/-- The addresses of `n` words from `a` upwards. -/
def wordAddrs (a n : Nat) : List Nat := (List.range n).map fun (k : Nat) => a + 4 * k

/-- An operation waits for the Cellar (R91). -/
def holdOp (s : State) (op : Instr) : State := s.modMem fun m => { m with heldOps := m.heldOps ++ [⟨op, true⟩] }

/-- Operation READ (R193). -/
def opRead (s : State) (o : OpCtx) (addr : Word) (n : Nat) (env : OpEnv) : State × Answer :=
  let l := wordAddrs addr.toNat n
  if l.any fun a => s.badRead a || decide (regionOf s a ≠ regionOf s addr.toNat) then (s, refusal .badAddress)
  else if n = 0 ∨ 256 < n then (s, refusal .badValue)
  else if l.any s.heldAt then (s.holdOp (.read o addr n env), .later)
  else s.readAt (s.isOwner o.sess) env.mem l

/-- Operation READ_LIST (R193). -/
def opReadList (s : State) (o : OpCtx) (addrs : List Word) (env : OpEnv) : State × Answer :=
  let l := addrs.map BitVec.toNat
  if l.any s.badRead then (s, refusal .badAddress)
  else if l.length = 0 ∨ 64 < l.length then (s, refusal .badValue)
  else if l.any s.heldAt then (s.holdOp (.readList o addrs env), .later)
  else s.readAt (s.isOwner o.sess) env.mem l

/-! ### WRITE and WRITE_MASKED -/

/-- The words of a WRITE with their addresses. -/
def writeList (addr : Word) (ws : List Word) : Words := (wordAddrs addr.toNat ws.length).zip ws

/-- A selection of a job waits for the Cellar (R91, R390). -/
def selectionHeld (s : State) (ws : Words) : Bool := (ws.any selectsJob) && s.celHeld && !s.isolated 3

/-- The checks of a write at its admission, with the codes of the operation's own fields (R194, R206). -/
def admitWrite (s : State) (owner : Bool) (ws : Words) (extra : List Code) : Option Code :=
  firstCode ((s.staticRefusal owner ws).toList ++ extra)

/-- `NWORDS` of a WRITE is out of range. -/
def countCode (ws : List Word) : List Code := if ws.length = 0 ∨ 256 < ws.length then [.badValue] else []

/-- Operation WRITE with `DEFER` = 0 (R194); `extra` are the codes of its own fields. -/
def opWrite (s : State) (o : OpCtx) (addr : Word) (ws : List Word) (extra : List Code) (env : OpEnv) : State × Answer :=
  let l := writeList addr ws
  match s.admitWrite (s.isOwner o.sess) l (extra ++ countCode ws) with
  | some c => (s, refusal c)
  | none =>
    if s.selectionHeld l then (s.holdOp (.write o addr ws env), .later)
    else
      let (t, c, k) := s.commitWrite env l
      (t, .now c k [])

/-- The codes of the fields of a deferred write (R51, R52, R195, R237). -/
def deferCodes (s : State) (owner : Bool) (lane : Nat) (target : Pc) : List Code :=
  (if owner then [] else [.notOwner]) ++
  match allLanes.find? fun n => decide (n.val = lane) with
  | none => [.badValue]
  | some n =>
    if !s.fitted n || decide (s.laneState n = .open_) then [.badValue]
    else if pcGe (s.lane n).hwm target then [.tooLate]
    else if 16 ≤ (s.lane n).deferred.length then [.busy] else []

/-- Operation WRITE with `DEFER` = 1 (R51, R52, R195): it enters the queue of its lane at a commit, or is refused. -/
def opDefer (s : State) (o : OpCtx) (addr : Word) (ws : List Word) (lane : Nat) (target : Pc) (extra : List Code) : State × Answer :=
  let l := writeList addr ws
  let owner := s.isOwner o.sess
  match s.admitWrite owner l (extra ++ countCode ws ++ s.deferCodes owner lane target) with
  | some c =>
    let s := if c = .tooLate then s.bumpFld (Reg.DEV_DEFER lane) 15 8 else s
    (s, refusal c)
  | none =>
    match allLanes.find? fun n => decide (n.val = lane) with
    | none => (s, refusal .badValue)
    | some n =>
      ((s.modLane n fun x => { x with deferred := x.deferred ++ [⟨target, o.sess, o.seq, o.tag, true, addr.toNat, ws⟩] }).commit, .later)

/-- The value that a WRITE_MASKED gives a register (R196). -/
def maskedValue (s : State) (addr mask value : Word) : Word := (s.readReg addr.toNat &&& ~~~mask) ||| (value &&& mask)

/-- The register holds a W1G or a WT field (R196). -/
def hasTrigger (a : Nat) : Bool := decide (w1gMask a ≠ 0) || decide (wtMask a ≠ 0)

/-- Operation WRITE_MASKED (R196, R237): the fields written are those within the mask. -/
def opMasked (s : State) (o : OpCtx) (addr mask value : Word) (env : OpEnv) : State × Answer :=
  let a := addr.toNat
  let w := [(a, s.maskedValue addr mask value)]
  let owner := s.isOwner o.sess
  let wrong : List Code := if 0x10000 ≤ a ∨ hasTrigger a = true then [.badValue] else []
  let none_ := decide (rwMask a &&& mask = 0)
  match s.admitWrite (owner || none_) w wrong with
  | some c => (s, refusal c)
  | none =>
    if none_ then (s, .now .ok 0 [])
    else if s.selectionHeld w then (s.holdOp (.writeMasked o addr mask value env), .later)
    else
      let (t, c, k) := s.commitWrite env w
      (t, .now c k [])

/-- A write that was admitted is made, whoever owns the GL4480 by then (R51, R65, R200): what does not depend on ownership is
checked anew. -/
def lateWrite (s : State) (env : OpEnv) (l : Words) : State × Code × Nat := s.writeWords true env l

/-! ### The deferred queue -/

/-- The deferred write of a lane that is due first: the lowest target that the high-water mark has reached, then the order of
admission (R42, R51). -/
def deferredNext (s : State) (n : Lane) : Option Deferred :=
  ((s.lane n).deferred.filter fun d => pcGe (s.lane n).hwm d.target).foldl (fun (b : Option Deferred) (d : Deferred) =>
    match b with
    | none => some d
    | some e => if pcGt e.target d.target then some d else b) none

/-- The due deferred write of a lane commits, or is refused at its commit point (R51, R52, R65). It waits while the selection
it makes is held by the Cellar (R91). -/
def commitDeferred (s : State) (n : Lane) (env : OpEnv) : State :=
  match s.deferredNext n with
  | none => s
  | some d =>
    let l := (wordAddrs d.addr d.words.length).zip d.words
    if s.selectionHeld l then s
    else
      let s1 := s.modLane n fun x => { x with deferred := x.deferred.erase d }
      let (t, c, k) := s1.lateWrite env l
      let t := oneCommit t s1
      if d.owed then t.respond d.sess ⟨3, BitVec.ofNat 8 d.tag.toNat, c, d.seq, k, []⟩ else t

/-! ### OPEN, CLOSE, SUBSCRIBE, DISCOVER -/

/-- The session that a peer holds. -/
def sessOf (s : State) (p : Peer) : Option Sess := allSess.find? fun i => (s.sess i).bound && decide ((s.sess i).peer = p)

/-- The slot that an OPEN of a peer takes (R199). -/
def freeSlotFor (s : State) (p : Peer) : Option Sess :=
  if p = .lp then (if (s.sess 0).bound then none else some 0) else allNetSess.find? fun i => !(s.sess i).bound

/-- A slot is bound: a commit (R199). -/
def bindSession (s : State) (i : Sess) (p : Peer) (r : Route) (seq : BitVec 16) (kaMs : Nat) : State :=
  (s.setSess i { sess0 with bound := true, peer := p, route := r, kaMs := kaMs, binds := (s.sess i).binds + 1,
                            nextSeq := seq + 1, evtSeq := 1, refreshed := s.tick, sentAt := s.tick, evtSentAt := s.tick }).commit

/-- The data of an OPEN response (R192). -/
def openData (s : State) (i : Sess) : List Byte :=
  [BitVec.ofNat 8 i.val, 0, 0, 0] ++ bytesLE 4 (s.sessionId i) ++ bytesLE 2 (s.sess i).nextSeq.toNat ++ bytesLE 2 (s.sess i).kaMs

/-- A message of no session that carries one RESPONSE item (R198, R205). -/
def sendFree (s : State) (p : Peer) (r : Route) (l : List Resp) : State :=
  s.sendRaw p r (message 2 0xFF l.length 0 0 0 (l.flatMap respBytes))

/-- A NAK of no session (R205). -/
def sendFreeNak (s : State) (p : Peer) (r : Route) (c : Code) (ref : Nat) : State :=
  s.sendRaw p r (message 6 0xFF 1 0 0 0 (nakBody c 0 ref))

/-- Operation OPEN (R199): the peer's earlier session ends first; the binding is answered in the new session's form. -/
def opOpen (s : State) (p : Peer) (r : Route) (seq : BitVec 16) (tag : Byte) (kaMs : Nat) : State :=
  if kaMs < 100 ∨ 60000 < kaMs then s.sendFree p r [⟨8, tag, .badValue, seq, 0, []⟩]
  else
    let s := match s.sessOf p with | some i => s.endSession i | none => s
    match s.freeSlotFor p with
    | none => s.sendFree p r [⟨8, tag, .full, seq, 0, []⟩]
    | some i =>
      let s := s.bindSession i p r seq kaMs
      s.respond i ⟨8, tag, .ok, seq, s.order, s.openData i⟩

/-- Operation CLOSE (R200): a commit; the session ends when its response has been sent. -/
def opClose (s : State) : State × Answer :=
  let s := s.commit
  (s, .now .ok s.order [])

/-- Operation SUBSCRIBE (R197). -/
def opSubscribe (s : State) (i : Sess) (classes lo hi : Word) : State × Answer :=
  if classes &&& 0xFFFFFFFC ≠ 0 ∨ hi &&& 0xFFFFFFF0 ≠ 0 then (s, refusal .badValue)
  else
    let s := (s.modSess i fun x => { x with classes := classes, srcLo := lo, srcHi := hi }).commit
    (s, .now .ok s.order [])

/-- The identity that DISCOVER returns (R198). -/
def identity (s : State) : List Byte :=
  bytesLE 4 (s.readReg Reg.DEV_ID).toNat ++ bytesLE 4 (s.readReg Reg.DEV_REV).toNat ++ macBytes s.stationMac ++ [0, 0] ++
    bytesLE 4 s.stationIp.toNat ++
    [BitVec.ofNat 8 s.addrLow, BitVec.ofNat 8 s.strapMode, BitVec.ofNat 8 (ownerCode s.owner), BitVec.ofNat 8 (b2n s.booted)]

/-! ### Nonces and claims -/

/-- The entropy source failed the health test of a draw (R226). -/
def entropyFails (s : State) : State :=
  let was := s.ses.entropyBad
  let s := s.modSes fun x => { x with entropyBad := true }
  if was then s else s.raise Kind.entropy 0

/-- Operation NONCE (R226): a draw, or none where the entropy source fails its health test. -/
def opNonce (s : State) (i : Sess) (bytes : Option (List Byte)) : State × Answer :=
  match bytes with
  | none => (s.entropyFails, refusal .busy)
  | some b =>
    let s := s.modSes fun x => { x with entropyBad := false }
    let n := s.reg Reg.SES_NONCE_ID + 1
    let s := ((s.setReg Reg.SES_NONCE_ID n).modSess i fun x => { x with nonce := some (n, b) }).commit
    (s, .now .ok s.order (bytesLE 4 n.toNat ++ b))

/-- The session's nonce where a command names it; it is used by that (R226). -/
def useNonce (s : State) (i : Sess) (id : Word) : State × Option (List Byte) :=
  match (s.sess i).nonce with
  | some (n, b) => if n = id then (s.modSess i fun x => { x with nonce := none }, some b) else (s, none)
  | none => (s, none)

/-- `M` of R227. -/
def claimText (s : State) (i : Sess) (nonce : List Byte) (id : Word) (prio : Nat) : List Byte :=
  [0x47, 0x4C, 0x43, 0x4C] ++ nonce ++ bytesLE 4 id.toNat ++ bytesLE 4 (s.sessionId i) ++ [BitVec.ofNat 8 prio, BitVec.ofNat 8 i.val, 0, 0]

/-- A claim or a key installation fails authentication (R228, R239). -/
def authFail (s : State) (i : Sess) : State :=
  ((s.bump Reg.SES_CLAIM_FAILS).setFlag Reg.SES_EVT 2).raise Kind.claimFail (word i.val)

/-- A claim has been accepted, for the end of `CLAIM_WAIT` (R170, R232). -/
def claimAccepted (s : State) : State := s.modBoot fun b => { b with claimWaitEnd := none }

/-- Session 0 takes ownership under local precedence (R229, R231), as it does any election it enters (R159). -/
def takeOwnership (s : State) (i : Sess) (prio : Nat) : State × Answer :=
  let cands := (allSess.filter fun k => !decide (k = i)).filterMap fun k => (s.sess k).cand.map fun c => (k, c)
  let s := allSess.foldl (fun (s : State) (k : Sess) => s.modSess k fun x => { x with cand := none }) s
  let s := (s.modSes fun x => { x with electEnd := none }).changeOwner (some i) prio
  let order := s.order
  let s := cands.foldl (fun (s : State) (e : Sess × Nat × BitVec 16 × BitVec 6) =>
    s.answerClaim e.1 e.2.2.1 e.2.2.2 .claimLost) s
  (s.claimAccepted, .now .ok order [])

/-- A valid claim opens an election or joins it (R229): a commit. The claimant's earlier claim is answered `CLAIM_LOST`. -/
def joinElection (s : State) (o : OpCtx) (prio : Nat) : State × Answer :=
  let s := match (s.sess o.sess).cand with
    | some (_, q, t) => s.answerClaim o.sess q t .claimLost
    | none => s
  let s := if s.ses.electEnd.isSome then s
    else s.modSes fun x => { x with electEnd := some (s.tick + s.fld Reg.SES_CTRL 9 0 * 100000) }
  (((s.modSess o.sess fun x => { x with cand := some (prio, o.seq, o.tag) }).commit).claimAccepted, .later)

/-- A valid claim (R229, R231). -/
def validClaim (s : State) (o : OpCtx) (prio : Nat) : State × Answer :=
  if s.owner = some o.sess then
    let s := ((s.setFld Reg.SES_OWNER 10 8 prio).commit).claimAccepted
    (s, .now .ok s.order [])
  else if o.sess.val = 0 ∧ s.localPrec = true then s.takeOwnership o.sess prio
  else if s.owner.isSome then (s, refusal .claimLost)
  else s.joinElection o prio

/-- Operation CLAIM (R226-R231). -/
def opClaim (s : State) (o : OpCtx) (prio : Nat) (id : Word) (mac : List Byte) : State × Answer :=
  if 7 < prio then (s, refusal .badValue)
  else
    let text := s.claimText o.sess
    let key := s.claimKey o.sess prio
    let (s, nonce) := s.useNonce o.sess id
    match nonce, key with
    | some b, some k => if hmacSha256 k (text b id prio) = mac then s.validClaim o prio else (s.authFail o.sess, refusal .authFail)
    | _, _ => (s.authFail o.sess, refusal .authFail)

/-- The tick at which the open election closes (R229). -/
def electDue (s : State) : Option Nat := s.ses.electEnd

/-- The election closes (R230). -/
def electionEnd (s : State) : State := if s.ses.electEnd.isSome then s.closeElection s.leader else s

/-- Operation GRANT (R233). -/
def opGrant (s : State) (i : Sess) (dst : Nat) : State × Answer :=
  if !s.isOwner i then (s, refusal .notOwner)
  else match allSess.find? fun k => decide (k.val = dst) with
    | none => (s, refusal .badValue)
    | some k =>
      if !(s.sess k).bound then (s, refusal .badValue)
      else if k = i then (s, .now .ok 0 [])
      else
        let order := s.order + 1
        (s.changeOwner (some k) (s.fld Reg.SES_OWNER 10 8), .now .ok order [])

/-- Operation RESIGN (R233). -/
def opResign (s : State) (i : Sess) : State × Answer :=
  if s.isOwner i then
    let order := s.order + 1
    (s.changeOwner none 0, .now .ok order [])
  else (s, refusal .notOwner)

/-! ### Key installation -/

/-- The strings of R238, after their first four bytes. -/
def keyText (s : State) (i : Sess) (nonce : List Byte) (id : Word) (slot : Byte) : List Byte :=
  nonce ++ bytesLE 4 id.toNat ++ bytesLE 4 (s.sessionId i) ++ [slot, 0, 0, 0]

/-- A slot of the claim-key region that holds a key (R224). -/
def keyBytes (key : List Byte) : List Byte :=
  let b := key ++ bytesLE 4 1
  b ++ bytesLE 4 (crc32c b) ++ List.replicate 24 0xFF

/-- The content that an installation stages: the unwrapped key, or an erased slot (R224, R239). -/
def keyData (slot : Byte) (key : List Byte) : List Byte := if slot.toNat.testBit 7 then List.replicate 64 0xFF else keyBytes key

/-- An authenticated installation is staged with its reservation (R239 step 4). -/
def stageKey (s : State) (o : OpCtx) (slot : Byte) (key : List Byte) : State × Answer :=
  let k := slot.toNat % 8
  let (s, ok) := s.stageReserved (.key o.sess o.seq o.tag k true) (0x8000 + 0x40 * k) (keyData slot key)
  if ok then (s, .later) else (s, refusal .busy)

/-- `KEY_SLOT` sets a reserved bit or names a slot above the owner's priority (R238, R239 step 2). -/
def badSlot (s : State) (slot : Byte) : Bool :=
  decide (slot.toNat / 8 % 16 ≠ 0) || decide (s.fld Reg.SES_OWNER 10 8 < slot.toNat % 8)

/-- The checks of an installation whose nonce and key exist (R238, R239). -/
def checkKey (s : State) (o : OpCtx) (slot : Byte) (k text wrapped mac : List Byte) : State × Answer :=
  let pad := hmacSha256 k ([0x47, 0x4C, 0x4B, 0x57] ++ text)
  let new := List.zipWith (fun a b => a ^^^ b) wrapped pad
  if slot.toNat.testBit 7 = false ∧ new = List.replicate 32 0 then (s, refusal .badValue)
  else if hmacSha256 k ([0x47, 0x4C, 0x4B, 0x49] ++ text ++ wrapped) = mac then s.stageKey o slot new
  else (s.authFail o.sess, refusal .authFail)

/-- Operation KEY_INSTALL (R226, R238, R239). -/
def opKeyInstall (s : State) (o : OpCtx) (slot : Byte) (id : Word) (wrapped mac : List Byte) : State × Answer :=
  if !s.isOwner o.sess then (s, refusal .notOwner)
  else
    let key := s.claimKey o.sess (s.fld Reg.SES_OWNER 10 8)
    let text := s.keyText o.sess
    let (s, nonce) := s.useNonce o.sess id
    if s.badSlot slot then (s, refusal .badValue)
    else match nonce, key with
      | some b, some k => s.checkKey o slot k (text b id slot) wrapped mac
      | _, _ => (s.authFail o.sess, refusal .authFail)

/-! ### Answering -/

/-- The response of an operation. -/
def respOf (op tag : Byte) (seq : BitVec 16) (c : Code) (order : Nat) (data : List Byte) : Resp := ⟨op, tag, c, seq, order, data⟩

/-- A tag is outstanding in a session (R204). -/
def tagBusy (s : State) (i : Sess) (tag : BitVec 6) : Bool := (s.sess i).outstanding.any fun p => decide (p.2 = tag)

/-- An operation that arrives on its own: nothing where its session is not bound; `TAG_IN_USE` where its tag is outstanding;
else what it does, and its answer (R204, R205). -/
def runOp (s : State) (o : OpCtx) (op : Byte) (f : State → State × Answer) : State :=
  let tag := BitVec.ofNat 8 o.tag.toNat
  if !(s.admits && s.booted && (s.sess o.sess).bound) then s
  else if s.tagBusy o.sess o.tag then s.respond o.sess (respOf op tag o.seq .tagInUse 0 [])
  else
    match f s with
    | (s, .now c order data) => s.respond o.sess (respOf op tag o.seq c order data)
    | (s, .later) => s.owe o.sess o.seq o.tag

/-- A held operation is answered where its response is still owed. -/
def finishHeld (o : OpCtx) (op : Byte) (owed : Bool) (r : State × Answer) : State :=
  match r with
  | (s, .now c order data) => if owed then s.respond o.sess (respOf op (BitVec.ofNat 8 o.tag.toNat) o.seq c order data) else s
  | (s, .later) => s

/-- A held operation runs once the Cellar is free (R91). -/
def runHeld (s : State) (h : HeldOp) : State :=
  match h.op with
  | .read o addr n env => finishHeld o 1 h.owed (s.opRead o addr n env)
  | .readList o addrs env => finishHeld o 2 h.owed (s.opReadList o addrs env)
  | .write o addr ws env =>
    let (t, c, k) := s.lateWrite env (writeList addr ws)
    finishHeld o 3 h.owed (t, .now c k [])
  | .writeMasked o addr mask value env =>
    let (t, c, k) := s.lateWrite env [(addr.toNat, s.maskedValue addr mask value)]
    finishHeld o 4 h.owed (t, .now c k [])
  | _ => s

/-- The held operations run once the Cellar is free, in the order of their admission (R91). -/
def releaseHeld (s : State) : State :=
  if s.celHeld then s
  else
    let l := s.mem.heldOps
    l.foldl (fun (s : State) (h : HeldOp) => s.runHeld h) (s.modMem fun m => { m with heldOps := [] })

end State
end Sys2Proof.Machine
end

