-- ==== Sys2Proof/Machine/Messages.lean ====
section
/-! DEFINITION. Messages and frames that arrive: Waislink messages and their sequencing (07_link_waislink R189-R206, R212),
the frames that the switch passes to port I with their framings (R180-R188), and the transactions of the local port
(08_sessions R216-R223). -/

namespace Sys2Proof.Machine

/-! ### A message taken apart -/

/-- Items that fill a byte string exactly (R190, R191): `n` of them, or none where they do not. -/
def splitItems : Nat → List Byte → Option (List (List Byte))
  | 0, b => if b.isEmpty then some [] else none
  | n + 1, b =>
    let l := u16 b 2
    if b.length < 8 ∨ l < 8 ∨ l % 4 ≠ 0 ∨ b.length < l then none
    else match splitItems n (b.drop l) with
      | some r => some (b.take l :: r)
      | none => none

/-- The items of a message that is not malformed (R190). -/
def parseMessage (b : List Byte) : Option (List (List Byte)) :=
  let l := u16 b 6
  if u8 b 0 ≠ 1 ∨ (u8 b 1 ≠ 1 ∧ u8 b 1 ≠ 5) ∨ l < 16 ∨ 1472 < l ∨ l % 4 ≠ 0 ∨ b.length < l ∨ 32 < u8 b 3 then none
  else splitItems (u8 b 3) ((b.take l).drop 16)

/-- Parts of an operation item (R191). -/
def itemOp (b : List Byte) : Byte := BitVec.ofNat 8 (u8 b 0)
def itemTag (b : List Byte) : Byte := BitVec.ofNat 8 (u8 b 1)
def itemTag6 (b : List Byte) : BitVec 6 := BitVec.ofNat 6 (u8 b 1)
def itemAddr (b : List Byte) : Word := word (u32 b 4)

/-- Words of an item from byte `i` on. -/
def itemWords (b : List Byte) (i n : Nat) : List Word := (List.range n).map fun (k : Nat) => word (u32 b (i + 4 * k))

/-- The item length that an operation requires; none for an operation that is not among those of R192. -/
def opLength (b : List Byte) : Option Nat :=
  match u8 b 0 with
  | 0x01 => some 12
  | 0x02 => some (12 + 4 * u16 b 8)
  | 0x03 => some (20 + 4 * u16 b 8)
  | 0x04 => some 16
  | 0x08 => some 12
  | 0x09 => some 8
  | 0x0A => some 8
  | 0x0B => some 48
  | 0x0C => some 12
  | 0x0D => some 8
  | 0x0E => some 80
  | 0x10 => some 20
  | 0x11 => some 8
  | _ => none

/-- The codes of a WRITE's own fields (R192, R195): reserved `FLAGS`, and `LANE` or `TARGET` without `DEFER`. -/
def flagCodes (b : List Byte) : List Code :=
  (if u8 b 10 / 2 ≠ 0 then [.badValue] else []) ++
    (if u8 b 10 % 2 = 0 ∧ (u8 b 11 ≠ 0 ∨ leBytes ((b.drop 12).take 6) ≠ 0) then [.badValue] else [])

namespace State

/-! ### The items of a REQUEST -/

/-- An operation of a bound session, its form and tag checked (R192-R200, R226-R239). -/
def operation (s : State) (o : OpCtx) (env : OpEnv) (b : List Byte) : State × Answer :=
  match u8 b 0 with
  | 0x01 => s.opRead o (itemAddr b) (u16 b 8) env
  | 0x02 => s.opReadList o (itemWords b 12 (u16 b 8)) env
  | 0x03 =>
    if u8 b 10 % 2 = 0 then s.opWrite o (itemAddr b) (itemWords b 20 (u16 b 8)) (flagCodes b) env
    else s.opDefer o (itemAddr b) (itemWords b 20 (u16 b 8)) (u8 b 11) (BitVec.ofNat 48 (leBytes ((b.drop 12).take 6))) (flagCodes b)
  | 0x04 => s.opMasked o (itemAddr b) (word (u32 b 8)) (word (u32 b 12)) env
  | 0x09 => s.opClose
  | 0x0A => s.opNonce o.sess env.nonce
  | 0x0B => s.opClaim o (u8 b 8) (word (u32 b 12)) ((b.drop 16).take 32)
  | 0x0C => s.opGrant o.sess (u8 b 8)
  | 0x0D => s.opResign o.sess
  | 0x0E => s.opKeyInstall o (BitVec.ofNat 8 (u8 b 8)) (word (u32 b 12)) ((b.drop 16).take 32) ((b.drop 48).take 32)
  | 0x10 => s.opSubscribe o.sess (word (u32 b 8)) (word (u32 b 12)) (word (u32 b 16))
  | 0x11 => (s, .now .ok s.order s.identity)
  | _ => (s, refusal .badOp)

/-- The item is refused for its form (R192, R205): an unknown operation, reserved `TAG` bits, or OPEN within a session. -/
def badOp (b : List Byte) : Bool := (opLength b).isNone || decide (64 ≤ u8 b 1) || decide (u8 b 0 = 8)

/-- One item of a new REQUEST: its response, where it is ready (R204). `used` are the tags of the items before it. -/
def newItem (s : State) (i : Sess) (seq : BitVec 16) (env : OpEnv) (used : List (BitVec 6)) (b : List Byte) : State × Option Resp :=
  let ans (c : Code) : Option Resp := some (respOf (itemOp b) (itemTag b) seq c 0 [])
  if badOp b then (s, ans .badOp)
  else if s.tagBusy i (itemTag6 b) || used.contains (itemTag6 b) then (s, ans .tagInUse)
  else if opLength b ≠ some b.length then (s, ans .badLength)
  else
    match s.operation ⟨i, seq, itemTag6 b⟩ env b with
    | (s, .now c order data) => (s, some (respOf (itemOp b) (itemTag b) seq c order data))
    | (s, .later) => (s.owe i seq (itemTag6 b), none)

/-- The items of a new REQUEST in order (R202); none of them runs once the session has ended. -/
def newItems (i : Sess) (seq : BitVec 16) (env : OpEnv) : List (BitVec 6) → State → List (List Byte) → State × List Resp
  | _, s, [] => (s, [])
  | used, s, b :: rest =>
    if (s.sess i).bound then
      let (s, r) := s.newItem i seq env used b
      let (s, l) := newItems i seq env (itemTag6 b :: used) s rest
      (s, r.toList ++ l)
    else (s, [])

/-- The cached response of an item of a duplicate (R202). -/
def cachedResp (s : State) (i : Sess) (seq : BitVec 16) (b : List Byte) (inUse : Bool) : Option Resp :=
  (s.sess i).cache.find? fun r =>
    decide (r.reqSeq = seq) && decide (r.op = itemOp b) && decide (r.tag = itemTag b) && (decide (r.code = .tagInUse) == inUse)

/-- The replayed or missing response of an item of a duplicate that is no READ (R202). -/
def replay (s : State) (i : Sess) (seq : BitVec 16) (used : List (BitVec 6)) (b : List Byte) : Option Resp :=
  let stale : Resp := respOf (itemOp b) (itemTag b) seq .stale 0 []
  let again := match s.cachedResp i seq b true with | some r => r | none => stale
  if used.contains (itemTag6 b) then some again
  else match s.cachedResp i seq b false with
    | some r => some r
    | none => if (s.sess i).outstanding.contains (seq, itemTag6 b) then none else some again

/-- One item of a duplicate REQUEST (R202): READ and READ_LIST are executed anew. -/
def oldItem (s : State) (i : Sess) (seq : BitVec 16) (env : OpEnv) (used : List (BitVec 6)) (b : List Byte) : State × Option Resp :=
  if u8 b 0 ≠ 1 ∧ u8 b 0 ≠ 2 then (s, s.replay i seq used b)
  else if (s.sess i).outstanding.contains (seq, itemTag6 b) then (s, none)
  else s.newItem i seq env used b

/-- The items of a duplicate REQUEST. -/
def oldItems (i : Sess) (seq : BitVec 16) (env : OpEnv) : List (BitVec 6) → State → List (List Byte) → State × List Resp
  | _, s, [] => (s, [])
  | used, s, b :: rest =>
    let (s, r) := s.oldItem i seq env used b
    let (s, l) := oldItems i seq env (itemTag6 b :: used) s rest
    (s, r.toList ++ l)

/-- A REQUEST of a bound session (R202, R203). -/
def request (s : State) (i : Sess) (seq : BitVec 16) (env : OpEnv) (items : List (List Byte)) : State :=
  let behind := ((s.sess i).nextSeq - seq).toNat
  if behind = 0 then
    let (s, l) := newItems i seq env [] (s.modSess i fun x => { x with nextSeq := x.nextSeq + 1 }) items
    s.answer i l
  else if behind ≤ 16 then
    let (s, l) := oldItems i seq env [] s items
    s.answer i l
  else s.sendNak i .seqGap seq.toNat

/-! ### Messages -/

/-- The bound slot that a message of a peer names with its current `SESSION_ID` (R200). -/
def names (s : State) (p : Peer) (b : List Byte) : Option Sess :=
  allSess.find? fun i => decide (i.val = u8 b 2) && (s.sess i).bound && decide ((s.sess i).peer = p) && decide (u32 b 8 = s.sessionId i)

/-- A malformed message (R190). -/
def badMessage (s : State) (p : Peer) (r : Route) (b : List Byte) : State :=
  let addr := if 3 ≤ b.length ∧ u8 b 2 ≤ 8 then word (u8 b 2) else 0xFFFFFFFF
  let s := (s.bump Reg.LNK_BAD_FRAMES).raise Kind.badFrame addr
  if b.length < 16 then s
  else match s.names p b with
    | some i => s.sendNak i .badFormat (u16 b 4)
    | none => s.sendFreeNak p r .badFormat (u16 b 4)

/-- The response to one item of a message of no session that is DISCOVER, or an OPEN that is refused for its form. -/
def freeItem (s : State) (seq : BitVec 16) (alone : Bool) (b : List Byte) : Resp :=
  if 64 ≤ u8 b 1 then respOf (itemOp b) (itemTag b) seq .badOp 0 []
  else if opLength b ≠ some b.length ∨ (u8 b 0 = 8 ∧ alone = false) then respOf (itemOp b) (itemTag b) seq .badLength 0 []
  else respOf (itemOp b) (itemTag b) seq .ok s.order s.identity

/-- A message of no session (R198, R199): OPEN alone, or DISCOVER. -/
def freeMessage (s : State) (p : Peer) (r : Route) (b : List Byte) (items : List (List Byte)) : State :=
  let seq : BitVec 16 := BitVec.ofNat 16 (u16 b 4)
  if u8 b 1 ≠ 1 ∨ u32 b 8 ≠ 0 ∨ items.isEmpty ∨ (items.any fun x => decide (u8 x 0 ≠ 8 ∧ u8 x 0 ≠ 0x11)) then
    s.sendFreeNak p r .noSession seq.toNat
  else
    match items with
    | [x] =>
      if u8 x 0 = 8 ∧ u8 x 1 < 64 ∧ x.length = 12 then s.opOpen p r seq (itemTag x) (u16 x 8)
      else s.sendFree p r [s.freeItem seq true x]
    | l => s.sendFree p r (l.map (s.freeItem seq false))

/-- A message of a bound session refreshes it, and acknowledges events (R188, R210, R212). -/
def refresh (s : State) (i : Sess) (r : Route) (ack : BitVec 16) : State :=
  (s.modSess i fun x => { x with route := r, refreshed := s.tick }).ackEvents i ack

/-- A Waislink message arrives from a peer (R168, R190, R199-R203, R212). -/
def handle (s : State) (p : Peer) (r : Route) (b : List Byte) (env : OpEnv) : State :=
  if !s.admits then s
  else if !s.booted then s.sendFreeNak p r .busy (u16 b 4)
  else match parseMessage b with
    | none => s.badMessage p r b
    | some items =>
      if u8 b 2 = 0xFF then s.freeMessage p r b items
      else match s.names p b with
        | none => s.sendFreeNak p r .noSession (u16 b 4)
        | some i =>
          let s := s.refresh i r (BitVec.ofNat 16 (u16 b 12))
          if u8 b 1 = 5 then s else s.request i (BitVec.ofNat 16 (u16 b 4)) env items

/-! ### Frames for port I -/

/-- A frame that port I drops and counts (R185, R186, R188). -/
def ipDrop (s : State) : State := s.bump Reg.LNK_IP_DROP

/-- A well-formed REQUEST of no session whose items are all DISCOVER (R181, R186). -/
def isDiscover (b : List Byte) : Bool :=
  match parseMessage b with
  | some items => decide (u8 b 1 = 1) && decide (u8 b 2 = 0xFF) && !items.isEmpty && items.all fun x => decide (u8 x 0 = 0x11)
  | none => false

/-- The address that a reply goes to: where the frame came from, on its port, with its tag (R188). -/
def replyRoute (p : Fin 2) (f : Frame) : Route := ⟨p.val, f.src, f.tag⟩

/-- An ARP request for the station address (R186). -/
def arpOk (s : State) (b : List Byte) : Bool :=
  decide (28 ≤ b.length) && decide (beAt b 0 2 = 1) && decide (beAt b 2 2 = 0x0800) && decide (beAt b 4 2 = 0x0604) &&
    decide (beAt b 6 2 = 1) && decide (beAt b 24 4 = s.stationIp.toNat)

/-- An ARP packet is answered, or dropped and counted (R184, R186). -/
def arpIn (s : State) (f : Frame) : State :=
  let b := f.payload
  if s.stationIp = 0 then s
  else if s.arpOk b then
    s.sendFrameI (buildFrame f.src s.stationMac f.tag 0x0806
      ([0, 1, 8, 0, 6, 4, 0, 2] ++ macBytes s.stationMac ++ beN 4 s.stationIp.toNat ++ (b.drop 8).take 10))
  else s.ipDrop

/-- An IPv4 packet taken apart (R186): source, destination, protocol and what follows the header; none where the header is
not of the accepted kind. -/
def parseIp (b : List Byte) : Option (BitVec 32 × BitVec 32 × Nat × List Byte) :=
  let l := beAt b 2 2
  if u8 b 0 = 0x45 ∧ 20 ≤ l ∧ l ≤ b.length ∧ fold16 (wordSum (b.take 20)) = 0xFFFF ∧ beAt b 6 2 % 16384 = 0 then
    some (BitVec.ofNat 32 (beAt b 12 4), BitVec.ofNat 32 (beAt b 16 4), u8 b 9, (b.take l).drop 20)
  else none

/-- The subnet broadcast address (R186). -/
def subnetBroadcast (s : State) : BitVec 32 := s.reg Reg.LNK_IP ||| ~~~(s.reg Reg.LNK_NETMASK)

/-- The checksum of a UDP datagram is absent or correct (R186). -/
def udpSumOk (src dst : BitVec 32) (b : List Byte) : Bool :=
  decide (beAt b 6 2 = 0) ||
    decide (fold16 (wordSum (beN 4 src.toNat ++ beN 4 dst.toNat ++ [0, 17] ++ beN 2 b.length ++ b)) = 0xFFFF)

/-- A UDP datagram for port I (R186, R187): only a DISCOVER where the destination is a broadcast address. -/
def udpIn (s : State) (p : Fin 2) (f : Frame) (src dst : BitVec 32) (b : List Byte) (env : OpEnv) : State :=
  let l := beAt b 4 2
  let m := (b.take l).drop 8
  if l < 8 ∨ b.length < l ∨ beAt b 2 2 ≠ s.fld Reg.LNK_UDP_PORT 15 0 ∨ udpSumOk src dst (b.take l) = false then s.ipDrop
  else if dst = s.stationIp ∨ ((dst = 0xFFFFFFFF ∨ dst = s.subnetBroadcast) ∧ isDiscover m = true) then
    s.handle (.udp src (BitVec.ofNat 16 (beAt b 0 2))) (replyRoute p f) m env
  else s.ipDrop

/-- An ICMP echo request is answered (R186). -/
def icmpIn (s : State) (p : Fin 2) (f : Frame) (src : BitVec 32) (b : List Byte) : State :=
  if 8 ≤ b.length ∧ u8 b 0 = 8 ∧ u8 b 1 = 0 ∧ fold16 (wordSum b) = 0xFFFF then
    let rest := b.drop 4
    s.sendIp (replyRoute p f) 1 src ([0, 0] ++ beN 2 (checksum ([0, 0, 0, 0] ++ rest)) ++ rest)
  else s.ipDrop

/-- An IPv4 packet for port I (R184, R186). -/
def ipIn (s : State) (p : Fin 2) (f : Frame) (env : OpEnv) : State :=
  if s.stationIp = 0 then s
  else match parseIp f.payload with
    | none => s.ipDrop
    | some (src, dst, proto, b) =>
      if proto = 17 then s.udpIn p f src dst b env
      else if proto = 1 ∧ dst = s.stationIp then s.icmpIn p f src b
      else s.ipDrop

/-- Port I takes a broadcast frame that is an ARP request or carries a DISCOVER (R181). -/
def takesBroadcast (s : State) (f : Frame) : Bool :=
  if f.etype = s.fld Reg.LNK_ETYPE 15 0 then isDiscover f.payload
  else if f.etype = 0x0806 then decide (beAt f.payload 6 2 = 1)
  else if f.etype = 0x0800 then
    match parseIp f.payload with
    | some (_, _, proto, b) => decide (proto = 17) && isDiscover ((b.take (beAt b 4 2)).drop 8)
    | none => false
  else false

/-- Port I takes a frame (R181). -/
def takesFrame (s : State) (f : Frame) : Bool := decide (f.dst = s.stationMac) || (decide (f.dst = macBroadcast) && s.takesBroadcast f)

/-- The frame carries the VLAN that `VID_ONLY` asks for (R188). -/
def vlanOk (s : State) (f : Frame) : Bool :=
  !s.rbit Reg.LNK_VLAN 12 || (match f.tag with | some (v, _) => decide (v.toNat = s.fld Reg.LNK_VLAN 11 0) | none => false)

/-- What port I makes of a frame it has taken (R185-R188). -/
def frameIn (s : State) (p : Fin 2) (f : Frame) (env : OpEnv) : State :=
  if !s.vlanOk f then s.ipDrop
  else if f.etype = s.fld Reg.LNK_ETYPE 15 0 then s.handle (.ether f.src) (replyRoute p f) f.payload env
  else if f.etype = 0x0806 then s.arpIn f
  else if f.etype = 0x0800 then s.ipIn p f env
  else s.ipDrop

/-- Port I's receive queue is full (R181). -/
def overrun (s : State) (p : Fin 2) : State := (s.bump (Reg.LNK_RXOVR p.val)).raise (Kind.rxOverrun p.val) 0

/-- The switch forwards a frame to the other external port where its destination calls for it (R180). -/
def forward (s : State) (p : Fin 2) (full : Bool) (dst : BitVec 48) (b : List Byte) : State :=
  if dst = s.stationMac then s
  else (s.egress p.val dst).foldl (fun (s : State) (q : Nat) => s.transmit q full b) s

/-- The length of a frame without its FCS is one that a port takes (R178). -/
def frameSize (b : List Byte) : Bool := decide (60 ≤ b.length) && decide (b.length ≤ 1518)

/-- The ports and the switch run: the core does, TB100 does not stand, and the port is enabled (R180, R183). -/
def linkRuns (s : State) (p : Fin 2) : Bool := s.coreOn && decide (s.pwr.state ≠ .sleep) && s.portOn p.val && !s.unitInReset (6 + p.val)

/-- A frame arrives on port A or B (R178, R180, R181). -/
def frameArrives (s : State) (p : Fin 2) (b : List Byte) (rxFull egressFull : Bool) (env : OpEnv) : State :=
  if !s.linkRuns p then s
  else if !frameSize b then s.bump (Reg.LNK_RXERR p.val)
  else
    let f := readFrame b
    let s := ((s.bump (Reg.LNK_RXGOOD p.val)).learn f.src p.val).forward p egressFull f.dst b
    if s.takesFrame f then (if rxFull then s.overrun p else s.frameIn p f env) else s

/-- An ARP request that has reached port I (R186). -/
def arpArrives (s : State) (p : Fin 2) (b : List Byte) : State :=
  let f := readFrame b
  if s.linkRuns p && decide (f.etype = 0x0806) && s.takesFrame f && s.vlanOk f then s.arpIn f else s

/-- An ICMP echo request that has reached port I (R186). -/
def echoArrives (s : State) (p : Fin 2) (b : List Byte) : State :=
  let f := readFrame b
  match parseIp f.payload with
  | some (src, dst, 1, m) =>
    if s.linkRuns p && decide (f.etype = 0x0800) && s.takesFrame f && s.vlanOk f && decide (s.stationIp ≠ 0 ∧ dst = s.stationIp) then
      s.icmpIn p f src m
    else s
  | _ => s

/-! ### The local port -/

/-- The local port has no route. -/
def lpRoute : Route := ⟨0, 0, none⟩

/-- `LP_EN` (R222). -/
def lpOn (s : State) : Bool := s.rbit Reg.SES_CTRL 16

/-- Messages of the inbound queue are handled in order (R219), at most `n` of them. -/
def takeLp : Nat → State → State
  | 0, s => s
  | n + 1, s =>
    if s.admits then
      match s.ses.lpIn with
      | [] => s
      | (b, env) :: rest => takeLp n ((s.modSes fun x => { x with lpIn := rest }).handle .lp lpRoute b env)
    else s

/-- The header that a transaction returns (R217). -/
def lpHeader (s : State) : List Byte :=
  let awake := decide (s.pwr.state ≠ .sleep)
  let len := if awake then (match s.ses.lpOut with | m :: _ => m.length | [] => 0) else 0
  let st := b2n (awake && !s.ses.lpOut.isEmpty) + 2 * b2n s.booted + 4 * b2n s.ses.lastGood + 8 * b2n s.ses.lastBad +
    16 * b2n (decide (2 ≤ s.ses.lpIn.length)) + 32 * b2n awake + 0x80
  [BitVec.ofNat 8 st, 0] ++ bytesLE 2 len ++ [0, 0, 0, 0]

/-- The bytes that a transaction of `n` bytes returns (R217, R218): the header, and the pending message with its CRC where it
is fetched. -/
def lpReturns (s : State) (fetch : Bool) (n : Nat) : List Byte :=
  let h := s.lpHeader
  let body := match s.ses.lpOut with
    | m :: _ => if fetch && decide (s.pwr.state ≠ .sleep) then m ++ bytesLE 4 (crc32c (h ++ m)) else []
    | [] => []
  (h ++ body ++ List.replicate n 0).take n

/-- A MOSI header sets a reserved bit (R217). -/
def lpVoid (h : List Byte) : Bool := decide (8 ≤ u8 h 0 ∨ u8 h 1 ≠ 0 ∨ u32 h 4 ≠ 0)

/-- A SEND is good (R219). -/
def lpGood (s : State) (mosi : List Byte) : Bool :=
  let n := u16 mosi 2
  decide (16 ≤ n ∧ n ≤ 1472 ∧ n % 4 = 0 ∧ 12 + n ≤ mosi.length ∧ s.ses.lpIn.length < 2) &&
    decide (crc32c (mosi.take (8 + n)) = u32 mosi (8 + n))

/-- A SEND, or a transaction, counts in `SES_LP_BAD` (R217, R219, R240): a commit. -/
def lpBad (s : State) (send : Bool) : State :=
  let s := if send then s.modSes fun x => { x with lastGood := false, lastBad := true } else s
  ((s.bump Reg.SES_LP_BAD).setFlag Reg.SES_EVT 3).commit

/-- A good SEND is admitted (R219). -/
def lpSend (s : State) (mosi : List Byte) (env : OpEnv) : State :=
  let s := (s.bump Reg.SES_LP_GOOD).modSes fun x =>
    { x with lastGood := true, lastBad := false, lpIn := x.lpIn ++ [((mosi.drop 8).take (u16 mosi 2), env)] }
  takeLp 2 s

/-- A delivered message leaves the queue at the header snapshot of a transaction with `RX_ACK` (R220). -/
def lpAck (s : State) : State :=
  if s.ses.lpDelivered then s.modSes fun x => { x with lpOut := x.lpOut.drop 1, lpDelivered := false } else s

/-- The pending message has been clocked through its CRC (R220): for session 0 it counts as sent (R212). -/
def lpDeliver (s : State) (n : Nat) : State :=
  match s.ses.lpOut with
  | m :: _ =>
    if 12 + m.length ≤ n then
      (s.modSes fun x => { x with lpDelivered := true }).modSess 0 fun x => if x.bound then { x with sentAt := s.tick } else x
    else s
  | [] => s

/-- MISO is driven: not before `BOOT_DONE` (R174). -/
def lpDrives (s : State) : Bool := s.booted

/-- A transaction of the local port while the GL4480 is awake (R217-R220). -/
def lpAwake (s : State) (mosi : List Byte) (env : OpEnv) : State :=
  let cmd := u8 mosi 0
  let send := decide (cmd % 2 = 1)
  let fetch := decide (cmd / 2 % 2 = 1)
  let void := decide (mosi.length < 8) || lpVoid mosi
  let s := if !void && decide (cmd / 4 % 2 = 1) then s.lpAck else s
  let good := s.lpGood mosi
  let s := if s.lpDrives then s.emit (.local_ (s.lpReturns fetch mosi.length)) else s
  if void then (if decide (8 ≤ mosi.length) || send then s.lpBad send else s)
  else
    let s := if fetch && s.lpDrives then s.lpDeliver mosi.length else s
    if send then (if good then s.lpSend mosi env else s.lpBad true) else s

/-- A transaction of the local port (R217-R223): the bytes clocked in. In SLEEP it returns its header, and its SEND is
discarded without a count. While SES is in block reset a transaction is void (R113). -/
def localPort (s : State) (mosi : List Byte) (env : OpEnv) : State :=
  if !s.coreOn || !s.lpOn || s.unitInReset 9 then s
  else if s.pwr.state = .sleep then s.emit (.local_ (s.lpReturns false mosi.length))
  else s.lpAwake mosi env

end State
end Sys2Proof.Machine
end

