-- ==== Sys2Proof/Machine/Settle.lean ====
section
/-! DEFINITION. What follows a command without another one: resets that messages have selected, operations and messages that
waited, units that follow the state of others, and the outputs (02_determinism R46; 04_fault_collector R111, R121; 20_reject_line
R488, R498, R500). Every meaning of a command ends here. -/

namespace Sys2Proof.Machine
namespace State

/-- Units follow what they watch: compositor tasks and slots, heaters, unrecorded spans, lanes. -/
def settleUnits (s : State) : State := s.shareTasks.trackSlots.trackHeats.startSpans.trackLanes

/-- Operations that the Cellar held back, and messages of the local port that waited, run (R91, R219). -/
def settleHeld (s : State) : State := if s.admits then takeLp 2 s.releaseHeld else s

/-- Messages that wait leave (R210, R220); nothing in SLEEP (R213) and in a block reset of WSL. -/
def settleLink (s : State) : State := if s.admits then s.pumpHeld.pumpEvents else s

/-- The core settles after a command. -/
def settleCore (s : State) : State :=
  if s.coreOn then
    let s := s.flush.settleHeld.flush
    let s := s.settleUnits.flush.settleUnits.flush
    s.settleLink.errRelease
  else s

/-- Everything that follows a command; the outputs last. -/
def settle (s : State) : State := s.settleCore.trackRejs.trackLine

/-- The state after a command of effect `t` on `s`: what follows has settled, and the queue is as the step left it. -/
def after (s t : State) : State := { t.settle with pending := s.pending }

/-- The outcome of a command of effect `t` on `s`. -/
def finish (s t : State) : Host.Outcome State Fault Refusal := .next (s.after t)

/-- An empty queue: one tick passes (R41). Nothing of the model happens on a tick by itself; what falls due is a command. -/
def idle (s : State) : Host.Outcome State Fault Refusal := s.finish (s.advanceTo (s.tick + 1))

end State
end Sys2Proof.Machine
end

