-- ==== Sys2Proof/Machine/Commands.lean ====
section
/-! DEFINITION. The shapes that commands share: an owner write of a register, an accepted change at a pin, and an event at the
end of a time. -/

namespace Sys2Proof.Machine
namespace State

/-! ### Owner writes -/

/-- An owner write of consecutive registers, as operation WRITE of its session (R194). -/
def ownerWrites (s : State) (o : OpCtx) (env : OpEnv) (a : Nat) (ws : List Word) : State :=
  s.runOp o 3 fun s => s.opWrite o (word a) ws [] env

/-- An owner write of one register (R194). -/
def ownerWrite (s : State) (o : OpCtx) (a : Nat) (v : Word) : State := s.ownerWrites o OpEnv.quiet a [v]

/-- A register's own RW bits beside the bits [hi:lo] that a command sets to `v`. -/
def keeping (s : State) (a hi lo v : Nat) : Word := putBits (s.readReg a &&& rwMask a) hi lo v

/-! ### Pin inputs -/

/-- An accepted change at a pin that is admitted as a queued event (R40, R43, R64): the core must run and TB100 must not
stand. `full` tells that the admission queue of input `i` is full: the event is discarded. -/
def pinEvent (s : State) (i : Nat) (full : Bool) (f : State → State) : State :=
  if !s.ticking then s else if full then s.admitOverrun i else f s

/-- An accepted change at a pin that is admitted as a count (R43, R64). -/
def pinCount (s : State) (f : State → State) : State := if s.ticking then f s else s

/-! ### Events in time -/

/-- A timed event: the tick advances to its time, and what it does follows; nothing while none is due (R40). -/
def timed (s : State) (due : Option Nat) (f : State → State) : State :=
  match due with
  | some t => if s.ticking then f (s.advanceTo t) else s
  | none => s

/-- The next event of number `k` among those that fall every `p` ticks from `base`. -/
def periodic (s : State) (k base p : Nat) (f : State → State) : State :=
  s.timed (some (s.dueAt k base p)) fun s => f (s.setFired k s.tick)

end State
end Sys2Proof.Machine
end

