-- ==== Sys2Proof/Machine/CalendarCmds.lean ====
section
/-! DEFINITION. The meanings of the commands of the calendar and the counter checkpoints (17_dates_codes R420-R433). -/

namespace Sys2Proof.Machine
open State

/-- `SECOND_BOUNDARY` (R420, R422): the calendar runs in every state but OFF. -/
def execSecondBoundary (s : State) : Host.Outcome State Fault Refusal :=
  s.finish (if s.pwr.state = .off then s else s.secondBoundary)

/-- `CAL_SET` (R421): day, time and GO in one WRITE. -/
def execCalSet (o : OpCtx) (day time : Word) (s : State) : Host.Outcome State Fault Refusal :=
  s.finish (s.ownerWrites o OpEnv.quiet Reg.CAL_SET_DAY [day, time, 1])

/-- `CHECKPOINT_REQUEST` (R433): every `PERIOD` seconds from `BOOT_DONE`. -/
def execCheckpointRequest (s : State) : Host.Outcome State Fault Refusal :=
  let p := s.fld Reg.CAL_CKPT_CFG 11 0
  s.finish (if s.booted && decide (p ≠ 0) then s.periodic Ev.checkpoint s.boot.doneAt (p * 100000000) State.ckptRequest else s)

end Sys2Proof.Machine
end

