-- ==== Sys2Proof/Machine/CrateCmds.lean ====
section
/-! DEFINITION. The meanings of the commands of crates and jobs (15_borzel_crates R388-R393). -/

namespace Sys2Proof.Machine
open State

/-- `JOB_SELECTION` (R390-R392). -/
def execJobSelection (o : OpCtx) (n : Lane) (crate : BitVec 17) (job : Byte) (env : OpEnv) (s : State) :
    Host.Outcome State Fault Refusal :=
  s.finish (s.ownerWrites o env (Reg.PLC_JOB n) [word (crate.toNat + job.toNat * 2 ^ 24)])

/-- `JOB_DESELECTION` (R282, R393): `JOB` 255. -/
def execJobDeselection (o : OpCtx) (n : Lane) (s : State) : Host.Outcome State Fault Refusal :=
  s.finish (s.ownerWrite o (Reg.PLC_JOB n) 0xFF000000)

/-- `CRATE_VERIFY` (R388): the crate and VGO in one WRITE. -/
def execCrateVerify (o : OpCtx) (crate : BitVec 17) (s : State) : Host.Outcome State Fault Refusal :=
  s.finish (s.ownerWrites o OpEnv.quiet Reg.CMP_CRATE_VADDR [word crate.toNat, 1])

/-- `CRATE_VERIFY_DONE` (R388, R389). -/
def execCrateVerifyDone (answers : Bool) (s : State) : Host.Outcome State Fault Refusal :=
  s.finish (if s.ticking then s.verComplete answers else s)

end Sys2Proof.Machine
end

