-- ==== Sys2Proof/Machine/DriveCmds.lean ====
section
/-! DEFINITION. The meanings of the commands of the drive stage: interpolation, emissions, choppers, over-current and
standstill (12_drive_stage). -/

namespace Sys2Proof.Machine
open State

/-- `INTERPOLATION_TICK` (R318): at each tick after that of the step, while `PEND` is above 0. -/
def execInterpolationTick (x : Axis) (s : State) : Host.Outcome State Fault Refusal :=
  s.finish
    (if (s.axis x).drive.pend = 0 then s
     else s.periodic (Ev.interp x) (s.axis x).drive.tPrev 1 fun s => s.interpTick x)

/-- `MICROSTEP_EMISSION` (R296, R316, R323): `onA` and `onB` are the ticks that each coil spent in a drive state
since the previous full-step end. -/
def execMicrostepEmission (x : Axis) (onA onB : Nat) (s : State) : Host.Outcome State Fault Refusal :=
  s.finish (s.timed (if s.mayEmit x then some (s.emitDue x) else none) fun s => s.emitStep x (onA + onB))

/-- `CHOPPER_TURN_OFF` (R320 steps 1 to 3): after blanking. -/
def execChopperTurnOff (x : Axis) (b : Bool) (sense : BitVec 12) (s : State) : Host.Outcome State Fault Refusal :=
  s.finish (s.timed (some (s.blankEnd x b)) fun s => (s.rescale x).chopOff x b sense.toNat)

/-- `CHOPPER_OFF_END` (R320 steps 4 to 6, R321). -/
def execChopperOffEnd (x : Axis) (b : Bool) (sense : BitVec 12) (s : State) : Host.Outcome State Fault Refusal :=
  s.finish (s.timed (s.offEnd x b sense.toNat) fun s => (s.rescale x).chopOn x b sense.toNat)

/-- A coil's sense reaches `OC_LIMIT` outside blanking (R322). -/
def State.overLimit (s : State) (x : Axis) (sense : BitVec 12) : Bool :=
  isStepper x && decide ((s.axis x).state ≠ .disabled) && !(s.axis x).drive.ocOff &&
    decide (s.fld (Reg.MOT_CHOP_LIMIT x) 11 0 ≤ sense.toNat)

/-- `OVER_CURRENT` (R302, R322). -/
def execOverCurrent (x : Axis) (b : Bool) (sense : BitVec 12) (s : State) : Host.Outcome State Fault Refusal :=
  s.finish (s.timed (if s.overLimit x sense then some (s.blankEnd x b) else none) fun s => s.overCurrent x)

/-- The end of the standstill delay of an axis that may enter standstill (R325). -/
def State.standstillDue (s : State) (x : Axis) : Option Nat :=
  let d := (s.axis x).drive
  if isStepper x && !d.standstill && decide (s.backlog x = 0) && d.rampEnd.isNone &&
      decide ((s.axis x).state ∈ ([.idle, .halt, .gear] : List AxisState)) then
    some (d.ssFrom + s.fld (Reg.MOT_DRV_SS x) 13 0 * 10000)
  else none

/-- `STANDSTILL_DELAY_END` (R325, R326). -/
def execStandstillDelayEnd (x : Axis) (s : State) : Host.Outcome State Fault Refusal :=
  s.finish (s.timed (s.standstillDue x) fun s => s.enterStandstill x)

/-- `RAMP_END` (R327). -/
def execRampEnd (x : Axis) (s : State) : Host.Outcome State Fault Refusal :=
  s.finish (s.timed (s.axis x).drive.rampEnd fun s => s.endRamp x)

end Sys2Proof.Machine
end

