-- ==== Sys2Proof/Machine/FaultCmds.lean ====
section
/-! DEFINITION. The meanings of the commands of the Ladder's watchdog, the fault collector and the envelope windows
(02_determinism R32, R60-R62; 04_fault_collector). -/

namespace Sys2Proof.Machine
open State

/-- `LADDER_WATCHDOG_EXPIRY` (R60, R61, R66): nothing at a port that is isolated already. -/
def execLadderWatchdogExpiry (port : Src) (s : State) : Host.Outcome State Fault Refusal :=
  s.finish (if s.coreOn && !s.isolated port.val then s.wedge port.val else s)

/-- `BLOCK_RESET_COMPLETE` (R61, R113, R516). -/
def execBlockResetComplete (unit : Src) (env : MemEnv) (s : State) : Host.Outcome State Fault Refusal :=
  s.finish (if s.coreOn then s.completeBlock unit.val env else s)

/-- `QUIET_PERIOD_END` (R118). -/
def execQuietPeriodEnd (src : Src) (s : State) : Host.Outcome State Fault Refusal :=
  s.finish (s.timed (s.quietDue src.val) fun s => s.recover src.val)

/-- `ERR_MIN_END` (R120, R121). -/
def execErrMinEnd (s : State) : Host.Outcome State Fault Refusal :=
  s.finish (s.timed s.flt.errMinEnd fun s => s.modFlt fun f => { f with errMinEnd := none })

/-- `TRAP_PULSE_END` (R122). -/
def execTrapPulseEnd (s : State) : Host.Outcome State Fault Refusal :=
  s.finish (s.timed s.flt.trapEnd fun s =>
    (s.modFlt fun f => { f with trapEnd := none }).emit (.pin "TRAP_OUT" (some false)))

/-- `FLT_RELEASE` (R119). -/
def execFltRelease (o : OpCtx) (src : Src) (s : State) : Host.Outcome State Fault Refusal :=
  s.finish (s.ownerWrite o Reg.FLT_RELEASE (word (2 ^ 31 + src.val)))

/-- `ENVELOPE_WINDOW_END` (R32): at every multiple of 100,000 ticks. -/
def execEnvelopeWindowEnd (n : Lane) (s : State) : Host.Outcome State Fault Refusal :=
  s.finish (s.periodic (Ev.envelope n) 0 100000 fun s => s.endEnvelope n)

end Sys2Proof.Machine
end

