-- ==== Sys2Proof/Machine/HatchCmds.lean ====
section
/-! DEFINITION. The meanings of the commands of lanes in service and of leases (21_hatch). -/

namespace Sys2Proof.Machine
open State

/-- A command of `HAT_LANE_CMD_Ln` by its bit (R504). -/
def State.laneCmd (s : State) (o : OpCtx) (n : Lane) (bit : Nat) : State := s.ownerWrite o (Reg.HAT_LANE_CMD n) (word (2 ^ bit))

/-- `LANE_DRAIN` (R504). -/
def execLaneDrain (o : OpCtx) (n : Lane) (s : State) : Host.Outcome State Fault Refusal := s.finish (s.laneCmd o n 0)

/-- `LANE_OPEN` (R505). -/
def execLaneOpen (o : OpCtx) (n : Lane) (s : State) : Host.Outcome State Fault Refusal := s.finish (s.laneCmd o n 1)

/-- `LANE_CLOSE` (R507). -/
def execLaneClose (o : OpCtx) (n : Lane) (s : State) : Host.Outcome State Fault Refusal := s.finish (s.laneCmd o n 2)

/-- `NEW_HEAD` (R509). -/
def execNewHead (o : OpCtx) (n : Lane) (s : State) : Host.Outcome State Fault Refusal := s.finish (s.laneCmd o n 3)

/-- `CLOSE_WAIT_END` (R507). -/
def execCloseWaitEnd (n : Lane) (s : State) : Host.Outcome State Fault Refusal :=
  s.finish (s.timed (s.closeEnd n) fun s => s.closeFail n)

/-- `LEASE_TRANSFER` (R513). -/
def execLeaseTransfer (o : OpCtx) (r : Fin 66) (dst : Byte) (s : State) : Host.Outcome State Fault Refusal :=
  s.finish (s.ownerWrite o (Reg.HAT_LEASE r) (word dst.toNat))

end Sys2Proof.Machine
end

