-- ==== Sys2Proof/Machine/HeadCmds.lean ====
section
/-! DEFINITION. The meanings of the commands of the head ports: power, identity, trims, firings and service firing
(18_head_firing). -/

namespace Sys2Proof.Machine
open State

/-- A write of `EN` of a head port; `PRES_POL` stays (R443, R444). -/
def State.hedEnableTo (s : State) (o : OpCtx) (h : Head) (on : Bool) : State :=
  s.ownerWrite o (Reg.HED_ENABLE h) (s.keeping (Reg.HED_ENABLE h) 0 0 (b2n on))

/-- `HED_ENABLE` (R443). -/
def execHedEnable (o : OpCtx) (h : Head) (s : State) : Host.Outcome State Fault Refusal := s.finish (s.hedEnableTo o h true)

/-- `HED_DISABLE` (R444). -/
def execHedDisable (o : OpCtx) (h : Head) (s : State) : Host.Outcome State Fault Refusal := s.finish (s.hedEnableTo o h false)

/-- `HEAD_PRESENT_CHANGE` (R443, R444, R447). -/
def execHeadPresentChange (h : Head) (level full : Bool) (s : State) : Host.Outcome State Fault Refusal :=
  s.finish (s.pinEvent (22 + h.val) full fun s => s.hedPresent h level)

/-- The timed end of a head port's step, in the state that has it (R443). -/
def State.hedStep (s : State) (h : Head) (st : HedState) (logicOn : Bool) : Option Nat :=
  let x := s.head h
  if x.state = st ∧ x.logicOn = logicOn then x.stepEnd else none

/-- `PRES_SETTLE_END` (R443). -/
def execPresSettleEnd (h : Head) (s : State) : Host.Outcome State Fault Refusal :=
  s.finish (s.timed (s.hedStep h .absent (s.head h).logicOn) fun s => s.hedIdent h)

/-- `IDENT_END` (R445): the lowest of four conversions. -/
def execIdentEnd (h : Head) (c0 c1 c2 c3 : BitVec 12) (s : State) : Host.Outcome State Fault Refusal :=
  s.finish (s.timed (s.hedStep h .ident (s.head h).logicOn) fun s =>
    s.identEnd h (min (min c0.toNat c1.toNat) (min c2.toNat c3.toNat)))

/-- `HED_ID_WRITE` (R443). -/
def execHedIdWrite (o : OpCtx) (h : Head) (id : Word) (s : State) : Host.Outcome State Fault Refusal :=
  s.finish (s.ownerWrite o (Reg.HED_ID h) id)

/-- `T_LOGIC_END` (R443, R456). -/
def execTLogicEnd (h : Head) (env : MemEnv) (s : State) : Host.Outcome State Fault Refusal :=
  s.finish (s.timed (s.hedStep h .power false) fun s => s.logicEnd h env)

/-- `T_HV_END` (R443). -/
def execTHvEnd (h : Head) (s : State) : Host.Outcome State Fault Refusal :=
  s.finish (s.timed (s.hedStep h .power true) fun s => s.hedToReady h)

/-- A command of `HED_CMD_Hn` by its bit (R462). -/
def State.hedCommand (s : State) (o : OpCtx) (h : Head) (bit : Nat) (env : OpEnv) : State :=
  s.ownerWrites o env (Reg.HED_CMD h) [word (2 ^ bit)]

/-- `RESTART` (R443). -/
def execRestart (o : OpCtx) (h : Head) (s : State) : Host.Outcome State Fault Refusal := s.finish (s.hedCommand o h 0 OpEnv.quiet)

/-- `TRIM_LOAD` (R456). -/
def execTrimLoad (o : OpCtx) (h : Head) (env : OpEnv) (s : State) : Host.Outcome State Fault Refusal :=
  s.finish (s.hedCommand o h 1 env)

/-- `SVC` (R461). -/
def execSvc (o : OpCtx) (h : Head) (s : State) : Host.Outcome State Fault Refusal := s.finish (s.hedCommand o h 2 OpEnv.quiet)

/-- `SERVICE_FIRING` (R461). -/
def execServiceFiring (h : Head) (s : State) : Host.Outcome State Fault Refusal :=
  s.finish (s.timed ((s.head h).svc.map fun v => v.2) fun s => s.svcFire h)

/-- `FIRING` (R454-R460): the next firing of the port, at its sample boundary. -/
def execFiring (h : Head) (late : Bool) (refill : List (BitVec 16)) (s : State) : Host.Outcome State Fault Refusal :=
  s.finish (s.timed ((s.head h).firings.head?.map fun q => q.f) fun s => s.fire h late refill)

end Sys2Proof.Machine
end

