-- ==== Sys2Proof/Machine/HealthCmds.lean ====
section
/-! DEFINITION. The meanings of the commands of head health: heaters, drop-gate scans, the health map, keep-wet bursts and fire
counts (19_head_health). -/

namespace Sys2Proof.Machine
open State

/-- `HEATER_ENABLE` (R464): `HEAT_EN` takes a value, the other fields stay. -/
def execHeaterEnable (o : OpCtx) (h : Head) (on : Bool) (s : State) : Host.Outcome State Fault Refusal :=
  s.finish (s.ownerWrite o (Reg.HLT_CTRL h) (s.keeping (Reg.HLT_CTRL h) 0 0 (b2n on)))

/-- An event of a head that falls every `p` ticks from `BOOT_DONE`; none while `p` is 0. -/
def State.fromBoot (s : State) (k p : Nat) (f : State → State) : State :=
  if s.booted && decide (p ≠ 0) then s.periodic k s.boot.doneAt p f else s

/-- `HEATER_LOOP_PERIOD` (R465-R473). -/
def execHeaterLoopPeriod (h : Head) (code : BitVec 12) (s : State) : Host.Outcome State Fault Refusal :=
  s.finish (s.fromBoot (Ev.heaterLoop h) (s.fld (Reg.HLT_LOOP h) 9 0 * 100000) fun s => s.loopPeriod h code.toNat)

/-- `HEATER_PWM_PERIOD` (R466). -/
def execHeaterPwmPeriod (h : Head) (s : State) : Host.Outcome State Fault Refusal :=
  s.finish (s.fromBoot (Ev.heaterPwm h) (s.fld (Reg.HLT_PWM h) 19 0) fun s => s.pwmPeriod h)

/-- `FREEZE_WINDOW_END` (R468). -/
def execFreezeWindowEnd (h : Head) (s : State) : Host.Outcome State Fault Refusal :=
  s.finish (s.timed (s.freezeDue h) fun s => s.freezeEnd h)

/-- `HOLD_T_EXPIRY` (R469). -/
def execHoldTExpiry (h : Head) (s : State) : Host.Outcome State Fault Refusal :=
  s.finish (s.timed (s.holdDue h) fun s => s.heaterOff h)

/-- `WARM_MAX_EXPIRY` (R470). -/
def execWarmMaxExpiry (h : Head) (s : State) : Host.Outcome State Fault Refusal :=
  s.finish (s.timed (s.warmDue h) fun s => s.heaterOff h)

/-- A command of `HLT_CMD_Hn` by its bit (R487). -/
def State.hltCommand (s : State) (o : OpCtx) (h : Head) (bit : Nat) (env : OpEnv) : State :=
  s.ownerWrites o env (Reg.HLT_CMD h) [word (2 ^ bit)]

/-- `HEAT_RESTART` (R464). -/
def execHeatRestart (o : OpCtx) (h : Head) (s : State) : Host.Outcome State Fault Refusal := s.finish (s.hltCommand o h 0 OpEnv.quiet)

/-- `SCAN` (R474, R475). -/
def execScan (o : OpCtx) (h : Head) (env : OpEnv) (s : State) : Host.Outcome State Fault Refusal := s.finish (s.hltCommand o h 1 env)

/-- `MAP_LOAD` (R481). -/
def execMapLoad (o : OpCtx) (h : Head) (s : State) : Host.Outcome State Fault Refusal := s.finish (s.hltCommand o h 2 OpEnv.quiet)

/-- `MAP_SAVE` (R481). -/
def execMapSave (o : OpCtx) (h : Head) (s : State) : Host.Outcome State Fault Refusal := s.finish (s.hltCommand o h 3 OpEnv.quiet)

/-- The next shot of a scan that has one left (R475). -/
def State.shotDue (s : State) (h : Head) : Option Nat :=
  match (s.health h).scan with
  | some c => if c.todo.isEmpty then none else some c.nextAt
  | none => none

/-- `DROP_GATE_SHOT` (R475). -/
def execDropGateShot (h : Head) (s : State) : Host.Outcome State Fault Refusal :=
  s.finish (s.timed (s.shotDue h) fun s => s.shoot h)

/-- `GATE_COMPARATOR_FALL` (R475). -/
def execGateComparatorFall (h : Head) (full : Bool) (s : State) : Host.Outcome State Fault Refusal :=
  s.finish (s.pinEvent (26 + h.val) full fun s => s.gateFall h)

/-- `SCAN_END` (R476). -/
def execScanEnd (h : Head) (s : State) : Host.Outcome State Fault Refusal :=
  s.finish (s.timed ((s.health h).scan.bind fun c => c.endAt) fun s => s.scanEnd h)

/-- `NOZZLE_ENTRY_WRITE` (R480): the selection and the entry in one WRITE. -/
def execNozzleEntryWrite (o : OpCtx) (h : Head) (sel : BitVec 10) (entry : Word) (s : State) : Host.Outcome State Fault Refusal :=
  s.finish (s.ownerWrites o OpEnv.quiet (Reg.HLT_NOZ_SEL h) [word sel.toNat, entry])

/-- `KEEP_WET_WAIT_END` (R482). -/
def execKeepWetWaitEnd (h : Head) (s : State) : Host.Outcome State Fault Refusal :=
  s.finish (s.timed (s.spitDue h) fun s => s.spitWaitEnd h)

/-- `KEEP_WET_FIRING` (R483). -/
def execKeepWetFiring (h : Head) (s : State) : Host.Outcome State Fault Refusal :=
  s.finish (s.timed ((s.health h).burst.map fun b => b.nextAt) fun s => s.spitFire h)

/-- `FIRE_COUNT_SAVE` (R485): every `FC_PERIOD` seconds from `BOOT_DONE`. -/
def execFireCountSave (h : Head) (s : State) : Host.Outcome State Fault Refusal :=
  s.finish (s.fromBoot (Ev.fireSave h) (s.fld Reg.HLT_FC_CFG 11 0 * 100000000) fun s => s.saveFires h)

end Sys2Proof.Machine
end

