-- ==== Sys2Proof/Machine/HoistCmds.lean ====
section
/-! DEFINITION. The meanings of the commands of the Hoist: owner commands, shafts and requests, the instructions of a program,
completions, errors and Shelves (13_hoist_transfers; 14_hoist_programs). An instruction acts only where its channel runs and
stands at that instruction. -/

namespace Sys2Proof.Machine
open State

/-- A command of `HST_CMD_HCc` by its bit (R334). -/
def State.hstCommand (s : State) (o : OpCtx) (c : Chan) (bit : Nat) : State := s.ownerWrite o (Reg.HST_CMD c) (word (2 ^ bit))

/-- `HST_ENABLE` (R334). -/
def execHstEnable (o : OpCtx) (c : Chan) (s : State) : Host.Outcome State Fault Refusal := s.finish (s.hstCommand o c 0)

/-- `HST_DISABLE` (R334, R352). -/
def execHstDisable (o : OpCtx) (c : Chan) (s : State) : Host.Outcome State Fault Refusal := s.finish (s.hstCommand o c 1)

/-- `HST_START` (R337). -/
def execHstStart (o : OpCtx) (c : Chan) (s : State) : Host.Outcome State Fault Refusal := s.finish (s.hstCommand o c 2)

/-- `HST_ABORT` (R353). -/
def execHstAbort (o : OpCtx) (c : Chan) (s : State) : Host.Outcome State Fault Refusal := s.finish (s.hstCommand o c 3)

/-- `HST_ABORT_END` (R353). -/
def execHstAbortEnd (c : Chan) (s : State) : Host.Outcome State Fault Refusal :=
  s.finish (if s.ticking then s.abortEnd c else s)

/-- `HST_RESUME` (R351). -/
def execHstResume (o : OpCtx) (c : Chan) (s : State) : Host.Outcome State Fault Refusal := s.finish (s.hstCommand o c 4)

/-- The Hoist runs: it is not in block reset. -/
def State.hoistRuns (s : State) : Bool := s.ticking && !s.unitInReset 11

/-- `SHAFT_DISPATCH` (R339). -/
def execShaftDispatch (f : Shaft) (s : State) : Host.Outcome State Fault Refusal :=
  s.finish (if s.hoistRuns then s.dispatchShaft f else s)

/-- Requests that wait on a line, on the channel with the most of them (R340). -/
def State.lineWaits (s : State) (line : Nat) : Nat :=
  allChans.foldl (fun (m : Nat) (c : Chan) => if s.chReqLine c = line then max m (s.reqPend c) else m) 0

/-- The head port that raises requests on a line starts the channels of the line that it leases and that do not run, after
it has enabled those that are DISABLED (R335, R336, R460, R516). -/
def State.startStream (s : State) (line : Fin 8) : State :=
  let h : Head := ⟨line.val % 4, by omega⟩
  allChans.foldl (fun (s : State) (c : Chan) =>
    if s.chReqLine c = line.val + 1 ∧ s.holds (holdHed h) (resChan c) = true then
      let s := s.enableChan c
      if (s.chan c).state = .idle then s.startChan c .unit else s
    else s) s

/-- `HST_REQUEST` (R340, R460, R461): a head port's buffer that has room raises a request. -/
def execHstRequest (line : Fin 8) (s : State) : Host.Outcome State Fault Refusal :=
  let k := line.val + 1
  s.finish (if s.hoistRuns && s.lineRoom k (s.lineWaits k) then (s.startStream line).requestLine k else s)

/-- An instruction of a program, by its opcode (R356, R364). -/
def State.instruction (s : State) (c : Chan) (op : Nat) (env : MemEnv) : State := if s.hoistRuns then s.runInstr c op env else s

/-- `MOVE` (R341-R345, R357). -/
def execMove (c : Chan) (env : MemEnv) (s : State) : Host.Outcome State Fault Refusal := s.finish (s.instruction c 1 env)

/-- `MOVE2D` (R341-R347, R357). -/
def execMove2d (c : Chan) (env : MemEnv) (s : State) : Host.Outcome State Fault Refusal := s.finish (s.instruction c 2 env)

/-- `GATHER` (R348, R357). -/
def execGather (c : Chan) (env : MemEnv) (s : State) : Host.Outcome State Fault Refusal := s.finish (s.instruction c 3 env)

/-- `SCATTER` (R348, R357). -/
def execScatter (c : Chan) (env : MemEnv) (s : State) : Host.Outcome State Fault Refusal := s.finish (s.instruction c 4 env)

/-- `LOOP` (R359). -/
def execLoop (c : Chan) (env : MemEnv) (s : State) : Host.Outcome State Fault Refusal := s.finish (s.instruction c 5 env)

/-- `WAIT` (R360). -/
def execWait (c : Chan) (env : MemEnv) (s : State) : Host.Outcome State Fault Refusal := s.finish (s.instruction c 6 env)

/-- `WAIT_MEMORY_POLL` (R360). -/
def execWaitMemoryPoll (c : Chan) (env : MemEnv) (s : State) : Host.Outcome State Fault Refusal :=
  s.finish (if s.hoistRuns then s.pollMem c env else s)

/-- `WAIT_DELAY_END` (R360). -/
def execWaitDelayEnd (c : Chan) (s : State) : Host.Outcome State Fault Refusal :=
  s.finish (if s.hoistRuns then s.delayEnd c else s)

/-- `SIGNAL` (R361, R365). -/
def execSignal (c : Chan) (env : MemEnv) (s : State) : Host.Outcome State Fault Refusal := s.finish (s.instruction c 7 env)

/-- `SET` (R362). -/
def execSet (c : Chan) (env : MemEnv) (s : State) : Host.Outcome State Fault Refusal := s.finish (s.instruction c 8 env)

/-- `END` (R349, R363). -/
def execEnd (c : Chan) (env : MemEnv) (s : State) : Host.Outcome State Fault Refusal := s.finish (s.instruction c 15 env)

/-- `HST_COMPLETION` (R338): a free commit. -/
def execHstCompletion (c : Chan) (s : State) : Host.Outcome State Fault Refusal :=
  s.finish (if s.hoistRuns then s.commitRun c else s)

/-- `HST_DUE_KEY` (R338): of a paced run. -/
def execHstDueKey (c : Chan) (s : State) : Host.Outcome State Fault Refusal :=
  s.finish (if s.hoistRuns then s.atDueKey c else s)

/-- `HST_BUS_ERROR` (R350): the read of element `k` receives an error response. -/
def execHstBusError (c : Chan) (k : Nat) (s : State) : Host.Outcome State Fault Refusal :=
  s.finish (if s.hoistRuns then s.busErrorAt c k else s)

/-- `POSTED_WRITE_ERROR` (R349). -/
def execPostedWriteError (c : Chan) (addr : Word) (s : State) : Host.Outcome State Fault Refusal :=
  s.finish (if s.hoistRuns then s.postedError c addr else s)

/-- `SHELF_DESCRIPTOR` (R370-R374). -/
def execShelfDescriptor (c : Chan) (env : MemEnv) (s : State) : Host.Outcome State Fault Refusal :=
  s.finish (if s.hoistRuns then s.runShelf c env else s)

/-- `SHELF_KICK` (R371). -/
def execShelfKick (o : OpCtx) (c : Chan) (env : OpEnv) (s : State) : Host.Outcome State Fault Refusal :=
  s.finish (s.ownerWrites o env (Reg.HST_SHELF_STAT c) [0x80000000])

/-- `SHELF_POLL` (R371). -/
def execShelfPoll (c : Chan) (env : MemEnv) (s : State) : Host.Outcome State Fault Refusal :=
  s.finish (if s.hoistRuns then s.shelfPoll c env else s)

end Sys2Proof.Machine
end

