-- ==== Sys2Proof/Machine/LinkCmds.lean ====
section
/-! DEFINITION. The meanings of the commands of the link: frames, the ports, and Waislink messages (07_link_waislink). -/

namespace Sys2Proof.Machine
open State

/-- `FRAME_RECEIVED` (R178, R180-R188): a good frame on port A or B. -/
def execFrameReceived (p : Fin 2) (bytes : List Byte) (rxFull egressFull : Bool) (env : OpEnv) (s : State) :
    Host.Outcome State Fault Refusal := s.finish (s.frameArrives p bytes rxFull egressFull env)

/-- `ADDRESS_AGEING` (R180): the address refreshed least recently, 300 s after its latest frame. -/
def execAddressAgeing (s : State) : Host.Outcome State Fault Refusal := s.finish (s.timed s.ageDue State.ageOut)

/-- The link of a port goes down (R179, R182); in SLEEP it does so without a message. -/
def State.linkLost (s : State) (p : Fin 2) : State :=
  if s.lnk.ports[p].up then
    let t := s.dropLink p.val
    if s.linkRuns p then t.raise (Kind.linkDown p.val) 0 else t
  else s

/-- `LINK_DOWN_EVENT` (R182). -/
def execLinkDownEvent (p : Fin 2) (s : State) : Host.Outcome State Fault Refusal := s.finish (s.linkLost p)

/-- `LINK_RESTART` (R179): a write of the port's configuration. -/
def execLinkRestart (o : OpCtx) (p : Fin 2) (cfg : Word) (s : State) : Host.Outcome State Fault Refusal :=
  s.finish (s.ownerWrite o (if p.val = 0 then Reg.LNK_PORTA_CFG else Reg.LNK_PORTB_CFG) cfg)

/-- The mode that a link takes: `AMP` alone, or where it offers both, what the other end allows (R179). -/
def State.linkMode (s : State) (p : Fin 2) (amp24 : Bool) : Bool :=
  let amp := s.fld (if p.val = 0 then Reg.LNK_PORTA_CFG else Reg.LNK_PORTB_CFG) 2 1
  decide (amp = 2) || (decide (amp = 3) && amp24)

/-- `LINK_UP` (R179). -/
def execLinkUp (p : Fin 2) (amp24 : Bool) (s : State) : Host.Outcome State Fault Refusal :=
  s.finish
    (if s.linkRuns p then s.modLnk fun l => { l with ports := l.ports.set p ⟨true, s.linkMode p amp24⟩ } else s)

/-- `ARP_REQUEST` (R186). -/
def execArpRequest (p : Fin 2) (bytes : List Byte) (s : State) : Host.Outcome State Fault Refusal :=
  s.finish (s.arpArrives p bytes)

/-- `ICMP_ECHO_REQUEST` (R186). -/
def execIcmpEchoRequest (p : Fin 2) (bytes : List Byte) (s : State) : Host.Outcome State Fault Refusal :=
  s.finish (s.echoArrives p bytes)

/-- A message of a peer is admitted: from the local port only while that answers (R113, R222). -/
def State.peerRuns (s : State) (p : Peer) : Bool := if p = .lp then s.lpOn && !s.unitInReset 9 else true

/-- `WAISLINK_REQUEST` (R190, R199-R205). -/
def execWaislinkRequest (peer : Peer) (route : Route) (bytes : List Byte) (env : OpEnv) (s : State) :
    Host.Outcome State Fault Refusal := s.finish (if s.peerRuns peer then s.handle peer route bytes env else s)

/-- `HOST_KEEPALIVE` (R189, R212): a message of type 5. -/
def execHostKeepalive (peer : Peer) (route : Route) (bytes : List Byte) (s : State) : Host.Outcome State Fault Refusal :=
  s.finish (if s.peerRuns peer && decide (u8 bytes 1 = 5) then s.handle peer route bytes OpEnv.quiet else s)

/-- `LOCAL_PORT_TRANSACTION` (R216-R223). -/
def execLocalPortTransaction (mosi : List Byte) (env : OpEnv) (s : State) : Host.Outcome State Fault Refusal :=
  s.finish (s.localPort mosi env)

/-- `LP_EN_CLEAR` (R222): `LP_EN` is cleared, the other fields stay. -/
def execLpEnClear (o : OpCtx) (s : State) : Host.Outcome State Fault Refusal :=
  s.finish (s.ownerWrite o Reg.SES_CTRL (s.keeping Reg.SES_CTRL 16 16 0))

end Sys2Proof.Machine
end

