-- ==== Sys2Proof/Machine/MemoryCmds.lean ====
section
/-! DEFINITION. The meanings of the commands of the memories (03_address_space): scrubbing, Cellar programming, staged writes
of the Loft. -/

namespace Sys2Proof.Machine
open State

/-- `SCRUB_READ` (R81): every 2,500 ticks, and in SLEEP at each SLOW32K tick. -/
def execScrubRead (env : MemEnv) (s : State) : Host.Outcome State Fault Refusal :=
  s.finish
    (if s.ticking then s.periodic Ev.scrub 0 2500 fun s => s.scrub env
     else if s.coreOn then s.scrub env else s)

/-! ### Cellar programming -/

/-- A running Hoist channel writes registers in order, and halts as on a bus error at one that receives an error response
(R89, R90). -/
def State.celWrites (c : Chan) : List (Nat × Word) → State → State
  | [], s => s
  | (a, v) :: rest, s =>
    match s.hoistReg a v with
    | some t => celWrites c rest t
    | none => s.haltWord c 3 a true false (.ok 0)

/-- `MEM_CEL_PCTRL` of an operation (R101). -/
def celCtrl (op len : Nat) (verify noData : Bool) (opcode : Byte) : Word :=
  word (op + len % 256 * 2 ^ 8 + b2n verify * 2 ^ 16 + b2n noData * 2 ^ 17 + opcode.toNat * 2 ^ 24)

/-- The words of `MEM_CEL_PBUF` for some bytes. -/
def celBufWrites (data : List Byte) : List (Nat × Word) :=
  (List.range ((data.length + 3) / 4)).map fun (k : Nat) => (Reg.MEM_CEL_PBUF k, word (leBytes ((data.drop (4 * k)).take 4)))

/-- A Hoist channel starts a Cellar operation: nothing where the channel does not run (R89). -/
def State.celOp (s : State) (c : Chan) (paddr ctrl : Word) (data : List Byte) : State :=
  if s.mayExecute c then
    celWrites c ([(Reg.MEM_CEL_PADDR, paddr), (Reg.MEM_CEL_PCTRL, ctrl)] ++ celBufWrites data ++ [(Reg.MEM_CEL_PGO, 1)]) s
  else s

/-- `CEL_PROGRAM` (R89, R90): 1 to 256 bytes. -/
def execCelProgram (c : Chan) (paddr : Word) (data : List Byte) (verify : Bool) (s : State) : Host.Outcome State Fault Refusal :=
  s.finish (s.celOp c paddr (celCtrl 1 (data.length - 1) verify false 0) (data.take 256))

/-- `CEL_ERASE_4K` (R89, R90). -/
def execCelErase4k (c : Chan) (paddr : Word) (verify : Bool) (s : State) : Host.Outcome State Fault Refusal :=
  s.finish (s.celOp c paddr (celCtrl 2 0 verify false 0) [])

/-- `CEL_ERASE_64K` (R89, R90). -/
def execCelErase64k (c : Chan) (paddr : Word) (verify : Bool) (s : State) : Host.Outcome State Fault Refusal :=
  s.finish (s.celOp c paddr (celCtrl 3 0 verify false 0) [])

/-- `CEL_COMMAND` (R89, R90): a raw opcode with up to 4 bytes, or none. -/
def execCelCommand (c : Chan) (opcode : Byte) (data : List Byte) (s : State) : Host.Outcome State Fault Refusal :=
  s.finish (s.celOp c 0 (celCtrl 4 (data.length - 1) false data.isEmpty opcode) (data.take 4))

/-- `CEL_STATUS_POLL` (R90 step 3). -/
def execCelStatusPoll (status : Byte) (s : State) : Host.Outcome State Fault Refusal :=
  s.finish (s.timed (s.mem.celRun.map (·.pollAt)) fun s => s.celPoll status)

/-- `CEL_POLL_TIMEOUT` (R90). -/
def execCelPollTimeout (s : State) : Host.Outcome State Fault Refusal :=
  s.finish (s.timed (s.mem.celRun.map (·.timeoutAt)) fun s => s.celTimeout)

/-! ### Staged writes -/

/-- `STAGED_WRITE` (R93): source, destination, length and GO in one WRITE. -/
def execStagedWrite (o : OpCtx) (src dst len : Word) (env : OpEnv) (s : State) : Host.Outcome State Fault Refusal :=
  s.finish (s.ownerWrites o env Reg.MEM_LFT_SSRC [src, dst, len, 1])

/-- The response to a claim-key installation, at its map switch (R239). -/
def State.answerKey (s : State) (i : Sess) (seq : BitVec 16) (tag : BitVec 6) (owed : Bool) (c : Code) : State :=
  if owed then s.respond i ⟨0x0E, BitVec.ofNat 8 tag.toNat, c, seq, if c = .ok then s.order else 0, []⟩ else s

/-- A verification entry is valid and was made with the key of slot `k` (R389). -/
def State.signedWith (s : State) (e k : Nat) : Bool :=
  s.verValid e && s.rbit (Reg.CMP_CRATE_VER e) 25 && decide (s.fld (Reg.CMP_CRATE_VER e) 22 20 = k)

/-- A crate's header names the key of slot `k` (R381). -/
def State.crateSigned (s : State) (crate k : Nat) : Bool :=
  match readHeader (s.crateSrc crate true) with
  | .ok h => h.signed && decide (h.sigSlot = k)
  | .error _ => false

/-- Verification entries whose signature used the key of slot `k` are invalidated, and a verification that runs sees the
change (R389). -/
def State.keyChanged (s : State) (k : Nat) : State :=
  let s := (List.range 8).foldl (fun (s : State) (e : Nat) => if s.signedWith e k then s.verDrop e else s) s
  match s.crates.run with
  | none => s
  | some v => if s.crateSigned v.crate k then { s with crates := { s.crates with run := some { v with changed := true } } } else s

/-- What the switch of a staged write gives its requester (R94, R101, R239, R433, R481, R485). -/
def State.switched (s : State) (w : Staged) : State :=
  match w.who with
  | .owner => (s.lftResult 2).commit
  | .key i q t k owed => ((s.keyChanged k).classKeys.commit).answerKey i q t owed .ok
  | .map _ => s.commit
  | .fires _ => s.commit
  | .ckpt false => (s.ckptSwitched w).commit
  | .ckpt true => (s.ckptSwitched w).goDark 1

/-- What the failure of a staged write gives its requester (R94, R433). The manual gives no code for a key installation that
fails at the Loft: `MEM_ERROR` is the model's (DESIGN CHOICE). -/
def State.unswitched (s : State) (w : Staged) : State :=
  match w.who with
  | .owner => (s.lftResult 6).lftFail w
  | .key i q t _ owed => (s.lftFail w).answerKey i q t owed .memError
  | _ => s.lftFail w

/-- `LOFT_MAP_SWITCH` (R94): the oldest staged write switches, or fails. While the core is held in reset its bytes alone
switch (R164 step 3). -/
def execLoftMapSwitch (ok : Bool) (s : State) : Host.Outcome State Fault Refusal :=
  s.finish
    (match s.mem.staged with
     | [] => s
     | w :: _ =>
       if s.coreOn then (if ok then (s.lftSwitch w).switched w else s.unswitched w)
       else if ok then s.modMem fun m => { m.setLoftBytes w.offset w.data with staged := m.staged.drop 1, wear := m.wear + w.data.length / 64 }
       else s.modMem fun m => { m with staged := m.staged.drop 1 })

end Sys2Proof.Machine
end

