-- ==== Sys2Proof/Machine/MotionCmds.lean ====
section
/-! DEFINITION. The meanings of the commands of the axes: owner commands, profiles, gearing, the feedback monitors and the axis
bus (11_motion_profiles). -/

namespace Sys2Proof.Machine
open State

/-- A command of `MOT_CMD_Xn` by its bit (R293). -/
def State.motCommand (s : State) (o : OpCtx) (x : Axis) (bit : Nat) : State := s.ownerWrite o (Reg.MOT_CMD x) (word (2 ^ bit))

/-- `MOT_ENABLE` (R293). -/
def execMotEnable (o : OpCtx) (x : Axis) (s : State) : Host.Outcome State Fault Refusal := s.finish (s.motCommand o x 0)

/-- `MOT_DISABLE` (R293, R302). -/
def execMotDisable (o : OpCtx) (x : Axis) (s : State) : Host.Outcome State Fault Refusal := s.finish (s.motCommand o x 1)

/-- `MOT_MOVE` (R294, R295, R304). -/
def execMotMove (o : OpCtx) (x : Axis) (s : State) : Host.Outcome State Fault Refusal := s.finish (s.motCommand o x 2)

/-- `MOT_HOME` (R304, R305). -/
def execMotHome (o : OpCtx) (x : Axis) (s : State) : Host.Outcome State Fault Refusal := s.finish (s.motCommand o x 3)

/-- `MOT_ENGAGE` (R297, R298, R317). -/
def execMotEngage (o : OpCtx) (x : Axis) (s : State) : Host.Outcome State Fault Refusal := s.finish (s.motCommand o x 4)

/-- `MOT_DECEL` (R295, R298, R305). -/
def execMotDecel (o : OpCtx) (x : Axis) (s : State) : Host.Outcome State Fault Refusal := s.finish (s.motCommand o x 5)

/-- `MOT_STOP` (R302). -/
def execMotStop (o : OpCtx) (x : Axis) (s : State) : Host.Outcome State Fault Refusal := s.finish (s.motCommand o x 6)

/-- `MOT_CLEAR` (R293, R322). -/
def execMotClear (o : OpCtx) (x : Axis) (s : State) : Host.Outcome State Fault Refusal := s.finish (s.motCommand o x 7)

/-- `PROFILE_TICK` (R295). -/
def execProfileTick (x : Axis) (s : State) : Host.Outcome State Fault Refusal :=
  s.finish (s.timed (s.profileDue x) fun s => (s.setFired (Ev.profile x) s.tick).profileTick x)

/-- `MOVE_DONE` (R295, R305): the remaining distance is 0. -/
def execMoveDone (x : Axis) (s : State) : Host.Outcome State Fault Refusal :=
  s.finish (if s.ticking && s.moveOver x then s.arrive x else s)

/-- `CAM_POINT` (R298, R299, R301). -/
def execCamPoint (x : Axis) (s : State) : Host.Outcome State Fault Refusal :=
  s.finish (if s.ticking then s.camPoint x else s)

/-- The end of the feedback freeze window (R307). -/
def State.fbWinDue (s : State) (x : Axis) : Option Nat :=
  let n := s.fld (Reg.MOT_FREEZE x) 29 16
  if n = 0 then none else (s.axis x).fbWin.map fun w => w.1 + n * 10000

/-- The end of the frozen-master window (R308). -/
def State.mWinDue (s : State) (x : Axis) : Option Nat :=
  let n := s.fld (Reg.MOT_FREEZE x) 13 0
  if n = 0 then none else (s.axis x).mWin.map fun w => w.1 + n * 10000

/-- `FB_FREEZE_WINDOW_END` (R307). -/
def execFbFreezeWindowEnd (x : Axis) (s : State) : Host.Outcome State Fault Refusal :=
  s.finish (s.timed (s.fbWinDue x) fun s => s.endFbWin x)

/-- `M_FREEZE_WINDOW_END` (R308). -/
def execMFreezeWindowEnd (x : Axis) (s : State) : Host.Outcome State Fault Refusal :=
  s.finish (s.timed (s.mWinDue x) fun s => s.endMWin x)

/-- `SERVO_PERIOD_BOUNDARY` (R310, R311). -/
def execServoPeriodBoundary (s : State) : Host.Outcome State Fault Refusal :=
  s.finish (s.timed s.axbDue State.axbBoundary)

/-- `UPLINK_EVALUATION` (R306, R312). -/
def execUplinkEvaluation (up4 up5 : List Byte) (s : State) : Host.Outcome State Fault Refusal :=
  s.finish (s.timed s.mot.axb.evalAt fun s => s.axbEvaluate up4 up5)

/-- `FEEDBACK_COUNT` (R289, R306). -/
def execFeedbackCount (i : Fin 2) (a b : Bool) (s : State) : Host.Outcome State Fault Refusal :=
  s.finish (s.pinCount fun s => s.fbChange i a b)

/-- `FB_Z_EDGE` (R305). -/
def execFbZEdge (i : Fin 2) (level full : Bool) (s : State) : Host.Outcome State Fault Refusal :=
  s.finish (s.pinEvent (10 + i.val) full fun s => s.fbZ i level)

/-- `DRIVE_FAULT_IN` (R309): of a servo axis, whose fault input becomes active. -/
def execDriveFaultIn (x : Axis) (full : Bool) (s : State) : Host.Outcome State Fault Refusal :=
  s.finish
    (if isStepper x || (s.axis x).faultNow then s
     else s.pinEvent (12 + x.val) full fun s => s.driveFault x)

/-- `DRIVE_FAULT_RELEASE` (R293, R309). -/
def execDriveFaultRelease (x : Axis) (s : State) : Host.Outcome State Fault Refusal :=
  s.finish
    (if isStepper x then s else s.pinCount fun s => s.modAxis x fun a => { a with faultNow := false })

end Sys2Proof.Machine
end

