-- ==== Sys2Proof/Machine/PlacementCmds.lean ====
section
/-! DEFINITION. The meanings of the commands of placement: encoders, coarse steps, photo-eyes, latches, emissions and stalls
(10_placement; 18_head_firing R449-R454). -/

namespace Sys2Proof.Machine
open State

/-- `ENCODER_COUNT` (R264-R268, R299). -/
def execEncoderCount (e : Enc) (a b : Bool) (s : State) : Host.Outcome State Fault Refusal :=
  s.finish (s.pinCount fun s => s.encChange e a b)

/-- `ENC_Z_EDGE` (R266, R305). -/
def execEncZEdge (e : Enc) (level full : Bool) (s : State) : Host.Outcome State Fault Refusal :=
  s.finish (s.pinEvent (2 + 3 * e.val) full fun s => s.encZ e level)

/-- `ENC_LOS_CHANGE` (R269, R308). -/
def execEncLosChange (e : Enc) (level full : Bool) (s : State) : Host.Outcome State Fault Refusal :=
  s.finish (s.pinEvent (3 * e.val) full fun s => s.encLos e level)

/-- `COARSE_STEP` (R270, R318). -/
def execCoarseStep (c : Fin 2) (step dir : Bool) (s : State) : Host.Outcome State Fault Refusal :=
  s.finish (s.pinCount fun s => s.coarseStep c step dir)

/-- `PHOTO_EYE_EDGE` (R271-R276). -/
def execPhotoEyeEdge (p : Fin 4) (level full : Bool) (s : State) : Host.Outcome State Fault Refusal :=
  s.finish (s.pinEvent (18 + p.val) full fun s => s.photoEye p level)

/-- `INHIBIT_CHANGE` (R495). -/
def execInhibitChange (level full : Bool) (s : State) : Host.Outcome State Fault Refusal :=
  s.finish (s.pinEvent 30 full fun s => s.inhibitChange level)

/-- `STALL_WINDOW_END` (R284). -/
def execStallWindowEnd (n : Lane) (s : State) : Host.Outcome State Fault Refusal :=
  s.finish (s.timed (s.stallDue n) fun s => s.stallEnd n)

/-- `LATCH` (R273, R278). -/
def execLatch (n : Lane) (env : MemEnv) (s : State) : Host.Outcome State Fault Refusal :=
  s.finish (if s.ticking then s.latch n env else s)

/-- `COLUMN_EMISSION` (R414, R452). -/
def execColumnEmission (n : Lane) (done link : Bool) (env : MemEnv) (s : State) : Host.Outcome State Fault Refusal :=
  s.finish (if s.ticking then s.columnDue n done link env else s)

/-- The counter of discarded pulses of a rank 1 input, for the inputs that have one (R254, R267, R270, R495). -/
def State.discardCounter (s : State) (i : Nat) : Option Nat :=
  if i ≤ 2 then some (Reg.PLC_ENC_FILT 0)
  else if i ≤ 5 then some (Reg.PLC_ENC_FILT 1)
  else if i ≤ 7 then some (Reg.PLC_CSTEP_FILT (i - 6))
  else if 12 ≤ i ∧ i ≤ 15 ∧ s.rbit (Reg.TMR_TCLK_CFG (i - 12)) 0 = true then some (Reg.TMR_TCLK_FILT (i - 12))
  else if i = 30 then some Reg.REJ_INH_FILT
  else none

/-- `DISCARDED_PULSE` (R267): it counts where the input has a counter, and has no other effect. -/
def execDiscardedPulse (input : Fin 32) (s : State) : Host.Outcome State Fault Refusal :=
  s.finish (s.pinCount fun s => match s.discardCounter input.val with | some a => s.bump a | none => s)

end Sys2Proof.Machine
end

