-- ==== Sys2Proof/Machine/PowerCmds.lean ====
section
/-! DEFINITION. The meanings of the commands of power, reset and bring-up (05_pantry; 06_reset_straps_absence). -/

namespace Sys2Proof.Machine
open State

/-- `VAON_RELEASE` (R152, R166 step 1). -/
def execVaonRelease (conv : List (List Nat)) (s : State) : Host.Outcome State Fault Refusal :=
  s.finish (if s.pwr.state = .off then (s.sampleStraps conv).goPwr .classify else s)

/-- `SCCP_CLASS_READ` (R129, R130): a class read that completes before power is applied. -/
def execSccpClassRead (s : State) : Host.Outcome State Fault Refusal :=
  s.finish (if s.pwr.pgood then s else s.modPwr fun p => { p with classRead := true })

/-- `PGOOD_HIGH` (R140, R152). -/
def execPgoodHigh (conv : List (List Nat)) (s : State) : Host.Outcome State Fault Refusal := s.finish (s.pgoodHigh conv)

/-- The Pantry's sample: in time while TB100 runs, every 4 SLOW32K ticks in SLEEP (R131). -/
def State.sampleTime (s : State) : State :=
  if s.ticking then s.periodic Ev.sample 0 10000 id
  else if s.pwr.state = .sleep then s.modPwr fun p => { p with slowTicks := p.slowTicks + 4 }
  else s

/-- `PANTRY_SAMPLE` (R131-R146). -/
def execPantrySample (v i b : BitVec 12) (pgood : Bool) (s : State) : Host.Outcome State Fault Refusal :=
  s.finish
    (if s.pwr.state = .off then s
     else
       let (t, dark) := s.sampleTime.sample v i b pgood
       if dark then t.goDark 1 else t)

/-- `FINAL_CHECKPOINT_TIMEOUT` (R144). -/
def execFinalCheckpointTimeout (s : State) : Host.Outcome State Fault Refusal :=
  s.finish (s.timed s.pwr.finalCkpt fun s => s.goDark 1)

/-- `PARKING_START` (R143). -/
def execParkingStart (s : State) : Host.Outcome State Fault Refusal := s.finish s.park

/-- `RAIL_OUT` (R149). -/
def execRailOut (rail : Fin 3) (s : State) : Host.Outcome State Fault Refusal := s.finish (s.railOut rail.val)

/-- `RAIL_BRINGUP_TIMEOUT` (R149). -/
def execRailBringupTimeout (s : State) : Host.Outcome State Fault Refusal := s.finish s.railFail

/-- `RAIL_RETRY` (R149). -/
def execRailRetry (s : State) : Host.Outcome State Fault Refusal := s.finish s.railRetry

/-- `TB100_LOCK` (R166 step 5). -/
def execTb100Lock (lv : Levels) (s : State) : Host.Outcome State Fault Refusal := s.finish (s.tb100Lock lv)

/-- `TB100_LOCK_TIMEOUT` (R166). -/
def execTb100LockTimeout (s : State) : Host.Outcome State Fault Refusal := s.finish s.railFail

/-- `PWR_REQ` with `GO` and a target (R142). -/
def State.pwrReq (s : State) (o : OpCtx) (target : Nat) : State := s.ownerWrite o Reg.PWR_REQ (word (2 ^ 31 + target))

/-- `PWR_REQ_SERVICE` (R142). -/
def execPwrReqService (o : OpCtx) (s : State) : Host.Outcome State Fault Refusal := s.finish (s.pwrReq o 3)

/-- `PWR_REQ_RUN` (R142). -/
def execPwrReqRun (o : OpCtx) (s : State) : Host.Outcome State Fault Refusal := s.finish (s.pwrReq o 4)

/-- `PWR_REQ_SLEEP` (R142). -/
def execPwrReqSleep (o : OpCtx) (s : State) : Host.Outcome State Fault Refusal := s.finish (s.pwrReq o 6)

/-- `WAKE` (R41, R150): by a frame, the local port, a photo-eye or an AUX_IN edge. -/
def execWake (slow : Nat) (cause : Fin 4) (s : State) : Host.Outcome State Fault Refusal := s.finish (s.wakeBy slow cause.val)

/-- `SLEEP_TIMER_EXPIRY` (R150, R151); 0 ticks are no timer wake. -/
def execSleepTimerExpiry (s : State) : Host.Outcome State Fault Refusal :=
  let n := (s.reg Reg.PWR_SLEEP_TIMER).toNat
  s.finish (if n = 0 then s else s.wakeBy n 4)

/-- `MAKEUP_LIMIT_WAKE` (R41). -/
def execMakeupLimitWake (s : State) : Host.Outcome State Fault Refusal := s.finish (s.wakeBy 0xFFFFFFFF 6)

/-- `RESET_N_LOW` (R161): cause 3; the core stays in reset while the pin is low. -/
def execResetNLow (s : State) : Host.Outcome State Fault Refusal :=
  s.finish ((s.modBoot fun b => { b with resetPin := true }).startReset 3 0)

/-- `DEV_RESET_REQ` (R162): `GO` with the key. -/
def execDevResetReq (o : OpCtx) (s : State) : Host.Outcome State Fault Refusal :=
  s.finish (s.ownerWrite o Reg.DEV_RESET_REQ 0x44800001)

/-- `RESET_REQ_START` (R162): cause 5, 1 ms after the request. -/
def execResetReqStart (s : State) : Host.Outcome State Fault Refusal :=
  s.finish (match s.boot.reqAt with | some t => (s.advanceTo t).startReset 5 0 | none => s)

/-- `SCAN_INSTRUCTION_CHANGE` (R163): the scan logic gives the pins back, and the reset of cause 6 may complete. -/
def execScanInstructionChange (s : State) : Host.Outcome State Fault Refusal :=
  s.finish (s.modBoot fun b => { b with scanHeld := false })

/-- `FAULT_CHIP_RESET_START` (R114, R149). -/
def execFaultChipResetStart (s : State) : Host.Outcome State Fault Refusal := s.finish s.pendingStart

/-- `CHIP_RESET_COMPLETE` (R164 step 4). -/
def execChipResetComplete (lv : Levels) (s : State) : Host.Outcome State Fault Refusal := s.finish (s.releaseReset lv)

/-- `RESET_OUT_RELEASE` (R164 step 5). -/
def execResetOutRelease (s : State) : Host.Outcome State Fault Refusal := s.finish s.releaseOut

/-- `BOOT_DONE` (R167). -/
def execBootDone (answers : Bool) (s : State) : Host.Outcome State Fault Refusal := s.finish (s.finishBoot answers)

/-- `CLAIM_WAIT_END` (R170). -/
def execClaimWaitEnd (s : State) : Host.Outcome State Fault Refusal := s.finish s.endWait

/-- `VAON_POWER_ON_RESET` (R140, R151). -/
def execVaonPowerOnReset (s : State) : Host.Outcome State Fault Refusal := s.finish s.powerOnReset

/-- `VIO_FALL` (R548). -/
def execVioFall (s : State) : Host.Outcome State Fault Refusal := s.finish (s.modBoot fun b => { b with vioOk := false })

/-- `BOUNDARY_SCAN_ENTRY` (R163): the scan logic owns the pins, and the core is held in reset. -/
def execBoundaryScanEntry (s : State) : Host.Outcome State Fault Refusal :=
  s.finish ((s.startReset 6 0).modBoot fun b => { b with scanHeld := true })

end Sys2Proof.Machine
end

