-- ==== Sys2Proof/Machine/RejectCmds.lean ====
section
/-! DEFINITION. The meanings of the commands of reject tracking and the line signals (20_reject_line; 06_reset R169). -/

namespace Sys2Proof.Machine
open State

/-- `GATE_ACTION` (R489). -/
def execGateAction (n : Lane) (s : State) : Host.Outcome State Fault Refusal :=
  s.finish (if s.ticking then s.gateAction n else s)

/-- `REJ_WINDOW_END` (R490): at its time, or at the position that the lane has reached. -/
def execRejWindowEnd (n : Lane) (s : State) : Host.Outcome State Fault Refusal :=
  s.finish (if s.ticking then (s.advanceDue (s.windowDue n)).endWindow n else s)

/-- `SPAN_END` (R169). -/
def execSpanEnd (n : Lane) (s : State) : Host.Outcome State Fault Refusal :=
  s.finish (if s.ticking then s.endSpan n else s)

/-- `READBACK_SAMPLE` (R496). -/
def execReadbackSample (n : Lane) (level : Bool) (s : State) : Host.Outcome State Fault Refusal :=
  s.finish (s.timed (s.readbackDue n) fun s => s.readbackSample n level)

/-- `LIVE_EDGE` (R497): LIVE runs in SLEEP too, from SLOW32K (R174). -/
def execLiveEdge (late : Bool) (s : State) : Host.Outcome State Fault Refusal :=
  s.finish
    (if s.ticking then s.timed s.rej.liveAt fun s => s.liveEdge late
     else if s.coreOn then s.liveEdge false else s)

/-- `REJ_RELEASE` (R494): the lane's own fields with the release bit. -/
def execRejRelease (o : OpCtx) (n : Lane) (s : State) : Host.Outcome State Fault Refusal :=
  s.finish (s.ownerWrite o (Reg.REJ_CTRL n) (s.keeping (Reg.REJ_CTRL n) 31 31 1))

end Sys2Proof.Machine
end

