-- ==== Sys2Proof/Machine/SessionCmds.lean ====
section
/-! DEFINITION. The meanings of the commands of sessions: each operation of Waislink that arrives on its own, elections and the
keepalives (07_link_waislink R192-R213; 08_sessions R226-R239; 02_determinism R51). -/

namespace Sys2Proof.Machine
open State

/-- `READ` (R193). -/
def execRead (o : OpCtx) (addr : Word) (n : Nat) (env : OpEnv) (s : State) : Host.Outcome State Fault Refusal :=
  s.finish (s.runOp o 1 fun s => s.opRead o addr n env)

/-- `READ_LIST` (R193). -/
def execReadList (o : OpCtx) (addrs : List Word) (env : OpEnv) (s : State) : Host.Outcome State Fault Refusal :=
  s.finish (s.runOp o 2 fun s => s.opReadList o addrs env)

/-- `WRITE` (R194). -/
def execWrite (o : OpCtx) (addr : Word) (words : List Word) (env : OpEnv) (s : State) : Host.Outcome State Fault Refusal :=
  s.finish (s.runOp o 3 fun s => s.opWrite o addr words [] env)

/-- `WRITE_DEFERRED` (R51, R195). -/
def execWriteDeferred (o : OpCtx) (addr : Word) (words : List Word) (lane : Nat) (target : Pc) (s : State) :
    Host.Outcome State Fault Refusal := s.finish (s.runOp o 3 fun s => s.opDefer o addr words lane target [])

/-- `DEFERRED_COMMIT` (R51, R52). -/
def execDeferredCommit (n : Lane) (env : OpEnv) (s : State) : Host.Outcome State Fault Refusal :=
  s.finish (if s.ticking then s.commitDeferred n env else s)

/-- `WRITE_MASKED` (R196). -/
def execWriteMasked (o : OpCtx) (addr mask value : Word) (env : OpEnv) (s : State) : Host.Outcome State Fault Refusal :=
  s.finish (s.runOp o 4 fun s => s.opMasked o addr mask value env)

/-- `OPEN` (R199): no session is bound before `BOOT_DONE`. -/
def execOpen (peer : Peer) (route : Route) (seq : BitVec 16) (tag : BitVec 6) (kaMs : Nat) (s : State) :
    Host.Outcome State Fault Refusal :=
  s.finish (if s.admits && s.booted then s.opOpen peer route seq (BitVec.ofNat 8 tag.toNat) kaMs else s)

/-- `CLOSE` (R200). -/
def execClose (o : OpCtx) (s : State) : Host.Outcome State Fault Refusal := s.finish (s.runOp o 9 fun s => s.opClose)

/-- `NONCE` (R226). -/
def execNonce (o : OpCtx) (bytes : Option (List Byte)) (s : State) : Host.Outcome State Fault Refusal :=
  s.finish (s.runOp o 0x0A fun s => s.opNonce o.sess bytes)

/-- `CLAIM` (R227-R231). -/
def execClaim (o : OpCtx) (prio : Nat) (nonceId : Word) (mac : List Byte) (s : State) : Host.Outcome State Fault Refusal :=
  s.finish (s.runOp o 0x0B fun s => s.opClaim o prio nonceId mac)

/-- `ELECTION_CLOSE` (R230, R231). -/
def execElectionClose (s : State) : Host.Outcome State Fault Refusal := s.finish (s.timed s.electDue State.electionEnd)

/-- `GRANT` (R233). -/
def execGrant (o : OpCtx) (dst : Nat) (s : State) : Host.Outcome State Fault Refusal :=
  s.finish (s.runOp o 0x0C fun s => s.opGrant o.sess dst)

/-- `RESIGN` (R233). -/
def execResign (o : OpCtx) (s : State) : Host.Outcome State Fault Refusal :=
  s.finish (s.runOp o 0x0D fun s => s.opResign o.sess)

/-- `KEY_INSTALL` (R238, R239). -/
def execKeyInstall (o : OpCtx) (slot : Byte) (nonceId : Word) (wrapped mac : List Byte) (s : State) :
    Host.Outcome State Fault Refusal := s.finish (s.runOp o 0x0E fun s => s.opKeyInstall o slot nonceId wrapped mac)

/-- `SUBSCRIBE` (R197). -/
def execSubscribe (o : OpCtx) (classes lo hi : Word) (s : State) : Host.Outcome State Fault Refusal :=
  s.finish (s.runOp o 0x10 fun s => s.opSubscribe o.sess classes lo hi)

/-- `DISCOVER` (R198): it commits nothing. -/
def execDiscover (peer : Peer) (route : Route) (seq : BitVec 16) (tag : BitVec 6) (s : State) : Host.Outcome State Fault Refusal :=
  s.finish
    (if s.admits && s.booted then
      s.sendFree peer route [respOf 0x11 (BitVec.ofNat 8 tag.toNat) seq .ok s.order s.identity]
    else s)

/-- `EVENT_RESEND` (R210). -/
def execEventResend (i : Sess) (s : State) : Host.Outcome State Fault Refusal :=
  s.finish (s.timed (if s.admits then s.resendDue i else none) fun s => s.resend i)

/-- `IDLE_KEEPALIVE` (R212). -/
def execIdleKeepalive (i : Sess) (s : State) : Host.Outcome State Fault Refusal :=
  s.finish (s.timed (if s.admits then s.idleDue i else none) fun s => s.idleSend i)

/-- `KEEPALIVE_LOSS` (R212, R236). -/
def execKeepaliveLoss (i : Sess) (s : State) : Host.Outcome State Fault Refusal :=
  s.finish (s.timed (s.lossDue i) fun s => s.loseKeepalive i)

end Sys2Proof.Machine
end

