-- ==== Sys2Proof/Machine/TimerCmds.lean ====
section
/-! DEFINITION. The meanings of the commands of the timers and their pins (09_timers). -/

namespace Sys2Proof.Machine
open State

/-- `n` source events of a timer: time passes for TB100 and REF25; SLOW32K and TCLK feed every timer that counts them; the other
sources bring their events to this timer (R243). -/
def State.srcAdvance (s : State) (t : TimerId) (n : Nat) : State :=
  match s.tmSrc t with
  | 0 => s.advanceTo (s.tick + n)
  | 1 => s.advanceTo ((s.tick / 4 + n) * 4)
  | 2 => s.feedSrc 2 n
  | 7 => s.feedSrc 7 n
  | 8 => s.feedSrc 8 n
  | 9 => s.feedSrc 9 n
  | 10 => s.feedSrc 10 n
  | _ => s.feed [(t, n)]

/-- `TIMER_MATCH` (R245, R247, R250): `n` source events, with the matches they reach. -/
def execTimerMatch (t : TimerId) (n : Nat) (s : State) : Host.Outcome State Fault Refusal :=
  s.finish (if s.ticking then s.srcAdvance t n else s)

/-- `TIMER_OVERFLOW` (R245-R247): `n` source events, with the overflow they reach. -/
def execTimerOverflow (t : TimerId) (n : Nat) (s : State) : Host.Outcome State Fault Refusal :=
  s.finish (if s.ticking then s.srcAdvance t n else s)

/-- `TIMER_LOAD` (R251): `LOAD` with the timer's own fields. -/
def execTimerLoad (o : OpCtx) (t : TimerId) (env : OpEnv) (s : State) : Host.Outcome State Fault Refusal :=
  s.finish (s.ownerWrites o env (Reg.TMR_CFG t) [s.keeping (Reg.TMR_CFG t) 31 31 1])

/-- `FORCE_HIGH` (R252). -/
def execForceHigh (o : OpCtx) (pins : BitVec 4) (s : State) : Host.Outcome State Fault Refusal :=
  s.finish (s.ownerWrite o Reg.TMR_TOUT (s.keeping Reg.TMR_TOUT 19 16 pins.toNat))

/-- `FORCE_LOW` (R252). -/
def execForceLow (o : OpCtx) (pins : BitVec 4) (s : State) : Host.Outcome State Fault Refusal :=
  s.finish (s.ownerWrite o Reg.TMR_TOUT (s.keeping Reg.TMR_TOUT 23 20 pins.toNat))

/-- `TCLK_EDGE` (R254, R255). -/
def execTclkEdge (p : Fin 4) (level : Bool) (s : State) : Host.Outcome State Fault Refusal :=
  s.finish (s.pinCount fun s => s.tclkChange p level)

/-- `TCLK_STOP_WINDOW_END` (R256). -/
def execTclkStopWindowEnd (p : Fin 4) (s : State) : Host.Outcome State Fault Refusal :=
  s.finish (s.timed (s.tclkDue p) fun s => s.tclkStopped p)

/-- `AUX_IN_EDGE` (R249, R305): a queued event; a ball that serves as TCLK counts instead (R43, R254). -/
def execAuxInEdge (p : Fin 4) (level full : Bool) (s : State) : Host.Outcome State Fault Refusal :=
  s.finish
    (if s.rbit (Reg.TMR_TCLK_CFG p) 0 then s.pinCount fun s => s.tclkChange p level
     else s.pinEvent (12 + p.val) full fun s => s.auxChange p level)

end Sys2Proof.Machine
end

