-- ==== Sys2Proof/Machine/Dispatch.lean ====
section
/-! DEFINITION. The dispatch of a command to its meaning: one arm per constructor of Instr. -/

namespace Sys2Proof.Machine

/-- The effect of a command on everything but the queue. -/
def exec (i : Instr) (s : State) : Host.Outcome State Fault Refusal :=
  match i with
  | .vaonRelease conv => Sys2Proof.Machine.execVaonRelease conv s
  | .sccpClassRead => Sys2Proof.Machine.execSccpClassRead s
  | .pgoodHigh conv => Sys2Proof.Machine.execPgoodHigh conv s
  | .pantrySample v a b pgood => Sys2Proof.Machine.execPantrySample v a b pgood s
  | .finalCheckpointTimeout => Sys2Proof.Machine.execFinalCheckpointTimeout s
  | .parkingStart => Sys2Proof.Machine.execParkingStart s
  | .railOut rail => Sys2Proof.Machine.execRailOut rail s
  | .railBringupTimeout => Sys2Proof.Machine.execRailBringupTimeout s
  | .railRetry => Sys2Proof.Machine.execRailRetry s
  | .tb100Lock lv => Sys2Proof.Machine.execTb100Lock lv s
  | .tb100LockTimeout => Sys2Proof.Machine.execTb100LockTimeout s
  | .pwrReqService o => Sys2Proof.Machine.execPwrReqService o s
  | .pwrReqRun o => Sys2Proof.Machine.execPwrReqRun o s
  | .pwrReqSleep o => Sys2Proof.Machine.execPwrReqSleep o s
  | .wake slow cause => Sys2Proof.Machine.execWake slow cause s
  | .sleepTimerExpiry => Sys2Proof.Machine.execSleepTimerExpiry s
  | .makeupLimitWake => Sys2Proof.Machine.execMakeupLimitWake s
  | .resetNLow => Sys2Proof.Machine.execResetNLow s
  | .devResetReq o => Sys2Proof.Machine.execDevResetReq o s
  | .resetReqStart => Sys2Proof.Machine.execResetReqStart s
  | .scanInstructionChange => Sys2Proof.Machine.execScanInstructionChange s
  | .faultChipResetStart => Sys2Proof.Machine.execFaultChipResetStart s
  | .chipResetComplete lv => Sys2Proof.Machine.execChipResetComplete lv s
  | .resetOutRelease => Sys2Proof.Machine.execResetOutRelease s
  | .bootDone answers => Sys2Proof.Machine.execBootDone answers s
  | .claimWaitEnd => Sys2Proof.Machine.execClaimWaitEnd s
  | .ladderWatchdogExpiry port => Sys2Proof.Machine.execLadderWatchdogExpiry port s
  | .blockResetComplete unit env => Sys2Proof.Machine.execBlockResetComplete unit env s
  | .quietPeriodEnd src => Sys2Proof.Machine.execQuietPeriodEnd src s
  | .errMinEnd => Sys2Proof.Machine.execErrMinEnd s
  | .trapPulseEnd => Sys2Proof.Machine.execTrapPulseEnd s
  | .fltRelease o src => Sys2Proof.Machine.execFltRelease o src s
  | .envelopeWindowEnd n => Sys2Proof.Machine.execEnvelopeWindowEnd n s
  | .scrubRead env => Sys2Proof.Machine.execScrubRead env s
  | .celProgram c paddr data verify => Sys2Proof.Machine.execCelProgram c paddr data verify s
  | .celErase4k c paddr verify => Sys2Proof.Machine.execCelErase4k c paddr verify s
  | .celErase64k c paddr verify => Sys2Proof.Machine.execCelErase64k c paddr verify s
  | .celCommand c opcode data => Sys2Proof.Machine.execCelCommand c opcode data s
  | .celStatusPoll status => Sys2Proof.Machine.execCelStatusPoll status s
  | .celPollTimeout => Sys2Proof.Machine.execCelPollTimeout s
  | .stagedWrite o src dst len env => Sys2Proof.Machine.execStagedWrite o src dst len env s
  | .loftMapSwitch ok => Sys2Proof.Machine.execLoftMapSwitch ok s
  | .frameReceived p bytes rxFull egressFull env => Sys2Proof.Machine.execFrameReceived p bytes rxFull egressFull env s
  | .addressAgeing => Sys2Proof.Machine.execAddressAgeing s
  | .linkDownEvent p => Sys2Proof.Machine.execLinkDownEvent p s
  | .linkRestart o p cfg => Sys2Proof.Machine.execLinkRestart o p cfg s
  | .arpRequest p bytes => Sys2Proof.Machine.execArpRequest p bytes s
  | .icmpEchoRequest p bytes => Sys2Proof.Machine.execIcmpEchoRequest p bytes s
  | .waislinkRequest peer route bytes env => Sys2Proof.Machine.execWaislinkRequest peer route bytes env s
  | .hostKeepalive peer route bytes => Sys2Proof.Machine.execHostKeepalive peer route bytes s
  | .localPortTransaction mosi env => Sys2Proof.Machine.execLocalPortTransaction mosi env s
  | .lpEnClear o => Sys2Proof.Machine.execLpEnClear o s
  | .read o addr n env => Sys2Proof.Machine.execRead o addr n env s
  | .readList o addrs env => Sys2Proof.Machine.execReadList o addrs env s
  | .write o addr words env => Sys2Proof.Machine.execWrite o addr words env s
  | .writeDeferred o addr words lane target => Sys2Proof.Machine.execWriteDeferred o addr words lane target s
  | .deferredCommit n env => Sys2Proof.Machine.execDeferredCommit n env s
  | .writeMasked o addr mask value env => Sys2Proof.Machine.execWriteMasked o addr mask value env s
  | .open_ peer route seq tag kaMs => Sys2Proof.Machine.execOpen peer route seq tag kaMs s
  | .close o => Sys2Proof.Machine.execClose o s
  | .nonce o bytes => Sys2Proof.Machine.execNonce o bytes s
  | .claim o prio nonceId mac => Sys2Proof.Machine.execClaim o prio nonceId mac s
  | .electionClose => Sys2Proof.Machine.execElectionClose s
  | .grant o dst => Sys2Proof.Machine.execGrant o dst s
  | .resign o => Sys2Proof.Machine.execResign o s
  | .keyInstall o slot nonceId wrapped mac => Sys2Proof.Machine.execKeyInstall o slot nonceId wrapped mac s
  | .subscribe o classes lo hi => Sys2Proof.Machine.execSubscribe o classes lo hi s
  | .discover peer route seq tag => Sys2Proof.Machine.execDiscover peer route seq tag s
  | .eventResend k => Sys2Proof.Machine.execEventResend k s
  | .idleKeepalive k => Sys2Proof.Machine.execIdleKeepalive k s
  | .keepaliveLoss k => Sys2Proof.Machine.execKeepaliveLoss k s
  | .timerMatch t n => Sys2Proof.Machine.execTimerMatch t n s
  | .timerOverflow t n => Sys2Proof.Machine.execTimerOverflow t n s
  | .timerLoad o t env => Sys2Proof.Machine.execTimerLoad o t env s
  | .forceHigh o pins => Sys2Proof.Machine.execForceHigh o pins s
  | .forceLow o pins => Sys2Proof.Machine.execForceLow o pins s
  | .tclkEdge p level => Sys2Proof.Machine.execTclkEdge p level s
  | .tclkStopWindowEnd p => Sys2Proof.Machine.execTclkStopWindowEnd p s
  | .encoderCount e a b => Sys2Proof.Machine.execEncoderCount e a b s
  | .encZEdge e level full => Sys2Proof.Machine.execEncZEdge e level full s
  | .encLosChange e level full => Sys2Proof.Machine.execEncLosChange e level full s
  | .coarseStep c step dir => Sys2Proof.Machine.execCoarseStep c step dir s
  | .interpolationTick x => Sys2Proof.Machine.execInterpolationTick x s
  | .feedbackCount k a b => Sys2Proof.Machine.execFeedbackCount k a b s
  | .fbZEdge k level full => Sys2Proof.Machine.execFbZEdge k level full s
  | .auxInEdge p level full => Sys2Proof.Machine.execAuxInEdge p level full s
  | .driveFaultIn x full => Sys2Proof.Machine.execDriveFaultIn x full s
  | .photoEyeEdge p level full => Sys2Proof.Machine.execPhotoEyeEdge p level full s
  | .inhibitChange level full => Sys2Proof.Machine.execInhibitChange level full s
  | .stallWindowEnd n => Sys2Proof.Machine.execStallWindowEnd n s
  | .latch n env => Sys2Proof.Machine.execLatch n env s
  | .columnEmission n done link env => Sys2Proof.Machine.execColumnEmission n done link env s
  | .firing h late refill => Sys2Proof.Machine.execFiring h late refill s
  | .gateAction n => Sys2Proof.Machine.execGateAction n s
  | .rejWindowEnd n => Sys2Proof.Machine.execRejWindowEnd n s
  | .spanEnd n => Sys2Proof.Machine.execSpanEnd n s
  | .readbackSample n level => Sys2Proof.Machine.execReadbackSample n level s
  | .liveEdge late => Sys2Proof.Machine.execLiveEdge late s
  | .rejRelease o n => Sys2Proof.Machine.execRejRelease o n s
  | .jobSelection o n crate job env => Sys2Proof.Machine.execJobSelection o n crate job env s
  | .jobDeselection o n => Sys2Proof.Machine.execJobDeselection o n s
  | .crateVerify o crate => Sys2Proof.Machine.execCrateVerify o crate s
  | .crateVerifyDone answers => Sys2Proof.Machine.execCrateVerifyDone answers s
  | .secondBoundary => Sys2Proof.Machine.execSecondBoundary s
  | .calSet o day time => Sys2Proof.Machine.execCalSet o day time s
  | .checkpointRequest => Sys2Proof.Machine.execCheckpointRequest s
  | .motEnable o x => Sys2Proof.Machine.execMotEnable o x s
  | .motDisable o x => Sys2Proof.Machine.execMotDisable o x s
  | .motMove o x => Sys2Proof.Machine.execMotMove o x s
  | .motHome o x => Sys2Proof.Machine.execMotHome o x s
  | .motEngage o x => Sys2Proof.Machine.execMotEngage o x s
  | .motDecel o x => Sys2Proof.Machine.execMotDecel o x s
  | .motStop o x => Sys2Proof.Machine.execMotStop o x s
  | .motClear o x => Sys2Proof.Machine.execMotClear o x s
  | .profileTick x => Sys2Proof.Machine.execProfileTick x s
  | .moveDone x => Sys2Proof.Machine.execMoveDone x s
  | .microstepEmission x onA onB => Sys2Proof.Machine.execMicrostepEmission x onA onB s
  | .camPoint x => Sys2Proof.Machine.execCamPoint x s
  | .fbFreezeWindowEnd x => Sys2Proof.Machine.execFbFreezeWindowEnd x s
  | .mFreezeWindowEnd x => Sys2Proof.Machine.execMFreezeWindowEnd x s
  | .overCurrent x b sense => Sys2Proof.Machine.execOverCurrent x b sense s
  | .standstillDelayEnd x => Sys2Proof.Machine.execStandstillDelayEnd x s
  | .rampEnd x => Sys2Proof.Machine.execRampEnd x s
  | .servoPeriodBoundary => Sys2Proof.Machine.execServoPeriodBoundary s
  | .uplinkEvaluation up4 up5 => Sys2Proof.Machine.execUplinkEvaluation up4 up5 s
  | .hstEnable o c => Sys2Proof.Machine.execHstEnable o c s
  | .hstDisable o c => Sys2Proof.Machine.execHstDisable o c s
  | .hstStart o c => Sys2Proof.Machine.execHstStart o c s
  | .hstAbort o c => Sys2Proof.Machine.execHstAbort o c s
  | .hstAbortEnd c => Sys2Proof.Machine.execHstAbortEnd c s
  | .hstResume o c => Sys2Proof.Machine.execHstResume o c s
  | .shaftDispatch f => Sys2Proof.Machine.execShaftDispatch f s
  | .hstRequest line => Sys2Proof.Machine.execHstRequest line s
  | .move c env => Sys2Proof.Machine.execMove c env s
  | .move2d c env => Sys2Proof.Machine.execMove2d c env s
  | .gather c env => Sys2Proof.Machine.execGather c env s
  | .scatter c env => Sys2Proof.Machine.execScatter c env s
  | .loop c env => Sys2Proof.Machine.execLoop c env s
  | .wait c env => Sys2Proof.Machine.execWait c env s
  | .waitMemoryPoll c env => Sys2Proof.Machine.execWaitMemoryPoll c env s
  | .waitDelayEnd c => Sys2Proof.Machine.execWaitDelayEnd c s
  | .signal c env => Sys2Proof.Machine.execSignal c env s
  | .set c env => Sys2Proof.Machine.execSet c env s
  | .end_ c env => Sys2Proof.Machine.execEnd c env s
  | .hstCompletion c => Sys2Proof.Machine.execHstCompletion c s
  | .hstDueKey c => Sys2Proof.Machine.execHstDueKey c s
  | .hstBusError c k => Sys2Proof.Machine.execHstBusError c k s
  | .postedWriteError c addr => Sys2Proof.Machine.execPostedWriteError c addr s
  | .shelfDescriptor c env => Sys2Proof.Machine.execShelfDescriptor c env s
  | .shelfKick o c env => Sys2Proof.Machine.execShelfKick o c env s
  | .shelfPoll c env => Sys2Proof.Machine.execShelfPoll c env s
  | .hedEnable o h => Sys2Proof.Machine.execHedEnable o h s
  | .hedDisable o h => Sys2Proof.Machine.execHedDisable o h s
  | .headPresentChange h level full => Sys2Proof.Machine.execHeadPresentChange h level full s
  | .presSettleEnd h => Sys2Proof.Machine.execPresSettleEnd h s
  | .identEnd h c0 c1 c2 c3 => Sys2Proof.Machine.execIdentEnd h c0 c1 c2 c3 s
  | .hedIdWrite o h id => Sys2Proof.Machine.execHedIdWrite o h id s
  | .tLogicEnd h env => Sys2Proof.Machine.execTLogicEnd h env s
  | .tHvEnd h => Sys2Proof.Machine.execTHvEnd h s
  | .restart o h => Sys2Proof.Machine.execRestart o h s
  | .trimLoad o h env => Sys2Proof.Machine.execTrimLoad o h env s
  | .svc o h => Sys2Proof.Machine.execSvc o h s
  | .serviceFiring h => Sys2Proof.Machine.execServiceFiring h s
  | .heaterEnable o h on => Sys2Proof.Machine.execHeaterEnable o h on s
  | .heaterLoopPeriod h code => Sys2Proof.Machine.execHeaterLoopPeriod h code s
  | .freezeWindowEnd h => Sys2Proof.Machine.execFreezeWindowEnd h s
  | .holdTExpiry h => Sys2Proof.Machine.execHoldTExpiry h s
  | .warmMaxExpiry h => Sys2Proof.Machine.execWarmMaxExpiry h s
  | .heatRestart o h => Sys2Proof.Machine.execHeatRestart o h s
  | .scan o h env => Sys2Proof.Machine.execScan o h env s
  | .dropGateShot h => Sys2Proof.Machine.execDropGateShot h s
  | .gateComparatorFall h full => Sys2Proof.Machine.execGateComparatorFall h full s
  | .scanEnd h => Sys2Proof.Machine.execScanEnd h s
  | .mapLoad o h => Sys2Proof.Machine.execMapLoad o h s
  | .mapSave o h => Sys2Proof.Machine.execMapSave o h s
  | .nozzleEntryWrite o h sel entry => Sys2Proof.Machine.execNozzleEntryWrite o h sel entry s
  | .keepWetWaitEnd h => Sys2Proof.Machine.execKeepWetWaitEnd h s
  | .keepWetFiring h => Sys2Proof.Machine.execKeepWetFiring h s
  | .fireCountSave h => Sys2Proof.Machine.execFireCountSave h s
  | .laneDrain o n => Sys2Proof.Machine.execLaneDrain o n s
  | .laneOpen o n => Sys2Proof.Machine.execLaneOpen o n s
  | .laneClose o n => Sys2Proof.Machine.execLaneClose o n s
  | .newHead o n => Sys2Proof.Machine.execNewHead o n s
  | .closeWaitEnd n => Sys2Proof.Machine.execCloseWaitEnd n s
  | .leaseTransfer o r dst => Sys2Proof.Machine.execLeaseTransfer o r dst s
  | .vaonPowerOnReset => Sys2Proof.Machine.execVaonPowerOnReset s
  | .linkUp p amp24 => Sys2Proof.Machine.execLinkUp p amp24 s
  | .discardedPulse input => Sys2Proof.Machine.execDiscardedPulse input s
  | .driveFaultRelease x => Sys2Proof.Machine.execDriveFaultRelease x s
  | .vioFall => Sys2Proof.Machine.execVioFall s
  | .boundaryScanEntry => Sys2Proof.Machine.execBoundaryScanEntry s
  | .heaterPwmPeriod h => Sys2Proof.Machine.execHeaterPwmPeriod h s
  | .chopperTurnOff x b sense => Sys2Proof.Machine.execChopperTurnOff x b sense s
  | .chopperOffEnd x b sense => Sys2Proof.Machine.execChopperOffEnd x b sense s

end Sys2Proof.Machine
end

