-- ==== Sys2Proof/Machine/Step.lean ====
section
/-! DEFINITION. A step of the GL4480: the command at the front of the queue, or one tick on an empty queue. -/

namespace Sys2Proof.Machine

/-- A step: the command at the front of the queue with the queue's rest; on an empty queue one tick passes (R41). -/
def step (s : State) : Host.Outcome State Fault Refusal :=
  match s.pending with
  | [] => s.idle
  | c :: rest => exec c { s with pending := rest }

/-- The state with the command of a word put at the front of the queue; unchanged where the word spells none. -/
def State.withFetchWord (s : State) (nbits w : Nat) : State :=
  match Sys2Proof.decodeTableWord nbits w with
  | some c => { s with pending := c :: s.pending }
  | none => s

end Sys2Proof.Machine
end

