-- ==== Sys2Proof/Safety.lean ====
section
/-! DEFINITION. The terms in which claims are stated: the parts of State and what it means that only some of them change; when
a session may ask and when the owner's write is granted; the answered operation; states in which what follows a command
touches only the link and the line; and the invariant of the line signals. -/

namespace Sys2Proof.Machine

/-- The parts of State: its fields, of which three are told apart further: `due` holds the resets that messages have selected,
`energy` the reservations and what has been spent of them, `larder` the Larder, `owed` the staged writes and the operations that
wait, and `flash` what else the memories hold. -/
inductive Part where
  | tick | order | regs | guards | fired | flt | due | boot | pwr | energy | larder | flash | owed | lnk | ses | tmr | plc | mot | hst | crates
  | cmp | cal | hed | hlt | rej | hat | free | out | pending
  deriving DecidableEq, Repr

/-- Two states agree in a part. -/
def Part.same (s t : State) : Part → Prop
  | .tick => t.tick = s.tick
  | .order => t.order = s.order
  | .regs => t.regs = s.regs
  | .guards => t.guards = s.guards
  | .fired => t.fired = s.fired
  | .flt => { t.flt with due := [] } = { s.flt with due := [] }
  | .due => t.flt.due = s.flt.due
  | .boot => t.boot = s.boot
  | .pwr => { t.pwr with live := [], spent := [], refused := false } = { s.pwr with live := [], spent := [], refused := false }
  | .energy => t.pwr.live = s.pwr.live ∧ t.pwr.spent = s.pwr.spent ∧ t.pwr.refused = s.pwr.refused
  | .larder => t.mem.larder = s.mem.larder
  | .flash => { t.mem with larder := [], staged := [], heldOps := [] } = { s.mem with larder := [], staged := [], heldOps := [] }
  | .owed => t.mem.staged = s.mem.staged ∧ t.mem.heldOps = s.mem.heldOps
  | .lnk => t.lnk = s.lnk
  | .ses => t.ses = s.ses
  | .tmr => t.tmr = s.tmr
  | .plc => t.plc = s.plc
  | .mot => t.mot = s.mot
  | .hst => t.hst = s.hst
  | .crates => t.crates = s.crates
  | .cmp => t.cmp = s.cmp
  | .cal => t.cal = s.cal
  | .hed => t.hed = s.hed
  | .hlt => t.hlt = s.hlt
  | .rej => t.rej = s.rej
  | .hat => t.hat = s.hat
  | .free => t.free = s.free
  | .out => t.out = s.out
  | .pending => t.pending = s.pending

/-- From `s` to `t` only the listed parts change: every other part is as it was. -/
def Only (l : List Part) (s t : State) : Prop := ∀ p, p ∉ l → p.same s t

/-- Every register but the listed ones reads as before. -/
def RegsBut (l : List Nat) (s t : State) : Prop := ∀ a, a ∉ l → t.reg a = s.reg a

/-- Every register outside the listed blocks of 4 KiB (R15) reads as before: block 4 is FLT, 5 TMR, 6 PLC, and so on. -/
def RegsIn (l : List Nat) (s t : State) : Prop := ∀ a, a / 0x1000 ∉ l → t.reg a = s.reg a

/-- What a fault message changes: its commit, the collector, flags and counters, and the event queues of sessions. -/
def messageParts : List Part := [.order, .regs, .guards, .flt, .due, .lnk, .out]

/-- What a fault message changes whose source, like source 8, selects no reset. -/
def noticeParts : List Part := [.order, .regs, .guards, .flt, .lnk, .out]

/-- What a response or a message to a session changes. -/
def replyParts : List Part := [.regs, .lnk, .ses, .out]

/-- What the end of a session changes beside its messages: what it is owed is discarded, and the owner may change. -/
def leaveParts : List Part := [.order, .regs, .guards, .flt, .owed, .lnk, .ses, .plc, .out]

/-- What the end of a product record changes. -/
def recordParts : List Part := [.order, .regs, .energy, .larder, .plc, .cmp]

/-- What a message of an axis changes with its consequences: the axis stops, and records that it carries become SUSPECT. -/
def axisParts : List Part := [.mot, .energy, .larder, .plc, .cmp] ++ messageParts

/-- The parts that the passing of time and source counts may change. -/
def clockParts : List Part :=
  [.tmr, .hst, .order, .regs, .guards, .flt, .due, .energy, .larder, .lnk, .plc, .cmp, .out]

namespace State

/-! ### Operations of a session -/

/-- A session's operation runs (R168, R204): the core admits messages, bring-up is over, the session is bound and the tag is
free. -/
def Asks (s : State) (o : OpCtx) : Prop :=
  s.admits = true ∧ s.booted = true ∧ (s.sess o.sess).bound = true ∧ s.tagBusy o.sess o.tag = false

/-- The words of a write with their addresses. -/
def wordsAt (a : Nat) (ws : List Word) : Words := writeList (word a) ws

/-- The owner's write of consecutive words is granted: its operation runs, no check of R194 refuses it, nothing holds it back
(R91), no port it uses is isolated, and no error is detected in the Larder. -/
def Granted (s : State) (o : OpCtx) (env : OpEnv) (a : Nat) (ws : List Word) : Prop :=
  s.Asks o ∧ s.isOwner o.sess = true ∧ s.admitWrite true (wordsAt a ws) (countCode ws) = none ∧
    s.selectionHeld (wordsAt a ws) = false ∧ s.commitRefusal env.mem (wordsAt a ws) = none ∧
    env.mem.ecc = [] ∧ ∀ w ∈ wordsAt a ws, s.isolated (portOf s w.1) = false

/-- The state after an operation of code `op` that had the effect `u` and is answered OK with an order stamp and data. -/
def answered (s : State) (o : OpCtx) (op : Byte) (u : State) (order : Nat) (data : List Byte) : State :=
  s.after (u.respond o.sess (respOf op (BitVec.ofNat 8 o.tag.toNat) o.seq .ok order data))

/-- The state after an operation of code `op` that is refused with `c` and has no other effect (R205). -/
def declined (s : State) (o : OpCtx) (op : Byte) (c : Code) : State :=
  s.after (s.respond o.sess (respOf op (BitVec.ofNat 8 o.tag.toNat) o.seq c 0 []))

/-- The state after a granted write whose effect is `u`, at the next order stamp (R10, R194). -/
def written (s : State) (o : OpCtx) (u : State) : State := s.answered o 3 u (s.order + 1) []

/-- A saturating counter one higher. -/
def oneMore (s : State) (a : Nat) : Word := if s.reg a = 0xFFFFFFFF then s.reg a else s.reg a + 1

/-! ### What follows a command -/

/-- A message of a source selects a reset: `BLOCK_RESET` or `CHIP_RESET` of its reaction entry (R110). -/
def picks (s : State) (src : Nat) : Bool := bit (s.reaction src 0) 2 || bit (s.reaction src 0) 3

/-- Nothing waits that would act on other units once the command is over: no reset is due, no operation is held back, no
message waits at the local port, and the two messages that may still follow, `PWR.CHARGE` of an energy refusal and
`WSL.EVENT_DROP` of a full event queue, select no reset. -/
def Calm (u : State) : Prop :=
  u.flt.due = [] ∧ u.mem.heldOps = [] ∧ u.ses.lpIn = [] ∧ u.picks 5 = false ∧ u.picks 8 = false

/-- READY, IRQ_OUT and ERR_OUT are at the levels of their conditions (R120, R498, R500), and outside SLEEP every reject output is
driven as its lane's conditions say (R488, R491). -/
def LineTrue (s : State) : Prop :=
  s.rej.ready = s.readyCond ∧ s.rej.irq = s.irqCond ∧ s.rej.err = s.errActive ∧
    (s.pwr.state ≠ .sleep → ∀ n : Lane, (s.rejLane n).drive = s.rejDrive n)

end State

end Sys2Proof.Machine
end

