-- ==== Sys2Proof/Certificates/Slice0/Obligations.lean ====
section
/-! DEFINITION. The statements about the model, one definition each. `s.after u` is the state in which a command of effect `u` ends:
`u` once what follows a command has settled (Machine/Settle.lean); `s.written o u` is that of a granted owner write, which is
answered besides (Safety.lean). `Only l s t` says that from `s` to `t` nothing outside the parts `l` changes. -/

open Sys2Proof Sys2Proof.Machine Sys2Proof.Machine.State

/-! ### The step -/

/-- A step takes the command at the front of the queue and runs it on the state with the queue's rest (the block's step; the
command table). On an empty queue one tick passes where the core runs and TB100 is not stopped (R41; the idle step is the model's
choice, assumption 1); a timer may act on it, and no unit outside `clockParts` of the passing of time changes before what follows. -/
def Obligations.StepRunsFrontCommand : Prop :=
  ∀ s : State,
    (∀ (c : Instr) (rest : List Instr), s.pending = c :: rest → step s = exec c { s with pending := rest }) ∧
    (s.pending = [] →
      ∃ u : State, step s = .next (s.after u) ∧ u.tick = (if s.ticking = true then s.tick + 1 else s.tick) ∧
        u.mot = s.mot ∧ u.hed = s.hed ∧ u.hlt = s.hlt ∧ u.rej = s.rej ∧ u.hat = s.hat ∧ u.cal = s.cal ∧ u.boot = s.boot ∧
        u.ses = s.ses ∧ u.crates = s.crates ∧ u.pwr.state = s.pwr.state ∧ (s.ticking = false → u = s))

/-- Every command answers a next state, and leaves the queue as the step gave it. -/
def Obligations.CommandKeepsQueue : Prop :=
  ∀ (c : Instr) (s : State), ∃ t, exec c s = .next t ∧ t.pending = s.pending

/-- READY, IRQ_OUT, ERR_OUT stand at the levels of their conditions after every step, whatever the state before it was, and so do
the reject outputs outside SLEEP (R120, R488, R491, R498, R500). -/
def Obligations.LineSignalsFollowConditions : Prop :=
  ∀ s t : State, step s = .next t → t.LineTrue

/-- The line signals stand at their conditions at reset too. -/
def Obligations.LineSignalsAtReset : Prop := State.reset.LineTrue

/-- What follows a command in a calm state leaves the tick, the memories' contents, the axes, the Hoist, the timers, the head
ports, the calendar, crates, bring-up and the power state as the command left them, and the queue as the step gave it: only the
link, reservations, compositor slots, heaters, lanes and outputs follow. -/
def Obligations.CalmCommandTouchesFollowersOnly : Prop :=
  ∀ s u : State, u.Calm →
    (s.after u).tick = u.tick ∧ (s.after u).mem.larder = u.mem.larder ∧ (s.after u).mem.cellar = u.mem.cellar ∧
    (s.after u).mem.loft = u.mem.loft ∧ (s.after u).mem.tables = u.mem.tables ∧ (s.after u).mot = u.mot ∧
    (s.after u).hst = u.hst ∧ (s.after u).tmr = u.tmr ∧ (s.after u).hed = u.hed ∧ (s.after u).cal = u.cal ∧
    (s.after u).crates = u.crates ∧ (s.after u).boot = u.boot ∧ (s.after u).pwr.state = u.pwr.state ∧
    (s.after u).free = u.free ∧ (s.after u).pending = s.pending

/-! ### Power, reset and bring-up -/

/-- A granted `PWR_REQ` moves the Pantry: to SERVICE or SLEEP from RUN, to RUN from SERVICE (R140, R142); in SLEEP TB100 stands and
the count of SLOW32K ticks starts (R41, R150). -/
def Obligations.PowerRequestChangesState : Prop :=
  ∀ (s : State) (o : OpCtx),
    (s.Granted o OpEnv.quiet Reg.PWR_REQ [0x80000003] → s.pwr.state = .run →
      ∃ u : State, exec (.pwrReqService o) s = .next (s.written o u) ∧ u.pwr.state = .service ∧ Only (.pwr :: messageParts) s u) ∧
    (s.Granted o OpEnv.quiet Reg.PWR_REQ [0x80000004] → s.pwr.state = .service →
      ∃ u : State, exec (.pwrReqRun o) s = .next (s.written o u) ∧ u.pwr.state = .run ∧ Only (.pwr :: messageParts) s u) ∧
    (s.Granted o OpEnv.quiet Reg.PWR_REQ [0x80000006] → s.pwr.state = .run →
      ∃ u : State, exec (.pwrReqSleep o) s = .next (s.written o u) ∧ u.pwr.state = .sleep ∧ u.ticking = false ∧ u.pwr.slowTicks = 0 ∧
        Only ([.pwr, .energy, .tmr, .mot, .hed] ++ messageParts) s u)

/-- VAON release samples the straps and enters CLASSIFY from OFF; a class read before PD_PGOOD is remembered; PD_PGOOD takes
CLASSIFY to CHARGE with the offered class where it was read, else class 10, and DARK to CHARGE with the straps sampled anew (R129,
R130, R140, R152, R166). -/
def Obligations.PowerArrives : Prop :=
  ∀ (s : State) (conv : List (List Nat)),
    (s.pwr.state = .off → ∃ u : State, exec (.vaonRelease conv) s = .next (s.after u) ∧ u.pwr.state = .classify ∧
      Only ([.boot, .pwr] ++ messageParts) s u ∧ ∀ i : Fin 4, u.boot.straps[i] = decodeStrap (conv.getD i.val [])) ∧
    (s.pwr.pgood = false → ∃ u : State, exec .sccpClassRead s = .next (s.after u) ∧ u.pwr.classRead = true ∧ Only [.pwr, .energy] s u ∧
      u.pwr.state = s.pwr.state) ∧
    (s.pwr.state = .classify → ∃ u : State, exec (.pgoodHigh conv) s = .next (s.after u) ∧ u.pwr.state = .charge ∧ u.pwr.pgood = true ∧
      u.pwr.granted = (if s.pwr.classRead then s.offered else 10) ∧ Only (.pwr :: messageParts) s u) ∧
    (s.pwr.state = .dark → ∃ u : State, exec (.pgoodHigh conv) s = .next (s.after u) ∧ u.pwr.state = .charge ∧ u.pwr.pgood = true ∧
      Only ([.boot, .pwr] ++ messageParts) s u ∧ ∀ i : Fin 4, u.boot.straps[i] = decodeStrap (conv.getD i.val []))

/-- A Pantry sample is recorded, the latest four making the ledger's voltage (R131, R132); in RUN a sample with a good input keeps
RUN, and one without PD_PGOOD enters HOLD (R140, R141). -/
def Obligations.PantrySampleIsRecorded : Prop :=
  ∀ (s : State) (v i b : BitVec 12) (pg : Bool), s.ticking = true → s.pwr.state = .run →
    ∃ u : State, exec (.pantrySample v i b pg) s = .next (s.after u) ∧
      Only ([.fired, .pwr, .energy, .hlt] ++ messageParts) (s.advanceTo (s.dueAt Ev.sample 0 10000)) u ∧ u.pwr.vNow = v.toNat * s.fld Reg.PWR_SENSE 15 0 / 4096 ∧ u.pwr.pgood = pg ∧
      u.pwr.samples = (u.pwr.vNow :: s.pwr.samples).take 4 ∧
      (pg = false → u.pwr.state = .hold ∧ u.pwr.holdFrom = .run) ∧
      (pg = true → s.fld Reg.PWR_BUS 15 0 ≤ b.toNat * s.fld Reg.PWR_SENSE 15 0 / 4096 → u.pwr.state = .run)

/-- Loss of power (R140, R143, R144, R149). In HOLD, once no mark reservation is live, parking starts: a READY head is PARKED with
HV_EN released, and a flying carriage that is suspect or halted is disabled. DARK follows 10 ms after the final checkpoint starts without
a switch, with cause 1; after a rail that leaves its window, with cause 2, at once where its message makes no trap, else once the trap
has left. -/
def Obligations.PowerLossEntersDark : Prop :=
  ∀ s : State,
    (s.pwr.state = .hold → s.coreOn = true → s.markLive = false → s.pwr.parked = false →
      ∃ u : State, exec .parkingStart s = .next (s.after u) ∧ u.pwr.parked = true ∧ u.pwr.state = .hold ∧ u.tick = s.tick ∧
        (∀ h : Head, (s.head h).state = .ready →
          (u.head h).state = .parked ∧ (u.head h).hvEn = false ∧ (u.head h).headEn = true) ∧
        (∀ h : Head, (s.head h).state ≠ .ready → u.head h = s.head h) ∧
        (∀ x : Axis, s.rbit (Reg.MOT_CFG x) 12 = true → (s.axis x).suspect = true ∨ (s.axis x).state = .halt →
          (u.axis x).state = .disabled) ∧
        (∀ x : Axis, s.rbit (Reg.MOT_CFG x) 12 = false → u.axis x = s.axis x) ∧
        Only [.order, .regs, .guards, .fired, .pwr, .energy, .mot, .hed, .out] s u) ∧
    (∀ d, s.ticking = true → s.pwr.finalCkpt = some d →
      ∃ u : State, exec .finalCheckpointTimeout s = .next (s.after u) ∧ u.pwr.state = .dark ∧ u.boot.phase = .off ∧
        u.fld Reg.PWR_CAUSE 3 0 = 1 ∧ u.mem.loft = s.mem.loft ∧ u.boot.straps = s.boot.straps) ∧
    (∀ rail, s.coreOn = true → bit (s.reaction 5 0) 1 = false →
      ∃ u : State, exec (.railOut rail) s = .next (s.after u) ∧ u.pwr.state = .dark ∧ u.boot.phase = .off ∧ u.fld Reg.PWR_CAUSE 3 0 = 2 ∧
        u.mem.loft = s.mem.loft ∧ u.boot.straps = s.boot.straps) ∧
    (∀ rail, s.coreOn = true → bit (s.reaction 5 0) 1 = true →
      ∃ u : State, exec (.railOut rail) s = .next (s.after u) ∧ u.flt.resetPending = some ⟨5, true, s.tick + 200000⟩ ∧
        Only messageParts s u)

/-- The rails' bring-up (R149, R166): an attempt that does not reach the windows, or whose TB100 does not lock, drops RAIL_EN and
waits for a retry, which raises RAIL_EN again in CHARGE. -/
def Obligations.RailBringUpRetries : Prop :=
  ∀ s : State,
    (s.pwr.railEn = true → s.boot.phase = .off →
      (∃ u : State, exec .railBringupTimeout s = .next (s.after u) ∧ u.pwr.railEn = false ∧ u.pwr.retry = true ∧
        u.pwr.state = s.pwr.state ∧ Only [.regs, .pwr, .out] s u) ∧
      (∃ u : State, exec .tb100LockTimeout s = .next (s.after u) ∧ u.pwr.railEn = false ∧ u.pwr.retry = true ∧
        u.pwr.state = s.pwr.state ∧ Only [.regs, .pwr, .out] s u)) ∧
    (s.pwr.retry = true → s.pwr.state = .charge →
      ∃ u : State, exec .railRetry s = .next (s.after u) ∧ u.pwr.railEn = true ∧ u.pwr.retry = false ∧ Only [.pwr, .out] s u)

/-- Chip reset completes (R164, R166): with RESET_N high, no scan instruction holding the core and no staged write running, bring-up
starts at tick 0 and order stamp 0 with every Larder word void and the cause in `DEV_RESET_CAUSE`, in a cold reset at the lock of
TB100 and in a warm one at its completion. -/
def Obligations.ChipResetCompletes : Prop :=
  ∀ (s : State) (lv : Levels), lv.resetN = true → s.boot.scanHeld = false → s.mem.staged = [] →
    (s.pwr.railEn = true → s.boot.phase = .off →
      ∃ u : State, exec (.tb100Lock lv) s = .next (s.after u) ∧ u.boot.phase = .bringup ∧ u.tick = 0 ∧ u.order = 0 ∧
        (∀ i, u.mem.word64 i = none) ∧ u.reg Reg.DEV_RESET_CAUSE = word s.boot.coldCause ∧
        u.mem.loft = s.mem.loft ∧ u.mem.cellar = s.mem.cellar ∧ u.boot.straps = s.boot.straps) ∧
    (∀ cause source, s.boot.phase = .reset cause source →
      ∃ u : State, exec (.chipResetComplete lv) s = .next (s.after u) ∧ u.boot.phase = .bringup ∧ u.tick = 0 ∧ u.order = 0 ∧
        (∀ i, u.mem.word64 i = none) ∧ u.reg Reg.DEV_RESET_CAUSE = word (cause + 0x100 * source) ∧
        u.mem.loft = s.mem.loft ∧ u.mem.cellar = s.mem.cellar ∧ u.boot.straps = s.boot.straps)

/-- An enabled source ends SLEEP (R41, R150): the Pantry enters RUN, floor(s × 390,625 / 128) ticks are made up for s SLOW32K ticks,
and the cause is recorded; the sleep timer wakes at its count and the limit of the count by itself. -/
def Obligations.WakeMakesUpTheTick : Prop :=
  ∀ s : State, s.pwr.state = .sleep →
    let keeps (u : State) : Prop := Only ([.tick, .pwr, .larder, .tmr, .plc, .hed, .rej] ++ messageParts) s u
    (∀ (slow : Nat) (cause : Fin 4), slow < 2 ^ 32 → s.rbit Reg.PWR_WAKE_EN cause.val = true →
      ∃ u : State, exec (.wake slow cause) s = .next (s.after u) ∧ u.pwr.state = .run ∧ u.tick = s.tick + slow * 390625 / 128 ∧
        u.reg Reg.PWR_WAKE_CAUSE = word (2 ^ cause.val) ∧ keeps u) ∧
    (s.rbit Reg.PWR_WAKE_EN 4 = true → s.reg Reg.PWR_SLEEP_TIMER ≠ 0 →
      ∃ u : State, exec .sleepTimerExpiry s = .next (s.after u) ∧ u.pwr.state = .run ∧
        u.tick = s.tick + (s.reg Reg.PWR_SLEEP_TIMER).toNat * 390625 / 128 ∧ u.reg Reg.PWR_WAKE_CAUSE = word 16 ∧ keeps u) ∧
    (∃ u : State, exec .makeupLimitWake s = .next (s.after u) ∧ u.pwr.state = .run ∧ u.tick = s.tick + 0xFFFFFFFF * 390625 / 128 ∧
      u.reg Reg.PWR_WAKE_CAUSE = word 64 ∧ keeps u)

/-- How a reset starts (R114, R160-R163): RESET_N gives cause 3, a boundary-scan instruction cause 6, an accepted request cause 5 at
its time, a message's chip reset cause 4 with its source; the core falls to its reset state with the tick kept until completion.
When the scan instruction goes, the pins come back. -/
def Obligations.ResetStarts : Prop :=
  ∀ s : State, s.coreOn = true →
    let keeps (u : State) : Prop := u.mem.loft = s.mem.loft ∧ u.mem.staged = s.mem.staged ∧ u.boot.straps = s.boot.straps ∧
      ∀ i, u.mem.word64 i = none
    (∃ u : State, exec .resetNLow s = .next (s.after u) ∧ u.boot.phase = .reset 3 0 ∧ u.boot.resetPin = true ∧ u.coreOn = false ∧
      keeps u) ∧
    (∃ u : State, exec .boundaryScanEntry s = .next (s.after u) ∧ u.boot.phase = .reset 6 0 ∧ u.boot.scanHeld = true ∧ keeps u) ∧
    (∃ u : State, exec .scanInstructionChange s = .next (s.after u) ∧ u.boot.scanHeld = false ∧ Only [.boot] s u ∧
      u.boot.phase = s.boot.phase) ∧
    (∀ t, s.boot.reqAt = some t →
      ∃ u : State, exec .resetReqStart s = .next (s.after u) ∧ u.boot.phase = .reset 5 0 ∧ u.boot.reqAt = none ∧ keeps u) ∧
    (∀ p, s.flt.resetPending = some p → p.rail = false →
      ∃ u : State, exec .faultChipResetStart s = .next (s.after u) ∧ u.boot.phase = .reset 4 p.source ∧ u.flt.resetPending = none ∧ keeps u)

/-- A granted reset request is scheduled 1 ms later (R162); RESET_OUT_N rises once, 1 ms after chip reset completes (R164). The VAON
power-on reset leaves OFF with every register at its reset value (R140, R151); without VIO the outputs are undriven (R548). -/
def Obligations.ResetRequestAndRelease : Prop :=
  ∀ s : State,
    (∀ o, s.Granted o OpEnv.quiet Reg.DEV_RESET_REQ [0x44800001] →
      ∃ u : State, exec (.devResetReq o) s = .next (s.written o u) ∧ u.boot.reqAt = some (s.tick + 100000) ∧
        u.boot.phase = s.boot.phase ∧ RegsBut [] s u ∧ Only [.order, .regs, .boot] s u) ∧
    (s.coreOn = true → s.boot.resetOut = false →
      ∃ u : State, exec .resetOutRelease s = .next (s.after u) ∧ u.boot.resetOut = true ∧ (s.ticking = true → u.tick = max s.tick 100000) ∧
        u.boot.phase = s.boot.phase ∧ Only [.boot, .out] (s.advanceTo 100000) u) ∧
    (∃ u : State, exec .vaonPowerOnReset s = .next (s.after u) ∧ u.pwr.state = .off ∧ u.boot.phase = .off ∧ u.mem.loft = s.mem.loft ∧
      ∀ a, u.reg a = regReset a) ∧
    (∃ u : State, exec .vioFall s = .next (s.after u) ∧ u.pinsDriven = false ∧ Only [.boot] s u ∧ ∀ n, u.rejDrive n = none)

/-- Bring-up completes (R167): the machine runs from then on, with `BOOT_DONE`. Then `CLAIM_WAIT` ends with no claim accepted: it
runs no more, and standalone running begins (R170, R171). -/
def Obligations.BringUpCompletes : Prop :=
  ∀ s : State,
    (∀ answers : Bool, s.boot.phase = .bringup →
      ∃ u : State, exec (.bootDone answers) s = .next (s.after u) ∧ u.boot.phase = .running ∧ u.booted = true) ∧
    (∀ t : Nat, s.ticking = true → s.boot.claimWaitEnd = some t →
      ∃ u : State, exec .claimWaitEnd s = .next (s.after u) ∧ u.boot.claimWaitEnd = none ∧ u.rbit Reg.DEV_STATUS 1 = true ∧
        u.boot.phase = s.boot.phase ∧ Only ([.boot, .flash, .plc, .crates, .hed] ++ messageParts) (s.advanceTo t) u)


/-! ### Fault messages and the collector -/

/-- What a message of a unit that watches its conditions does at once (R111, R115, R117, R118, R120, R122): it is recorded in an
empty First Bin with the next order stamp, else as overflow; its pending bit is set; a NORMAL source enters FAULT with its quiet
period running, a RETIRED one stays; the trap and the ERR_OUT minimum run where its entry says so. -/
def Obligations.FaultMessageReactions : Prop :=
  ∀ (s : State) (k : Kind) (addr : Word), k.src < 36 → s.unitInReset k.src = false →
    let t := s.raise k addr
    (if k.src < 28 then t.rbit Reg.FLT_PEND_A k.src else t.rbit Reg.FLT_PEND_B (k.src - 28)) = true ∧
    (s.rbit Reg.FLT_BIN_STAT 0 = false → t.rbit Reg.FLT_BIN_STAT 0 = true ∧
      t.flt.bin = some ⟨k.src, k.code, addr, s.order + 1, none, 0⟩) ∧
    (s.rbit Reg.FLT_BIN_STAT 0 = true → t.rbit Reg.FLT_BIN_STAT 1 = true ∧ t.flt.bin = s.flt.bin) ∧
    (s.srcState k.src = 0 → t.srcState k.src = 1 ∧
      t.quietDue k.src = some (s.tick + bits (s.reaction k.src 1) 15 0 * 100000)) ∧
    (s.srcState k.src = 2 → t.srcState k.src = 2 ∧ t.quietDue k.src = s.quietDue k.src) ∧
    (bit (s.reaction k.src 0) 1 = true → t.flt.trapEnd = some (s.tick + s.fld Reg.FLT_CTRL 15 8 * 100)) ∧
    (bit (s.reaction k.src 0) 4 = true →
      t.rbit Reg.FLT_ERR 0 = true ∧ t.flt.errMinEnd = some (s.tick + s.fld Reg.FLT_CTRL 7 0 * 100000))

/-- The times that a message starts come to their ends (R118, R120, R122): ERR_MIN ends, the trap pulse falls, and a quiet period
ends in a recovery, which makes the source NORMAL with its count in the window, or RETIRED above its limit. -/
def Obligations.FaultTimesEnd : Prop :=
  ∀ (s : State) (d : Nat), s.ticking = true →
    let t := s.advanceTo d
    (s.flt.errMinEnd = some d →
      ∃ u : State, exec .errMinEnd s = .next (s.after u) ∧ u.flt.errMinEnd = none ∧ u.tick = max s.tick d ∧ Only [.flt] t u) ∧
    (s.flt.trapEnd = some d →
      ∃ u : State, exec .trapPulseEnd s = .next (s.after u) ∧ u.flt.trapEnd = none ∧ u.tick = max s.tick d ∧ Only [.flt, .out] t u ∧
        u.out = .pin "TRAP_OUT" (some false) :: t.out) ∧
    (∀ src : Src, s.quietDue src.val = some d →
      ∃ u : State, exec (.quietPeriodEnd src) s = .next (s.after u) ∧ u.quietDue src.val = none ∧
        u.srcState src.val = (if t.winNext src.val > bits (t.reaction src.val 2) 7 0 then 2 else 0) ∧
        (t.winNext src.val ≤ bits (t.reaction src.val 2) 7 0 →
          u.fld (Reg.FLT_RECOV src.val) 24 16 = t.winNext src.val ∧ u.tick = max s.tick d ∧
          Only [.order, .regs, .guards, .flt] t u))

/-- The owner's release makes a RETIRED source NORMAL with an empty window, where its unit is not held (R119). -/
def Obligations.SourceIsReleased : Prop :=
  ∀ (s : State) (o : OpCtx) (src : Src), s.Granted o OpEnv.quiet Reg.FLT_RELEASE [word (2 ^ 31 + src.val)] →
    s.srcState src.val = 2 → s.flt.held.contains src.val = false → src.val ≠ 1 →
    ∃ u : State, exec (.fltRelease o src) s = .next (s.written o u) ∧ u.srcState src.val = 0 ∧
      u.fld (Reg.FLT_RECOV src.val) 24 16 = 0 ∧ Only [.order, .regs, .flt] s u ∧
      u.fld (Reg.FLT_RECOV src.val) 15 0 = s.fld (Reg.FLT_RECOV src.val) 15 0

/-- A wedged Ladder port is isolated and counted, with LAD.WEDGE naming it; at port 0 the chip is reset with cause 7 (R60, R61,
R66). The end of a unit's block reset ends the isolation of its port, and of the unit's reset (R61, R113). -/
def Obligations.WatchdogAndBlockReset : Prop :=
  ∀ s : State, s.coreOn = true →
    (∀ p : Src, s.isolated p.val = false → p.val ≠ 0 → s.unitInReset 1 = false →
      ∃ u : State, exec (.ladderWatchdogExpiry p) s = .next (s.after u) ∧ u.isolated p.val = true ∧
        u.fld Reg.DEV_LAD_STAT 13 8 = p.val ∧ u.rbit Reg.DEV_LAD_STAT 0 = true ∧ u.rbit Reg.FLT_PEND_A 1 = true ∧
        (∀ q : Src, q ≠ p → u.isolated q.val = s.isolated q.val) ∧ Only messageParts s u) ∧
    (s.isolated 0 = false →
      ∃ u : State, exec (.ladderWatchdogExpiry 0) s = .next (s.after u) ∧ u.boot.phase = .reset 7 1 ∧ u.mem.loft = s.mem.loft) ∧
    (∀ (p : Src) (env : MemEnv), s.flt.inReset.contains p.val = true → s.flt.held.contains p.val = false →
      ∃ u : State, exec (.blockResetComplete p env) s = .next (s.after u) ∧ u.unitInReset p.val = false ∧ u.isolated p.val = false ∧
        Only ([.energy, .larder, .owed, .ses, .plc, .hed, .hlt, .rej, .hat] ++ messageParts) s u)

/-- At each multiple of 100,000 ticks a lane's envelope window ends (R32): the lane stands outside its envelope, with `EXCEED_Lx`
and a commit, where it moved further than `MAX_RATE` in the window and no made-up time lies in it; the next window starts at 0. -/
def Obligations.EnvelopeWindowEnds : Prop :=
  ∀ (s : State) (n : Lane), s.ticking = true →
    let t := s.advanceTo (s.dueAt (Ev.envelope n) 0 100000)
    let beyond := decide (t.maxRate n ≠ 0) && !(t.lane n).madeUp && decide (t.maxRate n < (t.lane n).advance)
    ∃ u : State, exec (.envelopeWindowEnd n) s = .next (s.after u) ∧ (u.lane n).advance = 0 ∧ (u.lane n).outside = beyond ∧
      (beyond = true → u.rbit Reg.DEV_ENV_STAT n.val = true ∧ u.order = t.order + 1) ∧
      (beyond = false → u.regs = t.regs ∧ u.order = t.order) ∧ (∀ m, m ≠ n → u.lane m = t.lane m) ∧
      Only [.order, .regs, .guards, .fired, .plc] t u

/-! ### Memories -/

/-- A running Hoist channel whose checks pass starts a Cellar operation (R89, R90): it runs with its range and bytes, `RESULT` is
BUSY, the first poll is due after `POLL` µs, and the flash content stands until the operation ends. -/
def Obligations.CellarOperationStarts : Prop :=
  ∀ (s : State) (c : Chan), s.mayExecute c = true → s.isolated 3 = false → s.mem.celRun = none →
    let starts (i : Instr) (op addr : Nat) (data : List Byte) : Prop :=
      ∃ (u : State) (r : CelRun), exec i s = .next (s.after u) ∧ u.mem.celRun = some r ∧ r.op = op ∧ r.addr = addr ∧
        r.pollAt = s.tick + s.fld Reg.MEM_CEL_POLL 15 8 * 100 ∧ r.timeoutAt = s.tick + s.fld Reg.MEM_CEL_POLL 31 20 * 100000 ∧
        r.data.take data.length = data ∧ u.fld Reg.MEM_CEL_PSTAT 7 4 = 1 ∧ u.mem.cellar = s.mem.cellar ∧
        u.mem.larder = s.mem.larder ∧ Only ([.flash, .crates] ++ messageParts) s u
    (∀ (a : Word) (data : List Byte) (v : Bool), data ≠ [] → data.length ≤ 256 →
      s.celRangeOk 1 (bits a 28 0) (data.length - 1) false = true →
      s.crateInUse (celRange 1 (bits a 28 0) (data.length - 1)) = false →
      starts (.celProgram c a data v) 1 (bits a 28 0) data) ∧
    (∀ (a : Word) (v : Bool), s.celRangeOk 2 (bits a 28 0) 0 false = true → s.crateInUse (celRange 2 (bits a 28 0) 0) = false →
      starts (.celErase4k c a v) 2 (bits a 28 0) []) ∧
    (∀ (a : Word) (v : Bool), s.celRangeOk 3 (bits a 28 0) 0 false = true → s.crateInUse (celRange 3 (bits a 28 0) 0) = false →
      starts (.celErase64k c a v) 3 (bits a 28 0) []) ∧
    (∀ (b : Byte) (data : List Byte), data.length ≤ 4 → starts (.celCommand c b data) 4 0 data)

/-- A status byte with the busy bit set lets the operation run on; one without it ends a PROGRAM or an erase with the flash
changed, in its range alone, and `RESULT` DONE (R89, R90). At the poll timeout `RESULT` is TIMEOUT with `PFAIL` (R90). -/
def Obligations.CellarOperationEnds : Prop :=
  ∀ (s : State) (r : CelRun), s.ticking = true → s.mem.celRun = some r →
    (∀ status : Byte,
      let t := s.advanceTo r.pollAt
      let busy := status.toNat.testBit (t.fld Reg.MEM_CEL_POLL 19 16)
      ∃ u : State, exec (.celStatusPoll status) s = .next (s.after u) ∧ u.mem.loft = s.mem.loft ∧ Only (.flash :: messageParts) t u ∧
        (busy = true → (∃ q, u.mem.celRun = some q ∧ q.op = r.op ∧ q.data = r.data ∧ t.tick ≤ q.pollAt) ∧
          u.mem.cellar = s.mem.cellar) ∧
        (busy = false → u.mem.celRun = none ∧
          (∀ a, (a < (celRange r.op r.addr r.len).1 ∨ (celRange r.op r.addr r.len).1 + (celRange r.op r.addr r.len).2 ≤ a) →
            r.data.length = r.len + 1 → u.mem.cellarByte a = s.mem.cellarByte a) ∧
          (r.op = 2 ∨ r.op = 3 → (∀ a, r.addr ≤ a → a < r.addr + (celRange r.op r.addr r.len).2 → u.mem.cellarByte a = 0xFF) ∧
            u.fld Reg.MEM_CEL_PSTAT 7 4 = 2 ∧ u.rbit Reg.MEM_CEL_PSTAT 0 = true) ∧
          (r.op = 1 → ∀ k, k < r.data.length →
            u.mem.cellarByte (r.addr + k) = s.mem.cellarByte (r.addr + k) &&& r.data.getD k 0))) ∧
    (∃ u : State, exec .celPollTimeout s = .next (s.after u) ∧ u.mem.celRun = none ∧ u.fld Reg.MEM_CEL_PSTAT 7 4 = 3 ∧
      u.rbit Reg.MEM_CEL_PSTAT 1 = true ∧ Only ([.flash, .free] ++ messageParts) (s.advanceTo r.timeoutAt) u ∧
      ∀ a, (a < (celRange r.op r.addr r.len).1 ∨ (celRange r.op r.addr r.len).1 + (celRange r.op r.addr r.len).2 ≤ a) →
        u.mem.cellarByte a = s.mem.cellarByte a)

/-- The owner's staged write copies its source to the internal buffer with `RESULT` BUSY (R93, R94); its switch puts those bytes
into the Loft, and a failed one leaves the old content with `RESULT` PROGRAM and `LFAIL` (R94). -/
def Obligations.StagedWriteReachesLoft : Prop :=
  ∀ s : State,
    (∀ (o : OpCtx) (src dst len : Word) (env : OpEnv), s.Granted o env Reg.MEM_LFT_SSRC [src, dst, len, 1] →
      stagedRangeOk src.toNat (bits dst 17 0) (bits len 14 0) = true →
      larderBase ≤ src.toNat → src.toNat + bits len 14 0 ≤ larderBase + 0x400000 → s.isolated 2 = false →
      (∀ k, k < bits len 14 0 / 8 → (s.mem.word64 (larderIdx src.toNat + k)).isSome = true) →
      s.wouldGrant false (stagedEnergy (bits len 14 0)) = true →
      ∃ (u : State) (data : List Byte), exec (.stagedWrite o src dst len env) s = .next (s.written o u) ∧
        u.mem.staged = s.mem.staged ++ [⟨.owner, bits dst 17 0, data⟩] ∧ data.length = bits len 14 0 ∧
        (∀ k, k < bits len 14 0 / 8 → s.mem.word64 (larderIdx src.toNat + k) =
          some (BitVec.ofNat 64 (leBytes ((data.drop (8 * k)).take 8)))) ∧
        u.fld Reg.MEM_LFT_STAT 7 4 = 1 ∧ Only ([.energy, .owed] ++ messageParts) s u) ∧
    (∀ (w : Staged) (rest : List Staged), s.coreOn = true → s.mem.staged = w :: rest →
      (∃ u : State, exec (.loftMapSwitch true) s = .next (s.after u) ∧ u.mem.loftBytes w.offset w.data.length = w.data ∧
        (∀ a, (a < w.offset ∨ w.offset + w.data.length ≤ a) → u.mem.loftByte a = s.mem.loftByte a) ∧
        (w.who = .owner → u.fld Reg.MEM_LFT_STAT 7 4 = 2 ∧ u.rbit Reg.MEM_LFT_STAT 0 = true ∧ u.mem.staged = rest ∧
          Only ([.energy, .flash, .owed] ++ messageParts) s u)) ∧
      (∃ u : State, exec (.loftMapSwitch false) s = .next (s.after u) ∧ u.mem.loft = s.mem.loft ∧ u.mem.staged = rest ∧
        (w.who = .owner → u.fld Reg.MEM_LFT_STAT 7 4 = 6 ∧ u.rbit Reg.MEM_LFT_STAT 1 = true ∧
          Only ([.energy, .owed] ++ messageParts) s u)))

/-- A scrub step moves each bank's scrubber one word on and changes no Larder word, but for one that it visits and finds
uncorrectable, which becomes void (R77, R81). -/
def Obligations.ScrubbersVisitOneWord : Prop :=
  ∀ (s : State) (env : MemEnv), s.ticking = true →
    let t := s.advanceTo (s.dueAt Ev.scrub 0 2500)
    ∃ u : State, exec (.scrubRead env) s = .next (s.after u) ∧
      (∀ b, b < 16 → u.scrubAt b = (t.scrubAt b + 1) % 32768) ∧
      (∀ i, u.mem.word64 i = t.mem.word64 i ∨
        (u.mem.word64 i = none ∧ ∃ b, b < 16 ∧ i = 32768 * b + t.scrubAt b ∧ hasUe env (larderBase + 8 * i) = true)) ∧
      (∀ b, b < 16 → hasUe env (larderBase + 8 * (32768 * b + t.scrubAt b)) = true →
        u.mem.word64 (32768 * b + t.scrubAt b) = none) ∧
      u.mem.cellar = t.mem.cellar ∧ u.mem.loft = t.mem.loft ∧ Only ([.fired, .larder, .flash] ++ messageParts) t u

/-! ### The link and Waislink -/

/-- A good frame that port I does not take is learned and forwarded (R178, R180): its source stands at its port, and it leaves
the ports that its destination calls for, where they are enabled and have room. One of a wrong size is only counted. -/
def Obligations.FramesAreSwitched : Prop :=
  ∀ (s : State) (p : Fin 2) (b : List Byte) (rxFull full : Bool) (env : OpEnv), s.linkRuns p = true →
    let f := readFrame b
    (frameSize b = true → s.takesFrame f = false →
      ∃ u : State, exec (.frameReceived p b rxFull full env) s = .next (s.after u) ∧ u.learned f.src = some p.val ∧
        u.out = (if full = true then [] else
          (((s.learn f.src p.val).egress p.val f.dst).filter fun q => s.portOn q).map fun q => Emit.frame q b) ++ s.out ∧
        Only [.regs, .lnk, .out] s u) ∧
    (frameSize b = true → s.takesFrame f = true → rxFull = true →
      ∃ u : State, exec (.frameReceived p b rxFull full env) s = .next (s.after u) ∧ u.rbit Reg.FLT_PEND_A (6 + p.val) = true ∧
        Only messageParts s u) ∧
    (frameSize b = false →
      ∃ u : State, exec (.frameReceived p b rxFull full env) s = .next (s.after u) ∧ Only [.regs] s u ∧ RegsBut [Reg.LNK_RXERR p.val] s u ∧
        u.reg (Reg.LNK_RXERR p.val) = (if s.reg (Reg.LNK_RXERR p.val) = 0xFFFFFFFF then 0xFFFFFFFF else s.reg (Reg.LNK_RXERR p.val) + 1))

/-- Links come up and go down (R179, R182): LINK_UP sets the port's link and level; a loss raises LINK.DOWN of the port; the
owner's write of the port's configuration drops its link without a message. The other port keeps its link. -/
def Obligations.LinksComeAndGo : Prop :=
  ∀ (s : State) (p q : Fin 2), q ≠ p →
    (∀ amp24, s.linkRuns p = true →
      ∃ u : State, exec (.linkUp p amp24) s = .next (s.after u) ∧ u.lnk.ports[p] = ⟨true, s.linkMode p amp24⟩ ∧
        u.lnk.ports[q] = s.lnk.ports[q] ∧ Only [.lnk] s u) ∧
    (s.linkRuns p = true → s.lnk.ports[p].up = true →
      ∃ u : State, exec (.linkDownEvent p) s = .next (s.after u) ∧ u.lnk.ports[p].up = false ∧ u.lnk.ports[q] = s.lnk.ports[q] ∧
        u.rbit Reg.FLT_PEND_A (6 + p.val) = true ∧ Only messageParts s u) ∧
    (∀ (o : OpCtx) (cfg : Word), let a := if p.val = 0 then Reg.LNK_PORTA_CFG else Reg.LNK_PORTB_CFG
      s.Granted o OpEnv.quiet a [cfg] →
      ∃ u : State, exec (.linkRestart o p cfg) s = .next (s.written o u) ∧ u.lnk.ports[p].up = false ∧
        u.lnk.ports[q] = s.lnk.ports[q] ∧ u.reg a = (s.reg a &&& ~~~(rwMask a)) ||| (cfg &&& rwMask a) ∧
        RegsBut [a] s u ∧ Only [.order, .regs, .lnk] s u)

/-- An ARP request for the station address and an ICMP echo request are answered to their sender, at every port that the switch
sends it to (R180, R186); the learned address refreshed least recently leaves the table at its time (R180). -/
def Obligations.StationAnswersAndForgets : Prop :=
  ∀ (s : State),
    (∀ (p : Fin 2) (b : List Byte), let f := readFrame b
      s.linkRuns p = true → s.takesFrame f = true → s.vlanOk f = true → s.stationIp ≠ 0 →
      (f.etype = 0x0806 → s.arpOk f.payload = true →
        ∃ u : State, exec (.arpRequest p b) s = .next (s.after u) ∧ Only [.regs, .out] s u ∧
          ∀ q ∈ s.egress 2 f.src, s.portOn q = true → Emit.frame q (buildFrame f.src s.stationMac f.tag 0x0806
            ([0, 1, 8, 0, 6, 4, 0, 2] ++ macBytes s.stationMac ++ beN 4 s.stationIp.toNat ++ (f.payload.drop 8).take 10)) ∈ u.out) ∧
      (∀ (src : BitVec 32) (m : List Byte), f.etype = 0x0800 → parseIp f.payload = some (src, s.stationIp, 1, m) →
        8 ≤ m.length → u8 m 0 = 8 → u8 m 1 = 0 → fold16 (wordSum m) = 0xFFFF →
        ∃ u : State, exec (.icmpEchoRequest p b) s = .next (s.after u) ∧ u.lnk.ipId = s.lnk.ipId + 1 ∧ Only [.regs, .lnk, .out] s u ∧
          ∀ q ∈ s.egress 2 f.src, s.portOn q = true → Emit.frame q (buildFrame f.src s.stationMac f.tag 0x0800
            (s.ipHeader 1 m.length src ++ ([0, 0] ++ beN 2 (checksum ([0, 0, 0, 0] ++ m.drop 4)) ++ m.drop 4))) ∈ u.out)) ∧
    (∀ (d : Nat) (e : SwEntry), s.ticking = true → s.ageDue = some d → oldestEntry (s.advanceTo d).lnk.table = some e →
      ∃ u : State, exec .addressAgeing s = .next (s.after u) ∧ u.learned e.mac = none ∧
        (∀ m, m ≠ e.mac → u.learned m = (s.advanceTo d).learned m) ∧ Only [.lnk] (s.advanceTo d) u)

/-- A message read back from its octets gives the items it was made of, with its session, sequence number, session identity and
acknowledgement (R189-R191), whatever follows it in its frame. -/
def Obligations.MessageReadsBack : Prop :=
  ∀ (type session seq id ack : Nat) (items : List (List Byte)) (pad : List Byte),
    type = 1 ∨ type = 5 → session < 256 → seq < 65536 → id < 2 ^ 32 → ack < 65536 → items.length ≤ 32 →
    (∀ x ∈ items, 8 ≤ x.length ∧ x.length % 4 = 0 ∧ u16 x 2 = x.length) → items.flatten.length ≤ 1456 →
    let b := message type session items.length seq id ack items.flatten ++ pad
    parseMessage b = some items ∧ u8 b 1 = type ∧ u8 b 2 = session ∧ u16 b 4 = seq ∧ u32 b 8 = id ∧ u16 b 12 = ack

/-- A message of a bound session (R202, R203, R212): an item with its form and a free tag in a REQUEST of the next sequence number
runs as its operation and is answered; a duplicate without READ and READ_LIST runs nothing again; one out of sequence is answered
NAK; a KEEPALIVE refreshes the session and does nothing else. -/
def Obligations.SessionMessagesAreSequenced : Prop :=
  ∀ (s : State) (p : Peer) (r : Route) (b : List Byte) (env : OpEnv) (items : List (List Byte)) (i : Sess),
    s.peerRuns p = true → s.admits = true → s.booted = true → parseMessage b = some items → s.names p b = some i →
    let seq := BitVec.ofNat 16 (u16 b 4)
    let v := s.refresh i r (BitVec.ofNat 16 (u16 b 12))
    let behind := ((s.sess i).nextSeq - seq).toNat
    (u8 b 1 = 5 → exec (.hostKeepalive p r b) s = .next (s.after v)) ∧
    (v.sess i).refreshed = s.tick ∧ (v.sess i).route = r ∧ (∀ j, j ≠ i → v.sess j = s.sess j) ∧ Only [.lnk] s v ∧
    (u8 b 1 = 1 → behind = 0 → ∀ x, items = [x] → badOp x = false → v.tagBusy i (itemTag6 x) = false → opLength x = some x.length →
      ∀ t c k d, (v.modSess i fun y => { y with nextSeq := y.nextSeq + 1 }).operation ⟨i, seq, itemTag6 x⟩ env x = (t, .now c k d) →
        exec (.waislinkRequest p r b env) s = .next (s.after (t.respond i (respOf (itemOp x) (itemTag x) seq c k d)))) ∧
    (u8 b 1 = 1 → 1 ≤ behind → behind ≤ 16 → (∀ x ∈ items, u8 x 0 ≠ 1 ∧ u8 x 0 ≠ 2) →
      ∃ u : State, exec (.waislinkRequest p r b env) s = .next (s.after u) ∧ Only (.due :: leaveParts) s u) ∧
    (u8 b 1 = 1 → 16 < behind →
      ∃ u : State, exec (.waislinkRequest p r b env) s = .next (s.after u) ∧ (u.sess i).nextSeq = (s.sess i).nextSeq ∧ Only replyParts s u)

/-- A transaction of the local port (R217-R220): a fetch returns the header and the pending message with its CRC, and the message
counts as delivered; an acknowledgement then removes it; a good SEND is counted and its message joins the inbound queue; a bad one
is counted. A granted write that clears `LP_EN` ends session 0 and empties the port's outbound queue (R222). -/
def Obligations.LocalPortMovesMessages : Prop :=
  ∀ s : State,
    (∀ (mosi : List Byte) (env : OpEnv), s.coreOn = true → s.lpOn = true → s.unitInReset 9 = false →
      s.pwr.state ≠ .sleep → s.booted = true → 8 ≤ mosi.length → lpVoid mosi = false →
      (∀ m rest, u8 mosi 0 = 2 → s.ses.lpOut = m :: rest → 12 + m.length ≤ mosi.length →
        ∃ u : State, exec (.localPortTransaction mosi env) s = .next (s.after u) ∧ u.ses.lpDelivered = true ∧ u.ses.lpOut = s.ses.lpOut ∧
          Only [.lnk, .ses, .out] s u ∧
          u.out = .local_ (s.lpHeader ++ m ++ bytesLE 4 (crc32c (s.lpHeader ++ m)) ++
            List.replicate (mosi.length - (12 + m.length)) 0) :: s.out) ∧
      (u8 mosi 0 = 4 → s.ses.lpDelivered = true →
        ∃ u : State, exec (.localPortTransaction mosi env) s = .next (s.after u) ∧ u.ses.lpDelivered = false ∧
          u.ses.lpOut = s.ses.lpOut.drop 1 ∧ Only [.ses, .out] s u) ∧
      (u8 mosi 0 = 1 → s.lpGood mosi = true →
        ∃ v : State, exec (.localPortTransaction mosi env) s = .next (s.after (takeLp 2 v)) ∧
          v.ses.lpIn = s.ses.lpIn ++ [((mosi.drop 8).take (u16 mosi 2), env)] ∧ v.ses.lastGood = true ∧ v.ses.lastBad = false ∧
          Only [.regs, .ses, .out] s v) ∧
      (u8 mosi 0 = 1 → s.lpGood mosi = false →
        ∃ u : State, exec (.localPortTransaction mosi env) s = .next (s.after u) ∧ u.ses.lastGood = false ∧ u.ses.lastBad = true ∧
          u.ses.lpIn = s.ses.lpIn ∧ u.rbit Reg.SES_EVT 3 = true ∧ u.order = s.order + 1 ∧
          Only [.order, .regs, .guards, .ses, .out] s u)) ∧
    (∀ o : OpCtx, s.Granted o OpEnv.quiet Reg.SES_CTRL [s.keeping Reg.SES_CTRL 16 16 0] →
      s.rbit Reg.SES_CTRL 16 = true → (s.sess 0).bound = true →
      ∃ u : State, exec (.lpEnClear o) s = .next (s.written o u) ∧ u.lpOn = false ∧ (u.sess 0).bound = false ∧ u.ses.lpOut = [] ∧
        (s.owner = some 0 → u.owner = none) ∧ Only (.due :: leaveParts) s u)

/-! ### Operations of a session -/

/-- READ and READ_LIST answer the words of one cut (R14, R49, R193): each word of the response is what its address reads as once
the snapshot groups named are captured; nothing but captured registers and wrap guards changes, and an owner's read empties the
guards it names (R57). -/
def Obligations.ReadsAnswerOneCut : Prop :=
  ∀ (s : State) (o : OpCtx) (env : OpEnv), s.Asks o → env.mem.ecc = [] →
    let readable (a : Nat) : Prop := s.badRead a = false ∧ s.heldAt a = false ∧ Read.isFail (s.readWord env.mem a) = false
    let reads (i : Instr) (op : Byte) (l : List Nat) : Prop :=
      ∃ (u : State) (data : List Byte), exec i s = .next (s.answered o op u s.order data) ∧ data.length = 4 * l.length ∧
        (∀ k a v, l[k]? = some a → (s.capture_ l).readWord env.mem a = .ok v → (data.drop (4 * k)).take 4 = bytesLE 4 v) ∧
        u.regs = (s.capture_ l).regs ∧ Only [.regs, .guards] s u ∧
        ∀ a ∈ l, w1gMask a ≠ 0 → u.guard a = (if s.isOwner o.sess then 0 else s.guard a)
    (∀ (addr : Word) (n : Nat), 1 ≤ n → n ≤ 256 →
      (∀ a ∈ wordAddrs addr.toNat n, readable a ∧ regionOf s a = regionOf s addr.toNat) →
      reads (.read o addr n env) 1 (wordAddrs addr.toNat n)) ∧
    (∀ l : List Word, 1 ≤ l.length → l.length ≤ 64 → (∀ a ∈ l, readable a.toNat) →
      reads (.readList o l env) 2 (l.map BitVec.toNat))

/-- A write that sets a W1G bit is refused whole where its session is not owner (R56): with NOT_OWNER, unless an address of it is
refused before by the order of R206. This holds for a deferred write too. -/
def Obligations.FlagClearNeedsOwner : Prop :=
  ∀ (s : State) (o : OpCtx) (addr : Word) (ws : List Word) (w : Nat × Word), s.Asks o → s.isOwner o.sess = false →
    w ∈ wordsAt addr.toNat ws → w.1 < 0x10000 → w.2 &&& w1gMask w.1 ≠ 0 →
    let l := wordsAt addr.toNat ws
    let c : Code := if l.any (fun w => !s.writableAt w.1) then .badAddress
      else if l.any (fun w => readOnlyAt w.1) then .readOnly else .notOwner
    (∀ env, exec (.write o addr ws env) s = .next (s.declined o 3 c)) ∧
    ∀ lane target, exec (.writeDeferred o addr ws lane target) s = .next (s.declined o 3 c)

/-- A granted write of a register that only holds its fields gives it the written bits of its RW fields (R19, R194); a granted
clear with the current generation clears the flags written as 1 and keeps the others and the generation, and one that is not
current changes nothing, counts as stale and makes no commit (R13, R57, R59). A WRITE_MASKED changes the bits of its mask alone
(R196). -/
def Obligations.RegisterWritesTakeTheirBits : Prop :=
  ∀ (s : State) (o : OpCtx) (env : OpEnv) (a : Nat) (v : Word),
    (s.Granted o env a [v] → (a / 0x1000 = 3 ∨ a / 0x1000 = 4) → rwMask a ≠ 0 → w1gMask a = 0 → wtMask a = 0 →
      ∃ u : State, exec (.write o (word a) [v] env) s = .next (s.written o u) ∧
        u.reg a = (s.reg a &&& ~~~(rwMask a)) ||| (v &&& rwMask a) ∧ RegsBut [a] s u ∧ Only [.order, .regs] s u) ∧
    (s.Granted o env a [v] → a < 0x5000 → rwMask a = 0 → v &&& w1gMask a ≠ 0 →
      (s.clearFresh a v = true → ∃ u : State, exec (.write o (word a) [v] env) s = .next (s.written o u) ∧
        u.reg a = s.reg a &&& ~~~(v &&& w1gMask a) ∧ u.guard a = s.guard a ∧ RegsBut [a] s u ∧ Only [.order, .regs, .flt] s u) ∧
      (s.clearFresh a v = false → ∃ u : State, exec (.write o (word a) [v] env) s = .next (s.answered o 3 u 0 []) ∧
        RegsBut [staleOf a] s u ∧ Only [.regs] s u ∧
        u.reg (staleOf a) = (if s.reg (staleOf a) = 0xFFFFFFFF then 0xFFFFFFFF else s.reg (staleOf a) + 1))) ∧
    (∀ m : Word, s.Asks o → s.isOwner o.sess = true → (a / 0x1000 = 3 ∨ a / 0x1000 = 4) → hasTrigger a = false →
      s.derived a = none → rwMask a &&& m ≠ 0 → s.isolated (portOf s a) = false → env.mem.ecc = [] →
      s.admitWrite true [(a, s.maskedValue (word a) m v)] [] = none →
      s.commitRefusal env.mem [(a, s.maskedValue (word a) m v)] = none →
      ∃ u : State, exec (.writeMasked o (word a) m v env) s = .next (s.answered o 4 u (s.order + 1) []) ∧
        u.reg a = (s.reg a &&& ~~~(rwMask a &&& m)) ||| (v &&& (rwMask a &&& m)) ∧ RegsBut [a] s u ∧ Only [.order, .regs] s u)

/-- A granted write of a Larder word changes that word alone, which then reads as written (R5, R78, R194); a granted write of a
word of the reaction table puts the word there alone (R71, R108). -/
def Obligations.MemoryWritesPutTheirWords : Prop :=
  ∀ (s : State) (o : OpCtx) (env : OpEnv) (a : Nat) (v : Word), s.Granted o env a [v] →
    (larderBase ≤ a → a < larderBase + 0x400000 →
      ∃ u : State, exec (.write o (word a) [v] env) s = .next (s.written o u) ∧ readLarder u.mem MemEnv.quiet a 4 = .ok v.toNat ∧
        (∀ i, i ≠ larderIdx a → u.mem.word64 i = s.mem.word64 i) ∧
        (∀ x, s.mem.word64 (larderIdx a) = some x →
          readLarder u.mem MemEnv.quiet (a / 8 * 8 + (4 - a % 8)) 4 = readLarder s.mem MemEnv.quiet (a / 8 * 8 + (4 - a % 8)) 4) ∧
        Only [.order, .larder] s u) ∧
    (0xB0000 ≤ a → a < 0xB1000 →
      ∃ u : State, exec (.write o (word a) [v] env) s = .next (s.written o u) ∧ u.mem.table a = v &&& tableMask a ∧
        (∀ b, b ≠ a → u.mem.table b = s.mem.table b) ∧ u.mem.larder = s.mem.larder ∧ Only [.order, .flash] s u)

/-- A deferred write whose checks pass joins the queue of its lane and is owed its response (R51, R195); the one that is due first
then leaves the queue and, for a Larder word of a bank that the owner may write, puts its word and is answered (R51). -/
def Obligations.DeferredWritesWaitAndCommit : Prop :=
  ∀ (s : State) (n : Lane),
    (∀ (o : OpCtx) (addr : Word) (ws : List Word) (target : Pc), s.Asks o → s.isOwner o.sess = true →
      s.admitWrite true (wordsAt addr.toNat ws) (countCode ws ++ s.deferCodes true n.val target) = none →
      ∃ u : State, exec (.writeDeferred o addr ws n.val target) s = .next (s.after (u.owe o.sess o.seq o.tag)) ∧
        (u.lane n).deferred = (s.lane n).deferred ++ [⟨target, o.sess, o.seq, o.tag, true, addr.toNat, ws⟩] ∧
        (∀ m, m ≠ n → u.lane m = s.lane m) ∧ u.order = s.order + 1 ∧ Only [.order, .plc] s u) ∧
    (∀ (d : Deferred) (v : Word) (env : OpEnv), s.ticking = true → s.deferredNext n = some d → d.words = [v] →
      larderBase ≤ d.addr → d.addr < larderBase + 0x400000 → d.addr % 4 = 0 → s.mayWriteBank holdOwner (bankOf d.addr) = true →
      s.isolated 2 = false → env.mem.ecc = [] →
      ∃ u : State, exec (.deferredCommit n env) s =
          .next (s.after (if d.owed = true then u.respond d.sess ⟨3, BitVec.ofNat 8 d.tag.toNat, .ok, d.seq, s.order + 1, []⟩ else u)) ∧
        (u.lane n).deferred = (s.lane n).deferred.erase d ∧ readLarder u.mem MemEnv.quiet d.addr 4 = .ok v.toNat ∧
        u.order = s.order + 1 ∧ Only [.order, .plc, .larder] s u)

/-- The life of a session (R197-R200): OPEN binds the lowest free slot for a peer that holds none and answers in the new session;
SUBSCRIBE replaces the subscription; DISCOVER answers the identity and commits nothing; CLOSE of a network session is answered and
ends it, which makes ownership vacant where it was owner. -/
def Obligations.SessionsOpenAndClose : Prop :=
  ∀ s : State,
    (∀ (p : Peer) (r : Route) (seq : BitVec 16) (tag : BitVec 6) (ka : Nat) (i : Sess), s.admits = true → s.booted = true →
      100 ≤ ka → ka ≤ 60000 → s.sessOf p = none → s.freeSlotFor p = some i →
      ∃ u : State, exec (.open_ p r seq tag ka) s =
          .next (s.after (u.respond i ⟨8, BitVec.ofNat 8 tag.toNat, .ok, seq, s.order + 1, u.openData i⟩)) ∧
        (u.sess i).bound = true ∧ (u.sess i).peer = p ∧ (u.sess i).kaMs = ka ∧ (u.sess i).nextSeq = seq + 1 ∧
        (u.sess i).classes = 0 ∧ u.sessionId i = ((s.sess i).binds + 1).toNat * 256 + i.val ∧ u.order = s.order + 1 ∧
        (∀ j, j ≠ i → u.sess j = s.sess j) ∧ Only [.order, .lnk] s u) ∧
    (∀ (o : OpCtx) (c lo hi : Word), s.Asks o → c &&& 0xFFFFFFFC = 0 → hi &&& 0xFFFFFFF0 = 0 →
      ∃ u : State, exec (.subscribe o c lo hi) s = .next (s.answered o 0x10 u (s.order + 1) []) ∧ (u.sess o.sess).classes = c ∧
        (u.sess o.sess).srcLo = lo ∧ (u.sess o.sess).srcHi = hi ∧ (∀ j, j ≠ o.sess → u.sess j = s.sess j) ∧ Only [.order, .lnk] s u) ∧
    (∀ (m : BitVec 48) (r : Route) (seq : BitVec 16) (tag : BitVec 6), s.admits = true → s.booted = true →
      ∃ u : State, exec (.discover (.ether m) r seq tag) s = .next (s.after u) ∧ Only [.regs, .out] s u ∧
        ∀ q ∈ s.egress 2 r.mac, s.portOn q = true → Emit.frame q (buildFrame r.mac s.stationMac r.tag (s.fld Reg.LNK_ETYPE 15 0)
          (message 2 0xFF 1 0 0 0 (respBytes ⟨0x11, BitVec.ofNat 8 tag.toNat, .ok, seq, s.order, s.identity⟩))) ∈ u.out) ∧
    (∀ o : OpCtx, s.Asks o → o.sess ≠ 0 →
      ∃ u : State, exec (.close o) s = .next (s.after u) ∧ (u.sess o.sess).bound = false ∧
        Emit.resp o.sess (respOf 9 (BitVec.ofNat 8 o.tag.toNat) o.seq .ok (s.order + 1) []) ∈ u.out ∧
        (s.owner = some o.sess → u.owner = none) ∧ (s.owner ≠ some o.sess → u.owner = s.owner) ∧ Only (.due :: leaveParts) s u)

/-- NONCE gives the session the next nonce (R226). A CLAIM with the session's nonce, a claim key and its HMAC opens an election
where nobody owns the GL4480, renews the owner's priority, and uses up the nonce (R227-R229); one with another HMAC is answered
AUTH_FAIL with SES.CLAIM_FAIL (R228). -/
def Obligations.ClaimsAreChecked : Prop :=
  ∀ (s : State) (o : OpCtx), s.Asks o →
    (∀ b : List Byte, let id : Word := s.reg Reg.SES_NONCE_ID + 1
      ∃ u : State, exec (.nonce o (some b)) s = .next (s.answered o 0x0A u (s.order + 1) (bytesLE 4 id.toNat ++ b)) ∧
        (u.sess o.sess).nonce = some (id, b) ∧ u.reg Reg.SES_NONCE_ID = id ∧ (∀ j, j ≠ o.sess → u.sess j = s.sess j) ∧
        Only [.order, .regs, .lnk, .ses] s u) ∧
    (∃ u : State, exec (.nonce o none) s =
        .next (s.after (u.respond o.sess (respOf 0x0A (BitVec.ofNat 8 o.tag.toNat) o.seq .busy 0 []))) ∧
      u.ses.entropyBad = true ∧ u.reg Reg.SES_NONCE_ID = s.reg Reg.SES_NONCE_ID ∧ Only (.ses :: messageParts) s u) ∧
    (∀ (prio : Nat) (id : Word) (b mac key : List Byte), prio ≤ 7 → (s.sess o.sess).nonce = some (id, b) →
      s.claimKey o.sess prio = some key →
      (hmacSha256 key (s.claimText o.sess b id prio) = mac →
        (s.owner = none → s.ses.electEnd = none → ¬ (o.sess = 0 ∧ s.localPrec = true) →
          ∃ u : State, exec (.claim o prio id mac) s = .next (s.after (u.owe o.sess o.seq o.tag)) ∧
            (u.sess o.sess).cand = some (prio, o.seq, o.tag) ∧ (u.sess o.sess).nonce = none ∧
            u.ses.electEnd = some (s.tick + s.fld Reg.SES_CTRL 9 0 * 100000) ∧ u.boot.claimWaitEnd = none ∧ u.owner = none ∧
            ((s.sess o.sess).cand = none → Only [.order, .lnk, .ses, .boot] s u)) ∧
        (s.owner = some o.sess →
          ∃ u : State, exec (.claim o prio id mac) s = .next (s.answered o 0x0B u (s.order + 1) []) ∧ u.owner = some o.sess ∧
            u.fld Reg.SES_OWNER 10 8 = prio ∧ (u.sess o.sess).nonce = none ∧ Only [.order, .regs, .lnk, .boot] s u)) ∧
      (hmacSha256 key (s.claimText o.sess b id prio) ≠ mac → s.unitInReset 9 = false →
        ∃ u : State, exec (.claim o prio id mac) s =
            .next (s.after (u.respond o.sess (respOf 0x0B (BitVec.ofNat 8 o.tag.toNat) o.seq .authFail 0 []))) ∧
          (u.sess o.sess).nonce = none ∧ u.rbit Reg.FLT_PEND_A 9 = true ∧ u.rbit Reg.SES_EVT 2 = true ∧ u.owner = s.owner ∧
          Only messageParts s u))

/-- A key installation that passes its checks and gets its energy is staged for its slot of the Loft, and answered at its switch
(R224, R238, R239): the unwrapped key with its CRC, or an erased slot. -/
def Obligations.KeyInstallIsStaged : Prop :=
  ∀ (s : State) (o : OpCtx) (slot : Byte) (id : Word) (wrapped b mac key : List Byte), s.Asks o → s.isOwner o.sess = true →
    s.badSlot slot = false → (s.sess o.sess).nonce = some (id, b) → s.claimKey o.sess (s.fld Reg.SES_OWNER 10 8) = some key →
    s.wouldGrant false (stagedEnergy 64) = true → wrapped.length = 32 →
    let text := s.keyText o.sess b id slot
    let new := List.zipWith (fun a b => a ^^^ b) wrapped (hmacSha256 key ([0x47, 0x4C, 0x4B, 0x57] ++ text))
    hmacSha256 key ([0x47, 0x4C, 0x4B, 0x49] ++ text ++ wrapped) = mac →
    (slot.toNat.testBit 7 = true ∨ new ≠ List.replicate 32 0) →
    ∃ u : State, exec (.keyInstall o slot id wrapped mac) s = .next (s.after (u.owe o.sess o.seq o.tag)) ∧
      u.mem.staged = s.mem.staged ++ [⟨.key o.sess o.seq o.tag (slot.toNat % 8) true, 0x8000 + 0x40 * (slot.toNat % 8),
        if slot.toNat.testBit 7 then List.replicate 64 0xFF else keyBytes new⟩] ∧
      (u.sess o.sess).nonce = none ∧ u.owner = s.owner ∧ Only ([.energy, .owed] ++ messageParts) s u

/-- GRANT and RESIGN (R233): the owner's GRANT to another bound slot makes it owner with the same priority; one that names the
owner itself has no effect and gets order stamp 0; to a free slot or beyond 8 it is refused with BAD_VALUE; the owner's RESIGN
makes ownership vacant; from an observer both are refused with NOT_OWNER. -/
def Obligations.GrantAndResign : Prop :=
  ∀ (s : State) (o : OpCtx), s.Asks o →
    (s.isOwner o.sess = true →
      (∀ k : Sess, (s.sess k).bound = true → k ≠ o.sess →
        ∃ u : State, exec (.grant o k.val) s = .next (s.answered o 0x0C u (s.order + 1) []) ∧ u.owner = some k ∧
          u.fld Reg.SES_OWNER 10 8 = s.fld Reg.SES_OWNER 10 8 ∧ Only messageParts s u) ∧
      exec (.grant o o.sess.val) s = .next (s.answered o 0x0C s 0 []) ∧
      (∀ dst : Nat, (8 < dst ∨ ∃ k : Sess, k.val = dst ∧ (s.sess k).bound = false) →
        exec (.grant o dst) s = .next (s.declined o 0x0C .badValue)) ∧
      (∃ u : State, exec (.resign o) s = .next (s.answered o 0x0D u (s.order + 1) []) ∧ u.owner = none ∧ Only messageParts s u)) ∧
    (s.isOwner o.sess = false →
      (∀ dst, exec (.grant o dst) s = .next (s.declined o 0x0C .notOwner)) ∧
      exec (.resign o) s = .next (s.declined o 0x0D .notOwner))

/-- The election closes with the leading candidate as owner (R230); a session whose keepalive is lost ends, with ownership vacant
where it was owner (R212, R236); an unacknowledged event message is sent again and stays unacknowledged (R210); a session that was
sent nothing gets a KEEPALIVE (R212). -/
def Obligations.SessionTimesRunOut : Prop :=
  ∀ (s : State) (d : Nat), s.ticking = true →
    let t := s.advanceTo d
    (∀ (i : Sess) (p : Nat) (c : BitVec 16 × BitVec 6), s.ses.electEnd = some d → t.leader = some i → (t.sess i).cand = some (p, c) →
      p ≤ 7 →
      ∃ u : State, exec .electionClose s = .next (s.after u) ∧ u.owner = some i ∧ u.fld Reg.SES_OWNER 10 8 = p ∧ u.ses.electEnd = none ∧
        (∀ j, (u.sess j).cand = none) ∧ u.tick = max s.tick d ∧ Only (.due :: leaveParts) t u) ∧
    (∀ i : Sess, s.lossDue i = some d → (t.sess i).bound = true → t.unitInReset 8 = false →
      ∃ u : State, exec (.keepaliveLoss i) s = .next (s.after u) ∧ (u.sess i).bound = false ∧ u.rbit Reg.FLT_PEND_A 8 = true ∧
        (t.owner = some i → u.owner = none) ∧ (t.owner ≠ some i → u.owner = t.owner) ∧ Only (.due :: leaveParts) t u) ∧
    (∀ (i : Sess) (m : EventMsg) (l : List EventMsg), s.admits = true → s.resendDue i = some d → (t.sess i).unacked = m :: l →
      i ≠ 0 →
      ∃ u : State, exec (.eventResend i) s = .next (s.after u) ∧ (u.sess i).unacked = m :: l ∧ (u.sess i).evtSentAt = t.tick ∧
        (u.sess i).sentAt = t.tick ∧ Only [.regs, .lnk, .ses, .out] t u) ∧
    (∀ i : Sess, s.admits = true → s.idleDue i = some d →
      ∃ u : State, exec (.idleKeepalive i) s = .next (s.after u) ∧ (u.sess i).sentAt = t.tick ∧ Only [.regs, .lnk, .ses, .out] t u ∧
        ((t.sess i).peer = .lp → i = 0 → t.ses.lpOut = [] → u.ses.lpOut = [t.sessMsg 0 5 0 0 []]))

/-! ### Timers -/

/-- Source events of a running timer (R243-R250): they advance its count by the prescaled number, at a tick for TB100; a compare
value that is reached sets its flag and, with `RESET_SELF`, takes the value off the count; a wrap sets the overflow flag. -/
def Obligations.TimersCountAndMatch : Prop :=
  ∀ (s : State) (t : TimerId) (n : Nat) (i : Instr), i = .timerMatch t n ∨ i = .timerOverflow t n → s.ticking = true →
    let counts (x : TimerId) (k : Nat) : Nat := min k (if s.tmDiv x = 0 then k else ((s.timer x).acc + 65536 * k) / s.tmDiv x)
    let k := counts t n
    (s.tmSrc t = 0 → n = 1 → s.tmRun t = true →
      (∀ x, s.tmRun x = true → s.srcEvents x s.tick (s.tick + 1) ≠ 0 →
        s.tmHits x (counts x (s.srcEvents x s.tick (s.tick + 1))) = []) →
      ∃ u : State, exec i s = .next (s.after u) ∧ u.tick = s.tick + 1 ∧ (u.timer t).count = (s.timer t).count + BitVec.ofNat 48 k ∧
        (u.timer t).acc = (s.timer t).acc + 65536 - k * s.tmDiv t ∧ Only [.tick, .tmr] s u) ∧
    ((3 ≤ s.tmSrc t ∧ s.tmSrc t ≤ 6 ∨ 11 ≤ s.tmSrc t) → s.tmRun t = true → n ≠ 0 →
      (s.tmHits t k = [] →
        ∃ u : State, exec i s = .next (s.after u) ∧ (u.timer t).count = (s.timer t).count + BitVec.ofNat 48 k ∧
          (∀ x, x ≠ t → u.timer x = s.timer x) ∧ Only [.tmr] s u) ∧
      (∀ c, c < 4 → s.tmHits t k = [c] → (s.tmAct t c = 0 ∨ s.tmAct t c = 1) →
        ∃ u : State, exec i s = .next (s.after u) ∧ u.rbit (Reg.TMR_STAT t) c = true ∧
          (u.timer t).count = (s.timer t).count + BitVec.ofNat 48 k - (if s.tmAct t c = 1 then s.tmVal t c else 0) ∧
          (∀ x, x ≠ t → u.timer x = s.timer x) ∧ RegsBut [Reg.TMR_STAT t] s u ∧ Only [.order, .regs, .guards, .tmr] s u) ∧
      (s.tmHits t k = [4] → s.tmAct t 4 = 0 → (∀ x, s.tmSrc x = 11 → s.tmOvfSrc x ≠ t.val) →
        (∀ l : Lane, ¬ (s.fld (Reg.PLC_SRC l) 2 0 = 5 ∧ s.fld (Reg.PLC_SRC l) 7 4 = t.val)) →
        ∃ u : State, exec i s = .next (s.after u) ∧ u.rbit (Reg.TMR_STAT t) 4 = true ∧ u.order = s.order + 1 ∧
          (u.timer t).count = (s.timer t).count + BitVec.ofNat 48 k ∧ Only [.order, .regs, .guards, .tmr] s u))

/-- Granted writes of timer registers (R251, R252): `LOAD` puts `TMR_LOAD` into the count and clears what the prescaler has
gathered; a force field drives the TOUT pins of its bits and no other. -/
def Obligations.TimerWritesAct : Prop :=
  ∀ (s : State) (o : OpCtx),
    (∀ (t : TimerId) (env : OpEnv), s.Granted o env (Reg.TMR_CFG t) [s.keeping (Reg.TMR_CFG t) 31 31 1] →
      ∃ u : State, exec (.timerLoad o t env) s = .next (s.written o u) ∧
        (u.timer t).count = BitVec.ofNat 48 ((s.reg (Reg.TMR_LOAD_LO t)).toNat + s.fld (Reg.TMR_LOAD_HI t) 15 0 * 2 ^ 32) ∧
        (u.timer t).acc = 0 ∧ (∀ x, x ≠ t → u.timer x = s.timer x) ∧ RegsBut [] s u ∧ Only [.order, .regs, .tmr] s u) ∧
    (∀ pins : BitVec 4, s.Granted o OpEnv.quiet Reg.TMR_TOUT [s.keeping Reg.TMR_TOUT 19 16 pins.toNat] →
      ∃ u : State, exec (.forceHigh o pins) s = .next (s.written o u) ∧
        (∀ p : Fin 4, u.rbit Reg.TMR_TOUT p.val = (pins.toNat.testBit p.val || s.rbit Reg.TMR_TOUT p.val)) ∧
        (∀ p : Fin 4, pins.toNat.testBit p.val = true → Emit.pin ("TOUT" ++ toString p.val) (some true) ∈ u.out) ∧
        RegsBut [Reg.TMR_TOUT] s u ∧ Only [.order, .regs, .out] s u) ∧
    (∀ pins : BitVec 4, s.Granted o OpEnv.quiet Reg.TMR_TOUT [s.keeping Reg.TMR_TOUT 23 20 pins.toNat] →
      ∃ u : State, exec (.forceLow o pins) s = .next (s.written o u) ∧
        (∀ p : Fin 4, u.rbit Reg.TMR_TOUT p.val = (!pins.toNat.testBit p.val && s.rbit Reg.TMR_TOUT p.val)) ∧
        (∀ p : Fin 4, pins.toNat.testBit p.val = true → Emit.pin ("TOUT" ++ toString p.val) (some false) ∈ u.out) ∧
        RegsBut [Reg.TMR_TOUT] s u ∧ Only [.order, .regs, .out] s u)

/-- Edges at the timers' pins (R249, R254-R256): an edge of a TCLK ball takes its level, restarts its stop window and ends its
stopped state; a stop window that ends sets it with TMR.TCLK_STOP; an edge of an AUX_IN ball is captured by the channel that
selects it. -/
def Obligations.TimerPinsAct : Prop :=
  ∀ (s : State) (p : Fin 4) (level : Bool), s.ticking = true →
    (s.rbit (Reg.TMR_TCLK_CFG p) 0 = true → s.tmr.aux[p] ≠ level →
      ∃ u : State, exec (.tclkEdge p level) s = .next (s.after u) ∧ u.tmr.aux[p] = level ∧ u.tmr.tclkAt[p] = s.tick ∧
        u.rbit Reg.TMR_TCLK_STAT (8 + p.val) = false ∧ Only clockParts s u) ∧
    (∀ d, s.tclkDue p = some d →
      let t := s.advanceTo d
      t.unitInReset 10 = false →
      ∃ u : State, exec (.tclkStopWindowEnd p) s = .next (s.after u) ∧ u.rbit Reg.TMR_TCLK_STAT (8 + p.val) = true ∧
        u.rbit Reg.TMR_TCLK_STAT p.val = true ∧ u.rbit Reg.FLT_PEND_A 10 = true ∧ Only messageParts t u) ∧
    (s.rbit (Reg.TMR_TCLK_CFG p) 0 = false → s.tmr.aux[p] ≠ level →
      (∀ x : Axis, ¬ (s.fld (Reg.MOT_CFG x) 21 20 = p.val ∧ s.rbit (Reg.MOT_CFG x) 22 = level)) →
      let takes (t : TimerId) (c : Nat) : Prop := s.tmMode t c = 2 ∧ s.fld (Reg.TMR_VAL_HI t c) 23 20 = p.val ∧
        edgeOf (s.fld (Reg.TMR_VAL_HI t c) 25 24) level = true
      ((∀ t c, c < 4 → ¬ takes t c) →
        ∃ u : State, exec (.auxInEdge p level false) s = .next (s.after u) ∧ u.tmr.aux[p] = level ∧
          u.tmr.timers = s.tmr.timers ∧ Only [.tmr] s u) ∧
      (∀ t c, c < 4 → takes t c → (∀ t' c', c' < 4 → takes t' c' → t' = t ∧ c' = c) → s.tmAct t c = 0 →
        ∃ u : State, exec (.auxInEdge p level false) s = .next (s.after u) ∧ u.tmr.aux[p] = level ∧ u.tmr.timers = s.tmr.timers ∧
          u.tmVal t c = (s.timer t).count ∧ u.tmMode t c = 2 ∧ u.rbit (Reg.TMR_STAT t) c = true ∧
          RegsBut [Reg.TMR_VAL_LO t c, Reg.TMR_VAL_HI t c, Reg.TMR_STAT t] s u))

/-! ### Placement -/

/-- Position inputs (R264-R270): a count of a master encoder or of a coarse step input moves its raw count by one, and every lane
that counts it by one step of its scale; an illegal transition is counted, reported and makes the record in the print window
SUSPECT; Z captures the raw count; LOS is reported; a discarded pulse is only counted; INHIBIT_N takes its level. -/
def Obligations.PositionInputsCount : Prop :=
  ∀ (s : State), s.ticking = true →
    (∀ (e : Enc) (a b : Bool), s.losNow e = false →
      let x := s.plc.encs[e]
      let r := decode (s.fld (Reg.PLC_ENC_CFG e) 1 0) x.a x.b a b
      (∀ d, r = (false, some d) →
        ∃ u : State, exec (.encoderCount e a b) s = .next (s.after u) ∧
          u.reg (Reg.PLC_ENC_RAW e) = s.reg (Reg.PLC_ENC_RAW e) + BitVec.ofInt 32 d ∧ u.plc.encs[e].a = a ∧ u.plc.encs[e].b = b ∧
          Only (.fired :: .mot :: clockParts) s u ∧ ∀ n : Lane, s.fld (Reg.PLC_SRC n) 2 0 = 1 + e.val →
            let l := (laneStep (s.lane n) (s.reg (Reg.PLC_SCALE n)).toNat (if s.rbit (Reg.PLC_SRC n) 8 then -d else d)).1
            (u.lane n).pc = l.pc ∧ (u.lane n).frac = l.frac ∧ (u.lane n).hwm = l.hwm) ∧
      (∀ c, r = (true, c) → s.unitInReset (32 + e.val) = false →
        ∃ u : State, exec (.encoderCount e a b) s = .next (s.after u) ∧ u.reg (Reg.PLC_ENC_RAW e) = s.reg (Reg.PLC_ENC_RAW e) ∧
          u.rbit (Reg.PLC_ENC_STAT e) 0 = true ∧ u.rbit Reg.FLT_PEND_B (4 + e.val) = true ∧
          Only (recordParts ++ messageParts) s u ∧ ∀ (n : Lane) (q : Rec), s.laneEnc n = some e → s.printing n = some q → q.verdict = .pending →
            s.slotWritable n (s.slotAddr n q) = true →
            ∃ q' : Rec, u.printing n = some q' ∧ q'.serial = q.serial ∧ q'.verdict = .suspect)) ∧
    (∀ e : Enc, s.plc.encs[e].z = false →
      ∃ u : State, exec (.encZEdge e true false) s = .next (s.after u) ∧ u.plc.encs[e].z = true ∧
        u.reg (Reg.PLC_ENC_ZCAP e) = s.reg (Reg.PLC_ENC_RAW e) ∧ u.rbit (Reg.PLC_ENC_STAT e) 2 = true ∧
        Only [.order, .regs, .guards, .plc, .mot] s u) ∧
    (∀ (e : Enc) (level : Bool), s.losNow e = false → s.rbit (Reg.PLC_ENC_CFG e) 16 = true →
      s.rbit (Reg.PLC_ENC_CFG e) 17 = level → s.unitInReset (32 + e.val) = false →
      ∃ u : State, exec (.encLosChange e level false) s = .next (s.after u) ∧ u.losNow e = true ∧
        u.rbit (Reg.PLC_ENC_STAT e) 1 = true ∧ u.rbit Reg.FLT_PEND_B (4 + e.val) = true ∧ Only axisParts s u) ∧
    (∀ (c : Fin 2) (step dir : Bool), s.rbit (Reg.PLC_CSTEP_CFG c) 0 = true → s.plc.steps[c].1 ≠ step →
      edgeOf (s.fld (Reg.PLC_CSTEP_CFG c) 17 16) step = true →
      ∃ u : State, exec (.coarseStep c step dir) s = .next (s.after u) ∧ u.plc.steps[c] = (step, dir) ∧
        u.reg (Reg.PLC_CSTEP_RAW c) = s.reg (Reg.PLC_CSTEP_RAW c) + (if dir = true then -1 else 1) ∧
        Only (.mot :: clockParts) s u) ∧
    (∀ i : Fin 32, ∃ u : State, exec (.discardedPulse i) s = .next (s.after u) ∧ Only [.regs] s u ∧
      ∀ a, u.reg a = (if s.discardCounter i.val = some a ∧ s.reg a ≠ 0xFFFFFFFF then s.reg a + 1 else s.reg a)) ∧
    (∀ level, ∃ u : State, exec (.inhibitChange level false) s = .next (s.after u) ∧ u.rej.inhibit = level ∧ Only [.rej] s u)

/-- A pin event that finds its admission queue full is discarded (R64, R493): every fitted lane that uses the input is forced to
reject, and DEV.ADMIT_OVERRUN names the input. -/
def Obligations.FullInputForcesRejects : Prop :=
  ∀ (s : State) (i : Instr) (k : Nat), s.ticking = true → s.unitInReset 0 = false →
    (∃ p level, i = .auxInEdge p level true ∧ k = 12 + p.val ∧ s.rbit (Reg.TMR_TCLK_CFG p) 0 = false) ∨
    (∃ e level, i = .encZEdge e level true ∧ k = 2 + 3 * e.val) ∨ (∃ e level, i = .encLosChange e level true ∧ k = 3 * e.val) ∨
    (∃ p level, i = .photoEyeEdge p level true ∧ k = 18 + p.val) ∨ (∃ level, i = .inhibitChange level true ∧ k = 30) →
    ∃ u : State, exec i s = .next (s.after u) ∧ u.rbit Reg.FLT_PEND_A 0 = true ∧
      (∀ n : Lane, (u.rejLane n).forceOverrun = ((s.rejLane n).forceOverrun || (s.fitted n && s.usesInput n k))) ∧
      (∀ n : Lane, s.fitted n = true → s.usesInput n k = true → u.rejecting n = true ∧ u.rbit (Reg.REJ_EVT n) 3 = true) ∧
      u.plc = s.plc ∧ u.tmr = s.tmr ∧ u.rej.inhibit = s.rej.inhibit ∧ Only (.rej :: messageParts) s u

/-! ### Product records -/

/-- The course of a product to its latch (R271-R278, R284, R287, R495): a selected photo-eye edge that may create a record makes one
with the next serial number, its positions taken from the present count, and any other selected edge is only counted; at its latch a
record takes its columns and pitch, and is BYPASSED, UNMARKED for want of a job, or reserved and given to its render; the end of a
stall window abandons the mark in the print window. -/
def Obligations.ProductsAreRecordedAndLatched : Prop :=
  ∀ (s : State) (n : Lane), s.ticking = true →
    (∀ (p : Fin 4) (level : Bool), s.plc.pe[p] ≠ level → (∀ m : Lane, s.peSelected m p level = true ↔ m = n) →
      (s.unitInReset (14 + n.val) = true ∨ s.mayCreate n = false →
        ∃ u : State, exec (.photoEyeEdge p level false) s = .next (s.after u) ∧ u.plc.pe[p] = level ∧ u.plc.lanes = s.plc.lanes ∧
          u.reg (Reg.PLC_PE_IGNORED n) = s.oneMore (Reg.PLC_PE_IGNORED n) ∧ RegsBut [Reg.PLC_PE_IGNORED n] s u ∧ Only [.regs, .plc] s u) ∧
      (s.unitInReset (14 + n.val) = false → s.mayCreate n = true → (s.lane n).recs.length < 128 → s.losHold n = false →
        (∀ q ∈ (s.lane n).recs, q.serial ≠ s.reg (Reg.PLC_SERIAL n) + 1) → s.slotWritable n (s.slotAddr n (s.newRec n)) = true →
        ∃ (u : State) (r : Rec), exec (.photoEyeEdge p level false) s = .next (s.after u) ∧ u.plc.pe[p] = level ∧
          (u.lane n).recs = (s.lane n).recs ++ [r] ∧ r.state = .created ∧ r.verdict = .pending ∧
          r.serial = s.reg (Reg.PLC_SERIAL n) + 1 ∧ u.reg (Reg.PLC_SERIAL n) = r.serial ∧ r.edge = (s.lane n).pc ∧
          r.trigger = r.edge + BitVec.ofNat 48 (s.fld (Reg.PLC_TRIG n) 23 0) ∧
          r.latch = r.trigger - BitVec.ofNat 48 (s.leadPc n) ∧
          r.gate = r.trigger + BitVec.ofNat 48 (s.fld (Reg.REJ_GATE n) 23 0) ∧ u.order = s.order + 1 ∧
          (∀ m : Lane, m ≠ n → u.lane m = s.lane m) ∧ RegsBut [Reg.PLC_SERIAL n] s u ∧ Only [.order, .regs, .larder, .plc] s u)) ∧
    (∀ (env : MemEnv) (r : Rec), s.latchNext n = some r → r.verdict = .pending → s.slotWritable n (s.slotAddr n r) = true →
      (s.bypassed n = true →
        ∃ (u : State) (q : Rec), exec (.latch n env) s = .next (s.after u) ∧ u.findRec n r.serial = some q ∧ q.state = .final ∧
          q.verdict = .bypassed ∧ q.columns = (s.lane n).cols ∧ q.pitch = (s.reg (Reg.PLC_PITCH n)).toNat ∧
          q.latchAt = (s.lane n).pc ∧ (∀ m : Lane, m ≠ n → u.lane m = s.lane m) ∧ Only ([.guards, .hed, .hlt] ++ recordParts) s u) ∧
      (s.bypassed n = false → s.maxRate n = 0 →
        ∃ (u : State) (q : Rec), exec (.latch n env) s = .next (s.after u) ∧ u.findRec n r.serial = some q ∧ q.state = .final ∧
          q.verdict = .unmarked ∧ q.cause = r.cause ||| 4 ∧ (∀ m : Lane, m ≠ n → u.lane m = s.lane m) ∧
          Only ([.guards, .hed, .hlt] ++ recordParts) s u) ∧
      (∀ c : Rec, let v := (s.latchHead n).takeLatch n r
        v.findRec n r.serial = some c → v.latchStop n c = none → v.healthVerdict n = none → (s.lane n).outside = false →
        s.losHold n = false → v.wouldGrant true (c.eFix + c.columns * c.eCol) = true →
        (∀ x, s.carryAxis n = some x → s.camOffset x 0 ≠ 0) →
        ∃ (u : State) (q : Rec), exec (.latch n env) s = .next (s.after u) ∧ u.findRec n r.serial = some q ∧ q.state = .latched ∧
          q.verdict = .pending ∧ q.columns = (s.lane n).cols ∧ q.set.isSome = true ∧ q.ring = some s.cmp.next[n] ∧
          u.cmp.next[n] = (s.cmp.next[n] + (s.lane n).cols) % s.ringCols n ∧
          ⟨.mark n r.serial, c.eFix + c.columns * c.eCol⟩ ∈ u.pwr.live ∧
          (∀ x, s.carryAxis n = some x → (u.axis x).cycle = true ∧ (u.axis x).waiting = false) ∧
          Only ([.fired, .mot, .hed, .hlt] ++ (recordParts ++ messageParts)) s u)) ∧
    (∀ d, s.stallDue n = some d →
      let t := s.advanceTo d
      (t.printing n = none →
        ∃ u : State, exec (.stallWindowEnd n) s = .next (s.after u) ∧ (u.lane n).stallDone = true ∧ (u.lane n).recs = (t.lane n).recs ∧
          (∀ m : Lane, m ≠ n → u.lane m = t.lane m) ∧ Only [.plc] t u) ∧
      (∀ r, t.printing n = some r → r.verdict = .pending →
        ∃ (u : State) (q : Rec), exec (.stallWindowEnd n) s = .next (s.after u) ∧ (u.lane n).stallDone = true ∧
          u.findRec n r.serial = some q ∧ q.state = .final ∧ q.verdict = .incomplete ∧ q.cause = r.cause ||| 32 ∧
          u.rbit (Reg.PLC_EVT n) 2 = true ∧ (∀ m : Lane, m ≠ n → u.lane m = t.lane m) ∧
          Only (.hlt :: (recordParts ++ messageParts)) t u))

/-- The emission of a column of a printing record (R138, R275, R449-R454): it is stamped into the record; it is fired at the planned
sample boundary with the codes of its columns where that lies within the gap limit and its data can be read, and skipped and counted
beyond that limit; the last column ends the mark as MARKED. A record whose render is not done at column 0 is UNMARKED. -/
def Obligations.ColumnsAreEmitted : Prop :=
  ∀ (s : State) (n : Lane) (env : MemEnv) (r : Rec) (start : Nat), s.ticking = true → s.columnNext n = some r → r.verdict = .pending →
    r.ring = some start → s.slotWritable n (s.slotAddr n r) = true →
    (r.state = .latched → ∃ (u : State) (q : Rec), exec (.columnEmission n false false env) s = .next (s.after u) ∧
      u.findRec n r.serial = some q ∧ q.state = .final ∧ q.verdict = .unmarked ∧ q.cause = r.cause ||| 128 ∧ Only (recordParts ++ messageParts) s u) ∧
    (r.state = .printing →
      let ring := s.columnAddr n start r.col
      let w := (s.stampColumn n r r.col).copyDelay n ring r.col env
      let due := s.planFire n
      (∀ (done : Bool) (col : Nat → List Byte), due.2 - due.1 ≤ s.fld (Reg.HED_PACE n) 31 16 → s.isolated (18 + n.val) = false →
        s.unitInReset (18 + n.val) = false → w.columnData n ring r.col env = .ok col →
        ∃ (u : State) (q : Rec), exec (.columnEmission n done false env) s = .next (s.after u) ∧
          (u.head n).firings = (s.head n).firings ++
            [⟨due.2, .column r.serial r.col, w.productCodes n (s.colBytes n) col r.col, s.ampScale n, s.tScale n⟩] ∧
          (u.head n).fLast = some due.2 ∧ u.findRec n r.serial = some q ∧ q.col = r.col + 1 ∧ q.last = (s.lane n).pc ∧
          q.skips = r.skips ∧
          (r.col + 1 = r.columns → q.state = .final ∧ q.verdict = .marked) ∧
          (r.col + 1 ≠ r.columns → q.state = .printing ∧ q.verdict = .pending ∧ u.order = s.order + 1) ∧
          (∀ m : Lane, m ≠ n → u.lane m = s.lane m ∧ u.head m = s.head m) ∧ Only ([.hed, .hlt] ++ recordParts) s u) ∧
      (∀ done : Bool, due.2 - due.1 > s.fld (Reg.HED_PACE n) 31 16 → r.col + 1 ≠ r.columns →
        (r.skips < s.fld (Reg.HED_SKIP n) 11 0 ∨ s.fld (Reg.HED_SKIP n) 11 0 < r.skips) →
        ∃ (u : State) (q : Rec), exec (.columnEmission n done false env) s = .next (s.after u) ∧ u.hed = s.hed ∧
          u.reg (Reg.HED_SKIPS n) = s.oneMore (Reg.HED_SKIPS n) ∧ u.findRec n r.serial = some q ∧ q.skips = r.skips + 1 ∧
          q.col = r.col + 1 ∧ q.verdict = .pending ∧ RegsBut [Reg.HED_SKIPS n] s u ∧ Only ([.hlt] ++ recordParts) s u))

/-! ### Rejects and line signals -/

/-- What the reject outputs and LIVE do in time (R169, R488-R497): a final record at the gate is counted and freed, and starts a window
where its outcome rejects; windows and spans end where their end has come; a readback sample is taken, and READBACK raised where it
first differs; LIVE changes each half-period, and a late edge is only counted; the owner ends a forced reject, after which an
unrecorded span runs. -/
def Obligations.RejectsAndLineRun : Prop :=
  ∀ (s : State) (n : Lane), s.ticking = true →
    (∀ r : Rec, s.atGate n = some r → r.state = .final →
      (gatePasses r.verdict = true →
        ∃ u : State, exec (.gateAction n) s = .next (s.after u) ∧ u.reg (Reg.REJ_CNT_PASS n) = s.oneMore (Reg.REJ_CNT_PASS n) ∧
          u.reg (Reg.REJ_CNT_COVERED n) = (if s.rejecting n = true then s.oneMore (Reg.REJ_CNT_COVERED n) else s.reg (Reg.REJ_CNT_COVERED n)) ∧
          (u.lane n).recs = (s.lane n).recs.filter (fun q => !decide (q.serial = r.serial)) ∧ u.order = s.order + 1 ∧
          RegsBut [Reg.REJ_CNT_PASS n, Reg.REJ_CNT_COVERED n] s u ∧ Only [.order, .regs, .larder, .plc] s u) ∧
      (gatePasses r.verdict = false → s.merges n = false →
        ∃ u : State, exec (.gateAction n) s = .next (s.after u) ∧ u.reg (Reg.REJ_CNT_REJ n) = s.oneMore (Reg.REJ_CNT_REJ n) ∧
          (u.rejLane n).window = some (if s.rejTime n = true then .time (s.tick + s.rejWidth n * 10000)
            else .pos ((s.lane n).pc + BitVec.ofNat 48 (s.rejWidth n))) ∧
          (u.lane n).recs = (s.lane n).recs.filter (fun q => !decide (q.serial = r.serial)) ∧ u.order = s.order + 1 ∧
          (∀ m : Lane, m ≠ n → u.rejLane m = s.rejLane m) ∧ RegsBut [Reg.REJ_CNT_REJ n] s u ∧
          Only [.order, .regs, .larder, .plc, .rej] s u)) ∧
    (∀ p, (s.rejLane n).window = some (.pos p) → pcGe (s.lane n).hwm p = true →
      ∃ u : State, exec (.rejWindowEnd n) s = .next (s.after u) ∧ (u.rejLane n).window = none ∧ u.order = s.order + 1 ∧
        (u.rejLane n).lastEnd = (s.rejLane n).lastEnd ∧ Only [.order, .rej] s u) ∧
    (∀ d, (s.rejLane n).window = some (.time d) →
      ∃ u : State, exec (.rejWindowEnd n) s = .next (s.after u) ∧ (u.rejLane n).window = none ∧ u.tick = max s.tick d ∧
        Only [.order, .rej] (s.advanceTo d) u) ∧
    (∀ p, (s.rejLane n).span = some p → pcGe (s.lane n).pc p = true →
      ∃ u : State, exec (.spanEnd n) s = .next (s.after u) ∧ (u.rejLane n).span = none ∧ u.order = s.order + 1 ∧ Only [.order, .rej] s u) ∧
    (∀ (d : Nat) (v : Bool), s.readbackDue n = some d → (s.rejLane n).drive = some v →
      let t := s.advanceTo d
      (∃ u : State, exec (.readbackSample n v) s = .next (s.after u) ∧ u.rej.pins.getLsbD (t.rejOut n) = v ∧
        (u.rejLane n).rbAt = none ∧ (u.rejLane n).rbDiffers = false ∧ u.tick = max s.tick d ∧ Only [.fired, .rej] t u) ∧
      ((s.rejLane n).rbDiffers = false → t.unitInReset 34 = false →
        ∃ u : State, exec (.readbackSample n (!v)) s = .next (s.after u) ∧ u.rej.pins.getLsbD (t.rejOut n) = !v ∧
          (u.rejLane n).rbDiffers = true ∧ u.rbit (Reg.REJ_EVT n) 0 = true ∧ u.rbit Reg.FLT_PEND_B 6 = true ∧
          Only ([.fired, .rej] ++ messageParts) t u)) ∧
    (∀ d, s.rej.liveAt = some d →
      let t := s.advanceTo d
      (∃ u : State, exec (.liveEdge false) s = .next (s.after u) ∧ u.rej.live = !s.rej.live ∧ u.rej.liveAt = some (d + t.liveHalf) ∧
        u.out = .pin "LIVE" (some !s.rej.live) :: t.out ∧ u.order = t.order + 1 ∧ Only [.order, .rej, .out] t u) ∧
      (∃ u : State, exec (.liveEdge true) s = .next (s.after u) ∧ u.rej.live = s.rej.live ∧ u.rej.liveAt = some (d + t.liveHalf) ∧
        u.reg Reg.REJ_LIVE_DROP = t.oneMore Reg.REJ_LIVE_DROP ∧ RegsBut [Reg.REJ_LIVE_DROP] t u ∧ Only [.regs, .rej] t u)) ∧
    (∀ o : OpCtx, s.Granted o OpEnv.quiet (Reg.REJ_CTRL n) [s.keeping (Reg.REJ_CTRL n) 31 31 1] → s.forced n = true →
      ∃ u : State, exec (.rejRelease o n) s = .next (s.written o u) ∧ (u.rejLane n).forceOverrun = false ∧
        (u.rejLane n).forceFull = false ∧
        (if s.maxRate n = 0 then (u.rejLane n).spanDue = true else (u.rejLane n).span.isSome = true ∧ (u.rejLane n).spanDue = false) ∧
        (u.rejLane n).window = (s.rejLane n).window ∧ (∀ m : Lane, m ≠ n → u.rejLane m = s.rejLane m) ∧
        RegsBut [] s u ∧ Only [.order, .regs, .rej] s u)

/-! ### Jobs, crates and the calendar -/

/-- Jobs, crates and the calendar (R282, R388-R393, R420-R422, R433): an accepted selection sets the lane's job and what its job record
and envelope give, a deselection clears the rate and loads no table; a verification runs from its VGO to its result; a second boundary
counts, rolls over at midnight and stops after the last day, and the owner's GO sets day and second; a checkpoint whose values have
changed is staged where its energy is granted, and fails else. -/
def Obligations.JobsAndCalendarRun : Prop :=
  ∀ s : State,
    (∀ (o : OpCtx) (n : Lane) (crate : BitVec 17) (job : Byte) (env : OpEnv) (x : Selection),
      let w := word (crate.toNat + job.toNat * 2 ^ 24)
      s.Granted o env (Reg.PLC_JOB n) [w] → job ≠ 255 → s.checkSelection n crate.toNat job.toNat (!env.mem.noDqs) = .ok x →
      ∃ u : State, exec (.jobSelection o n crate job env) s = .next (s.written o u) ∧ (u.lane n).cols = x.job.columns ∧
        (∀ e : Nat × Word,
          e ∈ [(Reg.PLC_JOB n, w), (Reg.DEV_ENV_RATE n, word x.env.maxRate), (Reg.DEV_ENV_COUNT n, 0),
            (Reg.PWR_MARK n, word x.job.eFix), (Reg.PWR_MARKCOL n, word x.job.eCol)] →
          (∀ f ∈ x.values, f.1 ≠ e.1) → u.reg e.1 = e.2) ∧
        (∀ m : Lane, m ≠ n → u.lane m = s.lane m) ∧
        Only ([.flash, .plc, .hed] ++ messageParts) s u) ∧
    (∀ (o : OpCtx) (n : Lane), s.Granted o OpEnv.quiet (Reg.PLC_JOB n) [0xFF000000] →
      ∃ u : State, exec (.jobDeselection o n) s = .next (s.written o u) ∧ u.reg (Reg.PLC_JOB n) = 0xFF000000 ∧ u.maxRate n = 0 ∧
        u.lane n = s.lane n ∧ u.mem = s.mem ∧
        (s.lateRec n = none → RegsBut [Reg.PLC_JOB n, Reg.DEV_ENV_RATE n] s u ∧ Only [.order, .regs] s u)) ∧
    (∀ (o : OpCtx) (crate : BitVec 17), s.Granted o OpEnv.quiet Reg.CMP_CRATE_VADDR [word crate.toNat, 1] →
      ∃ u : State, exec (.crateVerify o crate) s = .next (s.written o u) ∧ u.crates.run = some ⟨crate.toNat, false⟩ ∧
        u.crates.entries = s.crates.entries ∧ u.fld Reg.CMP_CRATE_VSTAT 7 4 = 1 ∧
        RegsBut [Reg.CMP_CRATE_VADDR, Reg.CMP_CRATE_VSTAT] s u ∧ Only [.order, .regs, .crates] s u) ∧
    (∀ (v : VerRun) (answers : Bool), s.ticking = true → s.crates.run = some v → s.celHeld = false →
      (v.changed = true →
        ∃ u : State, exec (.crateVerifyDone answers) s = .next (s.after u) ∧ u.crates.run = none ∧
          u.fld Reg.CMP_CRATE_VSTAT 15 8 = Why.changed ∧ u.fld Reg.CMP_CRATE_VSTAT 7 4 = 3 ∧ u.rbit Reg.CMP_CRATE_VSTAT 1 = true ∧
          Only [.order, .regs, .guards, .crates, .free] s u) ∧
      (∀ h, v.changed = false → verifyCrate (s.crateSrc v.crate answers) s.installedKey = .ok h →
        ∃ (u : State) (k : Fin 8), exec (.crateVerifyDone answers) s = .next (s.after u) ∧ u.crates.run = none ∧
          u.fld Reg.CMP_CRATE_VSTAT 7 4 = 2 ∧ u.rbit Reg.CMP_CRATE_VSTAT 0 = true ∧
          u.reg (Reg.CMP_CRATE_VER k.val) = word (v.crate + h.sigSlot * 2 ^ 20 + 2 ^ 24 + b2n h.signed * 2 ^ 25) ∧
          u.reg (Reg.CMP_CRATE_VHCRC k.val) = word h.hcrc ∧ Only [.order, .regs, .guards, .crates] s u) ∧
      (∀ e, v.changed = false → verifyCrate (s.crateSrc v.crate answers) s.installedKey = .error e → e.reason ≠ Why.read → e.reason < 256 →
        ∃ u : State, exec (.crateVerifyDone answers) s = .next (s.after u) ∧ u.crates.run = none ∧
          u.fld Reg.CMP_CRATE_VSTAT 15 8 = e.reason ∧ u.fld Reg.CMP_CRATE_VSTAT 7 4 = 3 ∧ u.rbit Reg.CMP_CRATE_VSTAT 1 = true ∧
          u.reg Reg.CMP_CRATE_VOFF = word e.off ∧ Only [.order, .regs, .guards, .crates] s u)) ∧
    (s.pwr.state ≠ .off → s.cal.isSet = true →
      (s.cal.second < 86399 →
        ∃ u : State, exec .secondBoundary s = .next (s.after u) ∧ u.cal.second = s.cal.second + 1 ∧ u.cal.day = s.cal.day ∧
          u.cal.isSet = true ∧ u.order = s.order + 1 ∧ Only [.order, .cal] s u) ∧
      (s.cal.second = 86399 → s.cal.day < 73048 →
        ∃ u : State, exec .secondBoundary s = .next (s.after u) ∧ u.cal.second = 0 ∧ u.cal.day = s.cal.day + 1 ∧
          u.cal.isSet = true ∧ u.rbit Reg.CAL_EVT 0 = true ∧ RegsBut [Reg.CAL_EVT] s u ∧ Only [.order, .regs, .guards, .cal] s u) ∧
      (s.cal.second = 86399 → s.cal.day = 73048 →
        ∃ u : State, exec .secondBoundary s = .next (s.after u) ∧ u.cal.isSet = false ∧ Only [.order, .cal] s u)) ∧
    (∀ (o : OpCtx) (day time : Word), s.Granted o OpEnv.quiet Reg.CAL_SET_DAY [day, time, 1] →
      ∃ u : State, exec (.calSet o day time) s = .next (s.written o u) ∧ u.cal.day = bits day 16 0 ∧ u.cal.second = bits time 16 0 ∧
        u.cal.isSet = true ∧ RegsBut [Reg.CAL_SET_DAY, Reg.CAL_SET_TIME] s u ∧ Only [.order, .regs, .cal] s u) ∧
    (s.ticking = true → s.booted = true → s.fld Reg.CAL_CKPT_CFG 11 0 ≠ 0 →
      let t := s.advanceTo (s.dueAt Ev.checkpoint s.boot.doneAt (s.fld Reg.CAL_CKPT_CFG 11 0 * 100000000))
      t.unitInReset 13 = false → t.cal.ckpt ≠ t.cntWords → t.stagedBusy (fun w => match w with | .ckpt _ => true | _ => false) = false →
      (t.wouldGrant false 236 = true →
        ∃ u : State, exec .checkpointRequest s = .next (s.after u) ∧
          u.mem.staged = t.mem.staged ++ [⟨.ckpt false, 0x15000, t.ckptBytes false⟩] ∧ ⟨.staged 13 4, 236⟩ ∈ u.pwr.live ∧
          Only [.order, .energy, .owed, .fired] t u) ∧
      (t.wouldGrant false 236 = false →
        ∃ u : State, exec .checkpointRequest s = .next (s.after u) ∧ u.rbit Reg.CAL_EVT 2 = true ∧ u.mem = t.mem ∧
          Only ([.energy, .fired] ++ messageParts) t u))

/-! ### Axes -/

/-- Granted commands of an axis (R292-R305, R327): each takes the axis to the state it names, with the motion that it starts or ends,
and leaves every other axis as it is. -/
def Obligations.AxisCommandsAct : Prop :=
  ∀ (s : State) (o : OpCtx) (x : Axis),
    let gives (k : Nat) (i : Instr) (p : AxisSt → Prop) : Prop := s.Granted o OpEnv.quiet (Reg.MOT_CMD x) [word (2 ^ k)] →
      ∃ u : State, exec i s = .next (s.written o u) ∧ p (u.axis x) ∧ (∀ y, y ≠ x → u.axis y = s.axis y) ∧ u.mot.axb = s.mot.axb ∧
        RegsBut [Reg.MOT_EVT x, Reg.MOT_DRV_EVT x] s u ∧ Only [.order, .regs, .guards, .fired, .energy, .mot] s u
    let a := s.axis x
    (a.state = .disabled → gives 0 (.motEnable o x) fun b => b.state = .idle ∧ b.cmd = a.cmd ∧ b.emit = a.cmd ∧
      (isStepper x = true → b.drive.standstill = false ∧
        b.drive.rampEnd = some (s.tick + s.fld (Reg.MOT_DRV_SS x) 31 16 * 1000))) ∧
    (a.state ≠ .disabled → gives 1 (.motDisable o x) fun b => b.state = .disabled ∧ b.cmd = a.cmd ∧ b.emit = a.cmd) ∧
    (a.cmd.toInt ≠ sword (s.reg (Reg.MOT_TARGET x)) → s.moveDistance x < 2 ^ 32 →
      gives 2 (.motMove o x) fun b => b.state = .move ∧ b.cmd = a.cmd ∧ b.rem = s.moveDistance x ∧ b.v = s.axVstart x * 65536 ∧
        b.vm = (s.reg (Reg.MOT_VMAX x)).toNat * 65536 ∧ b.endless = false ∧
        b.dirNeg = decide (sword (s.reg (Reg.MOT_TARGET x)) < a.cmd.toInt)) ∧
    (a.cmd.toInt = sword (s.reg (Reg.MOT_TARGET x)) → gives 2 (.motMove o x) fun b => b.state = .idle ∧ b.cmd = a.cmd) ∧
    (gives 3 (.motHome o x) fun b => b.state = .home ∧ b.home = some .search ∧ b.homeStart = a.cmd ∧ b.endless = true ∧
      b.v = s.axVstart x * 65536 ∧ b.vm = (s.reg (Reg.MOT_HOMEVEL x)).toNat * 65536 ∧ b.dirNeg = s.rbit (Reg.MOT_CFG x) 23) ∧
    (gives 4 (.motEngage o x) fun b => b.state = .gear ∧ b.waiting = s.axGmode x ∧ b.anchor = a.mhwm ∧ b.ratio = 0 ∧
      b.blend = none ∧ b.nextCam = 0 ∧ b.cmd = a.cmd) ∧
    (a.state = .move → gives 5 (.motDecel o x) fun b => b.state = .move ∧ b.endless = false ∧
      b.rem = (if a.endless = true then s.dstop x a.v a.vs + 1 else min a.rem (s.dstop x a.v a.vs + 1))) ∧
    (a.state = .home → gives 5 (.motDecel o x) fun b => b.state = .home ∧ b.home = some .fail ∧ b.endless = false) ∧
    (a.state = .gear → gives 5 (.motDecel o x) fun b => b.state = .idle ∧ b.cmd = a.cmd) ∧
    (s.axMoves x = true → gives 6 (.motStop o x) fun b => b.state = .halt ∧ b.cmd = a.cmd ∧ b.emit = a.cmd ∧ b.v = 0 ∧
      b.suspect = (a.suspect || s.abovePullIn x) ∧ b.home = none ∧ b.cycle = false) ∧
    (a.state = .halt → gives 7 (.motClear o x) fun b => b.state = .idle ∧ b.drive.ocOff = false ∧ b.cmd = a.cmd ∧ b.suspect = a.suspect)

/-- Motion in time (R289, R295-R299, R305-R309, R318): a tick of the rate multiplier or of the interpolator adds its speed, and at a
carry moves the command position by one; a done move ends; a microstep leaves toward the command position; a due cam point sets its
ratio or its blend; counts and index edges of the feedback are taken; the two freeze windows restart, or stop the axis; a drive fault
stops a servo axis, and its release is taken. -/
def Obligations.AxesMove : Prop :=
  ∀ (s : State) (x : Axis), s.ticking = true →
    let a := s.axis x
    let pends (u : State) : Prop := (if x.val < 2 then u.rbit Reg.FLT_PEND_A (26 + x.val) else u.rbit Reg.FLT_PEND_B (x.val - 2)) = true
    let lagOk (t : State) (cmd : BitVec 64) : Prop := t.onBus x = true ∨ (cmd - a.emit).toInt.natAbs ≤ t.fld (Reg.MOT_STEP x) 31 16
    (∀ d, s.profileDue x = some d →
      let t := s.advanceTo d
      let v := if a.endless = false ∧ a.rem ≤ t.dstop x a.v a.vs then max a.vs (a.v - t.axDec x)
        else if a.v < a.vm then min a.vm (a.v + (t.reg (Reg.MOT_ACC x)).toNat) else a.v
      (a.ph + v < 2 ^ 48 → ∃ u : State, exec (.profileTick x) s = .next (s.after u) ∧ u.axis x = { a with v := v, ph := a.ph + v } ∧
        u.tick = max s.tick d ∧ (∀ y, y ≠ x → u.axis y = s.axis y) ∧ Only [.fired, .mot] t u) ∧
      (∀ c, c = (if a.dirNeg = true then a.cmd - 1 else a.cmd + 1) → 2 ^ 48 ≤ a.ph + v → a.home ≠ some .search → lagOk t c →
        ∃ u : State, exec (.profileTick x) s = .next (s.after u) ∧ (u.axis x).cmd = c ∧ (u.axis x).v = v ∧
          (u.axis x).ph = a.ph + v - 2 ^ 48 ∧ (u.axis x).rem = a.rem - 1 ∧ (u.axis x).state = a.state ∧
          (∀ y, y ≠ x → u.axis y = s.axis y) ∧ Only [.order, .regs, .guards, .fired, .mot] t u)) ∧
    (s.moveOver x = true →
      (a.home ≠ some .stop →
        ∃ u : State, exec (.moveDone x) s = .next (s.after u) ∧ (u.axis x).state = .idle ∧ (u.axis x).cmd = a.cmd ∧
          u.rbit (Reg.MOT_EVT x) (if a.home = some .fail then 2 else 0) = true ∧ u.isLive (.axis x) = false ∧
          (∀ y, y ≠ x → u.axis y = s.axis y) ∧ RegsBut [Reg.MOT_EVT x] s u ∧ Only [.order, .regs, .guards, .energy, .mot] s u) ∧
      (∀ ref, a.home = some .stop → a.homeRef = some ref →
        ∃ u : State, exec (.moveDone x) s = .next (s.after u) ∧ u.rbit (Reg.MOT_EVT x) 1 = true ∧ (u.axis x).suspect = false ∧
          (u.axis x).cmd = a.cmd - ref + to64 (sword (s.reg (Reg.MOT_HOMEPOS x))) ∧ (u.axis x).emit = (u.axis x).cmd ∧
          Only [.order, .regs, .guards, .fired, .energy, .mot] s u)) ∧
    (∀ onA onB, s.mayEmit x = true →
      let t := s.advanceTo (s.emitDue x)
      let neg := decide (s.backlog x < 0)
      let inc : BitVec 10 := BitVec.ofNat 10 (2 ^ t.fld (Reg.MOT_DRV_CFG x) 3 0)
      let phase := if neg = true then a.drive.phase - inc else a.drive.phase + inc
      (if isStepper x = true then phase.toNat % 256 ≠ 0 else t.rbit (Reg.MOT_CFG x) 16 = false) →
      ∃ u : State, exec (.microstepEmission x onA onB) s = .next (s.after u) ∧
        (u.axis x).emit = (if neg = true then a.emit - 1 else a.emit + 1) ∧ (u.axis x).cmd = a.cmd ∧
        (u.axis x).lastEmit = some t.tick ∧ (isStepper x = true → (u.axis x).drive.phase = phase) ∧
        u.out = .step x (if isStepper x = false ∧ a.dirOut ≠ neg then t.tick + 10 else t.tick) neg :: t.out ∧
        (∀ y, y ≠ x → u.axis y = s.axis y) ∧ Only [.mot, .out] t u) ∧
    (s.camDue x = true → ¬ (s.axGmode x = true ∧ s.camBlend x a.nextCam = 0 ∧ a.nextCam + 1 = s.camPoints x) →
      ∃ u : State, exec (.camPoint x) s = .next (s.after u) ∧
        u.axis x = (if s.camBlend x a.nextCam = 0 then { a with ratio := s.camRatio x a.nextCam, blend := none, nextCam := a.nextCam + 1 }
          else { a with blend := some ⟨a.ratio, s.camRatio x a.nextCam, 0, s.camBlend x a.nextCam⟩, nextCam := a.nextCam + 1 }) ∧
        u.order = s.order + 1 ∧ Only [.order, .mot] s u) ∧
    (∀ d k ref c, s.fbWinDue x = some d → a.fbWin = some (k, ref, c) →
      let t := s.advanceTo d
      ((a.cmd - c).toInt.natAbs < t.fld (Reg.MOT_FOLLOW x) 31 16 →
        ∃ u : State, exec (.fbFreezeWindowEnd x) s = .next (s.after u) ∧ (u.axis x).fbWin = some (t.tick, t.feedback x, a.cmd) ∧
          (u.axis x).state = a.state ∧ Only [.mot] t u) ∧
      (t.fld (Reg.MOT_FOLLOW x) 31 16 ≤ (a.cmd - c).toInt.natAbs → t.unitInReset (26 + x.val) = false →
        ∃ u : State, exec (.fbFreezeWindowEnd x) s = .next (s.after u) ∧ pends u ∧ (u.axis x).fbWin = none ∧ (u.axis x).suspect = true ∧
          (a.state ≠ .disabled → (u.axis x).state = .halt ∧ (∀ y, y ≠ x → u.axis y = s.axis y)) ∧ Only axisParts t u)) ∧
    (∀ d, s.mWinDue x = some d →
      let t := s.advanceTo d
      let turns := a.state = .gear ∧ (a.blend.isSome = true ∨ t.fld (Reg.MOT_GEAR x) 31 16 * 2 ^ 24 ≤ a.ratio.toInt.natAbs)
      (¬ turns → ∃ u : State, exec (.mFreezeWindowEnd x) s = .next (s.after u) ∧ (u.axis x).state = a.state ∧
        (u.axis x).mWin = (if a.state = .gear then some (t.tick, a.mpos) else none) ∧ Only [.mot] t u) ∧
      (turns → t.unitInReset (26 + x.val) = false →
        ∃ u : State, exec (.mFreezeWindowEnd x) s = .next (s.after u) ∧ pends u ∧ (u.axis x).mWin = none ∧
          (u.axis x).suspect = true ∧ (u.axis x).state = .halt ∧ Only axisParts t u)) ∧
    (∀ (i : Fin 2) (p q : Bool),
      let r := decode 1 s.plc.fbs[i].a s.plc.fbs[i].b p q
      (∀ d, r = (false, some d) → ∃ u : State, exec (.feedbackCount i p q) s = .next (s.after u) ∧ u.plc.fbs[i].a = p ∧
        u.plc.fbs[i].b = q ∧ u.reg (Reg.MOT_FBCOUNT (servoAxis i)) = s.reg (Reg.MOT_FBCOUNT (servoAxis i)) + BitVec.ofInt 32 d ∧ Only axisParts s u) ∧
      (∀ c, r = (true, c) → ∃ u : State, exec (.feedbackCount i p q) s = .next (s.after u) ∧ u.plc.fbs[i].a = p ∧ u.plc.fbs[i].b = q ∧
        u.reg (Reg.MOT_FB_JUMPS i) = s.oneMore (Reg.MOT_FB_JUMPS i) ∧ RegsBut [Reg.MOT_FB_JUMPS i] s u ∧ Only [.regs, .plc] s u)) ∧
    (∀ i : Fin 2, x = servoAxis i → s.plc.fbs[i].z = false → a.home = some .index → s.fld (Reg.MOT_CFG x) 26 24 = 1 →
      ∃ u : State, exec (.fbZEdge i true false) s = .next (s.after u) ∧ (u.axis x).homeRef = some a.cmd ∧ (u.axis x).home = some .stop ∧
        u.plc.fbs[i].z = true ∧ Only [.plc, .mot] s u) ∧
    (a.drive.pend ≠ 0 →
      let t := s.advanceTo (s.dueAt (Ev.interp x) a.drive.tPrev 1)
      (a.drive.iph + a.drive.iv < 2 ^ 32 →
        ∃ u : State, exec (.interpolationTick x) s = .next (s.after u) ∧
          u.axis x = { a with drive := { a.drive with iph := a.drive.iph + a.drive.iv } } ∧ Only [.fired, .mot] t u) ∧
      (∀ c, c = (if a.drive.idirNeg = true then a.cmd - 1 else a.cmd + 1) → 2 ^ 32 ≤ a.drive.iph + a.drive.iv → lagOk t c →
        ∃ u : State, exec (.interpolationTick x) s = .next (s.after u) ∧ (u.axis x).cmd = c ∧
          (u.axis x).drive.pend = a.drive.pend - 1 ∧ (u.axis x).drive.iph = a.drive.iph + a.drive.iv - 2 ^ 32 ∧
          Only [.order, .regs, .guards, .fired, .mot] t u)) ∧
    (isStepper x = false → a.faultNow = false → s.unitInReset (26 + x.val) = false →
      ∃ u : State, exec (.driveFaultIn x false) s = .next (s.after u) ∧ (u.axis x).faultNow = true ∧ pends u ∧
        (u.axis x).state = (if a.state = .disabled then .disabled else .halt) ∧ Only axisParts s u) ∧
    (isStepper x = false →
      ∃ u : State, exec (.driveFaultRelease x) s = .next (s.after u) ∧ u.axis x = { a with faultNow := false } ∧ Only [.mot] s u)

/-- The drive stage and the axis bus in time (R310-R312, R320-R327): an over-current switches the bridge off and halts the axis; a
standstill delay and a ramp end with their current scales; a coil leaves its drive phase at the upper threshold with the peak, and its
off phase with a new offset; at a servo period boundary a frame leaves, or none while its unit is in reset; a good uplink gives its
position, a missed one is counted, and at `MISS_MAX` stops the axis. -/
def Obligations.DriveStageAndAxisBusRun : Prop :=
  ∀ (s : State) (x : Axis), s.ticking = true →
    let a := s.axis x
    (∀ (b : Bool) (sense : BitVec 12), s.overLimit x sense = true →
      let t := s.advanceTo (s.blankEnd x b)
      t.unitInReset (26 + x.val) = false →
      ∃ u : State, exec (.overCurrent x b sense) s = .next (s.after u) ∧ (u.axis x).drive.ocOff = true ∧ (u.axis x).state = .halt ∧
        u.rbit (Reg.MOT_DRV_EVT x) 1 = true ∧
        (if x.val < 2 then u.rbit Reg.FLT_PEND_A (26 + x.val) else u.rbit Reg.FLT_PEND_B (x.val - 2)) = true ∧
        (∀ y, y ≠ x → u.axis y = s.axis y) ∧ Only axisParts s u) ∧
    (∀ d, s.standstillDue x = some d →
      let t := s.advanceTo d
      ∃ u : State, exec (.standstillDelayEnd x) s = .next (s.after u) ∧ (u.axis x).drive.standstill = true ∧
        (u.axis x).drive.cs = (if t.ssMode x = 0 then t.fld (Reg.MOT_DRV_CUR x) 23 16 else a.drive.cs) ∧
        (u.axis x).state = a.state ∧ u.order = t.order + 1 ∧ Only [.order, .mot] t u) ∧
    (∀ d, a.drive.rampEnd = some d →
      let t := s.advanceTo d
      ∃ u : State, exec (.rampEnd x) s = .next (s.after u) ∧ (u.axis x).drive.rampEnd = none ∧
        (u.axis x).drive.cs = t.csMin x ∧ (u.axis x).state = a.state ∧ Only [.mot] t u) ∧
    (∀ (b : Bool) (sense : BitVec 12) (since : Nat), (s.coil x b).step = .drive since → a.drive.rampEnd = none →
      let t := s.advanceTo (s.blankEnd x b)
      t.chops x (s.coil x b) = true → (s.coil x b).upper ≤ sense.toNat →
      ∃ u : State, exec (.chopperTurnOff x b sense) s = .next (s.after u) ∧
        u.coil x b = { s.coil x b with step := .off t.tick sense.toNat } ∧ u.coil x (!b) = s.coil x (!b) ∧ Only [.mot] t u) ∧
    (∀ (b : Bool) (sense : BitVec 12) (since peak d : Nat), (s.coil x b).step = .off since peak → a.drive.rampEnd = none →
      s.offEnd x b sense.toNat = some d →
      let t := s.advanceTo d
      let lim : Int := t.fld (Reg.MOT_CHOP_HYST x) 26 16
      let e : Int := ((s.coil x b).tgt.toNat : Int) - ((peak + sense.toNat) / 2 : Nat)
      let off := max (-lim) (min lim ((s.coil x b).off.toInt + e / (2 ^ t.fld (Reg.MOT_CHOP_HYST x) 15 12 : Nat)))
      t.chops x (s.coil x b) = true →
      ∃ u : State, exec (.chopperOffEnd x b sense) s = .next (s.after u) ∧ (u.coil x b).step = .drive t.tick ∧
        (u.coil x b).off = BitVec.ofInt 16 off ∧ u.coil x (!b) = s.coil x (!b) ∧ Only [.mot] t u) ∧
    (∀ d, s.axbDue = some d →
      let t := s.advanceTo d
      t.axbEn = true →
      (t.unitInReset 30 = false →
        ∃ (u : State) (l : List Byte), exec .servoPeriodBoundary s = .next (s.after u) ∧ u.out = .axisBus l :: t.out ∧ l.length = 26 ∧
          l.take 2 = [0x51, if s.mot.axb.first = true then 0 else s.mot.axb.seq + 1] ∧ l.drop 22 = bytesLE 4 (crc32c (l.take 22)) ∧
          u.mot.axb.nextAt = s.mot.axb.nextAt + t.axbPeriod ∧ u.mot.axb.evalAt = some (t.tick + t.axbEval) ∧
          u.mot.axb.first = false ∧ u.mot.axes = s.mot.axes ∧ Only [.mot, .out, .free] t u) ∧
      (t.unitInReset 30 = true →
        ∃ u : State, exec .servoPeriodBoundary s = .next (s.after u) ∧ u.mot.axb.nextAt = s.mot.axb.nextAt + t.axbPeriod ∧
          Only [.mot] t u)) ∧
    (∀ (d : Nat) (b4 b5 : List Byte), s.mot.axb.evalAt = some d →
      let t := s.advanceTo d
      (t.axbMiss 0 b4 = false → t.axbMiss 1 b5 = false → (u8 b4 2).testBit 1 = false → (u8 b5 2).testBit 1 = false →
        t.rbit (Reg.MOT_CFG 4) 16 = false → t.rbit (Reg.MOT_CFG 5) 16 = false →
        ∃ u : State, exec (.uplinkEvaluation b4 b5) s = .next (s.after u) ∧ u.reg (Reg.MOT_AXB_UP 0) = word (u32 b4 4) ∧
          u.reg (Reg.MOT_AXB_UP 1) = word (u32 b5 4) ∧ u.mot.axb.misses[0] = 0 ∧ u.mot.axb.misses[1] = 0 ∧ u.mot.axb.evalAt = none ∧
          RegsBut [Reg.MOT_AXB_UP 0, Reg.MOT_AXB_UP 1] t u ∧ Only [.regs, .mot] t u) ∧
      (t.axbMiss 0 b4 = true → t.axOutMode 4 = true → s.mot.axb.misses[0] + 1 = t.fld Reg.MOT_AXB_CFG 27 24 →
        t.unitInReset 30 = false →
        ∃ u : State, exec (.uplinkEvaluation b4 b5) s = .next (s.after u) ∧ u.mot.axb.misses[0] = s.mot.axb.misses[0] + 1 ∧
          u.rbit Reg.FLT_PEND_B 2 = true ∧ u.mot.axb.evalAt = none ∧
          (u.axis 4).state = (if (s.axis 4).state = .disabled then .disabled else .halt)))

/-! ### The Hoist -/

/-- Commands and events of a Hoist channel (R333-R340, R349-R353): each granted command takes the channel to its state with what it
loads or clears, and leaves every other channel; a shaft takes the channel that its discipline names; a request is counted and wakes the
channel that waits for one; a ready completion commits, a paced one at its due key, else with a late marker; a bus error halts a
transfer with its address and residue, and one that comes after a posted write leaves the completion. -/
def Obligations.HoistChannelsRun : Prop :=
  ∀ (s : State) (c : Chan),
    let y := s.chan c
    let gives (o : OpCtx) (k : Nat) (i : Instr) (p : ChanSt → Prop) : Prop := s.Granted o OpEnv.quiet (Reg.HST_CMD c) [word (2 ^ k)] →
      ∃ u : State, exec i s = .next (s.written o u) ∧ p (u.chan c) ∧ (∀ d, d ≠ c → u.chan d = s.chan d) ∧
        Only [.order, .regs, .guards, .larder, .hst] s u
    let free (t : State) : Prop := ∀ d : Chan, ¬ (t.rbit (Reg.HST_CFG d) 17 = true ∧ t.fld (Reg.HST_CFG d) 28 24 = c.val)
    (∀ o, (y.state = .disabled → gives o 0 (.hstEnable o c) fun z => z.state = .idle ∧ z.pos = 0 ∧ z.cs = 0 ∧ z.cd = 0 ∧
        z.lc = Vector.replicate 4 0 ∧ z.head = 0 ∧ z.seqCount = 1 ∧ z.xfer = none) ∧
      (y.state ≠ .disabled → gives o 1 (.hstDisable o c) fun z => z.state = .disabled ∧ z.xfer = none ∧ z.wait = none ∧
        z.pendStart = none ∧ z.dropped = true) ∧
      (y.state = .idle → gives o 2 (.hstStart o c) fun z => z.state = .queued ∧ z.kind = .free ∧ z.cs = s.reg (Reg.HST_CURS c) ∧
        z.cd = s.reg (Reg.HST_CURD c) ∧ z.lc = Vector.replicate 4 0 ∧ z.xfer = none ∧
        z.pos = s.reg (Reg.HST_BASE c) + (if s.chShelf c = true then word (32 * y.head) else 0)) ∧
      (y.state = .running → y.pendStart = none → gives o 2 (.hstStart o c) fun z => z = { y with pendStart := some .free }) ∧
      (y.state = .running → gives o 3 (.hstAbort o c) fun z => z = { y with aborting := true }) ∧
      (y.state = .queued ∨ y.state = .waiting ∨ y.state = .halted → gives o 3 (.hstAbort o c) fun z => z.state = .idle ∧
        z.xfer = none ∧ z.wait = none ∧ z.pendStart = none) ∧
      (y.state = .halted → gives o 4 (.hstResume o c) fun z => z.state = .queued ∧ z.xfer = y.xfer ∧ z.pos = y.pos ∧ z.lc = y.lc)) ∧
    (s.ticking = true → y.aborting = true →
      ∃ u : State, exec (.hstAbortEnd c) s = .next (s.after u) ∧ (u.chan c).state = .idle ∧ (u.chan c).aborting = false ∧
        u.rbit (Reg.HST_EVT c) 1 = true ∧ (∀ d, d ≠ c → u.chan d = s.chan d) ∧ Only [.order, .regs, .guards, .larder, .hst] s u) ∧
    (∀ f : Shaft, s.hoistRuns = true →
      (s.rbit (Reg.HST_SHAFT_CFG f) 0 = false → s.hst.running[f] = none → (∃ d : Chan, s.chShaft d = f ∧ (s.chan d).state = .queued) →
        ∃ (u : State) (d : Chan), exec (.shaftDispatch f) s = .next (s.after u) ∧ s.chShaft d = f ∧ (s.chan d).state = .queued ∧
          (∀ e : Chan, s.chShaft e = f → (s.chan e).state = .queued →
            (s.chan d).queuedAt < (s.chan e).queuedAt ∨ (s.chan d).queuedAt = (s.chan e).queuedAt ∧ d ≤ e) ∧
          u.chan d = { s.chan d with state := .running } ∧ u.hst.running[f] = some d ∧ (∀ e, e ≠ d → u.chan e = s.chan e) ∧
          Only [.order, .hst] s u) ∧
      (s.rbit (Reg.HST_SHAFT_CFG f) 0 = true → (∃ d : Chan, s.chShaft d = f ∧ (s.chan d).state = .queued) →
        ∃ (u : State) (d : Chan), exec (.shaftDispatch f) s = .next (s.after u) ∧ s.chShaft d = f ∧
          (∀ e : Chan, s.chShaft e = f → (s.chan e).state = .queued → s.chPrio e ≤ s.chPrio d) ∧
          u.chan d = { s.chan d with state := .running } ∧ u.hst.served[f] = some d ∧ (∀ e, e ≠ d → u.chan e = s.chan e) ∧
          Only [.order, .hst] s u)) ∧
    (∀ line : Fin 8, s.hoistRuns = true → s.lineRoom (line.val + 1) (s.lineWaits (line.val + 1)) = true →
      ∃ u : State, exec (.hstRequest line) s = .next (s.after u) ∧ Only [.order, .regs, .hst] s u ∧
        (s.chReqLine c = line.val + 1 → s.reqPend c < 255 →
          let leased := s.holds (holdHed ⟨line.val % 4, by omega⟩) (resChan c)
          (y.state ≠ .disabled ∨ leased = true → u.reqPend c = s.reqPend c + 1) ∧
          (y.state = .disabled ∨ y.state = .idle → if leased then (u.chan c).state = .queued else u.chan c = y) ∧
          (y.state = .waiting → y.wait = some .request → (u.chan c).state = .queued) ∧
          (y.state ≠ .waiting → y.state ≠ .disabled → y.state ≠ .idle → u.chan c = y)) ∧
        (s.chReqLine c ≠ line.val + 1 → u.reqPend c = s.reqPend c ∧ u.chan c = y)) ∧
    (s.hoistRuns = true → y.state = .running → y.ready = true → y.kind = .free → free s →
      (y.pendStart = none →
        ∃ u : State, exec (.hstCompletion c) s = .next (s.after u) ∧ (u.chan c).state = .idle ∧ (u.chan c).ready = false ∧
          u.rbit (Reg.HST_EVT c) 0 = true ∧ u.reg (Reg.HST_RUNS c) = s.reg (Reg.HST_RUNS c) + 1 ∧
          (∀ d, d ≠ c → u.chan d = s.chan d) ∧ RegsBut [Reg.HST_EVT c, Reg.HST_RUNS c] s u ∧
          Only [.order, .regs, .guards, .hst] s u) ∧
      (∀ k, y.pendStart = some k →
        ∃ u : State, exec (.hstCompletion c) s = .next (s.after u) ∧ (u.chan c).state = .queued ∧ (u.chan c).pendStart = none ∧
          u.rbit (Reg.HST_EVT c) 0 = true ∧ u.reg (Reg.HST_RUNS c) = s.reg (Reg.HST_RUNS c) + 1 ∧
          Only [.order, .regs, .guards, .hst] s u)) ∧
    (∀ d, s.hoistRuns = true → s.dueKey c = some d →
      let t := s.advanceTo d
      ((t.chan c).ready = false →
        ∃ u : State, exec (.hstDueKey c) s = .next (s.after u) ∧ u.chan c = { t.chan c with late := true } ∧
          u.rbit (Reg.HST_EVT c) 3 = true ∧ RegsBut [Reg.HST_EVT c] t u ∧ Only [.order, .regs, .guards, .hst] t u) ∧
      ((t.chan c).ready = true → (t.chan c).pendStart = none → free t →
        ∃ u : State, exec (.hstDueKey c) s = .next (s.after u) ∧ (u.chan c).state = .idle ∧ u.rbit (Reg.HST_EVT c) 0 = true ∧
          u.reg (Reg.HST_RUNS c) = t.reg (Reg.HST_RUNS c) + 1 ∧ Only [.order, .regs, .guards, .hst] t u)) ∧
    (∀ (x : Xfer) (off : Nat), s.hoistRuns = true → y.state = .running → y.ready = false → s.currentXfer c = some x →
      x.done < x.total → x.misaligned = none → x.overlaps = false → s.tableOff MemEnv.quiet x x.done = .ok off →
      ∃ u : State, exec (.hstBusError c x.done) s = .next (s.after u) ∧ (u.chan c).state = .halted ∧ (u.chan c).xfer = some x ∧
        u.reg (Reg.HST_ERR_ADDR c) = word (wrapInt 64 (x.addrs x.done off).1) ∧
        u.reg (Reg.HST_RESIDUE c) = word (x.total - x.done) ∧ u.rbit (Reg.HST_EVT c) 2 = true ∧ u.rbit Reg.FLT_PEND_A 11 = true ∧
        (∀ d, d ≠ c → u.chan d = s.chan d) ∧ u.mem = s.mem ∧
        Only (.hst :: messageParts) s u) ∧
    (∀ addr : Word, s.hoistRuns = true → s.chConfirmed c = false →
      ∃ u : State, exec (.postedWriteError c addr) s = .next (s.after u) ∧ u.rbit (Reg.HST_EVT c) 5 = true ∧
        u.rbit Reg.FLT_PEND_A 11 = true ∧ u.hst = s.hst ∧ Only messageParts s u)

/-- Shelf channels (R369-R375): an empty head slot makes the channel wait; an owned one runs its transfer and is written back with its
owner bit clear and the sequence count, the head moving on, and `LAST` makes the completion ready; an empty ring is read again by the
owner's kick and at each poll, and a head that is owned then queues the channel. -/
def Obligations.ShelvesAreServed : Prop :=
  ∀ (s : State) (c : Chan),
    let y := s.chan c
    let a := y.pos.toNat
    (∀ (env : MemEnv) (l : List Word), s.hoistRuns = true → s.mayExecute c = true → s.chShelf c = true → y.shelf = none →
      s.ringOk c = true → env.ecc = [] → s.fetchWords env a 2 = .ok l →
      (bit (l.getD 0 0) 0 = false →
        ∃ u : State, exec (.shelfDescriptor c env) s = .next (s.after u) ∧
          u.chan c = { y with state := .waiting, wait := some (.empty s.tick) } ∧ u.order = s.order + 1 ∧ Only [.order, .hst] s u) ∧
      (∀ (m : List Word) (x : Xfer) (w : State) (b : List Byte), bit (l.getD 0 0) 0 = true → s.fetchWords env a 8 = .ok m →
        State.decodeDesc m y.pos = some x → x.misaligned = none → x.overlaps = false → s.chReqLine c = 0 →
        State.moveN c env x x.total (s.modChan c fun z => { z with shelf := some ⟨m.getD 0 0, false⟩ }) 0 [] = (w, x.total, b, .done) →
        w.chReqLine c = 0 → regionOf w a = .larder → w.isolated 2 = false → w.mayWriteBank (w.holder (resChan c)) (bankOf a) = true →
        ∃ u : State, exec (.shelfDescriptor c env) s = .next (s.after u) ∧
          (u.chan c).head = (y.head + 1) % max 1 (w.shSlots c) ∧ (u.chan c).seqCount = y.seqCount + 1 ∧ (u.chan c).shelf = none ∧
          (bit (m.getD 0 0) 1 = false → (u.chan c).ready = false ∧
            (u.chan c).pos = w.reg (Reg.HST_BASE c) + word (32 * ((y.head + 1) % max 1 (w.shSlots c))) ∧
            u.mem.larder = (w.mem.writeLarder a 8 ((m.getD 0 0 &&& ~~~1#32).toNat + y.seqCount.toNat * 2 ^ 32)).larder) ∧
          (bit (m.getD 0 0) 1 = true → w.chConfirmed c = false → (u.chan c).ready = true))) ∧
    (∀ (o : OpCtx) (env : OpEnv) (k v : Nat), y.wait = some (.empty k) → s.Granted o env (Reg.HST_SHELF_STAT c) [0x80000000] →
      readBulk s env.mem a 8 = .ok v →
      ∃ u : State, exec (.shelfKick o c env) s = .next (s.written o u) ∧
        (if v % 2 = 1 then (u.chan c).state = .queued ∧ (u.chan c).wait = none
          else u.chan c = { y with wait := some (.empty s.tick) }) ∧ (∀ d, d ≠ c → u.chan d = s.chan d) ∧ Only [.order, .regs, .hst] s u) ∧
    (∀ (env : MemEnv) (k v : Nat), s.hoistRuns = true → y.state = .waiting → y.wait = some (.empty k) → s.shPoll c ≠ 0 → env.ecc = [] →
      let t := s.advanceTo (k + 1000 * s.shPoll c)
      (t.chan c).wait = some (.empty k) → readBulk t env (t.chan c).pos.toNat 8 = .ok v →
      ∃ u : State, exec (.shelfPoll c env) s = .next (s.after u) ∧
        (if v % 2 = 1 then (u.chan c).state = .queued ∧ (u.chan c).wait = none
          else u.chan c = { t.chan c with wait := some (.empty t.tick) }) ∧ Only [.order, .hst] t u)

/-- The instructions of a program on the channel that stands at them (R341-R345, R356-R368): a transfer moves its elements, advances the
cursors and stands at the next instruction, and a move of one element changes the word of its destination only; LOOP counts and goes
back; WAIT consumes a flag, sees its word or waits, and its polls and its delay end the wait; SIGNAL sets the flag; SET sets a cursor or
a word; END makes the completion ready; what is no instruction halts the channel with HST.PROGRAM. -/
def Obligations.ProgramInstructionsRun : Prop :=
  ∀ (s : State) (c : Chan) (env : MemEnv), s.hoistRuns = true → env.ecc = [] →
    let y := s.chan c
    let here := s.mayExecute c = true ∧ s.chShelf c = false ∧ y.xfer = none
    let goes (t u : State) (z : ChanSt) : Prop := u.chan c = z ∧ (∀ d, d ≠ c → u.chan d = t.chan d)
    (∀ (op : Nat) (i : Instr) (x : Xfer) (w : State) (b : List Byte),
      (op, i) ∈ [(1, Instr.move c env), (2, .move2d c env), (3, .gather c env), (4, .scatter c env)] → here →
      s.fetchInstr env c = .instr op (.xfer x) → x.done = 0 → x.misaligned = none → x.overlaps = false → s.chReqLine c = 0 →
      State.moveN c env x x.total s 0 [] = (w, x.total, b, .done) → w.chReqLine c = 0 →
      ∃ u : State, exec i s = .next (s.after u) ∧ (u.chan c).xfer = none ∧ (u.chan c).pos = x.next ∧
        (u.chan c).cs = y.cs + x.advS ∧ (u.chan c).cd = y.cd + x.advD ∧ (u.chan c).state = .running ∧ Only [.hst] w u ∧
        (∀ d, d ≠ c → u.chan d = s.chan d)) ∧
    (∀ (x : Xfer) (v : Nat), here → s.fetchInstr env c = .instr 1 (.xfer x) → x.misaligned = none → x.overlaps = false → x.n = 1 → x.rows = 1 →
      x.indexed = false → s.chReqLine c = 0 → x.done = 0 →
      regionOf s x.src = .larder → regionOf s x.dst = .larder → s.hoistRead env x.src x.size = .ok v → s.isolated 2 = false →
      s.mayWriteBank (holdChan c) (bankOf x.dst) = true →
      ∃ u : State, exec (.move c env) s = .next (s.after u) ∧
        u.mem.larder = (s.mem.writeLarder x.dst x.size (leBytes (swapBytes x.esize x.swap (bytesLE x.size v)))).larder ∧
        (∀ k, k ≠ larderIdx x.dst → u.mem.word64 k = s.mem.word64 k) ∧ Only [.larder, .hst] s u) ∧
    (∀ (k : Fin 4) (iter back : Nat), here → s.fetchInstr env c = .instr 5 (.loop k.val iter back) →
      let v := (if y.lc[k] = 0 then BitVec.ofNat 16 iter else y.lc[k]) - 1
      ∃ u : State, exec (.loop c env) s = .next (s.after u) ∧
        goes s u { y with lc := y.lc.set k v, pos := if v = 0 then y.pos + 8 else y.pos - word (8 * back) } ∧ Only [.hst] s u) ∧
    (y.kind = .free → here →
      (∀ n, n < 8 → s.fetchInstr env c = .instr 6 (.waitSig n) →
        ∃ u : State, exec (.wait c env) s = .next (s.after u) ∧ u.order = s.order + 1 ∧
          (if s.rbit (Reg.HST_SIG c) n = true then goes s u { y with pos := y.pos + 16 } ∧ u.rbit (Reg.HST_SIG c) n = false ∧
              Only [.order, .regs, .hst] s u
            else goes s u { y with state := .waiting, wait := some (.sig n) } ∧ Only [.order, .hst] s u)) ∧
      (∀ n, s.fetchInstr env c = .instr 6 (.waitDelay n) →
        ∃ u : State, exec (.wait c env) s = .next (s.after u) ∧
          goes s u { y with state := .waiting, wait := some (.delay (s.tick + n)) } ∧ Only [.order, .hst] s u) ∧
      (∀ (a r : Nat) (m v : Word), s.fetchInstr env c = .instr 6 (.waitMem a m v) → a % 4 = 0 → s.heldAt a = false →
        s.hoistRead env a 4 = .ok r →
        ∃ u : State, exec (.wait c env) s = .next (s.after u) ∧ Only [.order, .regs, .guards, .hst] s u ∧
          (if word r &&& m = v then goes s u { y with pos := y.pos + 16 }
            else goes s u { y with state := .waiting, wait := some (.mem a m v s.tick) }))) ∧
    (∀ (a r k : Nat) (m v : Word), y.state = .waiting → y.wait = some (.mem a m v k) →
      let t := s.advanceTo (k + 1000)
      t.heldAt a = false → t.hoistRead env a 4 = .ok r →
      ∃ u : State, exec (.waitMemoryPoll c env) s = .next (s.after u) ∧ Only [.order, .regs, .guards, .hst] t u ∧
        (if word r &&& m = v then (u.chan c).state = .queued ∧ (u.chan c).wait = none ∧ (u.chan c).pos = (t.chan c).pos + 16
          else goes t u { t.chan c with wait := some (.mem a m v t.tick) })) ∧
    (∀ d, y.state = .waiting → y.wait = some (.delay d) →
      let t := s.advanceTo d
      ∃ u : State, exec (.waitDelayEnd c) s = .next (s.after u) ∧ (u.chan c).state = .queued ∧ (u.chan c).wait = none ∧
        (u.chan c).pos = (t.chan c).pos + 16 ∧ (∀ e, e ≠ c → u.chan e = t.chan e) ∧ Only [.order, .hst] t u) ∧
    (∀ (q : Chan) (n : Nat), here → y.kind = .free → n < 8 → s.fetchInstr env c = .instr 7 (.signal q.val n) →
      s.holder (resChan q) = s.holder (resChan c) → (s.chan q).state ≠ .disabled →
      ((s.chan q).wait = none →
        ∃ u : State, exec (.signal c env) s = .next (s.after u) ∧ u.rbit (Reg.HST_SIG q) n = true ∧ u.order = s.order + 1 ∧
          goes s u { y with pos := y.pos + 8 } ∧ RegsBut [Reg.HST_SIG q] s u ∧ Only [.order, .regs, .guards, .hst] s u) ∧
      (q ≠ c → (s.chan q).wait = some (.sig n) →
        ∃ u : State, exec (.signal c env) s = .next (s.after u) ∧ u.rbit (Reg.HST_SIG q) n = false ∧ (u.chan q).state = .queued ∧
          (u.chan q).wait = none ∧ (u.chan q).pos = (s.chan q).pos + 16 ∧ u.chan c = { y with pos := y.pos + 8 } ∧
          Only [.order, .regs, .guards, .hst] s u)) ∧
    (∀ (isSrc : Bool) (v : Word), here → s.fetchInstr env c = .instr 8 (.setCur isSrc v) →
      ∃ u : State, exec (.set c env) s = .next (s.after u) ∧ Only [.hst] s u ∧
        goes s u (if isSrc = true then { y with cs := v, pos := y.pos + 16 } else { y with cd := v, pos := y.pos + 16 })) ∧
    (∀ (a : Nat) (v : Word), here → y.kind = .free → s.fetchInstr env c = .instr 8 (.setMem a v) → a % 4 = 0 →
      regionOf s a = .larder → s.isolated 2 = false → s.mayWriteBank (holdChan c) (bankOf a) = true →
      ∃ u : State, exec (.set c env) s = .next (s.after u) ∧ goes s u { y with lastDst := some a, pos := y.pos + 16 } ∧
        u.mem.larder = (s.mem.writeLarder a 4 v.toNat).larder ∧ (∀ k, k ≠ larderIdx a → u.mem.word64 k = s.mem.word64 k) ∧
        Only [.larder, .hst] s u) ∧
    (here → s.fetchInstr env c = .instr 15 .end_ → s.chConfirmed c = false ∨ y.lastDst = none →
      ∃ u : State, exec (.end_ c env) s = .next (s.after u) ∧ goes s u { y with ready := true } ∧ Only [.hst] s u) ∧
    (∀ i ∈ [Instr.move c env, .move2d c env, .gather c env, .scatter c env, .loop c env, .wait c env, .signal c env, .set c env, .end_ c env],
      here → s.fetchInstr env c = .fault (.ok 0) →
      ∃ u : State, exec i s = .next (s.after u) ∧ (u.chan c).state = .halted ∧ u.rbit (Reg.HST_EVT c) 2 = true ∧
        u.rbit Reg.FLT_PEND_A 11 = true ∧ u.reg (Reg.HST_ERR_ADDR c) = y.pos ∧ u.mem = s.mem ∧ (∀ d, d ≠ c → u.chan d = s.chan d) ∧
        Only (.hst :: messageParts) s u)

/-! ### Heads -/

/-- The states of a head port (R443-R447, R452-R456): from OFF through ABSENT, IDENT and POWER to READY with the times of its settings,
the measured identity deciding between POWER and MISMATCH; a head that goes absent, a disable, a rewritten identity and a restart. -/
def Obligations.HeadPortsPowerUp : Prop :=
  ∀ (s : State) (h : Head),
    let x := s.head h
    let there (level : Bool) : Prop := level = s.rbit (Reg.HED_ENABLE h) 1
    let ends (st : HedState) (d : Nat) : Prop := s.ticking = true ∧ x.state = st ∧ x.stepEnd = some d
    (∀ o, x.state = .off → s.Granted o OpEnv.quiet (Reg.HED_ENABLE h) [s.keeping (Reg.HED_ENABLE h) 0 0 1] →
      ∃ u : State, exec (.hedEnable o h) s = .next (s.written o u) ∧ (u.head h).state = .absent ∧ u.rbit (Reg.HED_ENABLE h) 0 = true ∧
        (u.head h).stepEnd = (if s.presentNow h = true then some (s.tick + s.fld (Reg.HED_SETTLE h) 15 0 * 100000) else none) ∧
        (u.head h).headEn = false ∧ (u.head h).hvEn = false ∧ (∀ g, g ≠ h → u.head g = s.head g) ∧
        RegsBut [Reg.HED_ENABLE h] s u ∧ Only [.order, .regs, .hed, .out] s u) ∧
    (∀ o, x.state ≠ .off → s.Granted o OpEnv.quiet (Reg.HED_ENABLE h) [s.keeping (Reg.HED_ENABLE h) 0 0 0] →
      ∃ u : State, exec (.hedDisable o h) s = .next (s.written o u) ∧ (u.head h).state = .off ∧ u.rbit (Reg.HED_ENABLE h) 0 = false ∧
        (u.head h).headEn = false ∧ (u.head h).hvEn = false ∧ (u.head h).firings = [] ∧ (∀ g, g ≠ h → u.head g = s.head g) ∧
        RegsBut [Reg.HED_ENABLE h] s u ∧ Only [.order, .regs, .hed, .out] s u) ∧
    (∀ level, s.ticking = true →
      (x.state = .off → ∃ u : State, exec (.headPresentChange h level false) s = .next (s.after u) ∧ u.head h = { x with level := level } ∧
        Only [.hed] s u) ∧
      (x.state = .absent → ∃ u : State, exec (.headPresentChange h level false) s = .next (s.after u) ∧ Only [.hed] s u ∧
        (there level → x.stepEnd = none →
          u.head h = { x with level := level, stepEnd := some (s.tick + s.fld (Reg.HED_SETTLE h) 15 0 * 100000) }) ∧
        (¬ there level → u.head h = { x with level := level, stepEnd := none })) ∧
      (x.state ≠ .off → x.state ≠ .absent → ¬ there level → s.unitInReset (18 + h.val) = false →
        ∃ u : State, exec (.headPresentChange h level false) s = .next (s.after u) ∧ (u.head h).state = .absent ∧
          (u.head h).hvEn = false ∧ (u.head h).headEn = false ∧ u.rbit (Reg.HED_EVT h) 0 = true ∧
          u.rbit Reg.FLT_PEND_A (18 + h.val) = true ∧ Only (.hed :: (recordParts ++ messageParts)) s u)) ∧
    (∀ d, ends .absent d →
      ∃ u : State, exec (.presSettleEnd h) s = .next (s.after u) ∧ (u.head h).state = .ident ∧
        (u.head h).stepEnd = some (max s.tick d + 50000) ∧ Only [.order, .hed, .out] (s.advanceTo d) u) ∧
    (∀ (d : Nat) (c0 c1 c2 c3 : BitVec 12), ends .ident d →
      let t := s.advanceTo d
      let code := min (min c0.toNat c1.toNat) (min c2.toNat c3.toNat)
      (t.fld (Reg.HED_ID h) 11 0 ≤ code → code ≤ t.fld (Reg.HED_ID h) 27 16 →
        ∃ u : State, exec (.identEnd h c0 c1 c2 c3) s = .next (s.after u) ∧ (u.head h).state = .power ∧ (u.head h).headEn = true ∧
          (u.head h).hvEn = false ∧ (u.head h).stepEnd = some (t.tick + t.fld (Reg.HED_POWER h) 15 0 * 100000) ∧
          u.reg (Reg.HED_ID_CODE h) = word code ∧ RegsBut [Reg.HED_ID_CODE h] t u ∧ Only [.order, .regs, .hed, .out] t u) ∧
      (code < t.fld (Reg.HED_ID h) 11 0 ∨ t.fld (Reg.HED_ID h) 27 16 < code → t.unitInReset (18 + h.val) = false →
        ∃ u : State, exec (.identEnd h c0 c1 c2 c3) s = .next (s.after u) ∧ (u.head h).state = .mismatch ∧
          u.rbit (Reg.HED_EVT h) 1 = true ∧ u.rbit Reg.FLT_PEND_A (18 + h.val) = true ∧ u.reg (Reg.HED_ID_CODE h) = word code ∧
          Only (.hed :: messageParts) t u)) ∧
    (∀ (o : OpCtx) (id : Word), x.state = .mismatch → s.Granted o OpEnv.quiet (Reg.HED_ID h) [id] →
      ∃ u : State, exec (.hedIdWrite o h id) s = .next (s.written o u) ∧ (u.head h).state = .ident ∧
        (u.head h).stepEnd = some (s.tick + 50000) ∧ u.fld (Reg.HED_ID h) 11 0 = bits id 11 0 ∧
        u.fld (Reg.HED_ID h) 27 16 = bits id 27 16 ∧ RegsBut [Reg.HED_ID h] s u ∧ Only [.order, .regs, .hed, .out] s u) ∧
    (∀ (d : Nat) (env : MemEnv), ends .power d →
      let t := s.advanceTo d
      (x.logicOn = false → ∃ u : State, exec (.tLogicEnd h env) s = .next (s.after u) ∧ (u.head h).state = .power ∧
        (u.head h).logicOn = true ∧ (u.head h).ckStart = some (t.tick + 4) ∧ (u.head h).hvEn = true ∧ (u.head h).seq = 1 ∧
        (u.head h).stepEnd = some (t.tick + t.fld (Reg.HED_POWER h) 31 16 * 100000) ∧ Only ([.larder, .hed] ++ messageParts) t u) ∧
      (x.logicOn = true → ∃ u : State, exec (.tHvEnd h) s = .next (s.after u) ∧ (u.head h).state = .ready ∧ (u.head h).hvEn = true ∧
        (u.head h).headEn = true ∧ (u.head h).ckStart = x.ckStart ∧ (u.health h).idleFrom = t.tick ∧ u.rbit (Reg.HED_EVT h) 6 = true ∧
        RegsBut [Reg.HED_EVT h] t u ∧ Only [.order, .regs, .guards, .hed, .hlt, .out] t u)) ∧
    (∀ o, x.state = .fault → s.Granted o OpEnv.quiet (Reg.HED_CMD h) [word 1] →
      ∃ u : State, exec (.restart o h) s = .next (s.written o u) ∧ (u.head h).state = .ready ∧ u.rbit (Reg.HED_EVT h) 6 = true ∧
        (∀ g, g ≠ h → u.head g = s.head g) ∧ RegsBut [Reg.HED_EVT h] s u ∧ Only [.order, .regs, .guards, .hed, .hlt, .out] s u)

/-- What a head port sends (R454-R457, R461, R484): the owner's trim frame; service firing from its command on, each firing with its codes
from the buffer, or counted late where they are missing; and a firing at its sample boundary, as a frame and a waveform with the
counts of the nozzles it drives, while a late one ends its record. -/
def Obligations.HeadPortsFire : Prop :=
  ∀ (s : State) (h : Head),
    let x := s.head h
    (∀ (o : OpCtx) (env : OpEnv) (l : List Nat), s.Granted o env (Reg.HED_CMD h) [word 2] → s.trimCodes h env.mem = .ok l →
      ∃ u : State, exec (.trimLoad o h env) s = .next (s.written o u) ∧ u.out = .nozzles h (s.tick + 4) 2 x.seq l :: s.out ∧
        u.head h = { x with seq := x.seq + 1 } ∧ RegsBut [] s u ∧ Only [.order, .regs, .hed, .out] s u) ∧
    (∀ o, s.Granted o OpEnv.quiet (Reg.HED_CMD h) [word 4] →
      ∃ u : State, exec (.svc o h) s = .next (s.written o u) ∧ RegsBut [] s u ∧ Only [.order, .regs, .hed] s u ∧
        u.head h = { x with svc := some (s.fld (Reg.HED_SVC_CNT h) 15 0, s.tick + s.fld (Reg.HED_SVC_PER h) 19 0) }) ∧
    (∀ left d, s.ticking = true → x.svc = some (left, d) →
      let t := s.advanceTo d
      let n := t.svcBytes h
      let next := if left ≤ 1 then none else some (left - 1, d + t.fld (Reg.HED_SVC_PER h) 19 0)
      (n ≤ x.svcBuf.length →
        ∃ u : State, exec (.serviceFiring h) s = .next (s.after u) ∧ (u.head h).svc = next ∧ (u.head h).svcBuf = x.svcBuf.drop n ∧
          (u.head h).firings = x.firings ++
            [⟨(t.planFire h).2, .service, State.unpackCodes (x.svcBuf.take n), t.ampScale h, t.tScale h⟩] ∧ Only [.hed] t u) ∧
      (x.svcBuf.length < n →
        ∃ u : State, exec (.serviceFiring h) s = .next (s.after u) ∧ u.head h = { x with svc := next } ∧
          u.reg (Reg.HED_SVC_LATE h) = t.oneMore (Reg.HED_SVC_LATE h) ∧ u.rbit (Reg.HED_EVT h) 8 = true ∧
          RegsBut [Reg.HED_SVC_LATE h, Reg.HED_EVT h] t u ∧ Only [.order, .regs, .guards, .hed] t u)) ∧
    (∀ (q : Firing) (rest : List Firing) (late : Bool) (refill : List (BitVec 16)), s.ticking = true → x.firings = q :: rest →
      let t := s.advanceTo q.f
      ((late = false ∨ ∀ serial k, q.use ≠ .column serial k) → (q.use = .spit ∨ t.wfSrc h = false) →
        ∃ u : State, exec (.firing h late refill) s = .next (s.after u) ∧ (u.head h).firings = rest ∧ (u.head h).seq = x.seq + 1 ∧
          u.out = .wave h q.f (t.waveform h (if q.use = .spit then t.wfSpit h else t.wfFire h) q.amp q.tsc) ::
            .nozzles h q.f (if q.use = .spit then 1 else 0) x.seq q.codes :: t.out ∧
          u.reg (Reg.HED_FIRES h) = t.oneMore (Reg.HED_FIRES h) ∧ u.order = t.order + 1 ∧
          (∀ i, u.fireCount h i = (t.fireCount h i + (if q.codes.getD i 0 = 0 then 0 else 1)) % 2 ^ 48) ∧
          RegsBut [Reg.HED_FIRES h] t u ∧ Only [.order, .regs, .hed, .hlt, .out] t u) ∧
      (∀ serial k r, q.use = .column serial k → t.findRec h serial = some r → r.state = .printing → r.verdict = .pending →
        t.unitInReset (18 + h.val) = false →
        ∃ (u : State) (r' : Rec), exec (.firing h true refill) s = .next (s.after u) ∧ u.findRec h serial = some r' ∧
          r'.state = .final ∧ r'.verdict = .incomplete ∧ r'.cause = r.cause ||| 64 ∧ u.rbit (Reg.HED_EVT h) 2 = true ∧
          u.rbit Reg.FLT_PEND_A (18 + h.val) = true ∧ (∀ p ∈ (u.head h).firings, ∀ j, p.use ≠ .column serial j) ∧
          Only (.hed :: (recordParts ++ messageParts)) t u))

/-! ### Head health -/

/-- The heater of a head (R464-R471): it starts where it is allowed and its energy is granted, pauses where it is not allowed, and goes
idle when it is disabled; a loop period converts the temperature and, while the heater regulates, sets the duty by its two gains,
a PWM period takes it, a code out of range or a frozen one holds the averaged duty, and the limits of holding and of warming trip it. -/
def Obligations.HeatersRegulate : Prop :=
  ∀ (s : State) (h : Head),
    let x := s.health h
    let starts (u : State) : Prop := Only ([.energy, .hlt] ++ messageParts) s u ∧ (s.heatAllowed h = false → (u.health h).heat = .paused ∧ (u.health h).duty = 0) ∧
      (s.heatAllowed h = true → s.wouldGrant false (s.reg (Reg.HLT_EWARM h)).toNat = true → (u.health h).heat = .warming ∧
        (u.health h).warmAt = s.tick ∧ (u.health h).acc = 0 ∧ ⟨.warm h, (s.reg (Reg.HLT_EWARM h)).toNat⟩ ∈ u.pwr.live)
    let pends (t u : State) (flag : Nat) : Prop := Only ([.fired, .energy, .hlt] ++ messageParts) t u ∧ u.rbit (Reg.HLT_EVT h) flag = true ∧ u.rbit Reg.FLT_PEND_A (22 + h.val) = true
    (∀ (o : OpCtx) (on : Bool), s.rbit (Reg.HLT_CTRL h) 0 = !on →
      s.Granted o OpEnv.quiet (Reg.HLT_CTRL h) [s.keeping (Reg.HLT_CTRL h) 0 0 (b2n on)] →
      ∃ u : State, exec (.heaterEnable o h on) s = .next (s.written o u) ∧ u.rbit (Reg.HLT_CTRL h) 0 = on ∧
        (on = true → x.heat = .idle → starts u) ∧
        (on = false → x.heat ≠ .idle → (u.health h).heat = .idle ∧ (u.health h).duty = 0 ∧ (u.health h).band = false ∧
          RegsBut [Reg.HLT_CTRL h] s u ∧ Only [.order, .regs, .energy, .hlt] s u)) ∧
    (∀ o, x.heat = .tripped → s.Granted o OpEnv.quiet (Reg.HLT_CMD h) [word 1] →
      ∃ u : State, exec (.heatRestart o h) s = .next (s.written o u) ∧ starts u) ∧
    (∀ code : BitVec 12, s.ticking = true → s.booted = true → s.fld (Reg.HLT_LOOP h) 9 0 ≠ 0 →
      let t := s.advanceTo (s.dueAt (Ev.heaterLoop h) s.boot.doneAt (s.fld (Reg.HLT_LOOP h) 9 0 * 100000))
      let temp := signed 16 (wrapInt 16 (t.tempOf h code.toNat))
      let e := signed 16 (t.fld (Reg.HLT_SET h) 15 0) - temp
      let dm : Int := t.dutyMax h
      let acc := max 0 (min (dm * 256) ((x.acc : Int) + e * (t.fld (Reg.HLT_PI h) 31 16 : Nat)))
      t.unitInReset (22 + h.val) = false →
      (t.inRange h code.toNat = true →
        ∃ u : State, exec (.heaterLoopPeriod h code) s = .next (s.after u) ∧ u.thermCode h = code.toNat ∧
          u.rbit (Reg.HLT_TEMP h) 31 = true ∧ u.thermTemp h = temp ∧ Only ([.fired, .energy, .hed, .hlt] ++ messageParts) t u ∧
          (x.heat = .regulating → (u.health h).heat = .regulating ∧ ((u.health h).acc : Int) = acc ∧
            ((u.health h).dutyNext : Int) = max 0 (min dm ((e * (t.fld (Reg.HLT_PI h) 15 0 : Nat) + acc) / 256)) ∧
            (u.health h).duty = x.duty)) ∧
      (t.inRange h code.toNat = false →
        ∃ u : State, exec (.heaterLoopPeriod h code) s = .next (s.after u) ∧ u.thermCode h = code.toNat ∧
          u.rbit (Reg.HLT_TEMP h) 31 = false ∧ u.thermTemp h = t.thermTemp h ∧
          (x.heat = .regulating ∨ x.heat = .warming → (u.health h).heat = .holding ∧ (u.health h).duty = s.averageDuty h ∧ pends t u 0))) ∧
    (s.ticking = true → s.booted = true → s.fld (Reg.HLT_PWM h) 19 0 ≠ 0 → x.heat = .warming ∨ x.heat = .regulating →
      ∃ u : State, exec (.heaterPwmPeriod h) s = .next (s.after u) ∧
        u.health h = { x with duty := x.dutyNext, good := (x.duty :: x.good).take 64 } ∧
        Only [.fired, .hlt] (s.advanceTo (s.dueAt (Ev.heaterPwm h) s.boot.doneAt (s.fld (Reg.HLT_PWM h) 19 0))) u) ∧
    (∀ d, s.ticking = true → s.freezeDue h = some d → (s.advanceTo d).unitInReset (22 + h.val) = false →
      ∃ u : State, exec (.freezeWindowEnd h) s = .next (s.after u) ∧ (u.health h).heat = .holding ∧
        (u.health h).duty = s.averageDuty h ∧ (u.health h).freeze = none ∧ pends (s.advanceTo d) u 1) ∧
    (∀ d i, (i, some d) ∈ [(Instr.holdTExpiry h, s.holdDue h), (.warmMaxExpiry h, s.warmDue h)] → s.ticking = true →
      (s.advanceTo d).unitInReset (22 + h.val) = false →
      ∃ u : State, exec i s = .next (s.after u) ∧ (u.health h).heat = .tripped ∧ (u.health h).duty = 0 ∧ pends (s.advanceTo d) u 2)

/-- Nozzle health (R474-R485): a scan starts where its gate is lit, shoots its nozzles one by one, counts the falls in the open windows
and classes the nozzles at its end; the map is loaded, saved and written by entry; keep-wet bursts start, fire and end; fire counts that
have changed are saved. -/
def Obligations.NozzleHealthIsKept : Prop :=
  ∀ (s : State) (h : Head),
    let x := s.health h
    (∀ (o : OpCtx) (env : OpEnv), s.Granted o env (Reg.HLT_CMD h) [word 2] →
      (s.fld (Reg.HLT_GATE h) 27 16 ≤ env.gates[h].toNat →
        ∃ (u : State) (c : Scan), exec (.scan o h env) s = .next (s.written o u) ∧ u.health h = { x with scan := some c } ∧
          c.todo = s.scanList h ∧ c.shots = s.fld (Reg.HLT_SCAN_SHOT h) 7 0 ∧
          c.nextAt = s.tick + s.fld (Reg.HLT_SCAN_PER h) 19 0 ∧ c.windows = [] ∧ c.hits = [] ∧ RegsBut [] s u ∧
          Only [.order, .regs, .hlt] s u) ∧
      (env.gates[h].toNat < s.fld (Reg.HLT_GATE h) 27 16 → s.unitInReset (22 + h.val) = false →
        ∃ u : State, exec (.scan o h env) s = .next (s.written o u) ∧ Only messageParts s u ∧ u.rbit (Reg.HLT_EVT h) 5 = true ∧
          u.rbit Reg.FLT_PEND_A (22 + h.val) = true)) ∧
    (∀ (c : Scan) (i : Nat) (rest : List Nat), s.ticking = true → x.scan = some c → c.todo = i :: rest →
      let t := s.advanceTo c.nextAt
      let f := (t.planFire h).2
      t.hedReady h = true →
      ∃ (u : State) (c' : Scan), exec (.dropGateShot h) s = .next (s.after u) ∧ (u.health h).scan = some c' ∧
        (u.head h).firings = (s.head h).firings ++
          [⟨f, .shot i, t.oneNozzle h i (t.fld (Reg.HLT_SCAN h) 29 28), t.ampScale h, t.tScale h⟩] ∧
        (i, f + t.fld (Reg.HLT_GWIN h) 15 0, f + t.fld (Reg.HLT_GWIN h) 31 16, false) ∈ c'.windows ∧ c'.hits = c.hits ∧
        c'.todo = (if c.shots ≤ 1 then rest else i :: rest) ∧
        c'.nextAt = c.nextAt + t.fld (Reg.HLT_SCAN_PER h) 19 0 ∧
        (c'.endAt.isSome = true ↔ c'.todo = []) ∧ Only [.hed, .hlt] t u) ∧
    (∀ c : Scan, s.ticking = true → x.scan = some c →
      let on (w : Nat × Nat × Nat × Bool) : Bool := decide (w.2.1 ≤ s.tick) && decide (s.tick ≤ w.2.2.1) && !w.2.2.2
      ∃ (u : State) (c' : Scan), exec (.gateComparatorFall h false) s = .next (s.after u) ∧ u.health h = { x with scan := some c' } ∧
        (∀ i, State.hitsOf c'.hits i = State.hitsOf c.hits i + (c.windows.filter fun w => on w && decide (w.1 = i)).length) ∧
        c'.windows.length = c.windows.length ∧ (∀ w ∈ c'.windows, on w = false) ∧ c'.todo = c.todo ∧ Only [.hlt] s u) ∧
    (∀ (c : Scan) (d : Nat), s.ticking = true → x.scan = some c → c.endAt = some d →
      let t := s.advanceTo d
      let cls (i : Nat) : Nat := t.scanClass h (State.hitsOf c.hits i)
      ((t.scanList h).length < 8 ∨ (∃ i ∈ t.scanList h, cls i ≠ 2) →
        ∃ u : State, exec (.scanEnd h) s = .next (s.after u) ∧ (u.health h).scan = none ∧ u.rbit (Reg.HLT_EVT h) 6 = true ∧
          (∀ i ∈ t.scanList h, u.nozClass h i = cls i) ∧ (∀ i, i ∉ t.scanList h → u.mapEntry h i = s.mapEntry h i) ∧
          Only ([.energy, .owed, .hlt] ++ messageParts) t u) ∧
      (8 ≤ (t.scanList h).length → (∀ i ∈ t.scanList h, cls i = 2) → t.unitInReset (22 + h.val) = false →
        ∃ u : State, exec (.scanEnd h) s = .next (s.after u) ∧ (u.health h).scan = none ∧ (u.health h).map = x.map ∧
          u.rbit (Reg.HLT_EVT h) 5 = true ∧ u.rbit Reg.FLT_PEND_A (22 + h.val) = true ∧ Only (.hlt :: messageParts) t u)) ∧
    (∀ o, s.Granted o OpEnv.quiet (Reg.HLT_CMD h) [word 4] →
      let b := s.mem.loftBytes (0x9000 + 0x1000 * h.val) 2112
      (State.mapRegionOk h b = true →
        ∃ u : State, exec (.mapLoad o h) s = .next (s.written o u) ∧ RegsBut [] s u ∧ Only [.order, .regs, .hlt] s u ∧
          ∀ i, u.mapEntry h i = (if i < 1024 then BitVec.ofNat 16 (u16 b (16 + 2 * i)) else 0)) ∧
      (State.mapRegionOk h b = false →
        ∃ u : State, exec (.mapLoad o h) s = .next (s.written o u) ∧ Only [.order, .regs, .guards] s u ∧ u.rbit (Reg.HLT_EVT h) 9 = true)) ∧
    (∀ o, s.Granted o OpEnv.quiet (Reg.HLT_CMD h) [word 8] → s.stagedBusy (fun w => decide (w = .map h)) = false →
      s.wouldGrant false 596 = true →
      ∃ u : State, exec (.mapSave o h) s = .next (s.written o u) ∧
        u.mem.staged = s.mem.staged ++ [⟨.map h, 0x9000 + 0x1000 * h.val, s.mapBytes h⟩] ∧
        ⟨.staged (22 + h.val) 2, 596⟩ ∈ u.pwr.live ∧ RegsBut [] s u ∧ Only [.order, .regs, .energy, .owed, .hlt] s u) ∧
    (∀ (o : OpCtx) (sel : BitVec 10) (entry : Word), s.Granted o OpEnv.quiet (Reg.HLT_NOZ_SEL h) [word sel.toNat, entry] →
      ∃ u : State, exec (.nozzleEntryWrite o h sel entry) s = .next (s.written o u) ∧
        u.mapEntry h sel.toNat = BitVec.ofNat 16 (bits entry 12 0) ∧ (∀ i, i ≠ sel.toNat → u.mapEntry h i = s.mapEntry h i) ∧
        Only (.hlt :: messageParts) s u ∧
        (bits entry 1 0 = 2 → s.nozClass h sel.toNat ≠ 2 → s.unitInReset (22 + h.val) = false →
          u.rbit (Reg.HLT_EVT h) 4 = true ∧ u.rbit Reg.FLT_PEND_A (22 + h.val) = true)) ∧
    (∀ d, s.ticking = true → s.spitDue h = some d →
      let t := s.advanceTo d
      (t.mayBurst h = false →
        ∃ u : State, exec (.keepWetWaitEnd h) s = .next (s.after u) ∧ u.health h = { x with idleFrom := t.tick } ∧ Only [.hlt] t u) ∧
      (t.mayBurst h = true → t.wouldGrant false (t.reg (Reg.HLT_ESPIT h)).toNat = true →
        ∃ u : State, exec (.keepWetWaitEnd h) s = .next (s.after u) ∧
          (u.health h).burst = some ⟨0, t.tick + t.fld (Reg.HLT_SPIT_PER h) 19 0⟩ ∧ (u.health h).spat = true ∧
          ⟨.spit h, (t.reg (Reg.HLT_ESPIT h)).toNat⟩ ∈ u.pwr.live ∧ Only [.order, .energy, .hlt] t u)) ∧
    (∀ b : Burst, s.ticking = true → x.burst = some b →
      let t := s.advanceTo b.nextAt
      t.hedReady h = true →
      ∃ u : State, exec (.keepWetFiring h) s = .next (s.after u) ∧
        (u.head h).firings = (s.head h).firings ++ [⟨(t.planFire h).2, .spit, t.spitCodes h b.g, t.ampScale h, t.tScale h⟩] ∧
        (u.health h).burst = (if t.fld (Reg.HLT_SPIT_B h) 7 0 ≤ b.g + 1 then none
          else some ⟨b.g + 1, b.nextAt + t.fld (Reg.HLT_SPIT_PER h) 19 0⟩) ∧
        (t.fld (Reg.HLT_SPIT_B h) 7 0 ≤ b.g + 1 → u.isLive (.spit h) = false) ∧ Only [.order, .energy, .hed, .hlt] t u) ∧
    (s.ticking = true → s.booted = true → s.fld Reg.HLT_FC_CFG 11 0 ≠ 0 →
      let t := s.advanceTo (s.dueAt (Ev.fireSave h) s.boot.doneAt (s.fld Reg.HLT_FC_CFG 11 0 * 100000000))
      (x.firesDirty = false → ∃ u : State, exec (.fireCountSave h) s = .next (s.after u) ∧ Only [.fired] t u) ∧
      (x.firesDirty = true → t.unitInReset (22 + h.val) = false → t.stagedBusy (fun w => decide (w = .fires h)) = false →
        t.wouldGrant false 1364 = true →
        ∃ u : State, exec (.fireCountSave h) s = .next (s.after u) ∧
          u.mem.staged = t.mem.staged ++ [⟨.fires h, 0xD000 + 0x2000 * h.val, t.fireBytes h⟩] ∧ (u.health h).firesDirty = false ∧
          ⟨.staged (22 + h.val) 3, 1364⟩ ∈ u.pwr.live ∧ Only [.order, .energy, .owed, .fired, .hlt] t u))

/-! ### The Hatch -/

/-- Lanes in service and leases (R503-R513): the owner drains, opens and closes a lane, an opened lane having no record and no
deferred write; a close whose wait ends opens the lane again with HAT.SELF_CHECK; NEW_HEAD clears the map and the fire counts; a
transfer gives the resource to its new holder and no other. -/
def Obligations.LanesAndLeasesMove : Prop :=
  ∀ (s : State) (n : Lane),
    let rest (u : State) : Prop := ∀ m : Lane, m ≠ n → u.laneState m = s.laneState m
    (∀ o, s.laneState n = .inService → s.Granted o OpEnv.quiet (Reg.HAT_LANE_CMD n) [word 1] →
      ∃ u : State, exec (.laneDrain o n) s = .next (s.written o u) ∧ u.laneState n = .draining ∧ rest u ∧ u.plc = s.plc ∧
        Only (.hat :: messageParts) s u) ∧
    (∀ o, s.laneState n ≠ .open_ → s.Granted o OpEnv.quiet (Reg.HAT_LANE_CMD n) [word 2] →
      ∃ u : State, exec (.laneOpen o n) s = .next (s.written o u) ∧ u.laneState n = .open_ ∧ rest u ∧ (u.lane n).deferred = [] ∧
        u.rbit (Reg.HAT_LANE_EVT n) 2 = true ∧ (s.laneState n ≠ .closing → (u.lane n).recs = []) ∧
        (∀ m : Lane, m ≠ n → u.lane m = s.lane m) ∧ Only ([.ses, .hat] ++ (recordParts ++ messageParts)) s u) ∧
    (∀ o, s.laneState n = .open_ → s.Granted o OpEnv.quiet (Reg.HAT_LANE_CMD n) [word 4] →
      ∃ u : State, exec (.laneClose o n) s = .next (s.written o u) ∧ u.laneState n = .closing ∧ rest u ∧
        u.closeEnd n = some (s.tick + s.fld Reg.HAT_CTRL 15 0 * 10000000) ∧ Only (.hat :: messageParts) s u) ∧
    (∀ o, s.Granted o OpEnv.quiet (Reg.HAT_LANE_CMD n) [word 8] →
      ∃ u : State, exec (.newHead o n) s = .next (s.written o u) ∧ (u.health n).map = [] ∧ (u.health n).fires = [] ∧
        (∀ m : Lane, m ≠ n → u.health m = s.health m) ∧ Only ([.energy, .owed, .hlt] ++ messageParts) s u) ∧
    (∀ d, s.ticking = true → s.closeEnd n = some d → s.laneState n = .closing → (s.advanceTo d).unitInReset 35 = false →
      ∃ u : State, exec (.closeWaitEnd n) s = .next (s.after u) ∧ u.laneState n = .open_ ∧ rest u ∧
        u.rbit (Reg.HAT_LANE_EVT n) 0 = true ∧ u.rbit (Reg.HAT_LANE_EVT n) 2 = true ∧ u.rbit Reg.FLT_PEND_B 7 = true ∧
        (u.lane n).deferred = [] ∧ Only ([.ses, .plc, .hat] ++ messageParts) (s.advanceTo d) u) ∧
    (∀ (o : OpCtx) (r : Fin 66) (dst : Byte), s.holder r ≠ dst → s.Granted o OpEnv.quiet (Reg.HAT_LEASE r) [word dst.toNat] →
      ∃ u : State, exec (.leaseTransfer o r dst) s = .next (s.written o u) ∧ u.holder r = dst ∧
        (∀ q : Fin 66, q ≠ r → u.holder q = s.holder q) ∧ Only [.order, .hat] s u)
end

