-- ==== Sys2Proof/Laws/Tab.lean ====
section
/-! SUPPORT. The laws of the sparse maps: read after write, frames, and that every operation keeps the canonical form. -/

namespace Sys2Proof.Machine

theorem Tab.get_erase_same {α : Type} (d : Nat → α) (t : Tab α) (k : Nat) :
    Tab.get d (Tab.erase t k) k = d k := by
  induction t with
  | nil => rfl
  | cons e t ih =>
    obtain ⟨j, v⟩ := e
    by_cases h : j = k <;> simp [Tab.erase, Tab.get, h, ih]

theorem Tab.get_erase_other {α : Type} (d : Nat → α) (t : Tab α) {k j : Nat} (h : j ≠ k) :
    Tab.get d (Tab.erase t k) j = Tab.get d t j := by
  induction t with
  | nil => rfl
  | cons e t ih =>
    obtain ⟨i, v⟩ := e
    by_cases h1 : i = k
    · subst h1
      simp [Tab.erase, Tab.get, ih, Ne.symm h]
    · by_cases h2 : i = j
      · subst h2; simp [Tab.erase, Tab.get, h1]
      · simp [Tab.erase, Tab.get, h1, h2, ih]

theorem Tab.get_insert_other {α : Type} (d : Nat → α) (t : Tab α) (v : α) {k j : Nat} (h : j ≠ k) :
    Tab.get d (Tab.insert k v t) j = Tab.get d t j := by
  induction t with
  | nil => simp [Tab.insert, Tab.get, Ne.symm h]
  | cons e t ih =>
    obtain ⟨i, w⟩ := e
    simp only [Tab.insert]
    split
    · simp [Tab.get, Ne.symm h]
    · by_cases h2 : i = j <;> simp [Tab.get, h2, ih]

/-- No entry of key `k` is listed. -/
def Tab.lacks {α : Type} (t : Tab α) (k : Nat) : Prop := ∀ e ∈ t, e.1 ≠ k

theorem Tab.lacks_erase {α : Type} (t : Tab α) (k : Nat) : Tab.lacks (Tab.erase t k) k := by
  induction t with
  | nil => intro e he; cases he
  | cons e t ih =>
    obtain ⟨j, v⟩ := e
    by_cases h : j = k
    · simpa [Tab.erase, h] using ih
    · intro x hx
      simp only [Tab.erase, h, if_false, List.mem_cons] at hx
      rcases hx with rfl | hx
      · exact h
      · exact ih x hx

theorem Tab.get_insert_same {α : Type} (d : Nat → α) (t : Tab α) (v : α) {k : Nat} (h : Tab.lacks t k) :
    Tab.get d (Tab.insert k v t) k = v := by
  induction t with
  | nil => simp [Tab.insert, Tab.get]
  | cons e t ih =>
    obtain ⟨i, w⟩ := e
    have hi : i ≠ k := h (i, w) (by simp)
    have ht : Tab.lacks t k := fun x hx => h x (by simp [hx])
    simp only [Tab.insert]
    split
    · simp [Tab.get]
    · simp [Tab.get, hi, ih ht]

/-- Read after write at the same key. -/
theorem Tab.get_set_same {α : Type} [DecidableEq α] (d : Nat → α) (t : Tab α) (k : Nat) (v : α) :
    Tab.get d (Tab.set d t k v) k = v := by
  unfold Tab.set
  split
  · rename_i h; rw [Tab.get_erase_same, h]
  · exact Tab.get_insert_same d _ v (Tab.lacks_erase t k)

/-- A write leaves every other key alone. -/
theorem Tab.get_set_other {α : Type} [DecidableEq α] (d : Nat → α) (t : Tab α) (v : α) {k j : Nat} (h : j ≠ k) :
    Tab.get d (Tab.set d t k v) j = Tab.get d t j := by
  unfold Tab.set
  split
  · exact Tab.get_erase_other d t h
  · rw [Tab.get_insert_other d _ v h, Tab.get_erase_other d t h]

theorem Tab.wfFrom_mono {α : Type} [DecidableEq α] (d : Nat → α) :
    ∀ (t : Tab α) {b c : Nat}, c ≤ b → Tab.wfFrom d b t = true → Tab.wfFrom d c t = true
  | [], _, _, _, _ => rfl
  | (k, v) :: t, b, c, h, hw => by
    simp only [Tab.wfFrom, Bool.and_eq_true, decide_eq_true_eq] at hw ⊢
    exact ⟨⟨Nat.le_trans h hw.1.1, hw.1.2⟩, hw.2⟩

theorem Tab.wfFrom_erase {α : Type} [DecidableEq α] (d : Nat → α) (k : Nat) :
    ∀ (t : Tab α) {b : Nat}, Tab.wfFrom d b t = true → Tab.wfFrom d b (Tab.erase t k) = true
  | [], _, _ => rfl
  | (j, v) :: t, b, hw => by
    simp only [Tab.wfFrom, Bool.and_eq_true, decide_eq_true_eq] at hw
    have ih := Tab.wfFrom_erase d k t hw.2
    by_cases h : j = k
    · simp only [Tab.erase, h, if_true]
      exact Tab.wfFrom_mono d _ (by omega) (h ▸ ih)
    · simp only [Tab.erase, h, if_false, Tab.wfFrom, Bool.and_eq_true, decide_eq_true_eq]
      exact ⟨hw.1, ih⟩

theorem Tab.wfFrom_insert {α : Type} [DecidableEq α] (d : Nat → α) {k : Nat} {v : α} (hv : v ≠ d k) :
    ∀ (t : Tab α) {b : Nat}, b ≤ k → Tab.lacks t k → Tab.wfFrom d b t = true →
      Tab.wfFrom d b (Tab.insert k v t) = true
  | [], b, hb, _, _ => by simp [Tab.insert, Tab.wfFrom, hb, hv]
  | (j, w) :: t, b, hb, hl, hw => by
    simp only [Tab.wfFrom, Bool.and_eq_true, decide_eq_true_eq] at hw
    have hj : j ≠ k := hl (j, w) (by simp)
    have ht : Tab.lacks t k := fun x hx => hl x (by simp [hx])
    simp only [Tab.insert]
    split
    · rename_i hlt
      simp only [Tab.wfFrom, Bool.and_eq_true, decide_eq_true_eq]
      exact ⟨⟨hb, hv⟩, ⟨by omega, hw.1.2⟩, hw.2⟩
    · rename_i hlt
      simp only [Tab.wfFrom, Bool.and_eq_true, decide_eq_true_eq]
      exact ⟨hw.1, Tab.wfFrom_insert d hv t (by omega) ht hw.2⟩

/-- A write keeps the canonical form. -/
theorem Tab.wf_set {α : Type} [DecidableEq α] (d : Nat → α) (t : Tab α) (k : Nat) (v : α)
    (h : Tab.wf d t = true) : Tab.wf d (Tab.set d t k v) = true := by
  unfold Tab.set
  split
  · exact Tab.wfFrom_erase d k t h
  · rename_i hv
    exact Tab.wfFrom_insert d hv _ (Nat.zero_le k) (Tab.lacks_erase t k) (Tab.wfFrom_erase d k t h)

theorem Tab.wfFrom_filter {α : Type} [DecidableEq α] (d : Nat → α) (p : Nat → Bool) :
    ∀ (t : Tab α) {b : Nat}, Tab.wfFrom d b t = true → Tab.wfFrom d b (t.filter (fun e => !p e.1)) = true
  | [], _, _ => rfl
  | (j, v) :: t, b, hw => by
    simp only [Tab.wfFrom, Bool.and_eq_true, decide_eq_true_eq] at hw
    have ih := Tab.wfFrom_filter d p t hw.2
    by_cases h : p j = true
    · simp only [List.filter, h, Bool.not_true]
      exact Tab.wfFrom_mono d _ (by omega) ih
    · simp only [Bool.not_eq_true] at h
      simp only [List.filter, h, Bool.not_false, Tab.wfFrom, Bool.and_eq_true, decide_eq_true_eq]
      exact ⟨hw.1, ih⟩

/-- Clearing a set of keys keeps the canonical form. -/
theorem Tab.wf_clear {α : Type} [DecidableEq α] (d : Nat → α) (t : Tab α) (p : Nat → Bool)
    (h : Tab.wf d t = true) : Tab.wf d (Tab.clear t p) = true :=
  Tab.wfFrom_filter d p t h

end Sys2Proof.Machine
end

