-- ==== Sys2Proof/Laws/State.lean ====
section
/-! SUPPORT. One lemma per part of State and per update of Machine/Ops.lean and Machine/Flags.lean: what the update leaves and
what it sets; then the same for what a getter reads. -/

namespace Sys2Proof.Machine.State

variable (s : State)

/-! ### `setReg` -/

@[simp] theorem setReg_tick (a : Nat) (v : Word) : (s.setReg a v).tick = s.tick := rfl
@[simp] theorem setReg_order (a : Nat) (v : Word) : (s.setReg a v).order = s.order := rfl
@[simp] theorem setReg_regs (a : Nat) (v : Word) : (s.setReg a v).regs = Tab.set regReset s.regs a v := rfl
@[simp] theorem setReg_guards (a : Nat) (v : Word) : (s.setReg a v).guards = s.guards := rfl
@[simp] theorem setReg_fired (a : Nat) (v : Word) : (s.setReg a v).fired = s.fired := rfl
@[simp] theorem setReg_flt (a : Nat) (v : Word) : (s.setReg a v).flt = s.flt := rfl
@[simp] theorem setReg_boot (a : Nat) (v : Word) : (s.setReg a v).boot = s.boot := rfl
@[simp] theorem setReg_pwr (a : Nat) (v : Word) : (s.setReg a v).pwr = s.pwr := rfl
@[simp] theorem setReg_mem (a : Nat) (v : Word) : (s.setReg a v).mem = s.mem := rfl
@[simp] theorem setReg_lnk (a : Nat) (v : Word) : (s.setReg a v).lnk = s.lnk := rfl
@[simp] theorem setReg_ses (a : Nat) (v : Word) : (s.setReg a v).ses = s.ses := rfl
@[simp] theorem setReg_tmr (a : Nat) (v : Word) : (s.setReg a v).tmr = s.tmr := rfl
@[simp] theorem setReg_plc (a : Nat) (v : Word) : (s.setReg a v).plc = s.plc := rfl
@[simp] theorem setReg_mot (a : Nat) (v : Word) : (s.setReg a v).mot = s.mot := rfl
@[simp] theorem setReg_hst (a : Nat) (v : Word) : (s.setReg a v).hst = s.hst := rfl
@[simp] theorem setReg_crates (a : Nat) (v : Word) : (s.setReg a v).crates = s.crates := rfl
@[simp] theorem setReg_cmp (a : Nat) (v : Word) : (s.setReg a v).cmp = s.cmp := rfl
@[simp] theorem setReg_cal (a : Nat) (v : Word) : (s.setReg a v).cal = s.cal := rfl
@[simp] theorem setReg_hed (a : Nat) (v : Word) : (s.setReg a v).hed = s.hed := rfl
@[simp] theorem setReg_hlt (a : Nat) (v : Word) : (s.setReg a v).hlt = s.hlt := rfl
@[simp] theorem setReg_rej (a : Nat) (v : Word) : (s.setReg a v).rej = s.rej := rfl
@[simp] theorem setReg_hat (a : Nat) (v : Word) : (s.setReg a v).hat = s.hat := rfl
@[simp] theorem setReg_free (a : Nat) (v : Word) : (s.setReg a v).free = s.free := rfl
@[simp] theorem setReg_out (a : Nat) (v : Word) : (s.setReg a v).out = s.out := rfl
@[simp] theorem setReg_pending (a : Nat) (v : Word) : (s.setReg a v).pending = s.pending := rfl
@[simp] theorem setReg_lane (a : Nat) (v : Word) (j : Lane) : (s.setReg a v).lane j = s.lane j := rfl
@[simp] theorem setReg_head (a : Nat) (v : Word) (j : Head) : (s.setReg a v).head j = s.head j := rfl
@[simp] theorem setReg_health (a : Nat) (v : Word) (j : Head) : (s.setReg a v).health j = s.health j := rfl
@[simp] theorem setReg_axis (a : Nat) (v : Word) (j : Axis) : (s.setReg a v).axis j = s.axis j := rfl
@[simp] theorem setReg_chan (a : Nat) (v : Word) (j : Chan) : (s.setReg a v).chan j = s.chan j := rfl
@[simp] theorem setReg_timer (a : Nat) (v : Word) (j : TimerId) : (s.setReg a v).timer j = s.timer j := rfl
@[simp] theorem setReg_sess (a : Nat) (v : Word) (j : Sess) : (s.setReg a v).sess j = s.sess j := rfl
@[simp] theorem setReg_rejLane (a : Nat) (v : Word) (j : Lane) : (s.setReg a v).rejLane j = s.rejLane j := rfl
@[simp] theorem setReg_laneState (a : Nat) (v : Word) (j : Lane) : (s.setReg a v).laneState j = s.laneState j := rfl
@[simp] theorem setReg_guard (a : Nat) (v : Word) (b : Nat) : (s.setReg a v).guard b = s.guard b := rfl
@[simp] theorem setReg_firedAt (a : Nat) (v : Word) (b : Nat) : (s.setReg a v).firedAt b = s.firedAt b := rfl

/-! ### `setFld` -/

@[simp] theorem setFld_tick (a hi lo v : Nat) : (s.setFld a hi lo v).tick = s.tick := rfl
@[simp] theorem setFld_order (a hi lo v : Nat) : (s.setFld a hi lo v).order = s.order := rfl
@[simp] theorem setFld_regs (a hi lo v : Nat) : (s.setFld a hi lo v).regs = Tab.set regReset s.regs a (putBits (s.reg a) hi lo v) := rfl
@[simp] theorem setFld_guards (a hi lo v : Nat) : (s.setFld a hi lo v).guards = s.guards := rfl
@[simp] theorem setFld_fired (a hi lo v : Nat) : (s.setFld a hi lo v).fired = s.fired := rfl
@[simp] theorem setFld_flt (a hi lo v : Nat) : (s.setFld a hi lo v).flt = s.flt := rfl
@[simp] theorem setFld_boot (a hi lo v : Nat) : (s.setFld a hi lo v).boot = s.boot := rfl
@[simp] theorem setFld_pwr (a hi lo v : Nat) : (s.setFld a hi lo v).pwr = s.pwr := rfl
@[simp] theorem setFld_mem (a hi lo v : Nat) : (s.setFld a hi lo v).mem = s.mem := rfl
@[simp] theorem setFld_lnk (a hi lo v : Nat) : (s.setFld a hi lo v).lnk = s.lnk := rfl
@[simp] theorem setFld_ses (a hi lo v : Nat) : (s.setFld a hi lo v).ses = s.ses := rfl
@[simp] theorem setFld_tmr (a hi lo v : Nat) : (s.setFld a hi lo v).tmr = s.tmr := rfl
@[simp] theorem setFld_plc (a hi lo v : Nat) : (s.setFld a hi lo v).plc = s.plc := rfl
@[simp] theorem setFld_mot (a hi lo v : Nat) : (s.setFld a hi lo v).mot = s.mot := rfl
@[simp] theorem setFld_hst (a hi lo v : Nat) : (s.setFld a hi lo v).hst = s.hst := rfl
@[simp] theorem setFld_crates (a hi lo v : Nat) : (s.setFld a hi lo v).crates = s.crates := rfl
@[simp] theorem setFld_cmp (a hi lo v : Nat) : (s.setFld a hi lo v).cmp = s.cmp := rfl
@[simp] theorem setFld_cal (a hi lo v : Nat) : (s.setFld a hi lo v).cal = s.cal := rfl
@[simp] theorem setFld_hed (a hi lo v : Nat) : (s.setFld a hi lo v).hed = s.hed := rfl
@[simp] theorem setFld_hlt (a hi lo v : Nat) : (s.setFld a hi lo v).hlt = s.hlt := rfl
@[simp] theorem setFld_rej (a hi lo v : Nat) : (s.setFld a hi lo v).rej = s.rej := rfl
@[simp] theorem setFld_hat (a hi lo v : Nat) : (s.setFld a hi lo v).hat = s.hat := rfl
@[simp] theorem setFld_free (a hi lo v : Nat) : (s.setFld a hi lo v).free = s.free := rfl
@[simp] theorem setFld_out (a hi lo v : Nat) : (s.setFld a hi lo v).out = s.out := rfl
@[simp] theorem setFld_pending (a hi lo v : Nat) : (s.setFld a hi lo v).pending = s.pending := rfl
@[simp] theorem setFld_lane (a hi lo v : Nat) (j : Lane) : (s.setFld a hi lo v).lane j = s.lane j := rfl
@[simp] theorem setFld_head (a hi lo v : Nat) (j : Head) : (s.setFld a hi lo v).head j = s.head j := rfl
@[simp] theorem setFld_health (a hi lo v : Nat) (j : Head) : (s.setFld a hi lo v).health j = s.health j := rfl
@[simp] theorem setFld_axis (a hi lo v : Nat) (j : Axis) : (s.setFld a hi lo v).axis j = s.axis j := rfl
@[simp] theorem setFld_chan (a hi lo v : Nat) (j : Chan) : (s.setFld a hi lo v).chan j = s.chan j := rfl
@[simp] theorem setFld_timer (a hi lo v : Nat) (j : TimerId) : (s.setFld a hi lo v).timer j = s.timer j := rfl
@[simp] theorem setFld_sess (a hi lo v : Nat) (j : Sess) : (s.setFld a hi lo v).sess j = s.sess j := rfl
@[simp] theorem setFld_rejLane (a hi lo v : Nat) (j : Lane) : (s.setFld a hi lo v).rejLane j = s.rejLane j := rfl
@[simp] theorem setFld_laneState (a hi lo v : Nat) (j : Lane) : (s.setFld a hi lo v).laneState j = s.laneState j := rfl
@[simp] theorem setFld_guard (a hi lo v : Nat) (b : Nat) : (s.setFld a hi lo v).guard b = s.guard b := rfl
@[simp] theorem setFld_firedAt (a hi lo v : Nat) (b : Nat) : (s.setFld a hi lo v).firedAt b = s.firedAt b := rfl

/-! ### `setGuard` -/

@[simp] theorem setGuard_tick (a k : Nat) : (s.setGuard a k).tick = s.tick := rfl
@[simp] theorem setGuard_order (a k : Nat) : (s.setGuard a k).order = s.order := rfl
@[simp] theorem setGuard_regs (a k : Nat) : (s.setGuard a k).regs = s.regs := rfl
@[simp] theorem setGuard_guards (a k : Nat) : (s.setGuard a k).guards = Tab.set (fun _ => 0) s.guards a k := rfl
@[simp] theorem setGuard_fired (a k : Nat) : (s.setGuard a k).fired = s.fired := rfl
@[simp] theorem setGuard_flt (a k : Nat) : (s.setGuard a k).flt = s.flt := rfl
@[simp] theorem setGuard_boot (a k : Nat) : (s.setGuard a k).boot = s.boot := rfl
@[simp] theorem setGuard_pwr (a k : Nat) : (s.setGuard a k).pwr = s.pwr := rfl
@[simp] theorem setGuard_mem (a k : Nat) : (s.setGuard a k).mem = s.mem := rfl
@[simp] theorem setGuard_lnk (a k : Nat) : (s.setGuard a k).lnk = s.lnk := rfl
@[simp] theorem setGuard_ses (a k : Nat) : (s.setGuard a k).ses = s.ses := rfl
@[simp] theorem setGuard_tmr (a k : Nat) : (s.setGuard a k).tmr = s.tmr := rfl
@[simp] theorem setGuard_plc (a k : Nat) : (s.setGuard a k).plc = s.plc := rfl
@[simp] theorem setGuard_mot (a k : Nat) : (s.setGuard a k).mot = s.mot := rfl
@[simp] theorem setGuard_hst (a k : Nat) : (s.setGuard a k).hst = s.hst := rfl
@[simp] theorem setGuard_crates (a k : Nat) : (s.setGuard a k).crates = s.crates := rfl
@[simp] theorem setGuard_cmp (a k : Nat) : (s.setGuard a k).cmp = s.cmp := rfl
@[simp] theorem setGuard_cal (a k : Nat) : (s.setGuard a k).cal = s.cal := rfl
@[simp] theorem setGuard_hed (a k : Nat) : (s.setGuard a k).hed = s.hed := rfl
@[simp] theorem setGuard_hlt (a k : Nat) : (s.setGuard a k).hlt = s.hlt := rfl
@[simp] theorem setGuard_rej (a k : Nat) : (s.setGuard a k).rej = s.rej := rfl
@[simp] theorem setGuard_hat (a k : Nat) : (s.setGuard a k).hat = s.hat := rfl
@[simp] theorem setGuard_free (a k : Nat) : (s.setGuard a k).free = s.free := rfl
@[simp] theorem setGuard_out (a k : Nat) : (s.setGuard a k).out = s.out := rfl
@[simp] theorem setGuard_pending (a k : Nat) : (s.setGuard a k).pending = s.pending := rfl
@[simp] theorem setGuard_reg (a k : Nat) (b : Nat) : (s.setGuard a k).reg b = s.reg b := rfl
@[simp] theorem setGuard_lane (a k : Nat) (j : Lane) : (s.setGuard a k).lane j = s.lane j := rfl
@[simp] theorem setGuard_head (a k : Nat) (j : Head) : (s.setGuard a k).head j = s.head j := rfl
@[simp] theorem setGuard_health (a k : Nat) (j : Head) : (s.setGuard a k).health j = s.health j := rfl
@[simp] theorem setGuard_axis (a k : Nat) (j : Axis) : (s.setGuard a k).axis j = s.axis j := rfl
@[simp] theorem setGuard_chan (a k : Nat) (j : Chan) : (s.setGuard a k).chan j = s.chan j := rfl
@[simp] theorem setGuard_timer (a k : Nat) (j : TimerId) : (s.setGuard a k).timer j = s.timer j := rfl
@[simp] theorem setGuard_sess (a k : Nat) (j : Sess) : (s.setGuard a k).sess j = s.sess j := rfl
@[simp] theorem setGuard_rejLane (a k : Nat) (j : Lane) : (s.setGuard a k).rejLane j = s.rejLane j := rfl
@[simp] theorem setGuard_laneState (a k : Nat) (j : Lane) : (s.setGuard a k).laneState j = s.laneState j := rfl
@[simp] theorem setGuard_firedAt (a k : Nat) (b : Nat) : (s.setGuard a k).firedAt b = s.firedAt b := rfl

/-! ### `setFlags` -/

@[simp] theorem setFlags_tick (a : Nat) (m : Word) : (s.setFlags a m).tick = s.tick := rfl
@[simp] theorem setFlags_order (a : Nat) (m : Word) : (s.setFlags a m).order = s.order := rfl
@[simp] theorem setFlags_fired (a : Nat) (m : Word) : (s.setFlags a m).fired = s.fired := rfl
@[simp] theorem setFlags_flt (a : Nat) (m : Word) : (s.setFlags a m).flt = s.flt := rfl
@[simp] theorem setFlags_boot (a : Nat) (m : Word) : (s.setFlags a m).boot = s.boot := rfl
@[simp] theorem setFlags_pwr (a : Nat) (m : Word) : (s.setFlags a m).pwr = s.pwr := rfl
@[simp] theorem setFlags_mem (a : Nat) (m : Word) : (s.setFlags a m).mem = s.mem := rfl
@[simp] theorem setFlags_lnk (a : Nat) (m : Word) : (s.setFlags a m).lnk = s.lnk := rfl
@[simp] theorem setFlags_ses (a : Nat) (m : Word) : (s.setFlags a m).ses = s.ses := rfl
@[simp] theorem setFlags_tmr (a : Nat) (m : Word) : (s.setFlags a m).tmr = s.tmr := rfl
@[simp] theorem setFlags_plc (a : Nat) (m : Word) : (s.setFlags a m).plc = s.plc := rfl
@[simp] theorem setFlags_mot (a : Nat) (m : Word) : (s.setFlags a m).mot = s.mot := rfl
@[simp] theorem setFlags_hst (a : Nat) (m : Word) : (s.setFlags a m).hst = s.hst := rfl
@[simp] theorem setFlags_crates (a : Nat) (m : Word) : (s.setFlags a m).crates = s.crates := rfl
@[simp] theorem setFlags_cmp (a : Nat) (m : Word) : (s.setFlags a m).cmp = s.cmp := rfl
@[simp] theorem setFlags_cal (a : Nat) (m : Word) : (s.setFlags a m).cal = s.cal := rfl
@[simp] theorem setFlags_hed (a : Nat) (m : Word) : (s.setFlags a m).hed = s.hed := rfl
@[simp] theorem setFlags_hlt (a : Nat) (m : Word) : (s.setFlags a m).hlt = s.hlt := rfl
@[simp] theorem setFlags_rej (a : Nat) (m : Word) : (s.setFlags a m).rej = s.rej := rfl
@[simp] theorem setFlags_hat (a : Nat) (m : Word) : (s.setFlags a m).hat = s.hat := rfl
@[simp] theorem setFlags_free (a : Nat) (m : Word) : (s.setFlags a m).free = s.free := rfl
@[simp] theorem setFlags_out (a : Nat) (m : Word) : (s.setFlags a m).out = s.out := rfl
@[simp] theorem setFlags_pending (a : Nat) (m : Word) : (s.setFlags a m).pending = s.pending := rfl
@[simp] theorem setFlags_lane (a : Nat) (m : Word) (j : Lane) : (s.setFlags a m).lane j = s.lane j := rfl
@[simp] theorem setFlags_head (a : Nat) (m : Word) (j : Head) : (s.setFlags a m).head j = s.head j := rfl
@[simp] theorem setFlags_health (a : Nat) (m : Word) (j : Head) : (s.setFlags a m).health j = s.health j := rfl
@[simp] theorem setFlags_axis (a : Nat) (m : Word) (j : Axis) : (s.setFlags a m).axis j = s.axis j := rfl
@[simp] theorem setFlags_chan (a : Nat) (m : Word) (j : Chan) : (s.setFlags a m).chan j = s.chan j := rfl
@[simp] theorem setFlags_timer (a : Nat) (m : Word) (j : TimerId) : (s.setFlags a m).timer j = s.timer j := rfl
@[simp] theorem setFlags_sess (a : Nat) (m : Word) (j : Sess) : (s.setFlags a m).sess j = s.sess j := rfl
@[simp] theorem setFlags_rejLane (a : Nat) (m : Word) (j : Lane) : (s.setFlags a m).rejLane j = s.rejLane j := rfl
@[simp] theorem setFlags_laneState (a : Nat) (m : Word) (j : Lane) : (s.setFlags a m).laneState j = s.laneState j := rfl
@[simp] theorem setFlags_firedAt (a : Nat) (m : Word) (b : Nat) : (s.setFlags a m).firedAt b = s.firedAt b := rfl

/-! ### `setFlag` -/

@[simp] theorem setFlag_tick (a n : Nat) : (s.setFlag a n).tick = s.tick := rfl
@[simp] theorem setFlag_order (a n : Nat) : (s.setFlag a n).order = s.order := rfl
@[simp] theorem setFlag_fired (a n : Nat) : (s.setFlag a n).fired = s.fired := rfl
@[simp] theorem setFlag_flt (a n : Nat) : (s.setFlag a n).flt = s.flt := rfl
@[simp] theorem setFlag_boot (a n : Nat) : (s.setFlag a n).boot = s.boot := rfl
@[simp] theorem setFlag_pwr (a n : Nat) : (s.setFlag a n).pwr = s.pwr := rfl
@[simp] theorem setFlag_mem (a n : Nat) : (s.setFlag a n).mem = s.mem := rfl
@[simp] theorem setFlag_lnk (a n : Nat) : (s.setFlag a n).lnk = s.lnk := rfl
@[simp] theorem setFlag_ses (a n : Nat) : (s.setFlag a n).ses = s.ses := rfl
@[simp] theorem setFlag_tmr (a n : Nat) : (s.setFlag a n).tmr = s.tmr := rfl
@[simp] theorem setFlag_plc (a n : Nat) : (s.setFlag a n).plc = s.plc := rfl
@[simp] theorem setFlag_mot (a n : Nat) : (s.setFlag a n).mot = s.mot := rfl
@[simp] theorem setFlag_hst (a n : Nat) : (s.setFlag a n).hst = s.hst := rfl
@[simp] theorem setFlag_crates (a n : Nat) : (s.setFlag a n).crates = s.crates := rfl
@[simp] theorem setFlag_cmp (a n : Nat) : (s.setFlag a n).cmp = s.cmp := rfl
@[simp] theorem setFlag_cal (a n : Nat) : (s.setFlag a n).cal = s.cal := rfl
@[simp] theorem setFlag_hed (a n : Nat) : (s.setFlag a n).hed = s.hed := rfl
@[simp] theorem setFlag_hlt (a n : Nat) : (s.setFlag a n).hlt = s.hlt := rfl
@[simp] theorem setFlag_rej (a n : Nat) : (s.setFlag a n).rej = s.rej := rfl
@[simp] theorem setFlag_hat (a n : Nat) : (s.setFlag a n).hat = s.hat := rfl
@[simp] theorem setFlag_free (a n : Nat) : (s.setFlag a n).free = s.free := rfl
@[simp] theorem setFlag_out (a n : Nat) : (s.setFlag a n).out = s.out := rfl
@[simp] theorem setFlag_pending (a n : Nat) : (s.setFlag a n).pending = s.pending := rfl
@[simp] theorem setFlag_lane (a n : Nat) (j : Lane) : (s.setFlag a n).lane j = s.lane j := rfl
@[simp] theorem setFlag_head (a n : Nat) (j : Head) : (s.setFlag a n).head j = s.head j := rfl
@[simp] theorem setFlag_health (a n : Nat) (j : Head) : (s.setFlag a n).health j = s.health j := rfl
@[simp] theorem setFlag_axis (a n : Nat) (j : Axis) : (s.setFlag a n).axis j = s.axis j := rfl
@[simp] theorem setFlag_chan (a n : Nat) (j : Chan) : (s.setFlag a n).chan j = s.chan j := rfl
@[simp] theorem setFlag_timer (a n : Nat) (j : TimerId) : (s.setFlag a n).timer j = s.timer j := rfl
@[simp] theorem setFlag_sess (a n : Nat) (j : Sess) : (s.setFlag a n).sess j = s.sess j := rfl
@[simp] theorem setFlag_rejLane (a n : Nat) (j : Lane) : (s.setFlag a n).rejLane j = s.rejLane j := rfl
@[simp] theorem setFlag_laneState (a n : Nat) (j : Lane) : (s.setFlag a n).laneState j = s.laneState j := rfl
@[simp] theorem setFlag_firedAt (a n : Nat) (b : Nat) : (s.setFlag a n).firedAt b = s.firedAt b := rfl

/-! ### `clearFlags` -/

@[simp] theorem clearFlags_tick (a : Nat) (v m : Word) : (s.clearFlags a v m).tick = s.tick := rfl
@[simp] theorem clearFlags_order (a : Nat) (v m : Word) : (s.clearFlags a v m).order = s.order := rfl
@[simp] theorem clearFlags_regs (a : Nat) (v m : Word) : (s.clearFlags a v m).regs = Tab.set regReset s.regs a (s.reg a &&& ~~~(v &&& m)) := rfl
@[simp] theorem clearFlags_guards (a : Nat) (v m : Word) : (s.clearFlags a v m).guards = s.guards := rfl
@[simp] theorem clearFlags_fired (a : Nat) (v m : Word) : (s.clearFlags a v m).fired = s.fired := rfl
@[simp] theorem clearFlags_flt (a : Nat) (v m : Word) : (s.clearFlags a v m).flt = s.flt := rfl
@[simp] theorem clearFlags_boot (a : Nat) (v m : Word) : (s.clearFlags a v m).boot = s.boot := rfl
@[simp] theorem clearFlags_pwr (a : Nat) (v m : Word) : (s.clearFlags a v m).pwr = s.pwr := rfl
@[simp] theorem clearFlags_mem (a : Nat) (v m : Word) : (s.clearFlags a v m).mem = s.mem := rfl
@[simp] theorem clearFlags_lnk (a : Nat) (v m : Word) : (s.clearFlags a v m).lnk = s.lnk := rfl
@[simp] theorem clearFlags_ses (a : Nat) (v m : Word) : (s.clearFlags a v m).ses = s.ses := rfl
@[simp] theorem clearFlags_tmr (a : Nat) (v m : Word) : (s.clearFlags a v m).tmr = s.tmr := rfl
@[simp] theorem clearFlags_plc (a : Nat) (v m : Word) : (s.clearFlags a v m).plc = s.plc := rfl
@[simp] theorem clearFlags_mot (a : Nat) (v m : Word) : (s.clearFlags a v m).mot = s.mot := rfl
@[simp] theorem clearFlags_hst (a : Nat) (v m : Word) : (s.clearFlags a v m).hst = s.hst := rfl
@[simp] theorem clearFlags_crates (a : Nat) (v m : Word) : (s.clearFlags a v m).crates = s.crates := rfl
@[simp] theorem clearFlags_cmp (a : Nat) (v m : Word) : (s.clearFlags a v m).cmp = s.cmp := rfl
@[simp] theorem clearFlags_cal (a : Nat) (v m : Word) : (s.clearFlags a v m).cal = s.cal := rfl
@[simp] theorem clearFlags_hed (a : Nat) (v m : Word) : (s.clearFlags a v m).hed = s.hed := rfl
@[simp] theorem clearFlags_hlt (a : Nat) (v m : Word) : (s.clearFlags a v m).hlt = s.hlt := rfl
@[simp] theorem clearFlags_rej (a : Nat) (v m : Word) : (s.clearFlags a v m).rej = s.rej := rfl
@[simp] theorem clearFlags_hat (a : Nat) (v m : Word) : (s.clearFlags a v m).hat = s.hat := rfl
@[simp] theorem clearFlags_free (a : Nat) (v m : Word) : (s.clearFlags a v m).free = s.free := rfl
@[simp] theorem clearFlags_out (a : Nat) (v m : Word) : (s.clearFlags a v m).out = s.out := rfl
@[simp] theorem clearFlags_pending (a : Nat) (v m : Word) : (s.clearFlags a v m).pending = s.pending := rfl
@[simp] theorem clearFlags_lane (a : Nat) (v m : Word) (j : Lane) : (s.clearFlags a v m).lane j = s.lane j := rfl
@[simp] theorem clearFlags_head (a : Nat) (v m : Word) (j : Head) : (s.clearFlags a v m).head j = s.head j := rfl
@[simp] theorem clearFlags_health (a : Nat) (v m : Word) (j : Head) : (s.clearFlags a v m).health j = s.health j := rfl
@[simp] theorem clearFlags_axis (a : Nat) (v m : Word) (j : Axis) : (s.clearFlags a v m).axis j = s.axis j := rfl
@[simp] theorem clearFlags_chan (a : Nat) (v m : Word) (j : Chan) : (s.clearFlags a v m).chan j = s.chan j := rfl
@[simp] theorem clearFlags_timer (a : Nat) (v m : Word) (j : TimerId) : (s.clearFlags a v m).timer j = s.timer j := rfl
@[simp] theorem clearFlags_sess (a : Nat) (v m : Word) (j : Sess) : (s.clearFlags a v m).sess j = s.sess j := rfl
@[simp] theorem clearFlags_rejLane (a : Nat) (v m : Word) (j : Lane) : (s.clearFlags a v m).rejLane j = s.rejLane j := rfl
@[simp] theorem clearFlags_laneState (a : Nat) (v m : Word) (j : Lane) : (s.clearFlags a v m).laneState j = s.laneState j := rfl
@[simp] theorem clearFlags_guard (a : Nat) (v m : Word) (b : Nat) : (s.clearFlags a v m).guard b = s.guard b := rfl
@[simp] theorem clearFlags_firedAt (a : Nat) (v m : Word) (b : Nat) : (s.clearFlags a v m).firedAt b = s.firedAt b := rfl

/-! ### `commit` -/

@[simp] theorem commit_tick : s.commit.tick = s.tick := rfl
@[simp] theorem commit_order : s.commit.order = s.order + 1 := rfl
@[simp] theorem commit_regs : s.commit.regs = s.regs := rfl
@[simp] theorem commit_guards : s.commit.guards = s.guards := rfl
@[simp] theorem commit_fired : s.commit.fired = s.fired := rfl
@[simp] theorem commit_flt : s.commit.flt = s.flt := rfl
@[simp] theorem commit_boot : s.commit.boot = s.boot := rfl
@[simp] theorem commit_pwr : s.commit.pwr = s.pwr := rfl
@[simp] theorem commit_mem : s.commit.mem = s.mem := rfl
@[simp] theorem commit_lnk : s.commit.lnk = s.lnk := rfl
@[simp] theorem commit_ses : s.commit.ses = s.ses := rfl
@[simp] theorem commit_tmr : s.commit.tmr = s.tmr := rfl
@[simp] theorem commit_plc : s.commit.plc = s.plc := rfl
@[simp] theorem commit_mot : s.commit.mot = s.mot := rfl
@[simp] theorem commit_hst : s.commit.hst = s.hst := rfl
@[simp] theorem commit_crates : s.commit.crates = s.crates := rfl
@[simp] theorem commit_cmp : s.commit.cmp = s.cmp := rfl
@[simp] theorem commit_cal : s.commit.cal = s.cal := rfl
@[simp] theorem commit_hed : s.commit.hed = s.hed := rfl
@[simp] theorem commit_hlt : s.commit.hlt = s.hlt := rfl
@[simp] theorem commit_rej : s.commit.rej = s.rej := rfl
@[simp] theorem commit_hat : s.commit.hat = s.hat := rfl
@[simp] theorem commit_free : s.commit.free = s.free := rfl
@[simp] theorem commit_out : s.commit.out = s.out := rfl
@[simp] theorem commit_pending : s.commit.pending = s.pending := rfl
@[simp] theorem commit_reg (b : Nat) : s.commit.reg b = s.reg b := rfl
@[simp] theorem commit_lane (j : Lane) : s.commit.lane j = s.lane j := rfl
@[simp] theorem commit_head (j : Head) : s.commit.head j = s.head j := rfl
@[simp] theorem commit_health (j : Head) : s.commit.health j = s.health j := rfl
@[simp] theorem commit_axis (j : Axis) : s.commit.axis j = s.axis j := rfl
@[simp] theorem commit_chan (j : Chan) : s.commit.chan j = s.chan j := rfl
@[simp] theorem commit_timer (j : TimerId) : s.commit.timer j = s.timer j := rfl
@[simp] theorem commit_sess (j : Sess) : s.commit.sess j = s.sess j := rfl
@[simp] theorem commit_rejLane (j : Lane) : s.commit.rejLane j = s.rejLane j := rfl
@[simp] theorem commit_laneState (j : Lane) : s.commit.laneState j = s.laneState j := rfl
@[simp] theorem commit_guard (b : Nat) : s.commit.guard b = s.guard b := rfl
@[simp] theorem commit_firedAt (b : Nat) : s.commit.firedAt b = s.firedAt b := rfl

/-! ### `emit` -/

@[simp] theorem emit_tick (e : Emit) : (s.emit e).tick = s.tick := rfl
@[simp] theorem emit_order (e : Emit) : (s.emit e).order = s.order := rfl
@[simp] theorem emit_regs (e : Emit) : (s.emit e).regs = s.regs := rfl
@[simp] theorem emit_guards (e : Emit) : (s.emit e).guards = s.guards := rfl
@[simp] theorem emit_fired (e : Emit) : (s.emit e).fired = s.fired := rfl
@[simp] theorem emit_flt (e : Emit) : (s.emit e).flt = s.flt := rfl
@[simp] theorem emit_boot (e : Emit) : (s.emit e).boot = s.boot := rfl
@[simp] theorem emit_pwr (e : Emit) : (s.emit e).pwr = s.pwr := rfl
@[simp] theorem emit_mem (e : Emit) : (s.emit e).mem = s.mem := rfl
@[simp] theorem emit_lnk (e : Emit) : (s.emit e).lnk = s.lnk := rfl
@[simp] theorem emit_ses (e : Emit) : (s.emit e).ses = s.ses := rfl
@[simp] theorem emit_tmr (e : Emit) : (s.emit e).tmr = s.tmr := rfl
@[simp] theorem emit_plc (e : Emit) : (s.emit e).plc = s.plc := rfl
@[simp] theorem emit_mot (e : Emit) : (s.emit e).mot = s.mot := rfl
@[simp] theorem emit_hst (e : Emit) : (s.emit e).hst = s.hst := rfl
@[simp] theorem emit_crates (e : Emit) : (s.emit e).crates = s.crates := rfl
@[simp] theorem emit_cmp (e : Emit) : (s.emit e).cmp = s.cmp := rfl
@[simp] theorem emit_cal (e : Emit) : (s.emit e).cal = s.cal := rfl
@[simp] theorem emit_hed (e : Emit) : (s.emit e).hed = s.hed := rfl
@[simp] theorem emit_hlt (e : Emit) : (s.emit e).hlt = s.hlt := rfl
@[simp] theorem emit_rej (e : Emit) : (s.emit e).rej = s.rej := rfl
@[simp] theorem emit_hat (e : Emit) : (s.emit e).hat = s.hat := rfl
@[simp] theorem emit_free (e : Emit) : (s.emit e).free = s.free := rfl
@[simp] theorem emit_out (e : Emit) : (s.emit e).out = e :: s.out := rfl
@[simp] theorem emit_pending (e : Emit) : (s.emit e).pending = s.pending := rfl
@[simp] theorem emit_reg (e : Emit) (b : Nat) : (s.emit e).reg b = s.reg b := rfl
@[simp] theorem emit_lane (e : Emit) (j : Lane) : (s.emit e).lane j = s.lane j := rfl
@[simp] theorem emit_head (e : Emit) (j : Head) : (s.emit e).head j = s.head j := rfl
@[simp] theorem emit_health (e : Emit) (j : Head) : (s.emit e).health j = s.health j := rfl
@[simp] theorem emit_axis (e : Emit) (j : Axis) : (s.emit e).axis j = s.axis j := rfl
@[simp] theorem emit_chan (e : Emit) (j : Chan) : (s.emit e).chan j = s.chan j := rfl
@[simp] theorem emit_timer (e : Emit) (j : TimerId) : (s.emit e).timer j = s.timer j := rfl
@[simp] theorem emit_sess (e : Emit) (j : Sess) : (s.emit e).sess j = s.sess j := rfl
@[simp] theorem emit_rejLane (e : Emit) (j : Lane) : (s.emit e).rejLane j = s.rejLane j := rfl
@[simp] theorem emit_laneState (e : Emit) (j : Lane) : (s.emit e).laneState j = s.laneState j := rfl
@[simp] theorem emit_guard (e : Emit) (b : Nat) : (s.emit e).guard b = s.guard b := rfl
@[simp] theorem emit_firedAt (e : Emit) (b : Nat) : (s.emit e).firedAt b = s.firedAt b := rfl

/-! ### `setFired` -/

@[simp] theorem setFired_tick (k t : Nat) : (s.setFired k t).tick = s.tick := rfl
@[simp] theorem setFired_order (k t : Nat) : (s.setFired k t).order = s.order := rfl
@[simp] theorem setFired_regs (k t : Nat) : (s.setFired k t).regs = s.regs := rfl
@[simp] theorem setFired_guards (k t : Nat) : (s.setFired k t).guards = s.guards := rfl
@[simp] theorem setFired_fired (k t : Nat) : (s.setFired k t).fired = Tab.set (fun _ => 0) s.fired k t := rfl
@[simp] theorem setFired_flt (k t : Nat) : (s.setFired k t).flt = s.flt := rfl
@[simp] theorem setFired_boot (k t : Nat) : (s.setFired k t).boot = s.boot := rfl
@[simp] theorem setFired_pwr (k t : Nat) : (s.setFired k t).pwr = s.pwr := rfl
@[simp] theorem setFired_mem (k t : Nat) : (s.setFired k t).mem = s.mem := rfl
@[simp] theorem setFired_lnk (k t : Nat) : (s.setFired k t).lnk = s.lnk := rfl
@[simp] theorem setFired_ses (k t : Nat) : (s.setFired k t).ses = s.ses := rfl
@[simp] theorem setFired_tmr (k t : Nat) : (s.setFired k t).tmr = s.tmr := rfl
@[simp] theorem setFired_plc (k t : Nat) : (s.setFired k t).plc = s.plc := rfl
@[simp] theorem setFired_mot (k t : Nat) : (s.setFired k t).mot = s.mot := rfl
@[simp] theorem setFired_hst (k t : Nat) : (s.setFired k t).hst = s.hst := rfl
@[simp] theorem setFired_crates (k t : Nat) : (s.setFired k t).crates = s.crates := rfl
@[simp] theorem setFired_cmp (k t : Nat) : (s.setFired k t).cmp = s.cmp := rfl
@[simp] theorem setFired_cal (k t : Nat) : (s.setFired k t).cal = s.cal := rfl
@[simp] theorem setFired_hed (k t : Nat) : (s.setFired k t).hed = s.hed := rfl
@[simp] theorem setFired_hlt (k t : Nat) : (s.setFired k t).hlt = s.hlt := rfl
@[simp] theorem setFired_rej (k t : Nat) : (s.setFired k t).rej = s.rej := rfl
@[simp] theorem setFired_hat (k t : Nat) : (s.setFired k t).hat = s.hat := rfl
@[simp] theorem setFired_free (k t : Nat) : (s.setFired k t).free = s.free := rfl
@[simp] theorem setFired_out (k t : Nat) : (s.setFired k t).out = s.out := rfl
@[simp] theorem setFired_pending (k t : Nat) : (s.setFired k t).pending = s.pending := rfl
@[simp] theorem setFired_reg (k t : Nat) (b : Nat) : (s.setFired k t).reg b = s.reg b := rfl
@[simp] theorem setFired_lane (k t : Nat) (j : Lane) : (s.setFired k t).lane j = s.lane j := rfl
@[simp] theorem setFired_head (k t : Nat) (j : Head) : (s.setFired k t).head j = s.head j := rfl
@[simp] theorem setFired_health (k t : Nat) (j : Head) : (s.setFired k t).health j = s.health j := rfl
@[simp] theorem setFired_axis (k t : Nat) (j : Axis) : (s.setFired k t).axis j = s.axis j := rfl
@[simp] theorem setFired_chan (k t : Nat) (j : Chan) : (s.setFired k t).chan j = s.chan j := rfl
@[simp] theorem setFired_timer (k t : Nat) (j : TimerId) : (s.setFired k t).timer j = s.timer j := rfl
@[simp] theorem setFired_sess (k t : Nat) (j : Sess) : (s.setFired k t).sess j = s.sess j := rfl
@[simp] theorem setFired_rejLane (k t : Nat) (j : Lane) : (s.setFired k t).rejLane j = s.rejLane j := rfl
@[simp] theorem setFired_laneState (k t : Nat) (j : Lane) : (s.setFired k t).laneState j = s.laneState j := rfl
@[simp] theorem setFired_guard (k t : Nat) (b : Nat) : (s.setFired k t).guard b = s.guard b := rfl

/-! ### `setLane` -/

@[simp] theorem setLane_tick (n : Lane) (x : LaneSt) : (s.setLane n x).tick = s.tick := rfl
@[simp] theorem setLane_order (n : Lane) (x : LaneSt) : (s.setLane n x).order = s.order := rfl
@[simp] theorem setLane_regs (n : Lane) (x : LaneSt) : (s.setLane n x).regs = s.regs := rfl
@[simp] theorem setLane_guards (n : Lane) (x : LaneSt) : (s.setLane n x).guards = s.guards := rfl
@[simp] theorem setLane_fired (n : Lane) (x : LaneSt) : (s.setLane n x).fired = s.fired := rfl
@[simp] theorem setLane_flt (n : Lane) (x : LaneSt) : (s.setLane n x).flt = s.flt := rfl
@[simp] theorem setLane_boot (n : Lane) (x : LaneSt) : (s.setLane n x).boot = s.boot := rfl
@[simp] theorem setLane_pwr (n : Lane) (x : LaneSt) : (s.setLane n x).pwr = s.pwr := rfl
@[simp] theorem setLane_mem (n : Lane) (x : LaneSt) : (s.setLane n x).mem = s.mem := rfl
@[simp] theorem setLane_lnk (n : Lane) (x : LaneSt) : (s.setLane n x).lnk = s.lnk := rfl
@[simp] theorem setLane_ses (n : Lane) (x : LaneSt) : (s.setLane n x).ses = s.ses := rfl
@[simp] theorem setLane_tmr (n : Lane) (x : LaneSt) : (s.setLane n x).tmr = s.tmr := rfl
@[simp] theorem setLane_plc (n : Lane) (x : LaneSt) : (s.setLane n x).plc = { s.plc with lanes := s.plc.lanes.set n x } := rfl
@[simp] theorem setLane_mot (n : Lane) (x : LaneSt) : (s.setLane n x).mot = s.mot := rfl
@[simp] theorem setLane_hst (n : Lane) (x : LaneSt) : (s.setLane n x).hst = s.hst := rfl
@[simp] theorem setLane_crates (n : Lane) (x : LaneSt) : (s.setLane n x).crates = s.crates := rfl
@[simp] theorem setLane_cmp (n : Lane) (x : LaneSt) : (s.setLane n x).cmp = s.cmp := rfl
@[simp] theorem setLane_cal (n : Lane) (x : LaneSt) : (s.setLane n x).cal = s.cal := rfl
@[simp] theorem setLane_hed (n : Lane) (x : LaneSt) : (s.setLane n x).hed = s.hed := rfl
@[simp] theorem setLane_hlt (n : Lane) (x : LaneSt) : (s.setLane n x).hlt = s.hlt := rfl
@[simp] theorem setLane_rej (n : Lane) (x : LaneSt) : (s.setLane n x).rej = s.rej := rfl
@[simp] theorem setLane_hat (n : Lane) (x : LaneSt) : (s.setLane n x).hat = s.hat := rfl
@[simp] theorem setLane_free (n : Lane) (x : LaneSt) : (s.setLane n x).free = s.free := rfl
@[simp] theorem setLane_out (n : Lane) (x : LaneSt) : (s.setLane n x).out = s.out := rfl
@[simp] theorem setLane_pending (n : Lane) (x : LaneSt) : (s.setLane n x).pending = s.pending := rfl
@[simp] theorem setLane_reg (n : Lane) (x : LaneSt) (b : Nat) : (s.setLane n x).reg b = s.reg b := rfl
@[simp] theorem setLane_head (n : Lane) (x : LaneSt) (j : Head) : (s.setLane n x).head j = s.head j := rfl
@[simp] theorem setLane_health (n : Lane) (x : LaneSt) (j : Head) : (s.setLane n x).health j = s.health j := rfl
@[simp] theorem setLane_axis (n : Lane) (x : LaneSt) (j : Axis) : (s.setLane n x).axis j = s.axis j := rfl
@[simp] theorem setLane_chan (n : Lane) (x : LaneSt) (j : Chan) : (s.setLane n x).chan j = s.chan j := rfl
@[simp] theorem setLane_timer (n : Lane) (x : LaneSt) (j : TimerId) : (s.setLane n x).timer j = s.timer j := rfl
@[simp] theorem setLane_sess (n : Lane) (x : LaneSt) (j : Sess) : (s.setLane n x).sess j = s.sess j := rfl
@[simp] theorem setLane_rejLane (n : Lane) (x : LaneSt) (j : Lane) : (s.setLane n x).rejLane j = s.rejLane j := rfl
@[simp] theorem setLane_laneState (n : Lane) (x : LaneSt) (j : Lane) : (s.setLane n x).laneState j = s.laneState j := rfl
@[simp] theorem setLane_guard (n : Lane) (x : LaneSt) (b : Nat) : (s.setLane n x).guard b = s.guard b := rfl
@[simp] theorem setLane_firedAt (n : Lane) (x : LaneSt) (b : Nat) : (s.setLane n x).firedAt b = s.firedAt b := rfl

/-! ### `modLane` -/

@[simp] theorem modLane_tick (n : Lane) (f : LaneSt → LaneSt) : (s.modLane n f).tick = s.tick := rfl
@[simp] theorem modLane_order (n : Lane) (f : LaneSt → LaneSt) : (s.modLane n f).order = s.order := rfl
@[simp] theorem modLane_regs (n : Lane) (f : LaneSt → LaneSt) : (s.modLane n f).regs = s.regs := rfl
@[simp] theorem modLane_guards (n : Lane) (f : LaneSt → LaneSt) : (s.modLane n f).guards = s.guards := rfl
@[simp] theorem modLane_fired (n : Lane) (f : LaneSt → LaneSt) : (s.modLane n f).fired = s.fired := rfl
@[simp] theorem modLane_flt (n : Lane) (f : LaneSt → LaneSt) : (s.modLane n f).flt = s.flt := rfl
@[simp] theorem modLane_boot (n : Lane) (f : LaneSt → LaneSt) : (s.modLane n f).boot = s.boot := rfl
@[simp] theorem modLane_pwr (n : Lane) (f : LaneSt → LaneSt) : (s.modLane n f).pwr = s.pwr := rfl
@[simp] theorem modLane_mem (n : Lane) (f : LaneSt → LaneSt) : (s.modLane n f).mem = s.mem := rfl
@[simp] theorem modLane_lnk (n : Lane) (f : LaneSt → LaneSt) : (s.modLane n f).lnk = s.lnk := rfl
@[simp] theorem modLane_ses (n : Lane) (f : LaneSt → LaneSt) : (s.modLane n f).ses = s.ses := rfl
@[simp] theorem modLane_tmr (n : Lane) (f : LaneSt → LaneSt) : (s.modLane n f).tmr = s.tmr := rfl
@[simp] theorem modLane_plc (n : Lane) (f : LaneSt → LaneSt) : (s.modLane n f).plc = { s.plc with lanes := s.plc.lanes.set n (f (s.lane n)) } := rfl
@[simp] theorem modLane_mot (n : Lane) (f : LaneSt → LaneSt) : (s.modLane n f).mot = s.mot := rfl
@[simp] theorem modLane_hst (n : Lane) (f : LaneSt → LaneSt) : (s.modLane n f).hst = s.hst := rfl
@[simp] theorem modLane_crates (n : Lane) (f : LaneSt → LaneSt) : (s.modLane n f).crates = s.crates := rfl
@[simp] theorem modLane_cmp (n : Lane) (f : LaneSt → LaneSt) : (s.modLane n f).cmp = s.cmp := rfl
@[simp] theorem modLane_cal (n : Lane) (f : LaneSt → LaneSt) : (s.modLane n f).cal = s.cal := rfl
@[simp] theorem modLane_hed (n : Lane) (f : LaneSt → LaneSt) : (s.modLane n f).hed = s.hed := rfl
@[simp] theorem modLane_hlt (n : Lane) (f : LaneSt → LaneSt) : (s.modLane n f).hlt = s.hlt := rfl
@[simp] theorem modLane_rej (n : Lane) (f : LaneSt → LaneSt) : (s.modLane n f).rej = s.rej := rfl
@[simp] theorem modLane_hat (n : Lane) (f : LaneSt → LaneSt) : (s.modLane n f).hat = s.hat := rfl
@[simp] theorem modLane_free (n : Lane) (f : LaneSt → LaneSt) : (s.modLane n f).free = s.free := rfl
@[simp] theorem modLane_out (n : Lane) (f : LaneSt → LaneSt) : (s.modLane n f).out = s.out := rfl
@[simp] theorem modLane_pending (n : Lane) (f : LaneSt → LaneSt) : (s.modLane n f).pending = s.pending := rfl
@[simp] theorem modLane_reg (n : Lane) (f : LaneSt → LaneSt) (b : Nat) : (s.modLane n f).reg b = s.reg b := rfl
@[simp] theorem modLane_head (n : Lane) (f : LaneSt → LaneSt) (j : Head) : (s.modLane n f).head j = s.head j := rfl
@[simp] theorem modLane_health (n : Lane) (f : LaneSt → LaneSt) (j : Head) : (s.modLane n f).health j = s.health j := rfl
@[simp] theorem modLane_axis (n : Lane) (f : LaneSt → LaneSt) (j : Axis) : (s.modLane n f).axis j = s.axis j := rfl
@[simp] theorem modLane_chan (n : Lane) (f : LaneSt → LaneSt) (j : Chan) : (s.modLane n f).chan j = s.chan j := rfl
@[simp] theorem modLane_timer (n : Lane) (f : LaneSt → LaneSt) (j : TimerId) : (s.modLane n f).timer j = s.timer j := rfl
@[simp] theorem modLane_sess (n : Lane) (f : LaneSt → LaneSt) (j : Sess) : (s.modLane n f).sess j = s.sess j := rfl
@[simp] theorem modLane_rejLane (n : Lane) (f : LaneSt → LaneSt) (j : Lane) : (s.modLane n f).rejLane j = s.rejLane j := rfl
@[simp] theorem modLane_laneState (n : Lane) (f : LaneSt → LaneSt) (j : Lane) : (s.modLane n f).laneState j = s.laneState j := rfl
@[simp] theorem modLane_guard (n : Lane) (f : LaneSt → LaneSt) (b : Nat) : (s.modLane n f).guard b = s.guard b := rfl
@[simp] theorem modLane_firedAt (n : Lane) (f : LaneSt → LaneSt) (b : Nat) : (s.modLane n f).firedAt b = s.firedAt b := rfl

/-! ### `setHead` -/

@[simp] theorem setHead_tick (h : Head) (x : HedSt) : (s.setHead h x).tick = s.tick := rfl
@[simp] theorem setHead_order (h : Head) (x : HedSt) : (s.setHead h x).order = s.order := rfl
@[simp] theorem setHead_regs (h : Head) (x : HedSt) : (s.setHead h x).regs = s.regs := rfl
@[simp] theorem setHead_guards (h : Head) (x : HedSt) : (s.setHead h x).guards = s.guards := rfl
@[simp] theorem setHead_fired (h : Head) (x : HedSt) : (s.setHead h x).fired = s.fired := rfl
@[simp] theorem setHead_flt (h : Head) (x : HedSt) : (s.setHead h x).flt = s.flt := rfl
@[simp] theorem setHead_boot (h : Head) (x : HedSt) : (s.setHead h x).boot = s.boot := rfl
@[simp] theorem setHead_pwr (h : Head) (x : HedSt) : (s.setHead h x).pwr = s.pwr := rfl
@[simp] theorem setHead_mem (h : Head) (x : HedSt) : (s.setHead h x).mem = s.mem := rfl
@[simp] theorem setHead_lnk (h : Head) (x : HedSt) : (s.setHead h x).lnk = s.lnk := rfl
@[simp] theorem setHead_ses (h : Head) (x : HedSt) : (s.setHead h x).ses = s.ses := rfl
@[simp] theorem setHead_tmr (h : Head) (x : HedSt) : (s.setHead h x).tmr = s.tmr := rfl
@[simp] theorem setHead_plc (h : Head) (x : HedSt) : (s.setHead h x).plc = s.plc := rfl
@[simp] theorem setHead_mot (h : Head) (x : HedSt) : (s.setHead h x).mot = s.mot := rfl
@[simp] theorem setHead_hst (h : Head) (x : HedSt) : (s.setHead h x).hst = s.hst := rfl
@[simp] theorem setHead_crates (h : Head) (x : HedSt) : (s.setHead h x).crates = s.crates := rfl
@[simp] theorem setHead_cmp (h : Head) (x : HedSt) : (s.setHead h x).cmp = s.cmp := rfl
@[simp] theorem setHead_cal (h : Head) (x : HedSt) : (s.setHead h x).cal = s.cal := rfl
@[simp] theorem setHead_hed (h : Head) (x : HedSt) : (s.setHead h x).hed = s.hed.set h x := rfl
@[simp] theorem setHead_hlt (h : Head) (x : HedSt) : (s.setHead h x).hlt = s.hlt := rfl
@[simp] theorem setHead_rej (h : Head) (x : HedSt) : (s.setHead h x).rej = s.rej := rfl
@[simp] theorem setHead_hat (h : Head) (x : HedSt) : (s.setHead h x).hat = s.hat := rfl
@[simp] theorem setHead_free (h : Head) (x : HedSt) : (s.setHead h x).free = s.free := rfl
@[simp] theorem setHead_out (h : Head) (x : HedSt) : (s.setHead h x).out = s.out := rfl
@[simp] theorem setHead_pending (h : Head) (x : HedSt) : (s.setHead h x).pending = s.pending := rfl
@[simp] theorem setHead_reg (h : Head) (x : HedSt) (b : Nat) : (s.setHead h x).reg b = s.reg b := rfl
@[simp] theorem setHead_lane (h : Head) (x : HedSt) (j : Lane) : (s.setHead h x).lane j = s.lane j := rfl
@[simp] theorem setHead_health (h : Head) (x : HedSt) (j : Head) : (s.setHead h x).health j = s.health j := rfl
@[simp] theorem setHead_axis (h : Head) (x : HedSt) (j : Axis) : (s.setHead h x).axis j = s.axis j := rfl
@[simp] theorem setHead_chan (h : Head) (x : HedSt) (j : Chan) : (s.setHead h x).chan j = s.chan j := rfl
@[simp] theorem setHead_timer (h : Head) (x : HedSt) (j : TimerId) : (s.setHead h x).timer j = s.timer j := rfl
@[simp] theorem setHead_sess (h : Head) (x : HedSt) (j : Sess) : (s.setHead h x).sess j = s.sess j := rfl
@[simp] theorem setHead_rejLane (h : Head) (x : HedSt) (j : Lane) : (s.setHead h x).rejLane j = s.rejLane j := rfl
@[simp] theorem setHead_laneState (h : Head) (x : HedSt) (j : Lane) : (s.setHead h x).laneState j = s.laneState j := rfl
@[simp] theorem setHead_guard (h : Head) (x : HedSt) (b : Nat) : (s.setHead h x).guard b = s.guard b := rfl
@[simp] theorem setHead_firedAt (h : Head) (x : HedSt) (b : Nat) : (s.setHead h x).firedAt b = s.firedAt b := rfl

/-! ### `modHead` -/

@[simp] theorem modHead_tick (h : Head) (f : HedSt → HedSt) : (s.modHead h f).tick = s.tick := rfl
@[simp] theorem modHead_order (h : Head) (f : HedSt → HedSt) : (s.modHead h f).order = s.order := rfl
@[simp] theorem modHead_regs (h : Head) (f : HedSt → HedSt) : (s.modHead h f).regs = s.regs := rfl
@[simp] theorem modHead_guards (h : Head) (f : HedSt → HedSt) : (s.modHead h f).guards = s.guards := rfl
@[simp] theorem modHead_fired (h : Head) (f : HedSt → HedSt) : (s.modHead h f).fired = s.fired := rfl
@[simp] theorem modHead_flt (h : Head) (f : HedSt → HedSt) : (s.modHead h f).flt = s.flt := rfl
@[simp] theorem modHead_boot (h : Head) (f : HedSt → HedSt) : (s.modHead h f).boot = s.boot := rfl
@[simp] theorem modHead_pwr (h : Head) (f : HedSt → HedSt) : (s.modHead h f).pwr = s.pwr := rfl
@[simp] theorem modHead_mem (h : Head) (f : HedSt → HedSt) : (s.modHead h f).mem = s.mem := rfl
@[simp] theorem modHead_lnk (h : Head) (f : HedSt → HedSt) : (s.modHead h f).lnk = s.lnk := rfl
@[simp] theorem modHead_ses (h : Head) (f : HedSt → HedSt) : (s.modHead h f).ses = s.ses := rfl
@[simp] theorem modHead_tmr (h : Head) (f : HedSt → HedSt) : (s.modHead h f).tmr = s.tmr := rfl
@[simp] theorem modHead_plc (h : Head) (f : HedSt → HedSt) : (s.modHead h f).plc = s.plc := rfl
@[simp] theorem modHead_mot (h : Head) (f : HedSt → HedSt) : (s.modHead h f).mot = s.mot := rfl
@[simp] theorem modHead_hst (h : Head) (f : HedSt → HedSt) : (s.modHead h f).hst = s.hst := rfl
@[simp] theorem modHead_crates (h : Head) (f : HedSt → HedSt) : (s.modHead h f).crates = s.crates := rfl
@[simp] theorem modHead_cmp (h : Head) (f : HedSt → HedSt) : (s.modHead h f).cmp = s.cmp := rfl
@[simp] theorem modHead_cal (h : Head) (f : HedSt → HedSt) : (s.modHead h f).cal = s.cal := rfl
@[simp] theorem modHead_hed (h : Head) (f : HedSt → HedSt) : (s.modHead h f).hed = s.hed.set h (f (s.head h)) := rfl
@[simp] theorem modHead_hlt (h : Head) (f : HedSt → HedSt) : (s.modHead h f).hlt = s.hlt := rfl
@[simp] theorem modHead_rej (h : Head) (f : HedSt → HedSt) : (s.modHead h f).rej = s.rej := rfl
@[simp] theorem modHead_hat (h : Head) (f : HedSt → HedSt) : (s.modHead h f).hat = s.hat := rfl
@[simp] theorem modHead_free (h : Head) (f : HedSt → HedSt) : (s.modHead h f).free = s.free := rfl
@[simp] theorem modHead_out (h : Head) (f : HedSt → HedSt) : (s.modHead h f).out = s.out := rfl
@[simp] theorem modHead_pending (h : Head) (f : HedSt → HedSt) : (s.modHead h f).pending = s.pending := rfl
@[simp] theorem modHead_reg (h : Head) (f : HedSt → HedSt) (b : Nat) : (s.modHead h f).reg b = s.reg b := rfl
@[simp] theorem modHead_lane (h : Head) (f : HedSt → HedSt) (j : Lane) : (s.modHead h f).lane j = s.lane j := rfl
@[simp] theorem modHead_health (h : Head) (f : HedSt → HedSt) (j : Head) : (s.modHead h f).health j = s.health j := rfl
@[simp] theorem modHead_axis (h : Head) (f : HedSt → HedSt) (j : Axis) : (s.modHead h f).axis j = s.axis j := rfl
@[simp] theorem modHead_chan (h : Head) (f : HedSt → HedSt) (j : Chan) : (s.modHead h f).chan j = s.chan j := rfl
@[simp] theorem modHead_timer (h : Head) (f : HedSt → HedSt) (j : TimerId) : (s.modHead h f).timer j = s.timer j := rfl
@[simp] theorem modHead_sess (h : Head) (f : HedSt → HedSt) (j : Sess) : (s.modHead h f).sess j = s.sess j := rfl
@[simp] theorem modHead_rejLane (h : Head) (f : HedSt → HedSt) (j : Lane) : (s.modHead h f).rejLane j = s.rejLane j := rfl
@[simp] theorem modHead_laneState (h : Head) (f : HedSt → HedSt) (j : Lane) : (s.modHead h f).laneState j = s.laneState j := rfl
@[simp] theorem modHead_guard (h : Head) (f : HedSt → HedSt) (b : Nat) : (s.modHead h f).guard b = s.guard b := rfl
@[simp] theorem modHead_firedAt (h : Head) (f : HedSt → HedSt) (b : Nat) : (s.modHead h f).firedAt b = s.firedAt b := rfl

/-! ### `setHealth` -/

@[simp] theorem setHealth_tick (h : Head) (x : HltSt) : (s.setHealth h x).tick = s.tick := rfl
@[simp] theorem setHealth_order (h : Head) (x : HltSt) : (s.setHealth h x).order = s.order := rfl
@[simp] theorem setHealth_regs (h : Head) (x : HltSt) : (s.setHealth h x).regs = s.regs := rfl
@[simp] theorem setHealth_guards (h : Head) (x : HltSt) : (s.setHealth h x).guards = s.guards := rfl
@[simp] theorem setHealth_fired (h : Head) (x : HltSt) : (s.setHealth h x).fired = s.fired := rfl
@[simp] theorem setHealth_flt (h : Head) (x : HltSt) : (s.setHealth h x).flt = s.flt := rfl
@[simp] theorem setHealth_boot (h : Head) (x : HltSt) : (s.setHealth h x).boot = s.boot := rfl
@[simp] theorem setHealth_pwr (h : Head) (x : HltSt) : (s.setHealth h x).pwr = s.pwr := rfl
@[simp] theorem setHealth_mem (h : Head) (x : HltSt) : (s.setHealth h x).mem = s.mem := rfl
@[simp] theorem setHealth_lnk (h : Head) (x : HltSt) : (s.setHealth h x).lnk = s.lnk := rfl
@[simp] theorem setHealth_ses (h : Head) (x : HltSt) : (s.setHealth h x).ses = s.ses := rfl
@[simp] theorem setHealth_tmr (h : Head) (x : HltSt) : (s.setHealth h x).tmr = s.tmr := rfl
@[simp] theorem setHealth_plc (h : Head) (x : HltSt) : (s.setHealth h x).plc = s.plc := rfl
@[simp] theorem setHealth_mot (h : Head) (x : HltSt) : (s.setHealth h x).mot = s.mot := rfl
@[simp] theorem setHealth_hst (h : Head) (x : HltSt) : (s.setHealth h x).hst = s.hst := rfl
@[simp] theorem setHealth_crates (h : Head) (x : HltSt) : (s.setHealth h x).crates = s.crates := rfl
@[simp] theorem setHealth_cmp (h : Head) (x : HltSt) : (s.setHealth h x).cmp = s.cmp := rfl
@[simp] theorem setHealth_cal (h : Head) (x : HltSt) : (s.setHealth h x).cal = s.cal := rfl
@[simp] theorem setHealth_hed (h : Head) (x : HltSt) : (s.setHealth h x).hed = s.hed := rfl
@[simp] theorem setHealth_hlt (h : Head) (x : HltSt) : (s.setHealth h x).hlt = s.hlt.set h x := rfl
@[simp] theorem setHealth_rej (h : Head) (x : HltSt) : (s.setHealth h x).rej = s.rej := rfl
@[simp] theorem setHealth_hat (h : Head) (x : HltSt) : (s.setHealth h x).hat = s.hat := rfl
@[simp] theorem setHealth_free (h : Head) (x : HltSt) : (s.setHealth h x).free = s.free := rfl
@[simp] theorem setHealth_out (h : Head) (x : HltSt) : (s.setHealth h x).out = s.out := rfl
@[simp] theorem setHealth_pending (h : Head) (x : HltSt) : (s.setHealth h x).pending = s.pending := rfl
@[simp] theorem setHealth_reg (h : Head) (x : HltSt) (b : Nat) : (s.setHealth h x).reg b = s.reg b := rfl
@[simp] theorem setHealth_lane (h : Head) (x : HltSt) (j : Lane) : (s.setHealth h x).lane j = s.lane j := rfl
@[simp] theorem setHealth_head (h : Head) (x : HltSt) (j : Head) : (s.setHealth h x).head j = s.head j := rfl
@[simp] theorem setHealth_axis (h : Head) (x : HltSt) (j : Axis) : (s.setHealth h x).axis j = s.axis j := rfl
@[simp] theorem setHealth_chan (h : Head) (x : HltSt) (j : Chan) : (s.setHealth h x).chan j = s.chan j := rfl
@[simp] theorem setHealth_timer (h : Head) (x : HltSt) (j : TimerId) : (s.setHealth h x).timer j = s.timer j := rfl
@[simp] theorem setHealth_sess (h : Head) (x : HltSt) (j : Sess) : (s.setHealth h x).sess j = s.sess j := rfl
@[simp] theorem setHealth_rejLane (h : Head) (x : HltSt) (j : Lane) : (s.setHealth h x).rejLane j = s.rejLane j := rfl
@[simp] theorem setHealth_laneState (h : Head) (x : HltSt) (j : Lane) : (s.setHealth h x).laneState j = s.laneState j := rfl
@[simp] theorem setHealth_guard (h : Head) (x : HltSt) (b : Nat) : (s.setHealth h x).guard b = s.guard b := rfl
@[simp] theorem setHealth_firedAt (h : Head) (x : HltSt) (b : Nat) : (s.setHealth h x).firedAt b = s.firedAt b := rfl

/-! ### `modHealth` -/

@[simp] theorem modHealth_tick (h : Head) (f : HltSt → HltSt) : (s.modHealth h f).tick = s.tick := rfl
@[simp] theorem modHealth_order (h : Head) (f : HltSt → HltSt) : (s.modHealth h f).order = s.order := rfl
@[simp] theorem modHealth_regs (h : Head) (f : HltSt → HltSt) : (s.modHealth h f).regs = s.regs := rfl
@[simp] theorem modHealth_guards (h : Head) (f : HltSt → HltSt) : (s.modHealth h f).guards = s.guards := rfl
@[simp] theorem modHealth_fired (h : Head) (f : HltSt → HltSt) : (s.modHealth h f).fired = s.fired := rfl
@[simp] theorem modHealth_flt (h : Head) (f : HltSt → HltSt) : (s.modHealth h f).flt = s.flt := rfl
@[simp] theorem modHealth_boot (h : Head) (f : HltSt → HltSt) : (s.modHealth h f).boot = s.boot := rfl
@[simp] theorem modHealth_pwr (h : Head) (f : HltSt → HltSt) : (s.modHealth h f).pwr = s.pwr := rfl
@[simp] theorem modHealth_mem (h : Head) (f : HltSt → HltSt) : (s.modHealth h f).mem = s.mem := rfl
@[simp] theorem modHealth_lnk (h : Head) (f : HltSt → HltSt) : (s.modHealth h f).lnk = s.lnk := rfl
@[simp] theorem modHealth_ses (h : Head) (f : HltSt → HltSt) : (s.modHealth h f).ses = s.ses := rfl
@[simp] theorem modHealth_tmr (h : Head) (f : HltSt → HltSt) : (s.modHealth h f).tmr = s.tmr := rfl
@[simp] theorem modHealth_plc (h : Head) (f : HltSt → HltSt) : (s.modHealth h f).plc = s.plc := rfl
@[simp] theorem modHealth_mot (h : Head) (f : HltSt → HltSt) : (s.modHealth h f).mot = s.mot := rfl
@[simp] theorem modHealth_hst (h : Head) (f : HltSt → HltSt) : (s.modHealth h f).hst = s.hst := rfl
@[simp] theorem modHealth_crates (h : Head) (f : HltSt → HltSt) : (s.modHealth h f).crates = s.crates := rfl
@[simp] theorem modHealth_cmp (h : Head) (f : HltSt → HltSt) : (s.modHealth h f).cmp = s.cmp := rfl
@[simp] theorem modHealth_cal (h : Head) (f : HltSt → HltSt) : (s.modHealth h f).cal = s.cal := rfl
@[simp] theorem modHealth_hed (h : Head) (f : HltSt → HltSt) : (s.modHealth h f).hed = s.hed := rfl
@[simp] theorem modHealth_hlt (h : Head) (f : HltSt → HltSt) : (s.modHealth h f).hlt = s.hlt.set h (f (s.health h)) := rfl
@[simp] theorem modHealth_rej (h : Head) (f : HltSt → HltSt) : (s.modHealth h f).rej = s.rej := rfl
@[simp] theorem modHealth_hat (h : Head) (f : HltSt → HltSt) : (s.modHealth h f).hat = s.hat := rfl
@[simp] theorem modHealth_free (h : Head) (f : HltSt → HltSt) : (s.modHealth h f).free = s.free := rfl
@[simp] theorem modHealth_out (h : Head) (f : HltSt → HltSt) : (s.modHealth h f).out = s.out := rfl
@[simp] theorem modHealth_pending (h : Head) (f : HltSt → HltSt) : (s.modHealth h f).pending = s.pending := rfl
@[simp] theorem modHealth_reg (h : Head) (f : HltSt → HltSt) (b : Nat) : (s.modHealth h f).reg b = s.reg b := rfl
@[simp] theorem modHealth_lane (h : Head) (f : HltSt → HltSt) (j : Lane) : (s.modHealth h f).lane j = s.lane j := rfl
@[simp] theorem modHealth_head (h : Head) (f : HltSt → HltSt) (j : Head) : (s.modHealth h f).head j = s.head j := rfl
@[simp] theorem modHealth_axis (h : Head) (f : HltSt → HltSt) (j : Axis) : (s.modHealth h f).axis j = s.axis j := rfl
@[simp] theorem modHealth_chan (h : Head) (f : HltSt → HltSt) (j : Chan) : (s.modHealth h f).chan j = s.chan j := rfl
@[simp] theorem modHealth_timer (h : Head) (f : HltSt → HltSt) (j : TimerId) : (s.modHealth h f).timer j = s.timer j := rfl
@[simp] theorem modHealth_sess (h : Head) (f : HltSt → HltSt) (j : Sess) : (s.modHealth h f).sess j = s.sess j := rfl
@[simp] theorem modHealth_rejLane (h : Head) (f : HltSt → HltSt) (j : Lane) : (s.modHealth h f).rejLane j = s.rejLane j := rfl
@[simp] theorem modHealth_laneState (h : Head) (f : HltSt → HltSt) (j : Lane) : (s.modHealth h f).laneState j = s.laneState j := rfl
@[simp] theorem modHealth_guard (h : Head) (f : HltSt → HltSt) (b : Nat) : (s.modHealth h f).guard b = s.guard b := rfl
@[simp] theorem modHealth_firedAt (h : Head) (f : HltSt → HltSt) (b : Nat) : (s.modHealth h f).firedAt b = s.firedAt b := rfl

/-! ### `setAxis` -/

@[simp] theorem setAxis_tick (x : Axis) (a : AxisSt) : (s.setAxis x a).tick = s.tick := rfl
@[simp] theorem setAxis_order (x : Axis) (a : AxisSt) : (s.setAxis x a).order = s.order := rfl
@[simp] theorem setAxis_regs (x : Axis) (a : AxisSt) : (s.setAxis x a).regs = s.regs := rfl
@[simp] theorem setAxis_guards (x : Axis) (a : AxisSt) : (s.setAxis x a).guards = s.guards := rfl
@[simp] theorem setAxis_fired (x : Axis) (a : AxisSt) : (s.setAxis x a).fired = s.fired := rfl
@[simp] theorem setAxis_flt (x : Axis) (a : AxisSt) : (s.setAxis x a).flt = s.flt := rfl
@[simp] theorem setAxis_boot (x : Axis) (a : AxisSt) : (s.setAxis x a).boot = s.boot := rfl
@[simp] theorem setAxis_pwr (x : Axis) (a : AxisSt) : (s.setAxis x a).pwr = s.pwr := rfl
@[simp] theorem setAxis_mem (x : Axis) (a : AxisSt) : (s.setAxis x a).mem = s.mem := rfl
@[simp] theorem setAxis_lnk (x : Axis) (a : AxisSt) : (s.setAxis x a).lnk = s.lnk := rfl
@[simp] theorem setAxis_ses (x : Axis) (a : AxisSt) : (s.setAxis x a).ses = s.ses := rfl
@[simp] theorem setAxis_tmr (x : Axis) (a : AxisSt) : (s.setAxis x a).tmr = s.tmr := rfl
@[simp] theorem setAxis_plc (x : Axis) (a : AxisSt) : (s.setAxis x a).plc = s.plc := rfl
@[simp] theorem setAxis_mot (x : Axis) (a : AxisSt) : (s.setAxis x a).mot = { s.mot with axes := s.mot.axes.set x a } := rfl
@[simp] theorem setAxis_hst (x : Axis) (a : AxisSt) : (s.setAxis x a).hst = s.hst := rfl
@[simp] theorem setAxis_crates (x : Axis) (a : AxisSt) : (s.setAxis x a).crates = s.crates := rfl
@[simp] theorem setAxis_cmp (x : Axis) (a : AxisSt) : (s.setAxis x a).cmp = s.cmp := rfl
@[simp] theorem setAxis_cal (x : Axis) (a : AxisSt) : (s.setAxis x a).cal = s.cal := rfl
@[simp] theorem setAxis_hed (x : Axis) (a : AxisSt) : (s.setAxis x a).hed = s.hed := rfl
@[simp] theorem setAxis_hlt (x : Axis) (a : AxisSt) : (s.setAxis x a).hlt = s.hlt := rfl
@[simp] theorem setAxis_rej (x : Axis) (a : AxisSt) : (s.setAxis x a).rej = s.rej := rfl
@[simp] theorem setAxis_hat (x : Axis) (a : AxisSt) : (s.setAxis x a).hat = s.hat := rfl
@[simp] theorem setAxis_free (x : Axis) (a : AxisSt) : (s.setAxis x a).free = s.free := rfl
@[simp] theorem setAxis_out (x : Axis) (a : AxisSt) : (s.setAxis x a).out = s.out := rfl
@[simp] theorem setAxis_pending (x : Axis) (a : AxisSt) : (s.setAxis x a).pending = s.pending := rfl
@[simp] theorem setAxis_reg (x : Axis) (a : AxisSt) (b : Nat) : (s.setAxis x a).reg b = s.reg b := rfl
@[simp] theorem setAxis_lane (x : Axis) (a : AxisSt) (j : Lane) : (s.setAxis x a).lane j = s.lane j := rfl
@[simp] theorem setAxis_head (x : Axis) (a : AxisSt) (j : Head) : (s.setAxis x a).head j = s.head j := rfl
@[simp] theorem setAxis_health (x : Axis) (a : AxisSt) (j : Head) : (s.setAxis x a).health j = s.health j := rfl
@[simp] theorem setAxis_chan (x : Axis) (a : AxisSt) (j : Chan) : (s.setAxis x a).chan j = s.chan j := rfl
@[simp] theorem setAxis_timer (x : Axis) (a : AxisSt) (j : TimerId) : (s.setAxis x a).timer j = s.timer j := rfl
@[simp] theorem setAxis_sess (x : Axis) (a : AxisSt) (j : Sess) : (s.setAxis x a).sess j = s.sess j := rfl
@[simp] theorem setAxis_rejLane (x : Axis) (a : AxisSt) (j : Lane) : (s.setAxis x a).rejLane j = s.rejLane j := rfl
@[simp] theorem setAxis_laneState (x : Axis) (a : AxisSt) (j : Lane) : (s.setAxis x a).laneState j = s.laneState j := rfl
@[simp] theorem setAxis_guard (x : Axis) (a : AxisSt) (b : Nat) : (s.setAxis x a).guard b = s.guard b := rfl
@[simp] theorem setAxis_firedAt (x : Axis) (a : AxisSt) (b : Nat) : (s.setAxis x a).firedAt b = s.firedAt b := rfl

/-! ### `modAxis` -/

@[simp] theorem modAxis_tick (x : Axis) (f : AxisSt → AxisSt) : (s.modAxis x f).tick = s.tick := rfl
@[simp] theorem modAxis_order (x : Axis) (f : AxisSt → AxisSt) : (s.modAxis x f).order = s.order := rfl
@[simp] theorem modAxis_regs (x : Axis) (f : AxisSt → AxisSt) : (s.modAxis x f).regs = s.regs := rfl
@[simp] theorem modAxis_guards (x : Axis) (f : AxisSt → AxisSt) : (s.modAxis x f).guards = s.guards := rfl
@[simp] theorem modAxis_fired (x : Axis) (f : AxisSt → AxisSt) : (s.modAxis x f).fired = s.fired := rfl
@[simp] theorem modAxis_flt (x : Axis) (f : AxisSt → AxisSt) : (s.modAxis x f).flt = s.flt := rfl
@[simp] theorem modAxis_boot (x : Axis) (f : AxisSt → AxisSt) : (s.modAxis x f).boot = s.boot := rfl
@[simp] theorem modAxis_pwr (x : Axis) (f : AxisSt → AxisSt) : (s.modAxis x f).pwr = s.pwr := rfl
@[simp] theorem modAxis_mem (x : Axis) (f : AxisSt → AxisSt) : (s.modAxis x f).mem = s.mem := rfl
@[simp] theorem modAxis_lnk (x : Axis) (f : AxisSt → AxisSt) : (s.modAxis x f).lnk = s.lnk := rfl
@[simp] theorem modAxis_ses (x : Axis) (f : AxisSt → AxisSt) : (s.modAxis x f).ses = s.ses := rfl
@[simp] theorem modAxis_tmr (x : Axis) (f : AxisSt → AxisSt) : (s.modAxis x f).tmr = s.tmr := rfl
@[simp] theorem modAxis_plc (x : Axis) (f : AxisSt → AxisSt) : (s.modAxis x f).plc = s.plc := rfl
@[simp] theorem modAxis_mot (x : Axis) (f : AxisSt → AxisSt) : (s.modAxis x f).mot = { s.mot with axes := s.mot.axes.set x (f (s.axis x)) } := rfl
@[simp] theorem modAxis_hst (x : Axis) (f : AxisSt → AxisSt) : (s.modAxis x f).hst = s.hst := rfl
@[simp] theorem modAxis_crates (x : Axis) (f : AxisSt → AxisSt) : (s.modAxis x f).crates = s.crates := rfl
@[simp] theorem modAxis_cmp (x : Axis) (f : AxisSt → AxisSt) : (s.modAxis x f).cmp = s.cmp := rfl
@[simp] theorem modAxis_cal (x : Axis) (f : AxisSt → AxisSt) : (s.modAxis x f).cal = s.cal := rfl
@[simp] theorem modAxis_hed (x : Axis) (f : AxisSt → AxisSt) : (s.modAxis x f).hed = s.hed := rfl
@[simp] theorem modAxis_hlt (x : Axis) (f : AxisSt → AxisSt) : (s.modAxis x f).hlt = s.hlt := rfl
@[simp] theorem modAxis_rej (x : Axis) (f : AxisSt → AxisSt) : (s.modAxis x f).rej = s.rej := rfl
@[simp] theorem modAxis_hat (x : Axis) (f : AxisSt → AxisSt) : (s.modAxis x f).hat = s.hat := rfl
@[simp] theorem modAxis_free (x : Axis) (f : AxisSt → AxisSt) : (s.modAxis x f).free = s.free := rfl
@[simp] theorem modAxis_out (x : Axis) (f : AxisSt → AxisSt) : (s.modAxis x f).out = s.out := rfl
@[simp] theorem modAxis_pending (x : Axis) (f : AxisSt → AxisSt) : (s.modAxis x f).pending = s.pending := rfl
@[simp] theorem modAxis_reg (x : Axis) (f : AxisSt → AxisSt) (b : Nat) : (s.modAxis x f).reg b = s.reg b := rfl
@[simp] theorem modAxis_lane (x : Axis) (f : AxisSt → AxisSt) (j : Lane) : (s.modAxis x f).lane j = s.lane j := rfl
@[simp] theorem modAxis_head (x : Axis) (f : AxisSt → AxisSt) (j : Head) : (s.modAxis x f).head j = s.head j := rfl
@[simp] theorem modAxis_health (x : Axis) (f : AxisSt → AxisSt) (j : Head) : (s.modAxis x f).health j = s.health j := rfl
@[simp] theorem modAxis_chan (x : Axis) (f : AxisSt → AxisSt) (j : Chan) : (s.modAxis x f).chan j = s.chan j := rfl
@[simp] theorem modAxis_timer (x : Axis) (f : AxisSt → AxisSt) (j : TimerId) : (s.modAxis x f).timer j = s.timer j := rfl
@[simp] theorem modAxis_sess (x : Axis) (f : AxisSt → AxisSt) (j : Sess) : (s.modAxis x f).sess j = s.sess j := rfl
@[simp] theorem modAxis_rejLane (x : Axis) (f : AxisSt → AxisSt) (j : Lane) : (s.modAxis x f).rejLane j = s.rejLane j := rfl
@[simp] theorem modAxis_laneState (x : Axis) (f : AxisSt → AxisSt) (j : Lane) : (s.modAxis x f).laneState j = s.laneState j := rfl
@[simp] theorem modAxis_guard (x : Axis) (f : AxisSt → AxisSt) (b : Nat) : (s.modAxis x f).guard b = s.guard b := rfl
@[simp] theorem modAxis_firedAt (x : Axis) (f : AxisSt → AxisSt) (b : Nat) : (s.modAxis x f).firedAt b = s.firedAt b := rfl

/-! ### `setChan` -/

@[simp] theorem setChan_tick (c : Chan) (x : ChanSt) : (s.setChan c x).tick = s.tick := rfl
@[simp] theorem setChan_order (c : Chan) (x : ChanSt) : (s.setChan c x).order = s.order := rfl
@[simp] theorem setChan_regs (c : Chan) (x : ChanSt) : (s.setChan c x).regs = s.regs := rfl
@[simp] theorem setChan_guards (c : Chan) (x : ChanSt) : (s.setChan c x).guards = s.guards := rfl
@[simp] theorem setChan_fired (c : Chan) (x : ChanSt) : (s.setChan c x).fired = s.fired := rfl
@[simp] theorem setChan_flt (c : Chan) (x : ChanSt) : (s.setChan c x).flt = s.flt := rfl
@[simp] theorem setChan_boot (c : Chan) (x : ChanSt) : (s.setChan c x).boot = s.boot := rfl
@[simp] theorem setChan_pwr (c : Chan) (x : ChanSt) : (s.setChan c x).pwr = s.pwr := rfl
@[simp] theorem setChan_mem (c : Chan) (x : ChanSt) : (s.setChan c x).mem = s.mem := rfl
@[simp] theorem setChan_lnk (c : Chan) (x : ChanSt) : (s.setChan c x).lnk = s.lnk := rfl
@[simp] theorem setChan_ses (c : Chan) (x : ChanSt) : (s.setChan c x).ses = s.ses := rfl
@[simp] theorem setChan_tmr (c : Chan) (x : ChanSt) : (s.setChan c x).tmr = s.tmr := rfl
@[simp] theorem setChan_plc (c : Chan) (x : ChanSt) : (s.setChan c x).plc = s.plc := rfl
@[simp] theorem setChan_mot (c : Chan) (x : ChanSt) : (s.setChan c x).mot = s.mot := rfl
@[simp] theorem setChan_hst (c : Chan) (x : ChanSt) : (s.setChan c x).hst = { s.hst with chans := s.hst.chans.set c x } := rfl
@[simp] theorem setChan_crates (c : Chan) (x : ChanSt) : (s.setChan c x).crates = s.crates := rfl
@[simp] theorem setChan_cmp (c : Chan) (x : ChanSt) : (s.setChan c x).cmp = s.cmp := rfl
@[simp] theorem setChan_cal (c : Chan) (x : ChanSt) : (s.setChan c x).cal = s.cal := rfl
@[simp] theorem setChan_hed (c : Chan) (x : ChanSt) : (s.setChan c x).hed = s.hed := rfl
@[simp] theorem setChan_hlt (c : Chan) (x : ChanSt) : (s.setChan c x).hlt = s.hlt := rfl
@[simp] theorem setChan_rej (c : Chan) (x : ChanSt) : (s.setChan c x).rej = s.rej := rfl
@[simp] theorem setChan_hat (c : Chan) (x : ChanSt) : (s.setChan c x).hat = s.hat := rfl
@[simp] theorem setChan_free (c : Chan) (x : ChanSt) : (s.setChan c x).free = s.free := rfl
@[simp] theorem setChan_out (c : Chan) (x : ChanSt) : (s.setChan c x).out = s.out := rfl
@[simp] theorem setChan_pending (c : Chan) (x : ChanSt) : (s.setChan c x).pending = s.pending := rfl
@[simp] theorem setChan_reg (c : Chan) (x : ChanSt) (b : Nat) : (s.setChan c x).reg b = s.reg b := rfl
@[simp] theorem setChan_lane (c : Chan) (x : ChanSt) (j : Lane) : (s.setChan c x).lane j = s.lane j := rfl
@[simp] theorem setChan_head (c : Chan) (x : ChanSt) (j : Head) : (s.setChan c x).head j = s.head j := rfl
@[simp] theorem setChan_health (c : Chan) (x : ChanSt) (j : Head) : (s.setChan c x).health j = s.health j := rfl
@[simp] theorem setChan_axis (c : Chan) (x : ChanSt) (j : Axis) : (s.setChan c x).axis j = s.axis j := rfl
@[simp] theorem setChan_timer (c : Chan) (x : ChanSt) (j : TimerId) : (s.setChan c x).timer j = s.timer j := rfl
@[simp] theorem setChan_sess (c : Chan) (x : ChanSt) (j : Sess) : (s.setChan c x).sess j = s.sess j := rfl
@[simp] theorem setChan_rejLane (c : Chan) (x : ChanSt) (j : Lane) : (s.setChan c x).rejLane j = s.rejLane j := rfl
@[simp] theorem setChan_laneState (c : Chan) (x : ChanSt) (j : Lane) : (s.setChan c x).laneState j = s.laneState j := rfl
@[simp] theorem setChan_guard (c : Chan) (x : ChanSt) (b : Nat) : (s.setChan c x).guard b = s.guard b := rfl
@[simp] theorem setChan_firedAt (c : Chan) (x : ChanSt) (b : Nat) : (s.setChan c x).firedAt b = s.firedAt b := rfl

/-! ### `modChan` -/

@[simp] theorem modChan_tick (c : Chan) (f : ChanSt → ChanSt) : (s.modChan c f).tick = s.tick := rfl
@[simp] theorem modChan_order (c : Chan) (f : ChanSt → ChanSt) : (s.modChan c f).order = s.order := rfl
@[simp] theorem modChan_regs (c : Chan) (f : ChanSt → ChanSt) : (s.modChan c f).regs = s.regs := rfl
@[simp] theorem modChan_guards (c : Chan) (f : ChanSt → ChanSt) : (s.modChan c f).guards = s.guards := rfl
@[simp] theorem modChan_fired (c : Chan) (f : ChanSt → ChanSt) : (s.modChan c f).fired = s.fired := rfl
@[simp] theorem modChan_flt (c : Chan) (f : ChanSt → ChanSt) : (s.modChan c f).flt = s.flt := rfl
@[simp] theorem modChan_boot (c : Chan) (f : ChanSt → ChanSt) : (s.modChan c f).boot = s.boot := rfl
@[simp] theorem modChan_pwr (c : Chan) (f : ChanSt → ChanSt) : (s.modChan c f).pwr = s.pwr := rfl
@[simp] theorem modChan_mem (c : Chan) (f : ChanSt → ChanSt) : (s.modChan c f).mem = s.mem := rfl
@[simp] theorem modChan_lnk (c : Chan) (f : ChanSt → ChanSt) : (s.modChan c f).lnk = s.lnk := rfl
@[simp] theorem modChan_ses (c : Chan) (f : ChanSt → ChanSt) : (s.modChan c f).ses = s.ses := rfl
@[simp] theorem modChan_tmr (c : Chan) (f : ChanSt → ChanSt) : (s.modChan c f).tmr = s.tmr := rfl
@[simp] theorem modChan_plc (c : Chan) (f : ChanSt → ChanSt) : (s.modChan c f).plc = s.plc := rfl
@[simp] theorem modChan_mot (c : Chan) (f : ChanSt → ChanSt) : (s.modChan c f).mot = s.mot := rfl
@[simp] theorem modChan_hst (c : Chan) (f : ChanSt → ChanSt) : (s.modChan c f).hst = { s.hst with chans := s.hst.chans.set c (f (s.chan c)) } := rfl
@[simp] theorem modChan_crates (c : Chan) (f : ChanSt → ChanSt) : (s.modChan c f).crates = s.crates := rfl
@[simp] theorem modChan_cmp (c : Chan) (f : ChanSt → ChanSt) : (s.modChan c f).cmp = s.cmp := rfl
@[simp] theorem modChan_cal (c : Chan) (f : ChanSt → ChanSt) : (s.modChan c f).cal = s.cal := rfl
@[simp] theorem modChan_hed (c : Chan) (f : ChanSt → ChanSt) : (s.modChan c f).hed = s.hed := rfl
@[simp] theorem modChan_hlt (c : Chan) (f : ChanSt → ChanSt) : (s.modChan c f).hlt = s.hlt := rfl
@[simp] theorem modChan_rej (c : Chan) (f : ChanSt → ChanSt) : (s.modChan c f).rej = s.rej := rfl
@[simp] theorem modChan_hat (c : Chan) (f : ChanSt → ChanSt) : (s.modChan c f).hat = s.hat := rfl
@[simp] theorem modChan_free (c : Chan) (f : ChanSt → ChanSt) : (s.modChan c f).free = s.free := rfl
@[simp] theorem modChan_out (c : Chan) (f : ChanSt → ChanSt) : (s.modChan c f).out = s.out := rfl
@[simp] theorem modChan_pending (c : Chan) (f : ChanSt → ChanSt) : (s.modChan c f).pending = s.pending := rfl
@[simp] theorem modChan_reg (c : Chan) (f : ChanSt → ChanSt) (b : Nat) : (s.modChan c f).reg b = s.reg b := rfl
@[simp] theorem modChan_lane (c : Chan) (f : ChanSt → ChanSt) (j : Lane) : (s.modChan c f).lane j = s.lane j := rfl
@[simp] theorem modChan_head (c : Chan) (f : ChanSt → ChanSt) (j : Head) : (s.modChan c f).head j = s.head j := rfl
@[simp] theorem modChan_health (c : Chan) (f : ChanSt → ChanSt) (j : Head) : (s.modChan c f).health j = s.health j := rfl
@[simp] theorem modChan_axis (c : Chan) (f : ChanSt → ChanSt) (j : Axis) : (s.modChan c f).axis j = s.axis j := rfl
@[simp] theorem modChan_timer (c : Chan) (f : ChanSt → ChanSt) (j : TimerId) : (s.modChan c f).timer j = s.timer j := rfl
@[simp] theorem modChan_sess (c : Chan) (f : ChanSt → ChanSt) (j : Sess) : (s.modChan c f).sess j = s.sess j := rfl
@[simp] theorem modChan_rejLane (c : Chan) (f : ChanSt → ChanSt) (j : Lane) : (s.modChan c f).rejLane j = s.rejLane j := rfl
@[simp] theorem modChan_laneState (c : Chan) (f : ChanSt → ChanSt) (j : Lane) : (s.modChan c f).laneState j = s.laneState j := rfl
@[simp] theorem modChan_guard (c : Chan) (f : ChanSt → ChanSt) (b : Nat) : (s.modChan c f).guard b = s.guard b := rfl
@[simp] theorem modChan_firedAt (c : Chan) (f : ChanSt → ChanSt) (b : Nat) : (s.modChan c f).firedAt b = s.firedAt b := rfl

/-! ### `setTimer` -/

@[simp] theorem setTimer_tick (t : TimerId) (x : Timer) : (s.setTimer t x).tick = s.tick := rfl
@[simp] theorem setTimer_order (t : TimerId) (x : Timer) : (s.setTimer t x).order = s.order := rfl
@[simp] theorem setTimer_regs (t : TimerId) (x : Timer) : (s.setTimer t x).regs = s.regs := rfl
@[simp] theorem setTimer_guards (t : TimerId) (x : Timer) : (s.setTimer t x).guards = s.guards := rfl
@[simp] theorem setTimer_fired (t : TimerId) (x : Timer) : (s.setTimer t x).fired = s.fired := rfl
@[simp] theorem setTimer_flt (t : TimerId) (x : Timer) : (s.setTimer t x).flt = s.flt := rfl
@[simp] theorem setTimer_boot (t : TimerId) (x : Timer) : (s.setTimer t x).boot = s.boot := rfl
@[simp] theorem setTimer_pwr (t : TimerId) (x : Timer) : (s.setTimer t x).pwr = s.pwr := rfl
@[simp] theorem setTimer_mem (t : TimerId) (x : Timer) : (s.setTimer t x).mem = s.mem := rfl
@[simp] theorem setTimer_lnk (t : TimerId) (x : Timer) : (s.setTimer t x).lnk = s.lnk := rfl
@[simp] theorem setTimer_ses (t : TimerId) (x : Timer) : (s.setTimer t x).ses = s.ses := rfl
@[simp] theorem setTimer_tmr (t : TimerId) (x : Timer) : (s.setTimer t x).tmr = { s.tmr with timers := s.tmr.timers.set t x } := rfl
@[simp] theorem setTimer_plc (t : TimerId) (x : Timer) : (s.setTimer t x).plc = s.plc := rfl
@[simp] theorem setTimer_mot (t : TimerId) (x : Timer) : (s.setTimer t x).mot = s.mot := rfl
@[simp] theorem setTimer_hst (t : TimerId) (x : Timer) : (s.setTimer t x).hst = s.hst := rfl
@[simp] theorem setTimer_crates (t : TimerId) (x : Timer) : (s.setTimer t x).crates = s.crates := rfl
@[simp] theorem setTimer_cmp (t : TimerId) (x : Timer) : (s.setTimer t x).cmp = s.cmp := rfl
@[simp] theorem setTimer_cal (t : TimerId) (x : Timer) : (s.setTimer t x).cal = s.cal := rfl
@[simp] theorem setTimer_hed (t : TimerId) (x : Timer) : (s.setTimer t x).hed = s.hed := rfl
@[simp] theorem setTimer_hlt (t : TimerId) (x : Timer) : (s.setTimer t x).hlt = s.hlt := rfl
@[simp] theorem setTimer_rej (t : TimerId) (x : Timer) : (s.setTimer t x).rej = s.rej := rfl
@[simp] theorem setTimer_hat (t : TimerId) (x : Timer) : (s.setTimer t x).hat = s.hat := rfl
@[simp] theorem setTimer_free (t : TimerId) (x : Timer) : (s.setTimer t x).free = s.free := rfl
@[simp] theorem setTimer_out (t : TimerId) (x : Timer) : (s.setTimer t x).out = s.out := rfl
@[simp] theorem setTimer_pending (t : TimerId) (x : Timer) : (s.setTimer t x).pending = s.pending := rfl
@[simp] theorem setTimer_reg (t : TimerId) (x : Timer) (b : Nat) : (s.setTimer t x).reg b = s.reg b := rfl
@[simp] theorem setTimer_lane (t : TimerId) (x : Timer) (j : Lane) : (s.setTimer t x).lane j = s.lane j := rfl
@[simp] theorem setTimer_head (t : TimerId) (x : Timer) (j : Head) : (s.setTimer t x).head j = s.head j := rfl
@[simp] theorem setTimer_health (t : TimerId) (x : Timer) (j : Head) : (s.setTimer t x).health j = s.health j := rfl
@[simp] theorem setTimer_axis (t : TimerId) (x : Timer) (j : Axis) : (s.setTimer t x).axis j = s.axis j := rfl
@[simp] theorem setTimer_chan (t : TimerId) (x : Timer) (j : Chan) : (s.setTimer t x).chan j = s.chan j := rfl
@[simp] theorem setTimer_sess (t : TimerId) (x : Timer) (j : Sess) : (s.setTimer t x).sess j = s.sess j := rfl
@[simp] theorem setTimer_rejLane (t : TimerId) (x : Timer) (j : Lane) : (s.setTimer t x).rejLane j = s.rejLane j := rfl
@[simp] theorem setTimer_laneState (t : TimerId) (x : Timer) (j : Lane) : (s.setTimer t x).laneState j = s.laneState j := rfl
@[simp] theorem setTimer_guard (t : TimerId) (x : Timer) (b : Nat) : (s.setTimer t x).guard b = s.guard b := rfl
@[simp] theorem setTimer_firedAt (t : TimerId) (x : Timer) (b : Nat) : (s.setTimer t x).firedAt b = s.firedAt b := rfl

/-! ### `modTimer` -/

@[simp] theorem modTimer_tick (t : TimerId) (f : Timer → Timer) : (s.modTimer t f).tick = s.tick := rfl
@[simp] theorem modTimer_order (t : TimerId) (f : Timer → Timer) : (s.modTimer t f).order = s.order := rfl
@[simp] theorem modTimer_regs (t : TimerId) (f : Timer → Timer) : (s.modTimer t f).regs = s.regs := rfl
@[simp] theorem modTimer_guards (t : TimerId) (f : Timer → Timer) : (s.modTimer t f).guards = s.guards := rfl
@[simp] theorem modTimer_fired (t : TimerId) (f : Timer → Timer) : (s.modTimer t f).fired = s.fired := rfl
@[simp] theorem modTimer_flt (t : TimerId) (f : Timer → Timer) : (s.modTimer t f).flt = s.flt := rfl
@[simp] theorem modTimer_boot (t : TimerId) (f : Timer → Timer) : (s.modTimer t f).boot = s.boot := rfl
@[simp] theorem modTimer_pwr (t : TimerId) (f : Timer → Timer) : (s.modTimer t f).pwr = s.pwr := rfl
@[simp] theorem modTimer_mem (t : TimerId) (f : Timer → Timer) : (s.modTimer t f).mem = s.mem := rfl
@[simp] theorem modTimer_lnk (t : TimerId) (f : Timer → Timer) : (s.modTimer t f).lnk = s.lnk := rfl
@[simp] theorem modTimer_ses (t : TimerId) (f : Timer → Timer) : (s.modTimer t f).ses = s.ses := rfl
@[simp] theorem modTimer_tmr (t : TimerId) (f : Timer → Timer) : (s.modTimer t f).tmr = { s.tmr with timers := s.tmr.timers.set t (f (s.timer t)) } := rfl
@[simp] theorem modTimer_plc (t : TimerId) (f : Timer → Timer) : (s.modTimer t f).plc = s.plc := rfl
@[simp] theorem modTimer_mot (t : TimerId) (f : Timer → Timer) : (s.modTimer t f).mot = s.mot := rfl
@[simp] theorem modTimer_hst (t : TimerId) (f : Timer → Timer) : (s.modTimer t f).hst = s.hst := rfl
@[simp] theorem modTimer_crates (t : TimerId) (f : Timer → Timer) : (s.modTimer t f).crates = s.crates := rfl
@[simp] theorem modTimer_cmp (t : TimerId) (f : Timer → Timer) : (s.modTimer t f).cmp = s.cmp := rfl
@[simp] theorem modTimer_cal (t : TimerId) (f : Timer → Timer) : (s.modTimer t f).cal = s.cal := rfl
@[simp] theorem modTimer_hed (t : TimerId) (f : Timer → Timer) : (s.modTimer t f).hed = s.hed := rfl
@[simp] theorem modTimer_hlt (t : TimerId) (f : Timer → Timer) : (s.modTimer t f).hlt = s.hlt := rfl
@[simp] theorem modTimer_rej (t : TimerId) (f : Timer → Timer) : (s.modTimer t f).rej = s.rej := rfl
@[simp] theorem modTimer_hat (t : TimerId) (f : Timer → Timer) : (s.modTimer t f).hat = s.hat := rfl
@[simp] theorem modTimer_free (t : TimerId) (f : Timer → Timer) : (s.modTimer t f).free = s.free := rfl
@[simp] theorem modTimer_out (t : TimerId) (f : Timer → Timer) : (s.modTimer t f).out = s.out := rfl
@[simp] theorem modTimer_pending (t : TimerId) (f : Timer → Timer) : (s.modTimer t f).pending = s.pending := rfl
@[simp] theorem modTimer_reg (t : TimerId) (f : Timer → Timer) (b : Nat) : (s.modTimer t f).reg b = s.reg b := rfl
@[simp] theorem modTimer_lane (t : TimerId) (f : Timer → Timer) (j : Lane) : (s.modTimer t f).lane j = s.lane j := rfl
@[simp] theorem modTimer_head (t : TimerId) (f : Timer → Timer) (j : Head) : (s.modTimer t f).head j = s.head j := rfl
@[simp] theorem modTimer_health (t : TimerId) (f : Timer → Timer) (j : Head) : (s.modTimer t f).health j = s.health j := rfl
@[simp] theorem modTimer_axis (t : TimerId) (f : Timer → Timer) (j : Axis) : (s.modTimer t f).axis j = s.axis j := rfl
@[simp] theorem modTimer_chan (t : TimerId) (f : Timer → Timer) (j : Chan) : (s.modTimer t f).chan j = s.chan j := rfl
@[simp] theorem modTimer_sess (t : TimerId) (f : Timer → Timer) (j : Sess) : (s.modTimer t f).sess j = s.sess j := rfl
@[simp] theorem modTimer_rejLane (t : TimerId) (f : Timer → Timer) (j : Lane) : (s.modTimer t f).rejLane j = s.rejLane j := rfl
@[simp] theorem modTimer_laneState (t : TimerId) (f : Timer → Timer) (j : Lane) : (s.modTimer t f).laneState j = s.laneState j := rfl
@[simp] theorem modTimer_guard (t : TimerId) (f : Timer → Timer) (b : Nat) : (s.modTimer t f).guard b = s.guard b := rfl
@[simp] theorem modTimer_firedAt (t : TimerId) (f : Timer → Timer) (b : Nat) : (s.modTimer t f).firedAt b = s.firedAt b := rfl

/-! ### `setSess` -/

@[simp] theorem setSess_tick (i : Sess) (x : Session) : (s.setSess i x).tick = s.tick := rfl
@[simp] theorem setSess_order (i : Sess) (x : Session) : (s.setSess i x).order = s.order := rfl
@[simp] theorem setSess_regs (i : Sess) (x : Session) : (s.setSess i x).regs = s.regs := rfl
@[simp] theorem setSess_guards (i : Sess) (x : Session) : (s.setSess i x).guards = s.guards := rfl
@[simp] theorem setSess_fired (i : Sess) (x : Session) : (s.setSess i x).fired = s.fired := rfl
@[simp] theorem setSess_flt (i : Sess) (x : Session) : (s.setSess i x).flt = s.flt := rfl
@[simp] theorem setSess_boot (i : Sess) (x : Session) : (s.setSess i x).boot = s.boot := rfl
@[simp] theorem setSess_pwr (i : Sess) (x : Session) : (s.setSess i x).pwr = s.pwr := rfl
@[simp] theorem setSess_mem (i : Sess) (x : Session) : (s.setSess i x).mem = s.mem := rfl
@[simp] theorem setSess_lnk (i : Sess) (x : Session) : (s.setSess i x).lnk = { s.lnk with sessions := s.lnk.sessions.set i x } := rfl
@[simp] theorem setSess_ses (i : Sess) (x : Session) : (s.setSess i x).ses = s.ses := rfl
@[simp] theorem setSess_tmr (i : Sess) (x : Session) : (s.setSess i x).tmr = s.tmr := rfl
@[simp] theorem setSess_plc (i : Sess) (x : Session) : (s.setSess i x).plc = s.plc := rfl
@[simp] theorem setSess_mot (i : Sess) (x : Session) : (s.setSess i x).mot = s.mot := rfl
@[simp] theorem setSess_hst (i : Sess) (x : Session) : (s.setSess i x).hst = s.hst := rfl
@[simp] theorem setSess_crates (i : Sess) (x : Session) : (s.setSess i x).crates = s.crates := rfl
@[simp] theorem setSess_cmp (i : Sess) (x : Session) : (s.setSess i x).cmp = s.cmp := rfl
@[simp] theorem setSess_cal (i : Sess) (x : Session) : (s.setSess i x).cal = s.cal := rfl
@[simp] theorem setSess_hed (i : Sess) (x : Session) : (s.setSess i x).hed = s.hed := rfl
@[simp] theorem setSess_hlt (i : Sess) (x : Session) : (s.setSess i x).hlt = s.hlt := rfl
@[simp] theorem setSess_rej (i : Sess) (x : Session) : (s.setSess i x).rej = s.rej := rfl
@[simp] theorem setSess_hat (i : Sess) (x : Session) : (s.setSess i x).hat = s.hat := rfl
@[simp] theorem setSess_free (i : Sess) (x : Session) : (s.setSess i x).free = s.free := rfl
@[simp] theorem setSess_out (i : Sess) (x : Session) : (s.setSess i x).out = s.out := rfl
@[simp] theorem setSess_pending (i : Sess) (x : Session) : (s.setSess i x).pending = s.pending := rfl
@[simp] theorem setSess_reg (i : Sess) (x : Session) (b : Nat) : (s.setSess i x).reg b = s.reg b := rfl
@[simp] theorem setSess_lane (i : Sess) (x : Session) (j : Lane) : (s.setSess i x).lane j = s.lane j := rfl
@[simp] theorem setSess_head (i : Sess) (x : Session) (j : Head) : (s.setSess i x).head j = s.head j := rfl
@[simp] theorem setSess_health (i : Sess) (x : Session) (j : Head) : (s.setSess i x).health j = s.health j := rfl
@[simp] theorem setSess_axis (i : Sess) (x : Session) (j : Axis) : (s.setSess i x).axis j = s.axis j := rfl
@[simp] theorem setSess_chan (i : Sess) (x : Session) (j : Chan) : (s.setSess i x).chan j = s.chan j := rfl
@[simp] theorem setSess_timer (i : Sess) (x : Session) (j : TimerId) : (s.setSess i x).timer j = s.timer j := rfl
@[simp] theorem setSess_rejLane (i : Sess) (x : Session) (j : Lane) : (s.setSess i x).rejLane j = s.rejLane j := rfl
@[simp] theorem setSess_laneState (i : Sess) (x : Session) (j : Lane) : (s.setSess i x).laneState j = s.laneState j := rfl
@[simp] theorem setSess_guard (i : Sess) (x : Session) (b : Nat) : (s.setSess i x).guard b = s.guard b := rfl
@[simp] theorem setSess_firedAt (i : Sess) (x : Session) (b : Nat) : (s.setSess i x).firedAt b = s.firedAt b := rfl

/-! ### `modSess` -/

@[simp] theorem modSess_tick (i : Sess) (f : Session → Session) : (s.modSess i f).tick = s.tick := rfl
@[simp] theorem modSess_order (i : Sess) (f : Session → Session) : (s.modSess i f).order = s.order := rfl
@[simp] theorem modSess_regs (i : Sess) (f : Session → Session) : (s.modSess i f).regs = s.regs := rfl
@[simp] theorem modSess_guards (i : Sess) (f : Session → Session) : (s.modSess i f).guards = s.guards := rfl
@[simp] theorem modSess_fired (i : Sess) (f : Session → Session) : (s.modSess i f).fired = s.fired := rfl
@[simp] theorem modSess_flt (i : Sess) (f : Session → Session) : (s.modSess i f).flt = s.flt := rfl
@[simp] theorem modSess_boot (i : Sess) (f : Session → Session) : (s.modSess i f).boot = s.boot := rfl
@[simp] theorem modSess_pwr (i : Sess) (f : Session → Session) : (s.modSess i f).pwr = s.pwr := rfl
@[simp] theorem modSess_mem (i : Sess) (f : Session → Session) : (s.modSess i f).mem = s.mem := rfl
@[simp] theorem modSess_lnk (i : Sess) (f : Session → Session) : (s.modSess i f).lnk = { s.lnk with sessions := s.lnk.sessions.set i (f (s.sess i)) } := rfl
@[simp] theorem modSess_ses (i : Sess) (f : Session → Session) : (s.modSess i f).ses = s.ses := rfl
@[simp] theorem modSess_tmr (i : Sess) (f : Session → Session) : (s.modSess i f).tmr = s.tmr := rfl
@[simp] theorem modSess_plc (i : Sess) (f : Session → Session) : (s.modSess i f).plc = s.plc := rfl
@[simp] theorem modSess_mot (i : Sess) (f : Session → Session) : (s.modSess i f).mot = s.mot := rfl
@[simp] theorem modSess_hst (i : Sess) (f : Session → Session) : (s.modSess i f).hst = s.hst := rfl
@[simp] theorem modSess_crates (i : Sess) (f : Session → Session) : (s.modSess i f).crates = s.crates := rfl
@[simp] theorem modSess_cmp (i : Sess) (f : Session → Session) : (s.modSess i f).cmp = s.cmp := rfl
@[simp] theorem modSess_cal (i : Sess) (f : Session → Session) : (s.modSess i f).cal = s.cal := rfl
@[simp] theorem modSess_hed (i : Sess) (f : Session → Session) : (s.modSess i f).hed = s.hed := rfl
@[simp] theorem modSess_hlt (i : Sess) (f : Session → Session) : (s.modSess i f).hlt = s.hlt := rfl
@[simp] theorem modSess_rej (i : Sess) (f : Session → Session) : (s.modSess i f).rej = s.rej := rfl
@[simp] theorem modSess_hat (i : Sess) (f : Session → Session) : (s.modSess i f).hat = s.hat := rfl
@[simp] theorem modSess_free (i : Sess) (f : Session → Session) : (s.modSess i f).free = s.free := rfl
@[simp] theorem modSess_out (i : Sess) (f : Session → Session) : (s.modSess i f).out = s.out := rfl
@[simp] theorem modSess_pending (i : Sess) (f : Session → Session) : (s.modSess i f).pending = s.pending := rfl
@[simp] theorem modSess_reg (i : Sess) (f : Session → Session) (b : Nat) : (s.modSess i f).reg b = s.reg b := rfl
@[simp] theorem modSess_lane (i : Sess) (f : Session → Session) (j : Lane) : (s.modSess i f).lane j = s.lane j := rfl
@[simp] theorem modSess_head (i : Sess) (f : Session → Session) (j : Head) : (s.modSess i f).head j = s.head j := rfl
@[simp] theorem modSess_health (i : Sess) (f : Session → Session) (j : Head) : (s.modSess i f).health j = s.health j := rfl
@[simp] theorem modSess_axis (i : Sess) (f : Session → Session) (j : Axis) : (s.modSess i f).axis j = s.axis j := rfl
@[simp] theorem modSess_chan (i : Sess) (f : Session → Session) (j : Chan) : (s.modSess i f).chan j = s.chan j := rfl
@[simp] theorem modSess_timer (i : Sess) (f : Session → Session) (j : TimerId) : (s.modSess i f).timer j = s.timer j := rfl
@[simp] theorem modSess_rejLane (i : Sess) (f : Session → Session) (j : Lane) : (s.modSess i f).rejLane j = s.rejLane j := rfl
@[simp] theorem modSess_laneState (i : Sess) (f : Session → Session) (j : Lane) : (s.modSess i f).laneState j = s.laneState j := rfl
@[simp] theorem modSess_guard (i : Sess) (f : Session → Session) (b : Nat) : (s.modSess i f).guard b = s.guard b := rfl
@[simp] theorem modSess_firedAt (i : Sess) (f : Session → Session) (b : Nat) : (s.modSess i f).firedAt b = s.firedAt b := rfl

/-! ### `setRejLane` -/

@[simp] theorem setRejLane_tick (n : Lane) (x : RejLane) : (s.setRejLane n x).tick = s.tick := rfl
@[simp] theorem setRejLane_order (n : Lane) (x : RejLane) : (s.setRejLane n x).order = s.order := rfl
@[simp] theorem setRejLane_regs (n : Lane) (x : RejLane) : (s.setRejLane n x).regs = s.regs := rfl
@[simp] theorem setRejLane_guards (n : Lane) (x : RejLane) : (s.setRejLane n x).guards = s.guards := rfl
@[simp] theorem setRejLane_fired (n : Lane) (x : RejLane) : (s.setRejLane n x).fired = s.fired := rfl
@[simp] theorem setRejLane_flt (n : Lane) (x : RejLane) : (s.setRejLane n x).flt = s.flt := rfl
@[simp] theorem setRejLane_boot (n : Lane) (x : RejLane) : (s.setRejLane n x).boot = s.boot := rfl
@[simp] theorem setRejLane_pwr (n : Lane) (x : RejLane) : (s.setRejLane n x).pwr = s.pwr := rfl
@[simp] theorem setRejLane_mem (n : Lane) (x : RejLane) : (s.setRejLane n x).mem = s.mem := rfl
@[simp] theorem setRejLane_lnk (n : Lane) (x : RejLane) : (s.setRejLane n x).lnk = s.lnk := rfl
@[simp] theorem setRejLane_ses (n : Lane) (x : RejLane) : (s.setRejLane n x).ses = s.ses := rfl
@[simp] theorem setRejLane_tmr (n : Lane) (x : RejLane) : (s.setRejLane n x).tmr = s.tmr := rfl
@[simp] theorem setRejLane_plc (n : Lane) (x : RejLane) : (s.setRejLane n x).plc = s.plc := rfl
@[simp] theorem setRejLane_mot (n : Lane) (x : RejLane) : (s.setRejLane n x).mot = s.mot := rfl
@[simp] theorem setRejLane_hst (n : Lane) (x : RejLane) : (s.setRejLane n x).hst = s.hst := rfl
@[simp] theorem setRejLane_crates (n : Lane) (x : RejLane) : (s.setRejLane n x).crates = s.crates := rfl
@[simp] theorem setRejLane_cmp (n : Lane) (x : RejLane) : (s.setRejLane n x).cmp = s.cmp := rfl
@[simp] theorem setRejLane_cal (n : Lane) (x : RejLane) : (s.setRejLane n x).cal = s.cal := rfl
@[simp] theorem setRejLane_hed (n : Lane) (x : RejLane) : (s.setRejLane n x).hed = s.hed := rfl
@[simp] theorem setRejLane_hlt (n : Lane) (x : RejLane) : (s.setRejLane n x).hlt = s.hlt := rfl
@[simp] theorem setRejLane_rej (n : Lane) (x : RejLane) : (s.setRejLane n x).rej = { s.rej with lanes := s.rej.lanes.set n x } := rfl
@[simp] theorem setRejLane_hat (n : Lane) (x : RejLane) : (s.setRejLane n x).hat = s.hat := rfl
@[simp] theorem setRejLane_free (n : Lane) (x : RejLane) : (s.setRejLane n x).free = s.free := rfl
@[simp] theorem setRejLane_out (n : Lane) (x : RejLane) : (s.setRejLane n x).out = s.out := rfl
@[simp] theorem setRejLane_pending (n : Lane) (x : RejLane) : (s.setRejLane n x).pending = s.pending := rfl
@[simp] theorem setRejLane_reg (n : Lane) (x : RejLane) (b : Nat) : (s.setRejLane n x).reg b = s.reg b := rfl
@[simp] theorem setRejLane_lane (n : Lane) (x : RejLane) (j : Lane) : (s.setRejLane n x).lane j = s.lane j := rfl
@[simp] theorem setRejLane_head (n : Lane) (x : RejLane) (j : Head) : (s.setRejLane n x).head j = s.head j := rfl
@[simp] theorem setRejLane_health (n : Lane) (x : RejLane) (j : Head) : (s.setRejLane n x).health j = s.health j := rfl
@[simp] theorem setRejLane_axis (n : Lane) (x : RejLane) (j : Axis) : (s.setRejLane n x).axis j = s.axis j := rfl
@[simp] theorem setRejLane_chan (n : Lane) (x : RejLane) (j : Chan) : (s.setRejLane n x).chan j = s.chan j := rfl
@[simp] theorem setRejLane_timer (n : Lane) (x : RejLane) (j : TimerId) : (s.setRejLane n x).timer j = s.timer j := rfl
@[simp] theorem setRejLane_sess (n : Lane) (x : RejLane) (j : Sess) : (s.setRejLane n x).sess j = s.sess j := rfl
@[simp] theorem setRejLane_laneState (n : Lane) (x : RejLane) (j : Lane) : (s.setRejLane n x).laneState j = s.laneState j := rfl
@[simp] theorem setRejLane_guard (n : Lane) (x : RejLane) (b : Nat) : (s.setRejLane n x).guard b = s.guard b := rfl
@[simp] theorem setRejLane_firedAt (n : Lane) (x : RejLane) (b : Nat) : (s.setRejLane n x).firedAt b = s.firedAt b := rfl

/-! ### `modRejLane` -/

@[simp] theorem modRejLane_tick (n : Lane) (f : RejLane → RejLane) : (s.modRejLane n f).tick = s.tick := rfl
@[simp] theorem modRejLane_order (n : Lane) (f : RejLane → RejLane) : (s.modRejLane n f).order = s.order := rfl
@[simp] theorem modRejLane_regs (n : Lane) (f : RejLane → RejLane) : (s.modRejLane n f).regs = s.regs := rfl
@[simp] theorem modRejLane_guards (n : Lane) (f : RejLane → RejLane) : (s.modRejLane n f).guards = s.guards := rfl
@[simp] theorem modRejLane_fired (n : Lane) (f : RejLane → RejLane) : (s.modRejLane n f).fired = s.fired := rfl
@[simp] theorem modRejLane_flt (n : Lane) (f : RejLane → RejLane) : (s.modRejLane n f).flt = s.flt := rfl
@[simp] theorem modRejLane_boot (n : Lane) (f : RejLane → RejLane) : (s.modRejLane n f).boot = s.boot := rfl
@[simp] theorem modRejLane_pwr (n : Lane) (f : RejLane → RejLane) : (s.modRejLane n f).pwr = s.pwr := rfl
@[simp] theorem modRejLane_mem (n : Lane) (f : RejLane → RejLane) : (s.modRejLane n f).mem = s.mem := rfl
@[simp] theorem modRejLane_lnk (n : Lane) (f : RejLane → RejLane) : (s.modRejLane n f).lnk = s.lnk := rfl
@[simp] theorem modRejLane_ses (n : Lane) (f : RejLane → RejLane) : (s.modRejLane n f).ses = s.ses := rfl
@[simp] theorem modRejLane_tmr (n : Lane) (f : RejLane → RejLane) : (s.modRejLane n f).tmr = s.tmr := rfl
@[simp] theorem modRejLane_plc (n : Lane) (f : RejLane → RejLane) : (s.modRejLane n f).plc = s.plc := rfl
@[simp] theorem modRejLane_mot (n : Lane) (f : RejLane → RejLane) : (s.modRejLane n f).mot = s.mot := rfl
@[simp] theorem modRejLane_hst (n : Lane) (f : RejLane → RejLane) : (s.modRejLane n f).hst = s.hst := rfl
@[simp] theorem modRejLane_crates (n : Lane) (f : RejLane → RejLane) : (s.modRejLane n f).crates = s.crates := rfl
@[simp] theorem modRejLane_cmp (n : Lane) (f : RejLane → RejLane) : (s.modRejLane n f).cmp = s.cmp := rfl
@[simp] theorem modRejLane_cal (n : Lane) (f : RejLane → RejLane) : (s.modRejLane n f).cal = s.cal := rfl
@[simp] theorem modRejLane_hed (n : Lane) (f : RejLane → RejLane) : (s.modRejLane n f).hed = s.hed := rfl
@[simp] theorem modRejLane_hlt (n : Lane) (f : RejLane → RejLane) : (s.modRejLane n f).hlt = s.hlt := rfl
@[simp] theorem modRejLane_rej (n : Lane) (f : RejLane → RejLane) : (s.modRejLane n f).rej = { s.rej with lanes := s.rej.lanes.set n (f (s.rejLane n)) } := rfl
@[simp] theorem modRejLane_hat (n : Lane) (f : RejLane → RejLane) : (s.modRejLane n f).hat = s.hat := rfl
@[simp] theorem modRejLane_free (n : Lane) (f : RejLane → RejLane) : (s.modRejLane n f).free = s.free := rfl
@[simp] theorem modRejLane_out (n : Lane) (f : RejLane → RejLane) : (s.modRejLane n f).out = s.out := rfl
@[simp] theorem modRejLane_pending (n : Lane) (f : RejLane → RejLane) : (s.modRejLane n f).pending = s.pending := rfl
@[simp] theorem modRejLane_reg (n : Lane) (f : RejLane → RejLane) (b : Nat) : (s.modRejLane n f).reg b = s.reg b := rfl
@[simp] theorem modRejLane_lane (n : Lane) (f : RejLane → RejLane) (j : Lane) : (s.modRejLane n f).lane j = s.lane j := rfl
@[simp] theorem modRejLane_head (n : Lane) (f : RejLane → RejLane) (j : Head) : (s.modRejLane n f).head j = s.head j := rfl
@[simp] theorem modRejLane_health (n : Lane) (f : RejLane → RejLane) (j : Head) : (s.modRejLane n f).health j = s.health j := rfl
@[simp] theorem modRejLane_axis (n : Lane) (f : RejLane → RejLane) (j : Axis) : (s.modRejLane n f).axis j = s.axis j := rfl
@[simp] theorem modRejLane_chan (n : Lane) (f : RejLane → RejLane) (j : Chan) : (s.modRejLane n f).chan j = s.chan j := rfl
@[simp] theorem modRejLane_timer (n : Lane) (f : RejLane → RejLane) (j : TimerId) : (s.modRejLane n f).timer j = s.timer j := rfl
@[simp] theorem modRejLane_sess (n : Lane) (f : RejLane → RejLane) (j : Sess) : (s.modRejLane n f).sess j = s.sess j := rfl
@[simp] theorem modRejLane_laneState (n : Lane) (f : RejLane → RejLane) (j : Lane) : (s.modRejLane n f).laneState j = s.laneState j := rfl
@[simp] theorem modRejLane_guard (n : Lane) (f : RejLane → RejLane) (b : Nat) : (s.modRejLane n f).guard b = s.guard b := rfl
@[simp] theorem modRejLane_firedAt (n : Lane) (f : RejLane → RejLane) (b : Nat) : (s.modRejLane n f).firedAt b = s.firedAt b := rfl

/-! ### `setLaneState` -/

@[simp] theorem setLaneState_tick (n : Lane) (x : LaneState) : (s.setLaneState n x).tick = s.tick := rfl
@[simp] theorem setLaneState_order (n : Lane) (x : LaneState) : (s.setLaneState n x).order = s.order := rfl
@[simp] theorem setLaneState_regs (n : Lane) (x : LaneState) : (s.setLaneState n x).regs = s.regs := rfl
@[simp] theorem setLaneState_guards (n : Lane) (x : LaneState) : (s.setLaneState n x).guards = s.guards := rfl
@[simp] theorem setLaneState_fired (n : Lane) (x : LaneState) : (s.setLaneState n x).fired = s.fired := rfl
@[simp] theorem setLaneState_flt (n : Lane) (x : LaneState) : (s.setLaneState n x).flt = s.flt := rfl
@[simp] theorem setLaneState_boot (n : Lane) (x : LaneState) : (s.setLaneState n x).boot = s.boot := rfl
@[simp] theorem setLaneState_pwr (n : Lane) (x : LaneState) : (s.setLaneState n x).pwr = s.pwr := rfl
@[simp] theorem setLaneState_mem (n : Lane) (x : LaneState) : (s.setLaneState n x).mem = s.mem := rfl
@[simp] theorem setLaneState_lnk (n : Lane) (x : LaneState) : (s.setLaneState n x).lnk = s.lnk := rfl
@[simp] theorem setLaneState_ses (n : Lane) (x : LaneState) : (s.setLaneState n x).ses = s.ses := rfl
@[simp] theorem setLaneState_tmr (n : Lane) (x : LaneState) : (s.setLaneState n x).tmr = s.tmr := rfl
@[simp] theorem setLaneState_plc (n : Lane) (x : LaneState) : (s.setLaneState n x).plc = s.plc := rfl
@[simp] theorem setLaneState_mot (n : Lane) (x : LaneState) : (s.setLaneState n x).mot = s.mot := rfl
@[simp] theorem setLaneState_hst (n : Lane) (x : LaneState) : (s.setLaneState n x).hst = s.hst := rfl
@[simp] theorem setLaneState_crates (n : Lane) (x : LaneState) : (s.setLaneState n x).crates = s.crates := rfl
@[simp] theorem setLaneState_cmp (n : Lane) (x : LaneState) : (s.setLaneState n x).cmp = s.cmp := rfl
@[simp] theorem setLaneState_cal (n : Lane) (x : LaneState) : (s.setLaneState n x).cal = s.cal := rfl
@[simp] theorem setLaneState_hed (n : Lane) (x : LaneState) : (s.setLaneState n x).hed = s.hed := rfl
@[simp] theorem setLaneState_hlt (n : Lane) (x : LaneState) : (s.setLaneState n x).hlt = s.hlt := rfl
@[simp] theorem setLaneState_rej (n : Lane) (x : LaneState) : (s.setLaneState n x).rej = s.rej := rfl
@[simp] theorem setLaneState_hat (n : Lane) (x : LaneState) : (s.setLaneState n x).hat = { s.hat with lanes := s.hat.lanes.set n x } := rfl
@[simp] theorem setLaneState_free (n : Lane) (x : LaneState) : (s.setLaneState n x).free = s.free := rfl
@[simp] theorem setLaneState_out (n : Lane) (x : LaneState) : (s.setLaneState n x).out = s.out := rfl
@[simp] theorem setLaneState_pending (n : Lane) (x : LaneState) : (s.setLaneState n x).pending = s.pending := rfl
@[simp] theorem setLaneState_reg (n : Lane) (x : LaneState) (b : Nat) : (s.setLaneState n x).reg b = s.reg b := rfl
@[simp] theorem setLaneState_lane (n : Lane) (x : LaneState) (j : Lane) : (s.setLaneState n x).lane j = s.lane j := rfl
@[simp] theorem setLaneState_head (n : Lane) (x : LaneState) (j : Head) : (s.setLaneState n x).head j = s.head j := rfl
@[simp] theorem setLaneState_health (n : Lane) (x : LaneState) (j : Head) : (s.setLaneState n x).health j = s.health j := rfl
@[simp] theorem setLaneState_axis (n : Lane) (x : LaneState) (j : Axis) : (s.setLaneState n x).axis j = s.axis j := rfl
@[simp] theorem setLaneState_chan (n : Lane) (x : LaneState) (j : Chan) : (s.setLaneState n x).chan j = s.chan j := rfl
@[simp] theorem setLaneState_timer (n : Lane) (x : LaneState) (j : TimerId) : (s.setLaneState n x).timer j = s.timer j := rfl
@[simp] theorem setLaneState_sess (n : Lane) (x : LaneState) (j : Sess) : (s.setLaneState n x).sess j = s.sess j := rfl
@[simp] theorem setLaneState_rejLane (n : Lane) (x : LaneState) (j : Lane) : (s.setLaneState n x).rejLane j = s.rejLane j := rfl
@[simp] theorem setLaneState_guard (n : Lane) (x : LaneState) (b : Nat) : (s.setLaneState n x).guard b = s.guard b := rfl
@[simp] theorem setLaneState_firedAt (n : Lane) (x : LaneState) (b : Nat) : (s.setLaneState n x).firedAt b = s.firedAt b := rfl

/-! ### `modPwr` -/

@[simp] theorem modPwr_tick (f : Pantry → Pantry) : (s.modPwr f).tick = s.tick := rfl
@[simp] theorem modPwr_order (f : Pantry → Pantry) : (s.modPwr f).order = s.order := rfl
@[simp] theorem modPwr_regs (f : Pantry → Pantry) : (s.modPwr f).regs = s.regs := rfl
@[simp] theorem modPwr_guards (f : Pantry → Pantry) : (s.modPwr f).guards = s.guards := rfl
@[simp] theorem modPwr_fired (f : Pantry → Pantry) : (s.modPwr f).fired = s.fired := rfl
@[simp] theorem modPwr_flt (f : Pantry → Pantry) : (s.modPwr f).flt = s.flt := rfl
@[simp] theorem modPwr_boot (f : Pantry → Pantry) : (s.modPwr f).boot = s.boot := rfl
@[simp] theorem modPwr_pwr (f : Pantry → Pantry) : (s.modPwr f).pwr = f s.pwr := rfl
@[simp] theorem modPwr_mem (f : Pantry → Pantry) : (s.modPwr f).mem = s.mem := rfl
@[simp] theorem modPwr_lnk (f : Pantry → Pantry) : (s.modPwr f).lnk = s.lnk := rfl
@[simp] theorem modPwr_ses (f : Pantry → Pantry) : (s.modPwr f).ses = s.ses := rfl
@[simp] theorem modPwr_tmr (f : Pantry → Pantry) : (s.modPwr f).tmr = s.tmr := rfl
@[simp] theorem modPwr_plc (f : Pantry → Pantry) : (s.modPwr f).plc = s.plc := rfl
@[simp] theorem modPwr_mot (f : Pantry → Pantry) : (s.modPwr f).mot = s.mot := rfl
@[simp] theorem modPwr_hst (f : Pantry → Pantry) : (s.modPwr f).hst = s.hst := rfl
@[simp] theorem modPwr_crates (f : Pantry → Pantry) : (s.modPwr f).crates = s.crates := rfl
@[simp] theorem modPwr_cmp (f : Pantry → Pantry) : (s.modPwr f).cmp = s.cmp := rfl
@[simp] theorem modPwr_cal (f : Pantry → Pantry) : (s.modPwr f).cal = s.cal := rfl
@[simp] theorem modPwr_hed (f : Pantry → Pantry) : (s.modPwr f).hed = s.hed := rfl
@[simp] theorem modPwr_hlt (f : Pantry → Pantry) : (s.modPwr f).hlt = s.hlt := rfl
@[simp] theorem modPwr_rej (f : Pantry → Pantry) : (s.modPwr f).rej = s.rej := rfl
@[simp] theorem modPwr_hat (f : Pantry → Pantry) : (s.modPwr f).hat = s.hat := rfl
@[simp] theorem modPwr_free (f : Pantry → Pantry) : (s.modPwr f).free = s.free := rfl
@[simp] theorem modPwr_out (f : Pantry → Pantry) : (s.modPwr f).out = s.out := rfl
@[simp] theorem modPwr_pending (f : Pantry → Pantry) : (s.modPwr f).pending = s.pending := rfl
@[simp] theorem modPwr_reg (f : Pantry → Pantry) (b : Nat) : (s.modPwr f).reg b = s.reg b := rfl
@[simp] theorem modPwr_lane (f : Pantry → Pantry) (j : Lane) : (s.modPwr f).lane j = s.lane j := rfl
@[simp] theorem modPwr_head (f : Pantry → Pantry) (j : Head) : (s.modPwr f).head j = s.head j := rfl
@[simp] theorem modPwr_health (f : Pantry → Pantry) (j : Head) : (s.modPwr f).health j = s.health j := rfl
@[simp] theorem modPwr_axis (f : Pantry → Pantry) (j : Axis) : (s.modPwr f).axis j = s.axis j := rfl
@[simp] theorem modPwr_chan (f : Pantry → Pantry) (j : Chan) : (s.modPwr f).chan j = s.chan j := rfl
@[simp] theorem modPwr_timer (f : Pantry → Pantry) (j : TimerId) : (s.modPwr f).timer j = s.timer j := rfl
@[simp] theorem modPwr_sess (f : Pantry → Pantry) (j : Sess) : (s.modPwr f).sess j = s.sess j := rfl
@[simp] theorem modPwr_rejLane (f : Pantry → Pantry) (j : Lane) : (s.modPwr f).rejLane j = s.rejLane j := rfl
@[simp] theorem modPwr_laneState (f : Pantry → Pantry) (j : Lane) : (s.modPwr f).laneState j = s.laneState j := rfl
@[simp] theorem modPwr_guard (f : Pantry → Pantry) (b : Nat) : (s.modPwr f).guard b = s.guard b := rfl
@[simp] theorem modPwr_firedAt (f : Pantry → Pantry) (b : Nat) : (s.modPwr f).firedAt b = s.firedAt b := rfl

/-! ### `modFlt` -/

@[simp] theorem modFlt_tick (f : Collector → Collector) : (s.modFlt f).tick = s.tick := rfl
@[simp] theorem modFlt_order (f : Collector → Collector) : (s.modFlt f).order = s.order := rfl
@[simp] theorem modFlt_regs (f : Collector → Collector) : (s.modFlt f).regs = s.regs := rfl
@[simp] theorem modFlt_guards (f : Collector → Collector) : (s.modFlt f).guards = s.guards := rfl
@[simp] theorem modFlt_fired (f : Collector → Collector) : (s.modFlt f).fired = s.fired := rfl
@[simp] theorem modFlt_flt (f : Collector → Collector) : (s.modFlt f).flt = f s.flt := rfl
@[simp] theorem modFlt_boot (f : Collector → Collector) : (s.modFlt f).boot = s.boot := rfl
@[simp] theorem modFlt_pwr (f : Collector → Collector) : (s.modFlt f).pwr = s.pwr := rfl
@[simp] theorem modFlt_mem (f : Collector → Collector) : (s.modFlt f).mem = s.mem := rfl
@[simp] theorem modFlt_lnk (f : Collector → Collector) : (s.modFlt f).lnk = s.lnk := rfl
@[simp] theorem modFlt_ses (f : Collector → Collector) : (s.modFlt f).ses = s.ses := rfl
@[simp] theorem modFlt_tmr (f : Collector → Collector) : (s.modFlt f).tmr = s.tmr := rfl
@[simp] theorem modFlt_plc (f : Collector → Collector) : (s.modFlt f).plc = s.plc := rfl
@[simp] theorem modFlt_mot (f : Collector → Collector) : (s.modFlt f).mot = s.mot := rfl
@[simp] theorem modFlt_hst (f : Collector → Collector) : (s.modFlt f).hst = s.hst := rfl
@[simp] theorem modFlt_crates (f : Collector → Collector) : (s.modFlt f).crates = s.crates := rfl
@[simp] theorem modFlt_cmp (f : Collector → Collector) : (s.modFlt f).cmp = s.cmp := rfl
@[simp] theorem modFlt_cal (f : Collector → Collector) : (s.modFlt f).cal = s.cal := rfl
@[simp] theorem modFlt_hed (f : Collector → Collector) : (s.modFlt f).hed = s.hed := rfl
@[simp] theorem modFlt_hlt (f : Collector → Collector) : (s.modFlt f).hlt = s.hlt := rfl
@[simp] theorem modFlt_rej (f : Collector → Collector) : (s.modFlt f).rej = s.rej := rfl
@[simp] theorem modFlt_hat (f : Collector → Collector) : (s.modFlt f).hat = s.hat := rfl
@[simp] theorem modFlt_free (f : Collector → Collector) : (s.modFlt f).free = s.free := rfl
@[simp] theorem modFlt_out (f : Collector → Collector) : (s.modFlt f).out = s.out := rfl
@[simp] theorem modFlt_pending (f : Collector → Collector) : (s.modFlt f).pending = s.pending := rfl
@[simp] theorem modFlt_reg (f : Collector → Collector) (b : Nat) : (s.modFlt f).reg b = s.reg b := rfl
@[simp] theorem modFlt_lane (f : Collector → Collector) (j : Lane) : (s.modFlt f).lane j = s.lane j := rfl
@[simp] theorem modFlt_head (f : Collector → Collector) (j : Head) : (s.modFlt f).head j = s.head j := rfl
@[simp] theorem modFlt_health (f : Collector → Collector) (j : Head) : (s.modFlt f).health j = s.health j := rfl
@[simp] theorem modFlt_axis (f : Collector → Collector) (j : Axis) : (s.modFlt f).axis j = s.axis j := rfl
@[simp] theorem modFlt_chan (f : Collector → Collector) (j : Chan) : (s.modFlt f).chan j = s.chan j := rfl
@[simp] theorem modFlt_timer (f : Collector → Collector) (j : TimerId) : (s.modFlt f).timer j = s.timer j := rfl
@[simp] theorem modFlt_sess (f : Collector → Collector) (j : Sess) : (s.modFlt f).sess j = s.sess j := rfl
@[simp] theorem modFlt_rejLane (f : Collector → Collector) (j : Lane) : (s.modFlt f).rejLane j = s.rejLane j := rfl
@[simp] theorem modFlt_laneState (f : Collector → Collector) (j : Lane) : (s.modFlt f).laneState j = s.laneState j := rfl
@[simp] theorem modFlt_guard (f : Collector → Collector) (b : Nat) : (s.modFlt f).guard b = s.guard b := rfl
@[simp] theorem modFlt_firedAt (f : Collector → Collector) (b : Nat) : (s.modFlt f).firedAt b = s.firedAt b := rfl

/-! ### `modBoot` -/

@[simp] theorem modBoot_tick (f : Boot → Boot) : (s.modBoot f).tick = s.tick := rfl
@[simp] theorem modBoot_order (f : Boot → Boot) : (s.modBoot f).order = s.order := rfl
@[simp] theorem modBoot_regs (f : Boot → Boot) : (s.modBoot f).regs = s.regs := rfl
@[simp] theorem modBoot_guards (f : Boot → Boot) : (s.modBoot f).guards = s.guards := rfl
@[simp] theorem modBoot_fired (f : Boot → Boot) : (s.modBoot f).fired = s.fired := rfl
@[simp] theorem modBoot_flt (f : Boot → Boot) : (s.modBoot f).flt = s.flt := rfl
@[simp] theorem modBoot_boot (f : Boot → Boot) : (s.modBoot f).boot = f s.boot := rfl
@[simp] theorem modBoot_pwr (f : Boot → Boot) : (s.modBoot f).pwr = s.pwr := rfl
@[simp] theorem modBoot_mem (f : Boot → Boot) : (s.modBoot f).mem = s.mem := rfl
@[simp] theorem modBoot_lnk (f : Boot → Boot) : (s.modBoot f).lnk = s.lnk := rfl
@[simp] theorem modBoot_ses (f : Boot → Boot) : (s.modBoot f).ses = s.ses := rfl
@[simp] theorem modBoot_tmr (f : Boot → Boot) : (s.modBoot f).tmr = s.tmr := rfl
@[simp] theorem modBoot_plc (f : Boot → Boot) : (s.modBoot f).plc = s.plc := rfl
@[simp] theorem modBoot_mot (f : Boot → Boot) : (s.modBoot f).mot = s.mot := rfl
@[simp] theorem modBoot_hst (f : Boot → Boot) : (s.modBoot f).hst = s.hst := rfl
@[simp] theorem modBoot_crates (f : Boot → Boot) : (s.modBoot f).crates = s.crates := rfl
@[simp] theorem modBoot_cmp (f : Boot → Boot) : (s.modBoot f).cmp = s.cmp := rfl
@[simp] theorem modBoot_cal (f : Boot → Boot) : (s.modBoot f).cal = s.cal := rfl
@[simp] theorem modBoot_hed (f : Boot → Boot) : (s.modBoot f).hed = s.hed := rfl
@[simp] theorem modBoot_hlt (f : Boot → Boot) : (s.modBoot f).hlt = s.hlt := rfl
@[simp] theorem modBoot_rej (f : Boot → Boot) : (s.modBoot f).rej = s.rej := rfl
@[simp] theorem modBoot_hat (f : Boot → Boot) : (s.modBoot f).hat = s.hat := rfl
@[simp] theorem modBoot_free (f : Boot → Boot) : (s.modBoot f).free = s.free := rfl
@[simp] theorem modBoot_out (f : Boot → Boot) : (s.modBoot f).out = s.out := rfl
@[simp] theorem modBoot_pending (f : Boot → Boot) : (s.modBoot f).pending = s.pending := rfl
@[simp] theorem modBoot_reg (f : Boot → Boot) (b : Nat) : (s.modBoot f).reg b = s.reg b := rfl
@[simp] theorem modBoot_lane (f : Boot → Boot) (j : Lane) : (s.modBoot f).lane j = s.lane j := rfl
@[simp] theorem modBoot_head (f : Boot → Boot) (j : Head) : (s.modBoot f).head j = s.head j := rfl
@[simp] theorem modBoot_health (f : Boot → Boot) (j : Head) : (s.modBoot f).health j = s.health j := rfl
@[simp] theorem modBoot_axis (f : Boot → Boot) (j : Axis) : (s.modBoot f).axis j = s.axis j := rfl
@[simp] theorem modBoot_chan (f : Boot → Boot) (j : Chan) : (s.modBoot f).chan j = s.chan j := rfl
@[simp] theorem modBoot_timer (f : Boot → Boot) (j : TimerId) : (s.modBoot f).timer j = s.timer j := rfl
@[simp] theorem modBoot_sess (f : Boot → Boot) (j : Sess) : (s.modBoot f).sess j = s.sess j := rfl
@[simp] theorem modBoot_rejLane (f : Boot → Boot) (j : Lane) : (s.modBoot f).rejLane j = s.rejLane j := rfl
@[simp] theorem modBoot_laneState (f : Boot → Boot) (j : Lane) : (s.modBoot f).laneState j = s.laneState j := rfl
@[simp] theorem modBoot_guard (f : Boot → Boot) (b : Nat) : (s.modBoot f).guard b = s.guard b := rfl
@[simp] theorem modBoot_firedAt (f : Boot → Boot) (b : Nat) : (s.modBoot f).firedAt b = s.firedAt b := rfl

/-! ### `modMem` -/

@[simp] theorem modMem_tick (f : Mem → Mem) : (s.modMem f).tick = s.tick := rfl
@[simp] theorem modMem_order (f : Mem → Mem) : (s.modMem f).order = s.order := rfl
@[simp] theorem modMem_regs (f : Mem → Mem) : (s.modMem f).regs = s.regs := rfl
@[simp] theorem modMem_guards (f : Mem → Mem) : (s.modMem f).guards = s.guards := rfl
@[simp] theorem modMem_fired (f : Mem → Mem) : (s.modMem f).fired = s.fired := rfl
@[simp] theorem modMem_flt (f : Mem → Mem) : (s.modMem f).flt = s.flt := rfl
@[simp] theorem modMem_boot (f : Mem → Mem) : (s.modMem f).boot = s.boot := rfl
@[simp] theorem modMem_pwr (f : Mem → Mem) : (s.modMem f).pwr = s.pwr := rfl
@[simp] theorem modMem_mem (f : Mem → Mem) : (s.modMem f).mem = f s.mem := rfl
@[simp] theorem modMem_lnk (f : Mem → Mem) : (s.modMem f).lnk = s.lnk := rfl
@[simp] theorem modMem_ses (f : Mem → Mem) : (s.modMem f).ses = s.ses := rfl
@[simp] theorem modMem_tmr (f : Mem → Mem) : (s.modMem f).tmr = s.tmr := rfl
@[simp] theorem modMem_plc (f : Mem → Mem) : (s.modMem f).plc = s.plc := rfl
@[simp] theorem modMem_mot (f : Mem → Mem) : (s.modMem f).mot = s.mot := rfl
@[simp] theorem modMem_hst (f : Mem → Mem) : (s.modMem f).hst = s.hst := rfl
@[simp] theorem modMem_crates (f : Mem → Mem) : (s.modMem f).crates = s.crates := rfl
@[simp] theorem modMem_cmp (f : Mem → Mem) : (s.modMem f).cmp = s.cmp := rfl
@[simp] theorem modMem_cal (f : Mem → Mem) : (s.modMem f).cal = s.cal := rfl
@[simp] theorem modMem_hed (f : Mem → Mem) : (s.modMem f).hed = s.hed := rfl
@[simp] theorem modMem_hlt (f : Mem → Mem) : (s.modMem f).hlt = s.hlt := rfl
@[simp] theorem modMem_rej (f : Mem → Mem) : (s.modMem f).rej = s.rej := rfl
@[simp] theorem modMem_hat (f : Mem → Mem) : (s.modMem f).hat = s.hat := rfl
@[simp] theorem modMem_free (f : Mem → Mem) : (s.modMem f).free = s.free := rfl
@[simp] theorem modMem_out (f : Mem → Mem) : (s.modMem f).out = s.out := rfl
@[simp] theorem modMem_pending (f : Mem → Mem) : (s.modMem f).pending = s.pending := rfl
@[simp] theorem modMem_reg (f : Mem → Mem) (b : Nat) : (s.modMem f).reg b = s.reg b := rfl
@[simp] theorem modMem_lane (f : Mem → Mem) (j : Lane) : (s.modMem f).lane j = s.lane j := rfl
@[simp] theorem modMem_head (f : Mem → Mem) (j : Head) : (s.modMem f).head j = s.head j := rfl
@[simp] theorem modMem_health (f : Mem → Mem) (j : Head) : (s.modMem f).health j = s.health j := rfl
@[simp] theorem modMem_axis (f : Mem → Mem) (j : Axis) : (s.modMem f).axis j = s.axis j := rfl
@[simp] theorem modMem_chan (f : Mem → Mem) (j : Chan) : (s.modMem f).chan j = s.chan j := rfl
@[simp] theorem modMem_timer (f : Mem → Mem) (j : TimerId) : (s.modMem f).timer j = s.timer j := rfl
@[simp] theorem modMem_sess (f : Mem → Mem) (j : Sess) : (s.modMem f).sess j = s.sess j := rfl
@[simp] theorem modMem_rejLane (f : Mem → Mem) (j : Lane) : (s.modMem f).rejLane j = s.rejLane j := rfl
@[simp] theorem modMem_laneState (f : Mem → Mem) (j : Lane) : (s.modMem f).laneState j = s.laneState j := rfl
@[simp] theorem modMem_guard (f : Mem → Mem) (b : Nat) : (s.modMem f).guard b = s.guard b := rfl
@[simp] theorem modMem_firedAt (f : Mem → Mem) (b : Nat) : (s.modMem f).firedAt b = s.firedAt b := rfl

/-! ### `modCmp` -/

@[simp] theorem modCmp_tick (f : Cmp → Cmp) : (s.modCmp f).tick = s.tick := rfl
@[simp] theorem modCmp_order (f : Cmp → Cmp) : (s.modCmp f).order = s.order := rfl
@[simp] theorem modCmp_regs (f : Cmp → Cmp) : (s.modCmp f).regs = s.regs := rfl
@[simp] theorem modCmp_guards (f : Cmp → Cmp) : (s.modCmp f).guards = s.guards := rfl
@[simp] theorem modCmp_fired (f : Cmp → Cmp) : (s.modCmp f).fired = s.fired := rfl
@[simp] theorem modCmp_flt (f : Cmp → Cmp) : (s.modCmp f).flt = s.flt := rfl
@[simp] theorem modCmp_boot (f : Cmp → Cmp) : (s.modCmp f).boot = s.boot := rfl
@[simp] theorem modCmp_pwr (f : Cmp → Cmp) : (s.modCmp f).pwr = s.pwr := rfl
@[simp] theorem modCmp_mem (f : Cmp → Cmp) : (s.modCmp f).mem = s.mem := rfl
@[simp] theorem modCmp_lnk (f : Cmp → Cmp) : (s.modCmp f).lnk = s.lnk := rfl
@[simp] theorem modCmp_ses (f : Cmp → Cmp) : (s.modCmp f).ses = s.ses := rfl
@[simp] theorem modCmp_tmr (f : Cmp → Cmp) : (s.modCmp f).tmr = s.tmr := rfl
@[simp] theorem modCmp_plc (f : Cmp → Cmp) : (s.modCmp f).plc = s.plc := rfl
@[simp] theorem modCmp_mot (f : Cmp → Cmp) : (s.modCmp f).mot = s.mot := rfl
@[simp] theorem modCmp_hst (f : Cmp → Cmp) : (s.modCmp f).hst = s.hst := rfl
@[simp] theorem modCmp_crates (f : Cmp → Cmp) : (s.modCmp f).crates = s.crates := rfl
@[simp] theorem modCmp_cmp (f : Cmp → Cmp) : (s.modCmp f).cmp = f s.cmp := rfl
@[simp] theorem modCmp_cal (f : Cmp → Cmp) : (s.modCmp f).cal = s.cal := rfl
@[simp] theorem modCmp_hed (f : Cmp → Cmp) : (s.modCmp f).hed = s.hed := rfl
@[simp] theorem modCmp_hlt (f : Cmp → Cmp) : (s.modCmp f).hlt = s.hlt := rfl
@[simp] theorem modCmp_rej (f : Cmp → Cmp) : (s.modCmp f).rej = s.rej := rfl
@[simp] theorem modCmp_hat (f : Cmp → Cmp) : (s.modCmp f).hat = s.hat := rfl
@[simp] theorem modCmp_free (f : Cmp → Cmp) : (s.modCmp f).free = s.free := rfl
@[simp] theorem modCmp_out (f : Cmp → Cmp) : (s.modCmp f).out = s.out := rfl
@[simp] theorem modCmp_pending (f : Cmp → Cmp) : (s.modCmp f).pending = s.pending := rfl
@[simp] theorem modCmp_reg (f : Cmp → Cmp) (b : Nat) : (s.modCmp f).reg b = s.reg b := rfl
@[simp] theorem modCmp_lane (f : Cmp → Cmp) (j : Lane) : (s.modCmp f).lane j = s.lane j := rfl
@[simp] theorem modCmp_head (f : Cmp → Cmp) (j : Head) : (s.modCmp f).head j = s.head j := rfl
@[simp] theorem modCmp_health (f : Cmp → Cmp) (j : Head) : (s.modCmp f).health j = s.health j := rfl
@[simp] theorem modCmp_axis (f : Cmp → Cmp) (j : Axis) : (s.modCmp f).axis j = s.axis j := rfl
@[simp] theorem modCmp_chan (f : Cmp → Cmp) (j : Chan) : (s.modCmp f).chan j = s.chan j := rfl
@[simp] theorem modCmp_timer (f : Cmp → Cmp) (j : TimerId) : (s.modCmp f).timer j = s.timer j := rfl
@[simp] theorem modCmp_sess (f : Cmp → Cmp) (j : Sess) : (s.modCmp f).sess j = s.sess j := rfl
@[simp] theorem modCmp_rejLane (f : Cmp → Cmp) (j : Lane) : (s.modCmp f).rejLane j = s.rejLane j := rfl
@[simp] theorem modCmp_laneState (f : Cmp → Cmp) (j : Lane) : (s.modCmp f).laneState j = s.laneState j := rfl
@[simp] theorem modCmp_guard (f : Cmp → Cmp) (b : Nat) : (s.modCmp f).guard b = s.guard b := rfl
@[simp] theorem modCmp_firedAt (f : Cmp → Cmp) (b : Nat) : (s.modCmp f).firedAt b = s.firedAt b := rfl

/-! ### `modCal` -/

@[simp] theorem modCal_tick (f : Cal → Cal) : (s.modCal f).tick = s.tick := rfl
@[simp] theorem modCal_order (f : Cal → Cal) : (s.modCal f).order = s.order := rfl
@[simp] theorem modCal_regs (f : Cal → Cal) : (s.modCal f).regs = s.regs := rfl
@[simp] theorem modCal_guards (f : Cal → Cal) : (s.modCal f).guards = s.guards := rfl
@[simp] theorem modCal_fired (f : Cal → Cal) : (s.modCal f).fired = s.fired := rfl
@[simp] theorem modCal_flt (f : Cal → Cal) : (s.modCal f).flt = s.flt := rfl
@[simp] theorem modCal_boot (f : Cal → Cal) : (s.modCal f).boot = s.boot := rfl
@[simp] theorem modCal_pwr (f : Cal → Cal) : (s.modCal f).pwr = s.pwr := rfl
@[simp] theorem modCal_mem (f : Cal → Cal) : (s.modCal f).mem = s.mem := rfl
@[simp] theorem modCal_lnk (f : Cal → Cal) : (s.modCal f).lnk = s.lnk := rfl
@[simp] theorem modCal_ses (f : Cal → Cal) : (s.modCal f).ses = s.ses := rfl
@[simp] theorem modCal_tmr (f : Cal → Cal) : (s.modCal f).tmr = s.tmr := rfl
@[simp] theorem modCal_plc (f : Cal → Cal) : (s.modCal f).plc = s.plc := rfl
@[simp] theorem modCal_mot (f : Cal → Cal) : (s.modCal f).mot = s.mot := rfl
@[simp] theorem modCal_hst (f : Cal → Cal) : (s.modCal f).hst = s.hst := rfl
@[simp] theorem modCal_crates (f : Cal → Cal) : (s.modCal f).crates = s.crates := rfl
@[simp] theorem modCal_cmp (f : Cal → Cal) : (s.modCal f).cmp = s.cmp := rfl
@[simp] theorem modCal_cal (f : Cal → Cal) : (s.modCal f).cal = f s.cal := rfl
@[simp] theorem modCal_hed (f : Cal → Cal) : (s.modCal f).hed = s.hed := rfl
@[simp] theorem modCal_hlt (f : Cal → Cal) : (s.modCal f).hlt = s.hlt := rfl
@[simp] theorem modCal_rej (f : Cal → Cal) : (s.modCal f).rej = s.rej := rfl
@[simp] theorem modCal_hat (f : Cal → Cal) : (s.modCal f).hat = s.hat := rfl
@[simp] theorem modCal_free (f : Cal → Cal) : (s.modCal f).free = s.free := rfl
@[simp] theorem modCal_out (f : Cal → Cal) : (s.modCal f).out = s.out := rfl
@[simp] theorem modCal_pending (f : Cal → Cal) : (s.modCal f).pending = s.pending := rfl
@[simp] theorem modCal_reg (f : Cal → Cal) (b : Nat) : (s.modCal f).reg b = s.reg b := rfl
@[simp] theorem modCal_lane (f : Cal → Cal) (j : Lane) : (s.modCal f).lane j = s.lane j := rfl
@[simp] theorem modCal_head (f : Cal → Cal) (j : Head) : (s.modCal f).head j = s.head j := rfl
@[simp] theorem modCal_health (f : Cal → Cal) (j : Head) : (s.modCal f).health j = s.health j := rfl
@[simp] theorem modCal_axis (f : Cal → Cal) (j : Axis) : (s.modCal f).axis j = s.axis j := rfl
@[simp] theorem modCal_chan (f : Cal → Cal) (j : Chan) : (s.modCal f).chan j = s.chan j := rfl
@[simp] theorem modCal_timer (f : Cal → Cal) (j : TimerId) : (s.modCal f).timer j = s.timer j := rfl
@[simp] theorem modCal_sess (f : Cal → Cal) (j : Sess) : (s.modCal f).sess j = s.sess j := rfl
@[simp] theorem modCal_rejLane (f : Cal → Cal) (j : Lane) : (s.modCal f).rejLane j = s.rejLane j := rfl
@[simp] theorem modCal_laneState (f : Cal → Cal) (j : Lane) : (s.modCal f).laneState j = s.laneState j := rfl
@[simp] theorem modCal_guard (f : Cal → Cal) (b : Nat) : (s.modCal f).guard b = s.guard b := rfl
@[simp] theorem modCal_firedAt (f : Cal → Cal) (b : Nat) : (s.modCal f).firedAt b = s.firedAt b := rfl

/-! ### `modRej` -/

@[simp] theorem modRej_tick (f : Rej → Rej) : (s.modRej f).tick = s.tick := rfl
@[simp] theorem modRej_order (f : Rej → Rej) : (s.modRej f).order = s.order := rfl
@[simp] theorem modRej_regs (f : Rej → Rej) : (s.modRej f).regs = s.regs := rfl
@[simp] theorem modRej_guards (f : Rej → Rej) : (s.modRej f).guards = s.guards := rfl
@[simp] theorem modRej_fired (f : Rej → Rej) : (s.modRej f).fired = s.fired := rfl
@[simp] theorem modRej_flt (f : Rej → Rej) : (s.modRej f).flt = s.flt := rfl
@[simp] theorem modRej_boot (f : Rej → Rej) : (s.modRej f).boot = s.boot := rfl
@[simp] theorem modRej_pwr (f : Rej → Rej) : (s.modRej f).pwr = s.pwr := rfl
@[simp] theorem modRej_mem (f : Rej → Rej) : (s.modRej f).mem = s.mem := rfl
@[simp] theorem modRej_lnk (f : Rej → Rej) : (s.modRej f).lnk = s.lnk := rfl
@[simp] theorem modRej_ses (f : Rej → Rej) : (s.modRej f).ses = s.ses := rfl
@[simp] theorem modRej_tmr (f : Rej → Rej) : (s.modRej f).tmr = s.tmr := rfl
@[simp] theorem modRej_plc (f : Rej → Rej) : (s.modRej f).plc = s.plc := rfl
@[simp] theorem modRej_mot (f : Rej → Rej) : (s.modRej f).mot = s.mot := rfl
@[simp] theorem modRej_hst (f : Rej → Rej) : (s.modRej f).hst = s.hst := rfl
@[simp] theorem modRej_crates (f : Rej → Rej) : (s.modRej f).crates = s.crates := rfl
@[simp] theorem modRej_cmp (f : Rej → Rej) : (s.modRej f).cmp = s.cmp := rfl
@[simp] theorem modRej_cal (f : Rej → Rej) : (s.modRej f).cal = s.cal := rfl
@[simp] theorem modRej_hed (f : Rej → Rej) : (s.modRej f).hed = s.hed := rfl
@[simp] theorem modRej_hlt (f : Rej → Rej) : (s.modRej f).hlt = s.hlt := rfl
@[simp] theorem modRej_rej (f : Rej → Rej) : (s.modRej f).rej = f s.rej := rfl
@[simp] theorem modRej_hat (f : Rej → Rej) : (s.modRej f).hat = s.hat := rfl
@[simp] theorem modRej_free (f : Rej → Rej) : (s.modRej f).free = s.free := rfl
@[simp] theorem modRej_out (f : Rej → Rej) : (s.modRej f).out = s.out := rfl
@[simp] theorem modRej_pending (f : Rej → Rej) : (s.modRej f).pending = s.pending := rfl
@[simp] theorem modRej_reg (f : Rej → Rej) (b : Nat) : (s.modRej f).reg b = s.reg b := rfl
@[simp] theorem modRej_lane (f : Rej → Rej) (j : Lane) : (s.modRej f).lane j = s.lane j := rfl
@[simp] theorem modRej_head (f : Rej → Rej) (j : Head) : (s.modRej f).head j = s.head j := rfl
@[simp] theorem modRej_health (f : Rej → Rej) (j : Head) : (s.modRej f).health j = s.health j := rfl
@[simp] theorem modRej_axis (f : Rej → Rej) (j : Axis) : (s.modRej f).axis j = s.axis j := rfl
@[simp] theorem modRej_chan (f : Rej → Rej) (j : Chan) : (s.modRej f).chan j = s.chan j := rfl
@[simp] theorem modRej_timer (f : Rej → Rej) (j : TimerId) : (s.modRej f).timer j = s.timer j := rfl
@[simp] theorem modRej_sess (f : Rej → Rej) (j : Sess) : (s.modRej f).sess j = s.sess j := rfl
@[simp] theorem modRej_laneState (f : Rej → Rej) (j : Lane) : (s.modRej f).laneState j = s.laneState j := rfl
@[simp] theorem modRej_guard (f : Rej → Rej) (b : Nat) : (s.modRej f).guard b = s.guard b := rfl
@[simp] theorem modRej_firedAt (f : Rej → Rej) (b : Nat) : (s.modRej f).firedAt b = s.firedAt b := rfl

/-! ### `modHat` -/

@[simp] theorem modHat_tick (f : Hat → Hat) : (s.modHat f).tick = s.tick := rfl
@[simp] theorem modHat_order (f : Hat → Hat) : (s.modHat f).order = s.order := rfl
@[simp] theorem modHat_regs (f : Hat → Hat) : (s.modHat f).regs = s.regs := rfl
@[simp] theorem modHat_guards (f : Hat → Hat) : (s.modHat f).guards = s.guards := rfl
@[simp] theorem modHat_fired (f : Hat → Hat) : (s.modHat f).fired = s.fired := rfl
@[simp] theorem modHat_flt (f : Hat → Hat) : (s.modHat f).flt = s.flt := rfl
@[simp] theorem modHat_boot (f : Hat → Hat) : (s.modHat f).boot = s.boot := rfl
@[simp] theorem modHat_pwr (f : Hat → Hat) : (s.modHat f).pwr = s.pwr := rfl
@[simp] theorem modHat_mem (f : Hat → Hat) : (s.modHat f).mem = s.mem := rfl
@[simp] theorem modHat_lnk (f : Hat → Hat) : (s.modHat f).lnk = s.lnk := rfl
@[simp] theorem modHat_ses (f : Hat → Hat) : (s.modHat f).ses = s.ses := rfl
@[simp] theorem modHat_tmr (f : Hat → Hat) : (s.modHat f).tmr = s.tmr := rfl
@[simp] theorem modHat_plc (f : Hat → Hat) : (s.modHat f).plc = s.plc := rfl
@[simp] theorem modHat_mot (f : Hat → Hat) : (s.modHat f).mot = s.mot := rfl
@[simp] theorem modHat_hst (f : Hat → Hat) : (s.modHat f).hst = s.hst := rfl
@[simp] theorem modHat_crates (f : Hat → Hat) : (s.modHat f).crates = s.crates := rfl
@[simp] theorem modHat_cmp (f : Hat → Hat) : (s.modHat f).cmp = s.cmp := rfl
@[simp] theorem modHat_cal (f : Hat → Hat) : (s.modHat f).cal = s.cal := rfl
@[simp] theorem modHat_hed (f : Hat → Hat) : (s.modHat f).hed = s.hed := rfl
@[simp] theorem modHat_hlt (f : Hat → Hat) : (s.modHat f).hlt = s.hlt := rfl
@[simp] theorem modHat_rej (f : Hat → Hat) : (s.modHat f).rej = s.rej := rfl
@[simp] theorem modHat_hat (f : Hat → Hat) : (s.modHat f).hat = f s.hat := rfl
@[simp] theorem modHat_free (f : Hat → Hat) : (s.modHat f).free = s.free := rfl
@[simp] theorem modHat_out (f : Hat → Hat) : (s.modHat f).out = s.out := rfl
@[simp] theorem modHat_pending (f : Hat → Hat) : (s.modHat f).pending = s.pending := rfl
@[simp] theorem modHat_reg (f : Hat → Hat) (b : Nat) : (s.modHat f).reg b = s.reg b := rfl
@[simp] theorem modHat_lane (f : Hat → Hat) (j : Lane) : (s.modHat f).lane j = s.lane j := rfl
@[simp] theorem modHat_head (f : Hat → Hat) (j : Head) : (s.modHat f).head j = s.head j := rfl
@[simp] theorem modHat_health (f : Hat → Hat) (j : Head) : (s.modHat f).health j = s.health j := rfl
@[simp] theorem modHat_axis (f : Hat → Hat) (j : Axis) : (s.modHat f).axis j = s.axis j := rfl
@[simp] theorem modHat_chan (f : Hat → Hat) (j : Chan) : (s.modHat f).chan j = s.chan j := rfl
@[simp] theorem modHat_timer (f : Hat → Hat) (j : TimerId) : (s.modHat f).timer j = s.timer j := rfl
@[simp] theorem modHat_sess (f : Hat → Hat) (j : Sess) : (s.modHat f).sess j = s.sess j := rfl
@[simp] theorem modHat_rejLane (f : Hat → Hat) (j : Lane) : (s.modHat f).rejLane j = s.rejLane j := rfl
@[simp] theorem modHat_guard (f : Hat → Hat) (b : Nat) : (s.modHat f).guard b = s.guard b := rfl
@[simp] theorem modHat_firedAt (f : Hat → Hat) (b : Nat) : (s.modHat f).firedAt b = s.firedAt b := rfl

/-! ### `modHst` -/

@[simp] theorem modHst_tick (f : Hst → Hst) : (s.modHst f).tick = s.tick := rfl
@[simp] theorem modHst_order (f : Hst → Hst) : (s.modHst f).order = s.order := rfl
@[simp] theorem modHst_regs (f : Hst → Hst) : (s.modHst f).regs = s.regs := rfl
@[simp] theorem modHst_guards (f : Hst → Hst) : (s.modHst f).guards = s.guards := rfl
@[simp] theorem modHst_fired (f : Hst → Hst) : (s.modHst f).fired = s.fired := rfl
@[simp] theorem modHst_flt (f : Hst → Hst) : (s.modHst f).flt = s.flt := rfl
@[simp] theorem modHst_boot (f : Hst → Hst) : (s.modHst f).boot = s.boot := rfl
@[simp] theorem modHst_pwr (f : Hst → Hst) : (s.modHst f).pwr = s.pwr := rfl
@[simp] theorem modHst_mem (f : Hst → Hst) : (s.modHst f).mem = s.mem := rfl
@[simp] theorem modHst_lnk (f : Hst → Hst) : (s.modHst f).lnk = s.lnk := rfl
@[simp] theorem modHst_ses (f : Hst → Hst) : (s.modHst f).ses = s.ses := rfl
@[simp] theorem modHst_tmr (f : Hst → Hst) : (s.modHst f).tmr = s.tmr := rfl
@[simp] theorem modHst_plc (f : Hst → Hst) : (s.modHst f).plc = s.plc := rfl
@[simp] theorem modHst_mot (f : Hst → Hst) : (s.modHst f).mot = s.mot := rfl
@[simp] theorem modHst_hst (f : Hst → Hst) : (s.modHst f).hst = f s.hst := rfl
@[simp] theorem modHst_crates (f : Hst → Hst) : (s.modHst f).crates = s.crates := rfl
@[simp] theorem modHst_cmp (f : Hst → Hst) : (s.modHst f).cmp = s.cmp := rfl
@[simp] theorem modHst_cal (f : Hst → Hst) : (s.modHst f).cal = s.cal := rfl
@[simp] theorem modHst_hed (f : Hst → Hst) : (s.modHst f).hed = s.hed := rfl
@[simp] theorem modHst_hlt (f : Hst → Hst) : (s.modHst f).hlt = s.hlt := rfl
@[simp] theorem modHst_rej (f : Hst → Hst) : (s.modHst f).rej = s.rej := rfl
@[simp] theorem modHst_hat (f : Hst → Hst) : (s.modHst f).hat = s.hat := rfl
@[simp] theorem modHst_free (f : Hst → Hst) : (s.modHst f).free = s.free := rfl
@[simp] theorem modHst_out (f : Hst → Hst) : (s.modHst f).out = s.out := rfl
@[simp] theorem modHst_pending (f : Hst → Hst) : (s.modHst f).pending = s.pending := rfl
@[simp] theorem modHst_reg (f : Hst → Hst) (b : Nat) : (s.modHst f).reg b = s.reg b := rfl
@[simp] theorem modHst_lane (f : Hst → Hst) (j : Lane) : (s.modHst f).lane j = s.lane j := rfl
@[simp] theorem modHst_head (f : Hst → Hst) (j : Head) : (s.modHst f).head j = s.head j := rfl
@[simp] theorem modHst_health (f : Hst → Hst) (j : Head) : (s.modHst f).health j = s.health j := rfl
@[simp] theorem modHst_axis (f : Hst → Hst) (j : Axis) : (s.modHst f).axis j = s.axis j := rfl
@[simp] theorem modHst_timer (f : Hst → Hst) (j : TimerId) : (s.modHst f).timer j = s.timer j := rfl
@[simp] theorem modHst_sess (f : Hst → Hst) (j : Sess) : (s.modHst f).sess j = s.sess j := rfl
@[simp] theorem modHst_rejLane (f : Hst → Hst) (j : Lane) : (s.modHst f).rejLane j = s.rejLane j := rfl
@[simp] theorem modHst_laneState (f : Hst → Hst) (j : Lane) : (s.modHst f).laneState j = s.laneState j := rfl
@[simp] theorem modHst_guard (f : Hst → Hst) (b : Nat) : (s.modHst f).guard b = s.guard b := rfl
@[simp] theorem modHst_firedAt (f : Hst → Hst) (b : Nat) : (s.modHst f).firedAt b = s.firedAt b := rfl

/-! ### `modPlc` -/

@[simp] theorem modPlc_tick (f : Plc → Plc) : (s.modPlc f).tick = s.tick := rfl
@[simp] theorem modPlc_order (f : Plc → Plc) : (s.modPlc f).order = s.order := rfl
@[simp] theorem modPlc_regs (f : Plc → Plc) : (s.modPlc f).regs = s.regs := rfl
@[simp] theorem modPlc_guards (f : Plc → Plc) : (s.modPlc f).guards = s.guards := rfl
@[simp] theorem modPlc_fired (f : Plc → Plc) : (s.modPlc f).fired = s.fired := rfl
@[simp] theorem modPlc_flt (f : Plc → Plc) : (s.modPlc f).flt = s.flt := rfl
@[simp] theorem modPlc_boot (f : Plc → Plc) : (s.modPlc f).boot = s.boot := rfl
@[simp] theorem modPlc_pwr (f : Plc → Plc) : (s.modPlc f).pwr = s.pwr := rfl
@[simp] theorem modPlc_mem (f : Plc → Plc) : (s.modPlc f).mem = s.mem := rfl
@[simp] theorem modPlc_lnk (f : Plc → Plc) : (s.modPlc f).lnk = s.lnk := rfl
@[simp] theorem modPlc_ses (f : Plc → Plc) : (s.modPlc f).ses = s.ses := rfl
@[simp] theorem modPlc_tmr (f : Plc → Plc) : (s.modPlc f).tmr = s.tmr := rfl
@[simp] theorem modPlc_plc (f : Plc → Plc) : (s.modPlc f).plc = f s.plc := rfl
@[simp] theorem modPlc_mot (f : Plc → Plc) : (s.modPlc f).mot = s.mot := rfl
@[simp] theorem modPlc_hst (f : Plc → Plc) : (s.modPlc f).hst = s.hst := rfl
@[simp] theorem modPlc_crates (f : Plc → Plc) : (s.modPlc f).crates = s.crates := rfl
@[simp] theorem modPlc_cmp (f : Plc → Plc) : (s.modPlc f).cmp = s.cmp := rfl
@[simp] theorem modPlc_cal (f : Plc → Plc) : (s.modPlc f).cal = s.cal := rfl
@[simp] theorem modPlc_hed (f : Plc → Plc) : (s.modPlc f).hed = s.hed := rfl
@[simp] theorem modPlc_hlt (f : Plc → Plc) : (s.modPlc f).hlt = s.hlt := rfl
@[simp] theorem modPlc_rej (f : Plc → Plc) : (s.modPlc f).rej = s.rej := rfl
@[simp] theorem modPlc_hat (f : Plc → Plc) : (s.modPlc f).hat = s.hat := rfl
@[simp] theorem modPlc_free (f : Plc → Plc) : (s.modPlc f).free = s.free := rfl
@[simp] theorem modPlc_out (f : Plc → Plc) : (s.modPlc f).out = s.out := rfl
@[simp] theorem modPlc_pending (f : Plc → Plc) : (s.modPlc f).pending = s.pending := rfl
@[simp] theorem modPlc_reg (f : Plc → Plc) (b : Nat) : (s.modPlc f).reg b = s.reg b := rfl
@[simp] theorem modPlc_head (f : Plc → Plc) (j : Head) : (s.modPlc f).head j = s.head j := rfl
@[simp] theorem modPlc_health (f : Plc → Plc) (j : Head) : (s.modPlc f).health j = s.health j := rfl
@[simp] theorem modPlc_axis (f : Plc → Plc) (j : Axis) : (s.modPlc f).axis j = s.axis j := rfl
@[simp] theorem modPlc_chan (f : Plc → Plc) (j : Chan) : (s.modPlc f).chan j = s.chan j := rfl
@[simp] theorem modPlc_timer (f : Plc → Plc) (j : TimerId) : (s.modPlc f).timer j = s.timer j := rfl
@[simp] theorem modPlc_sess (f : Plc → Plc) (j : Sess) : (s.modPlc f).sess j = s.sess j := rfl
@[simp] theorem modPlc_rejLane (f : Plc → Plc) (j : Lane) : (s.modPlc f).rejLane j = s.rejLane j := rfl
@[simp] theorem modPlc_laneState (f : Plc → Plc) (j : Lane) : (s.modPlc f).laneState j = s.laneState j := rfl
@[simp] theorem modPlc_guard (f : Plc → Plc) (b : Nat) : (s.modPlc f).guard b = s.guard b := rfl
@[simp] theorem modPlc_firedAt (f : Plc → Plc) (b : Nat) : (s.modPlc f).firedAt b = s.firedAt b := rfl

/-! ### `modTmr` -/

@[simp] theorem modTmr_tick (f : Tmr → Tmr) : (s.modTmr f).tick = s.tick := rfl
@[simp] theorem modTmr_order (f : Tmr → Tmr) : (s.modTmr f).order = s.order := rfl
@[simp] theorem modTmr_regs (f : Tmr → Tmr) : (s.modTmr f).regs = s.regs := rfl
@[simp] theorem modTmr_guards (f : Tmr → Tmr) : (s.modTmr f).guards = s.guards := rfl
@[simp] theorem modTmr_fired (f : Tmr → Tmr) : (s.modTmr f).fired = s.fired := rfl
@[simp] theorem modTmr_flt (f : Tmr → Tmr) : (s.modTmr f).flt = s.flt := rfl
@[simp] theorem modTmr_boot (f : Tmr → Tmr) : (s.modTmr f).boot = s.boot := rfl
@[simp] theorem modTmr_pwr (f : Tmr → Tmr) : (s.modTmr f).pwr = s.pwr := rfl
@[simp] theorem modTmr_mem (f : Tmr → Tmr) : (s.modTmr f).mem = s.mem := rfl
@[simp] theorem modTmr_lnk (f : Tmr → Tmr) : (s.modTmr f).lnk = s.lnk := rfl
@[simp] theorem modTmr_ses (f : Tmr → Tmr) : (s.modTmr f).ses = s.ses := rfl
@[simp] theorem modTmr_tmr (f : Tmr → Tmr) : (s.modTmr f).tmr = f s.tmr := rfl
@[simp] theorem modTmr_plc (f : Tmr → Tmr) : (s.modTmr f).plc = s.plc := rfl
@[simp] theorem modTmr_mot (f : Tmr → Tmr) : (s.modTmr f).mot = s.mot := rfl
@[simp] theorem modTmr_hst (f : Tmr → Tmr) : (s.modTmr f).hst = s.hst := rfl
@[simp] theorem modTmr_crates (f : Tmr → Tmr) : (s.modTmr f).crates = s.crates := rfl
@[simp] theorem modTmr_cmp (f : Tmr → Tmr) : (s.modTmr f).cmp = s.cmp := rfl
@[simp] theorem modTmr_cal (f : Tmr → Tmr) : (s.modTmr f).cal = s.cal := rfl
@[simp] theorem modTmr_hed (f : Tmr → Tmr) : (s.modTmr f).hed = s.hed := rfl
@[simp] theorem modTmr_hlt (f : Tmr → Tmr) : (s.modTmr f).hlt = s.hlt := rfl
@[simp] theorem modTmr_rej (f : Tmr → Tmr) : (s.modTmr f).rej = s.rej := rfl
@[simp] theorem modTmr_hat (f : Tmr → Tmr) : (s.modTmr f).hat = s.hat := rfl
@[simp] theorem modTmr_free (f : Tmr → Tmr) : (s.modTmr f).free = s.free := rfl
@[simp] theorem modTmr_out (f : Tmr → Tmr) : (s.modTmr f).out = s.out := rfl
@[simp] theorem modTmr_pending (f : Tmr → Tmr) : (s.modTmr f).pending = s.pending := rfl
@[simp] theorem modTmr_reg (f : Tmr → Tmr) (b : Nat) : (s.modTmr f).reg b = s.reg b := rfl
@[simp] theorem modTmr_lane (f : Tmr → Tmr) (j : Lane) : (s.modTmr f).lane j = s.lane j := rfl
@[simp] theorem modTmr_head (f : Tmr → Tmr) (j : Head) : (s.modTmr f).head j = s.head j := rfl
@[simp] theorem modTmr_health (f : Tmr → Tmr) (j : Head) : (s.modTmr f).health j = s.health j := rfl
@[simp] theorem modTmr_axis (f : Tmr → Tmr) (j : Axis) : (s.modTmr f).axis j = s.axis j := rfl
@[simp] theorem modTmr_chan (f : Tmr → Tmr) (j : Chan) : (s.modTmr f).chan j = s.chan j := rfl
@[simp] theorem modTmr_sess (f : Tmr → Tmr) (j : Sess) : (s.modTmr f).sess j = s.sess j := rfl
@[simp] theorem modTmr_rejLane (f : Tmr → Tmr) (j : Lane) : (s.modTmr f).rejLane j = s.rejLane j := rfl
@[simp] theorem modTmr_laneState (f : Tmr → Tmr) (j : Lane) : (s.modTmr f).laneState j = s.laneState j := rfl
@[simp] theorem modTmr_guard (f : Tmr → Tmr) (b : Nat) : (s.modTmr f).guard b = s.guard b := rfl
@[simp] theorem modTmr_firedAt (f : Tmr → Tmr) (b : Nat) : (s.modTmr f).firedAt b = s.firedAt b := rfl

/-! ### `modSes` -/

@[simp] theorem modSes_tick (f : Ses → Ses) : (s.modSes f).tick = s.tick := rfl
@[simp] theorem modSes_order (f : Ses → Ses) : (s.modSes f).order = s.order := rfl
@[simp] theorem modSes_regs (f : Ses → Ses) : (s.modSes f).regs = s.regs := rfl
@[simp] theorem modSes_guards (f : Ses → Ses) : (s.modSes f).guards = s.guards := rfl
@[simp] theorem modSes_fired (f : Ses → Ses) : (s.modSes f).fired = s.fired := rfl
@[simp] theorem modSes_flt (f : Ses → Ses) : (s.modSes f).flt = s.flt := rfl
@[simp] theorem modSes_boot (f : Ses → Ses) : (s.modSes f).boot = s.boot := rfl
@[simp] theorem modSes_pwr (f : Ses → Ses) : (s.modSes f).pwr = s.pwr := rfl
@[simp] theorem modSes_mem (f : Ses → Ses) : (s.modSes f).mem = s.mem := rfl
@[simp] theorem modSes_lnk (f : Ses → Ses) : (s.modSes f).lnk = s.lnk := rfl
@[simp] theorem modSes_ses (f : Ses → Ses) : (s.modSes f).ses = f s.ses := rfl
@[simp] theorem modSes_tmr (f : Ses → Ses) : (s.modSes f).tmr = s.tmr := rfl
@[simp] theorem modSes_plc (f : Ses → Ses) : (s.modSes f).plc = s.plc := rfl
@[simp] theorem modSes_mot (f : Ses → Ses) : (s.modSes f).mot = s.mot := rfl
@[simp] theorem modSes_hst (f : Ses → Ses) : (s.modSes f).hst = s.hst := rfl
@[simp] theorem modSes_crates (f : Ses → Ses) : (s.modSes f).crates = s.crates := rfl
@[simp] theorem modSes_cmp (f : Ses → Ses) : (s.modSes f).cmp = s.cmp := rfl
@[simp] theorem modSes_cal (f : Ses → Ses) : (s.modSes f).cal = s.cal := rfl
@[simp] theorem modSes_hed (f : Ses → Ses) : (s.modSes f).hed = s.hed := rfl
@[simp] theorem modSes_hlt (f : Ses → Ses) : (s.modSes f).hlt = s.hlt := rfl
@[simp] theorem modSes_rej (f : Ses → Ses) : (s.modSes f).rej = s.rej := rfl
@[simp] theorem modSes_hat (f : Ses → Ses) : (s.modSes f).hat = s.hat := rfl
@[simp] theorem modSes_free (f : Ses → Ses) : (s.modSes f).free = s.free := rfl
@[simp] theorem modSes_out (f : Ses → Ses) : (s.modSes f).out = s.out := rfl
@[simp] theorem modSes_pending (f : Ses → Ses) : (s.modSes f).pending = s.pending := rfl
@[simp] theorem modSes_reg (f : Ses → Ses) (b : Nat) : (s.modSes f).reg b = s.reg b := rfl
@[simp] theorem modSes_lane (f : Ses → Ses) (j : Lane) : (s.modSes f).lane j = s.lane j := rfl
@[simp] theorem modSes_head (f : Ses → Ses) (j : Head) : (s.modSes f).head j = s.head j := rfl
@[simp] theorem modSes_health (f : Ses → Ses) (j : Head) : (s.modSes f).health j = s.health j := rfl
@[simp] theorem modSes_axis (f : Ses → Ses) (j : Axis) : (s.modSes f).axis j = s.axis j := rfl
@[simp] theorem modSes_chan (f : Ses → Ses) (j : Chan) : (s.modSes f).chan j = s.chan j := rfl
@[simp] theorem modSes_timer (f : Ses → Ses) (j : TimerId) : (s.modSes f).timer j = s.timer j := rfl
@[simp] theorem modSes_sess (f : Ses → Ses) (j : Sess) : (s.modSes f).sess j = s.sess j := rfl
@[simp] theorem modSes_rejLane (f : Ses → Ses) (j : Lane) : (s.modSes f).rejLane j = s.rejLane j := rfl
@[simp] theorem modSes_laneState (f : Ses → Ses) (j : Lane) : (s.modSes f).laneState j = s.laneState j := rfl
@[simp] theorem modSes_guard (f : Ses → Ses) (b : Nat) : (s.modSes f).guard b = s.guard b := rfl
@[simp] theorem modSes_firedAt (f : Ses → Ses) (b : Nat) : (s.modSes f).firedAt b = s.firedAt b := rfl

/-! ### `modLnk` -/

@[simp] theorem modLnk_tick (f : Link → Link) : (s.modLnk f).tick = s.tick := rfl
@[simp] theorem modLnk_order (f : Link → Link) : (s.modLnk f).order = s.order := rfl
@[simp] theorem modLnk_regs (f : Link → Link) : (s.modLnk f).regs = s.regs := rfl
@[simp] theorem modLnk_guards (f : Link → Link) : (s.modLnk f).guards = s.guards := rfl
@[simp] theorem modLnk_fired (f : Link → Link) : (s.modLnk f).fired = s.fired := rfl
@[simp] theorem modLnk_flt (f : Link → Link) : (s.modLnk f).flt = s.flt := rfl
@[simp] theorem modLnk_boot (f : Link → Link) : (s.modLnk f).boot = s.boot := rfl
@[simp] theorem modLnk_pwr (f : Link → Link) : (s.modLnk f).pwr = s.pwr := rfl
@[simp] theorem modLnk_mem (f : Link → Link) : (s.modLnk f).mem = s.mem := rfl
@[simp] theorem modLnk_lnk (f : Link → Link) : (s.modLnk f).lnk = f s.lnk := rfl
@[simp] theorem modLnk_ses (f : Link → Link) : (s.modLnk f).ses = s.ses := rfl
@[simp] theorem modLnk_tmr (f : Link → Link) : (s.modLnk f).tmr = s.tmr := rfl
@[simp] theorem modLnk_plc (f : Link → Link) : (s.modLnk f).plc = s.plc := rfl
@[simp] theorem modLnk_mot (f : Link → Link) : (s.modLnk f).mot = s.mot := rfl
@[simp] theorem modLnk_hst (f : Link → Link) : (s.modLnk f).hst = s.hst := rfl
@[simp] theorem modLnk_crates (f : Link → Link) : (s.modLnk f).crates = s.crates := rfl
@[simp] theorem modLnk_cmp (f : Link → Link) : (s.modLnk f).cmp = s.cmp := rfl
@[simp] theorem modLnk_cal (f : Link → Link) : (s.modLnk f).cal = s.cal := rfl
@[simp] theorem modLnk_hed (f : Link → Link) : (s.modLnk f).hed = s.hed := rfl
@[simp] theorem modLnk_hlt (f : Link → Link) : (s.modLnk f).hlt = s.hlt := rfl
@[simp] theorem modLnk_rej (f : Link → Link) : (s.modLnk f).rej = s.rej := rfl
@[simp] theorem modLnk_hat (f : Link → Link) : (s.modLnk f).hat = s.hat := rfl
@[simp] theorem modLnk_free (f : Link → Link) : (s.modLnk f).free = s.free := rfl
@[simp] theorem modLnk_out (f : Link → Link) : (s.modLnk f).out = s.out := rfl
@[simp] theorem modLnk_pending (f : Link → Link) : (s.modLnk f).pending = s.pending := rfl
@[simp] theorem modLnk_reg (f : Link → Link) (b : Nat) : (s.modLnk f).reg b = s.reg b := rfl
@[simp] theorem modLnk_lane (f : Link → Link) (j : Lane) : (s.modLnk f).lane j = s.lane j := rfl
@[simp] theorem modLnk_head (f : Link → Link) (j : Head) : (s.modLnk f).head j = s.head j := rfl
@[simp] theorem modLnk_health (f : Link → Link) (j : Head) : (s.modLnk f).health j = s.health j := rfl
@[simp] theorem modLnk_axis (f : Link → Link) (j : Axis) : (s.modLnk f).axis j = s.axis j := rfl
@[simp] theorem modLnk_chan (f : Link → Link) (j : Chan) : (s.modLnk f).chan j = s.chan j := rfl
@[simp] theorem modLnk_timer (f : Link → Link) (j : TimerId) : (s.modLnk f).timer j = s.timer j := rfl
@[simp] theorem modLnk_rejLane (f : Link → Link) (j : Lane) : (s.modLnk f).rejLane j = s.rejLane j := rfl
@[simp] theorem modLnk_laneState (f : Link → Link) (j : Lane) : (s.modLnk f).laneState j = s.laneState j := rfl
@[simp] theorem modLnk_guard (f : Link → Link) (b : Nat) : (s.modLnk f).guard b = s.guard b := rfl
@[simp] theorem modLnk_firedAt (f : Link → Link) (b : Nat) : (s.modLnk f).firedAt b = s.firedAt b := rfl

/-! ### What an update of a numbered part reads as -/

@[simp] theorem setLane_lane_same (n : Lane) (x : LaneSt) : (s.setLane n x).lane n = x := Vector.getElem_set_self ..
theorem setLane_lane_other (n j : Lane) (x : LaneSt) (h : n ≠ j) : (s.setLane n x).lane j = s.lane j :=
  Vector.getElem_set_ne n.isLt j.isLt (fun e => h (Fin.ext e))
theorem setLane_lane (n j : Lane) (x : LaneSt) : (s.setLane n x).lane j = if n = j then x else s.lane j := by
  split
  · subst j; exact setLane_lane_same s n x
  · exact setLane_lane_other s n j x ‹_›
@[simp] theorem modLane_lane_same (n : Lane) (f : LaneSt → LaneSt) : (s.modLane n f).lane n = f (s.lane n) := setLane_lane_same s n _
theorem modLane_lane_other (n j : Lane) (f : LaneSt → LaneSt) (h : n ≠ j) : (s.modLane n f).lane j = s.lane j := setLane_lane_other s n j _ h
theorem modLane_lane (n j : Lane) (f : LaneSt → LaneSt) : (s.modLane n f).lane j = if n = j then f (s.lane n) else s.lane j := setLane_lane s n j _

@[simp] theorem setHead_head_same (n : Head) (x : HedSt) : (s.setHead n x).head n = x := Vector.getElem_set_self ..
theorem setHead_head_other (n j : Head) (x : HedSt) (h : n ≠ j) : (s.setHead n x).head j = s.head j :=
  Vector.getElem_set_ne n.isLt j.isLt (fun e => h (Fin.ext e))
theorem setHead_head (n j : Head) (x : HedSt) : (s.setHead n x).head j = if n = j then x else s.head j := by
  split
  · subst j; exact setHead_head_same s n x
  · exact setHead_head_other s n j x ‹_›
@[simp] theorem modHead_head_same (n : Head) (f : HedSt → HedSt) : (s.modHead n f).head n = f (s.head n) := setHead_head_same s n _
theorem modHead_head_other (n j : Head) (f : HedSt → HedSt) (h : n ≠ j) : (s.modHead n f).head j = s.head j := setHead_head_other s n j _ h
theorem modHead_head (n j : Head) (f : HedSt → HedSt) : (s.modHead n f).head j = if n = j then f (s.head n) else s.head j := setHead_head s n j _

@[simp] theorem setHealth_health_same (n : Head) (x : HltSt) : (s.setHealth n x).health n = x := Vector.getElem_set_self ..
theorem setHealth_health_other (n j : Head) (x : HltSt) (h : n ≠ j) : (s.setHealth n x).health j = s.health j :=
  Vector.getElem_set_ne n.isLt j.isLt (fun e => h (Fin.ext e))
theorem setHealth_health (n j : Head) (x : HltSt) : (s.setHealth n x).health j = if n = j then x else s.health j := by
  split
  · subst j; exact setHealth_health_same s n x
  · exact setHealth_health_other s n j x ‹_›
@[simp] theorem modHealth_health_same (n : Head) (f : HltSt → HltSt) : (s.modHealth n f).health n = f (s.health n) := setHealth_health_same s n _
theorem modHealth_health_other (n j : Head) (f : HltSt → HltSt) (h : n ≠ j) : (s.modHealth n f).health j = s.health j := setHealth_health_other s n j _ h
theorem modHealth_health (n j : Head) (f : HltSt → HltSt) : (s.modHealth n f).health j = if n = j then f (s.health n) else s.health j := setHealth_health s n j _

@[simp] theorem setAxis_axis_same (n : Axis) (x : AxisSt) : (s.setAxis n x).axis n = x := Vector.getElem_set_self ..
theorem setAxis_axis_other (n j : Axis) (x : AxisSt) (h : n ≠ j) : (s.setAxis n x).axis j = s.axis j :=
  Vector.getElem_set_ne n.isLt j.isLt (fun e => h (Fin.ext e))
theorem setAxis_axis (n j : Axis) (x : AxisSt) : (s.setAxis n x).axis j = if n = j then x else s.axis j := by
  split
  · subst j; exact setAxis_axis_same s n x
  · exact setAxis_axis_other s n j x ‹_›
@[simp] theorem modAxis_axis_same (n : Axis) (f : AxisSt → AxisSt) : (s.modAxis n f).axis n = f (s.axis n) := setAxis_axis_same s n _
theorem modAxis_axis_other (n j : Axis) (f : AxisSt → AxisSt) (h : n ≠ j) : (s.modAxis n f).axis j = s.axis j := setAxis_axis_other s n j _ h
theorem modAxis_axis (n j : Axis) (f : AxisSt → AxisSt) : (s.modAxis n f).axis j = if n = j then f (s.axis n) else s.axis j := setAxis_axis s n j _

@[simp] theorem setChan_chan_same (n : Chan) (x : ChanSt) : (s.setChan n x).chan n = x := Vector.getElem_set_self ..
theorem setChan_chan_other (n j : Chan) (x : ChanSt) (h : n ≠ j) : (s.setChan n x).chan j = s.chan j :=
  Vector.getElem_set_ne n.isLt j.isLt (fun e => h (Fin.ext e))
theorem setChan_chan (n j : Chan) (x : ChanSt) : (s.setChan n x).chan j = if n = j then x else s.chan j := by
  split
  · subst j; exact setChan_chan_same s n x
  · exact setChan_chan_other s n j x ‹_›
@[simp] theorem modChan_chan_same (n : Chan) (f : ChanSt → ChanSt) : (s.modChan n f).chan n = f (s.chan n) := setChan_chan_same s n _
theorem modChan_chan_other (n j : Chan) (f : ChanSt → ChanSt) (h : n ≠ j) : (s.modChan n f).chan j = s.chan j := setChan_chan_other s n j _ h
theorem modChan_chan (n j : Chan) (f : ChanSt → ChanSt) : (s.modChan n f).chan j = if n = j then f (s.chan n) else s.chan j := setChan_chan s n j _

@[simp] theorem setTimer_timer_same (n : TimerId) (x : Timer) : (s.setTimer n x).timer n = x := Vector.getElem_set_self ..
theorem setTimer_timer_other (n j : TimerId) (x : Timer) (h : n ≠ j) : (s.setTimer n x).timer j = s.timer j :=
  Vector.getElem_set_ne n.isLt j.isLt (fun e => h (Fin.ext e))
theorem setTimer_timer (n j : TimerId) (x : Timer) : (s.setTimer n x).timer j = if n = j then x else s.timer j := by
  split
  · subst j; exact setTimer_timer_same s n x
  · exact setTimer_timer_other s n j x ‹_›
@[simp] theorem modTimer_timer_same (n : TimerId) (f : Timer → Timer) : (s.modTimer n f).timer n = f (s.timer n) := setTimer_timer_same s n _
theorem modTimer_timer_other (n j : TimerId) (f : Timer → Timer) (h : n ≠ j) : (s.modTimer n f).timer j = s.timer j := setTimer_timer_other s n j _ h
theorem modTimer_timer (n j : TimerId) (f : Timer → Timer) : (s.modTimer n f).timer j = if n = j then f (s.timer n) else s.timer j := setTimer_timer s n j _

@[simp] theorem setSess_sess_same (n : Sess) (x : Session) : (s.setSess n x).sess n = x := Vector.getElem_set_self ..
theorem setSess_sess_other (n j : Sess) (x : Session) (h : n ≠ j) : (s.setSess n x).sess j = s.sess j :=
  Vector.getElem_set_ne n.isLt j.isLt (fun e => h (Fin.ext e))
theorem setSess_sess (n j : Sess) (x : Session) : (s.setSess n x).sess j = if n = j then x else s.sess j := by
  split
  · subst j; exact setSess_sess_same s n x
  · exact setSess_sess_other s n j x ‹_›
@[simp] theorem modSess_sess_same (n : Sess) (f : Session → Session) : (s.modSess n f).sess n = f (s.sess n) := setSess_sess_same s n _
theorem modSess_sess_other (n j : Sess) (f : Session → Session) (h : n ≠ j) : (s.modSess n f).sess j = s.sess j := setSess_sess_other s n j _ h
theorem modSess_sess (n j : Sess) (f : Session → Session) : (s.modSess n f).sess j = if n = j then f (s.sess n) else s.sess j := setSess_sess s n j _

@[simp] theorem setRejLane_rejLane_same (n : Lane) (x : RejLane) : (s.setRejLane n x).rejLane n = x := Vector.getElem_set_self ..
theorem setRejLane_rejLane_other (n j : Lane) (x : RejLane) (h : n ≠ j) : (s.setRejLane n x).rejLane j = s.rejLane j :=
  Vector.getElem_set_ne n.isLt j.isLt (fun e => h (Fin.ext e))
theorem setRejLane_rejLane (n j : Lane) (x : RejLane) : (s.setRejLane n x).rejLane j = if n = j then x else s.rejLane j := by
  split
  · subst j; exact setRejLane_rejLane_same s n x
  · exact setRejLane_rejLane_other s n j x ‹_›
@[simp] theorem modRejLane_rejLane_same (n : Lane) (f : RejLane → RejLane) : (s.modRejLane n f).rejLane n = f (s.rejLane n) := setRejLane_rejLane_same s n _
theorem modRejLane_rejLane_other (n j : Lane) (f : RejLane → RejLane) (h : n ≠ j) : (s.modRejLane n f).rejLane j = s.rejLane j := setRejLane_rejLane_other s n j _ h
theorem modRejLane_rejLane (n j : Lane) (f : RejLane → RejLane) : (s.modRejLane n f).rejLane j = if n = j then f (s.rejLane n) else s.rejLane j := setRejLane_rejLane s n j _

@[simp] theorem setLaneState_laneState_same (n : Lane) (x : LaneState) : (s.setLaneState n x).laneState n = x := Vector.getElem_set_self ..
theorem setLaneState_laneState_other (n j : Lane) (x : LaneState) (h : n ≠ j) : (s.setLaneState n x).laneState j = s.laneState j :=
  Vector.getElem_set_ne n.isLt j.isLt (fun e => h (Fin.ext e))
theorem setLaneState_laneState (n j : Lane) (x : LaneState) : (s.setLaneState n x).laneState j = if n = j then x else s.laneState j := by
  split
  · subst j; exact setLaneState_laneState_same s n x
  · exact setLaneState_laneState_other s n j x ‹_›

/-! ### Registers -/

@[simp] theorem setReg_reg_same (a : Nat) (v : Word) : (s.setReg a v).reg a = v := Tab.get_set_same ..

theorem setReg_reg_other (a b : Nat) (v : Word) (h : a ≠ b) : (s.setReg a v).reg b = s.reg b := Tab.get_set_other _ _ _ (Ne.symm h)

theorem setReg_reg (a b : Nat) (v : Word) : (s.setReg a v).reg b = if a = b then v else s.reg b := by
  split
  · subst b; exact setReg_reg_same s a v
  · exact setReg_reg_other s a b v ‹_›

@[simp] theorem setFld_reg_same (a hi lo v : Nat) : (s.setFld a hi lo v).reg a = putBits (s.reg a) hi lo v := setReg_reg_same ..

theorem setFld_reg_other (a b hi lo v : Nat) (h : a ≠ b) : (s.setFld a hi lo v).reg b = s.reg b := setReg_reg_other _ _ _ _ h

theorem setFlags_reg_other (a b : Nat) (m : Word) (h : a ≠ b) : (s.setFlags a m).reg b = s.reg b := setReg_reg_other _ _ _ _ h

theorem setFlag_reg_other (a n b : Nat) (h : a ≠ b) : (s.setFlag a n).reg b = s.reg b := setReg_reg_other _ _ _ _ h

/-- A hardware set of flags: the flags of the mask are set and the generation advances (R13, R57). -/
@[simp] theorem setFlags_reg_same (a : Nat) (m : Word) :
    (s.setFlags a m).reg a = putBits (s.reg a ||| m) 31 28 ((bits (s.reg a) 31 28 + 1) % 16) := setReg_reg_same ..

@[simp] theorem setFlag_reg_same (a n : Nat) :
    (s.setFlag a n).reg a = putBits (s.reg a ||| word (2 ^ n)) 31 28 ((bits (s.reg a) 31 28 + 1) % 16) := setReg_reg_same ..

@[simp] theorem bump_tick (a : Nat) : (s.bump a).tick = s.tick := by unfold bump; split <;> rfl
@[simp] theorem bump_order (a : Nat) : (s.bump a).order = s.order := by unfold bump; split <;> rfl
@[simp] theorem bump_guards (a : Nat) : (s.bump a).guards = s.guards := by unfold bump; split <;> rfl
@[simp] theorem bump_fired (a : Nat) : (s.bump a).fired = s.fired := by unfold bump; split <;> rfl
@[simp] theorem bump_flt (a : Nat) : (s.bump a).flt = s.flt := by unfold bump; split <;> rfl
@[simp] theorem bump_boot (a : Nat) : (s.bump a).boot = s.boot := by unfold bump; split <;> rfl
@[simp] theorem bump_pwr (a : Nat) : (s.bump a).pwr = s.pwr := by unfold bump; split <;> rfl
@[simp] theorem bump_mem (a : Nat) : (s.bump a).mem = s.mem := by unfold bump; split <;> rfl
@[simp] theorem bump_lnk (a : Nat) : (s.bump a).lnk = s.lnk := by unfold bump; split <;> rfl
@[simp] theorem bump_ses (a : Nat) : (s.bump a).ses = s.ses := by unfold bump; split <;> rfl
@[simp] theorem bump_tmr (a : Nat) : (s.bump a).tmr = s.tmr := by unfold bump; split <;> rfl
@[simp] theorem bump_plc (a : Nat) : (s.bump a).plc = s.plc := by unfold bump; split <;> rfl
@[simp] theorem bump_mot (a : Nat) : (s.bump a).mot = s.mot := by unfold bump; split <;> rfl
@[simp] theorem bump_hst (a : Nat) : (s.bump a).hst = s.hst := by unfold bump; split <;> rfl
@[simp] theorem bump_crates (a : Nat) : (s.bump a).crates = s.crates := by unfold bump; split <;> rfl
@[simp] theorem bump_cmp (a : Nat) : (s.bump a).cmp = s.cmp := by unfold bump; split <;> rfl
@[simp] theorem bump_cal (a : Nat) : (s.bump a).cal = s.cal := by unfold bump; split <;> rfl
@[simp] theorem bump_hed (a : Nat) : (s.bump a).hed = s.hed := by unfold bump; split <;> rfl
@[simp] theorem bump_hlt (a : Nat) : (s.bump a).hlt = s.hlt := by unfold bump; split <;> rfl
@[simp] theorem bump_rej (a : Nat) : (s.bump a).rej = s.rej := by unfold bump; split <;> rfl
@[simp] theorem bump_hat (a : Nat) : (s.bump a).hat = s.hat := by unfold bump; split <;> rfl
@[simp] theorem bump_free (a : Nat) : (s.bump a).free = s.free := by unfold bump; split <;> rfl
@[simp] theorem bump_out (a : Nat) : (s.bump a).out = s.out := by unfold bump; split <;> rfl
@[simp] theorem bump_pending (a : Nat) : (s.bump a).pending = s.pending := by unfold bump; split <;> rfl
@[simp] theorem bump_lane (a : Nat) (j : Lane) : (s.bump a).lane j = s.lane j := by unfold bump; split <;> rfl
@[simp] theorem bump_head (a : Nat) (j : Head) : (s.bump a).head j = s.head j := by unfold bump; split <;> rfl
@[simp] theorem bump_health (a : Nat) (j : Head) : (s.bump a).health j = s.health j := by unfold bump; split <;> rfl
@[simp] theorem bump_axis (a : Nat) (j : Axis) : (s.bump a).axis j = s.axis j := by unfold bump; split <;> rfl
@[simp] theorem bump_chan (a : Nat) (j : Chan) : (s.bump a).chan j = s.chan j := by unfold bump; split <;> rfl
@[simp] theorem bump_timer (a : Nat) (j : TimerId) : (s.bump a).timer j = s.timer j := by unfold bump; split <;> rfl
@[simp] theorem bump_sess (a : Nat) (j : Sess) : (s.bump a).sess j = s.sess j := by unfold bump; split <;> rfl
@[simp] theorem bump_rejLane (a : Nat) (j : Lane) : (s.bump a).rejLane j = s.rejLane j := by unfold bump; split <;> rfl
@[simp] theorem bump_laneState (a : Nat) (j : Lane) : (s.bump a).laneState j = s.laneState j := by unfold bump; split <;> rfl
@[simp] theorem bump_guard (a : Nat) (b : Nat) : (s.bump a).guard b = s.guard b := by unfold bump; split <;> rfl
@[simp] theorem bump_firedAt (a : Nat) (b : Nat) : (s.bump a).firedAt b = s.firedAt b := by unfold bump; split <;> rfl
theorem bump_reg_other (a : Nat) (b : Nat) (h : a ≠ b) : (s.bump a).reg b = s.reg b := by
  unfold bump; split
  · rfl
  · exact setReg_reg_other _ _ _ _ h

@[simp] theorem bumpFld_tick (a hi lo : Nat) : (s.bumpFld a hi lo).tick = s.tick := by unfold bumpFld; split <;> rfl
@[simp] theorem bumpFld_order (a hi lo : Nat) : (s.bumpFld a hi lo).order = s.order := by unfold bumpFld; split <;> rfl
@[simp] theorem bumpFld_guards (a hi lo : Nat) : (s.bumpFld a hi lo).guards = s.guards := by unfold bumpFld; split <;> rfl
@[simp] theorem bumpFld_fired (a hi lo : Nat) : (s.bumpFld a hi lo).fired = s.fired := by unfold bumpFld; split <;> rfl
@[simp] theorem bumpFld_flt (a hi lo : Nat) : (s.bumpFld a hi lo).flt = s.flt := by unfold bumpFld; split <;> rfl
@[simp] theorem bumpFld_boot (a hi lo : Nat) : (s.bumpFld a hi lo).boot = s.boot := by unfold bumpFld; split <;> rfl
@[simp] theorem bumpFld_pwr (a hi lo : Nat) : (s.bumpFld a hi lo).pwr = s.pwr := by unfold bumpFld; split <;> rfl
@[simp] theorem bumpFld_mem (a hi lo : Nat) : (s.bumpFld a hi lo).mem = s.mem := by unfold bumpFld; split <;> rfl
@[simp] theorem bumpFld_lnk (a hi lo : Nat) : (s.bumpFld a hi lo).lnk = s.lnk := by unfold bumpFld; split <;> rfl
@[simp] theorem bumpFld_ses (a hi lo : Nat) : (s.bumpFld a hi lo).ses = s.ses := by unfold bumpFld; split <;> rfl
@[simp] theorem bumpFld_tmr (a hi lo : Nat) : (s.bumpFld a hi lo).tmr = s.tmr := by unfold bumpFld; split <;> rfl
@[simp] theorem bumpFld_plc (a hi lo : Nat) : (s.bumpFld a hi lo).plc = s.plc := by unfold bumpFld; split <;> rfl
@[simp] theorem bumpFld_mot (a hi lo : Nat) : (s.bumpFld a hi lo).mot = s.mot := by unfold bumpFld; split <;> rfl
@[simp] theorem bumpFld_hst (a hi lo : Nat) : (s.bumpFld a hi lo).hst = s.hst := by unfold bumpFld; split <;> rfl
@[simp] theorem bumpFld_crates (a hi lo : Nat) : (s.bumpFld a hi lo).crates = s.crates := by unfold bumpFld; split <;> rfl
@[simp] theorem bumpFld_cmp (a hi lo : Nat) : (s.bumpFld a hi lo).cmp = s.cmp := by unfold bumpFld; split <;> rfl
@[simp] theorem bumpFld_cal (a hi lo : Nat) : (s.bumpFld a hi lo).cal = s.cal := by unfold bumpFld; split <;> rfl
@[simp] theorem bumpFld_hed (a hi lo : Nat) : (s.bumpFld a hi lo).hed = s.hed := by unfold bumpFld; split <;> rfl
@[simp] theorem bumpFld_hlt (a hi lo : Nat) : (s.bumpFld a hi lo).hlt = s.hlt := by unfold bumpFld; split <;> rfl
@[simp] theorem bumpFld_rej (a hi lo : Nat) : (s.bumpFld a hi lo).rej = s.rej := by unfold bumpFld; split <;> rfl
@[simp] theorem bumpFld_hat (a hi lo : Nat) : (s.bumpFld a hi lo).hat = s.hat := by unfold bumpFld; split <;> rfl
@[simp] theorem bumpFld_free (a hi lo : Nat) : (s.bumpFld a hi lo).free = s.free := by unfold bumpFld; split <;> rfl
@[simp] theorem bumpFld_out (a hi lo : Nat) : (s.bumpFld a hi lo).out = s.out := by unfold bumpFld; split <;> rfl
@[simp] theorem bumpFld_pending (a hi lo : Nat) : (s.bumpFld a hi lo).pending = s.pending := by unfold bumpFld; split <;> rfl
@[simp] theorem bumpFld_lane (a hi lo : Nat) (j : Lane) : (s.bumpFld a hi lo).lane j = s.lane j := by unfold bumpFld; split <;> rfl
@[simp] theorem bumpFld_head (a hi lo : Nat) (j : Head) : (s.bumpFld a hi lo).head j = s.head j := by unfold bumpFld; split <;> rfl
@[simp] theorem bumpFld_health (a hi lo : Nat) (j : Head) : (s.bumpFld a hi lo).health j = s.health j := by unfold bumpFld; split <;> rfl
@[simp] theorem bumpFld_axis (a hi lo : Nat) (j : Axis) : (s.bumpFld a hi lo).axis j = s.axis j := by unfold bumpFld; split <;> rfl
@[simp] theorem bumpFld_chan (a hi lo : Nat) (j : Chan) : (s.bumpFld a hi lo).chan j = s.chan j := by unfold bumpFld; split <;> rfl
@[simp] theorem bumpFld_timer (a hi lo : Nat) (j : TimerId) : (s.bumpFld a hi lo).timer j = s.timer j := by unfold bumpFld; split <;> rfl
@[simp] theorem bumpFld_sess (a hi lo : Nat) (j : Sess) : (s.bumpFld a hi lo).sess j = s.sess j := by unfold bumpFld; split <;> rfl
@[simp] theorem bumpFld_rejLane (a hi lo : Nat) (j : Lane) : (s.bumpFld a hi lo).rejLane j = s.rejLane j := by unfold bumpFld; split <;> rfl
@[simp] theorem bumpFld_laneState (a hi lo : Nat) (j : Lane) : (s.bumpFld a hi lo).laneState j = s.laneState j := by unfold bumpFld; split <;> rfl
@[simp] theorem bumpFld_guard (a hi lo : Nat) (b : Nat) : (s.bumpFld a hi lo).guard b = s.guard b := by unfold bumpFld; split <;> rfl
@[simp] theorem bumpFld_firedAt (a hi lo : Nat) (b : Nat) : (s.bumpFld a hi lo).firedAt b = s.firedAt b := by unfold bumpFld; split <;> rfl
theorem bumpFld_reg_other (a hi lo : Nat) (b : Nat) (h : a ≠ b) : (s.bumpFld a hi lo).reg b = s.reg b := by
  unfold bumpFld; split
  · rfl
  · exact setReg_reg_other _ _ _ _ h

/-- A 32-bit counter counts and saturates. -/
theorem bump_reg_same (a : Nat) : (s.bump a).reg a = if s.reg a = 0xFFFFFFFF then s.reg a else s.reg a + 1 := by
  unfold bump; split
  · rfl
  · exact setReg_reg_same ..

end Sys2Proof.Machine.State
end

