-- ==== Sys2Proof/Laws/Frame.lean ====
section
/-! SUPPORT. Frames: `Only` is reflexive and transitive, and an update changes only its own part. Each operation has one lemma
`only_<operation>`: a frame that allows what the operation changes holds after it exactly when it held before. -/

namespace Sys2Proof.Machine

theorem Only.refl (l : List Part) (s : State) : Only l s s := fun p _ => by cases p <;> first | rfl | exact ⟨rfl, rfl⟩ | exact ⟨rfl, rfl, rfl⟩

@[simp] theorem only_self (l : List Part) (s : State) : Only l s s ↔ True := iff_true_intro (Only.refl l s)

theorem Part.same_trans {s t u : State} {p : Part} (h : p.same s t) (k : p.same t u) : p.same s u := by
  cases p
  case energy => exact ⟨k.1.trans h.1, k.2.1.trans h.2.1, k.2.2.trans h.2.2⟩
  case owed => exact ⟨k.1.trans h.1, k.2.trans h.2⟩
  all_goals exact Eq.trans k h

theorem Part.same_symm {s t : State} {p : Part} (h : p.same s t) : p.same t s := by
  cases p
  case energy => exact ⟨h.1.symm, h.2.1.symm, h.2.2.symm⟩
  case owed => exact ⟨h.1.symm, h.2.symm⟩
  all_goals exact Eq.symm h

theorem Only.trans {l : List Part} {s t u : State} (h : Only l s t) (k : Only l t u) : Only l s u :=
  fun p hp => Part.same_trans (h p hp) (k p hp)

theorem Only.mono {l m : List Part} {s t : State} (h : Only l s t) (hl : ∀ p ∈ l, p ∈ m) : Only m s t :=
  fun p hp => h p fun hq => hp (hl p hq)

/-- A frame that allows the changes from `t` to `u` holds at `u` exactly when it holds at `t`. -/
theorem Only.step {l m : List Part} {s t u : State} (h : Only m t u) (hl : ∀ p ∈ m, p ∈ l) : Only l s u ↔ Only l s t :=
  ⟨fun k => k.trans fun p hp => Part.same_symm (h.mono hl p hp), fun k => k.trans (h.mono hl)⟩

/-- A fold changes only what its steps change. -/
theorem Only.foldl {α : Type} {m : List Part} {f : State → α → State} (h : ∀ s a, Only m s (f s a)) :
    ∀ (xs : List α) (s : State), Only m s (xs.foldl f s)
  | [], s => Only.refl m s
  | x :: xs, s => (h s x).trans (Only.foldl h xs (f s x))

/-- A frame holds at a choice when it holds at both sides. -/
theorem only_ite {l : List Part} {s t u : State} {c : Prop} [Decidable c] (ht : Only l s t) (hu : Only l s u) :
    Only l s (if c then t else u) := by
  split
  · exact ht
  · exact hu

/-- What a frame says of a part outside its list. -/
theorem Only.part {l : List Part} {s t : State} (h : Only l s t) (p : Part) (hp : p ∉ l) : p.same s t := h p hp

namespace State

variable {l : List Part} {s u : State}

theorem setReg_only (a : Nat) (v : Word) : Only [.regs] u (u.setReg a v) := by
  exact fun p hp => by cases p <;> first | rfl | exact ⟨rfl, rfl⟩ | exact ⟨rfl, rfl, rfl⟩ | exact absurd (by decide) hp
@[simp] theorem only_setReg (a : Nat) (v : Word) (hl : Part.regs ∈ l) : Only l s (u.setReg a v) ↔ Only l s u :=
  Only.step (setReg_only a v) (by simpa using hl)

theorem setFld_only (a hi lo v : Nat) : Only [.regs] u (u.setFld a hi lo v) := by
  exact fun p hp => by cases p <;> first | rfl | exact ⟨rfl, rfl⟩ | exact ⟨rfl, rfl, rfl⟩ | exact absurd (by decide) hp
@[simp] theorem only_setFld (a hi lo v : Nat) (hl : Part.regs ∈ l) : Only l s (u.setFld a hi lo v) ↔ Only l s u :=
  Only.step (setFld_only a hi lo v) (by simpa using hl)

theorem setGuard_only (a k : Nat) : Only [.guards] u (u.setGuard a k) := by
  exact fun p hp => by cases p <;> first | rfl | exact ⟨rfl, rfl⟩ | exact ⟨rfl, rfl, rfl⟩ | exact absurd (by decide) hp
@[simp] theorem only_setGuard (a k : Nat) (hl : Part.guards ∈ l) : Only l s (u.setGuard a k) ↔ Only l s u :=
  Only.step (setGuard_only a k) (by simpa using hl)

theorem setFlags_only (a : Nat) (m : Word) : Only [.regs, .guards] u (u.setFlags a m) := by
  exact fun p hp => by cases p <;> first | rfl | exact ⟨rfl, rfl⟩ | exact ⟨rfl, rfl, rfl⟩ | exact absurd (by decide) hp
@[simp] theorem only_setFlags (a : Nat) (m : Word) (hl : ∀ p ∈ ([.regs, .guards] : List Part), p ∈ l) : Only l s (u.setFlags a m) ↔ Only l s u :=
  Only.step (setFlags_only a m) hl

theorem setFlag_only (a n : Nat) : Only [.regs, .guards] u (u.setFlag a n) := by
  exact fun p hp => by cases p <;> first | rfl | exact ⟨rfl, rfl⟩ | exact ⟨rfl, rfl, rfl⟩ | exact absurd (by decide) hp
@[simp] theorem only_setFlag (a n : Nat) (hl : ∀ p ∈ ([.regs, .guards] : List Part), p ∈ l) : Only l s (u.setFlag a n) ↔ Only l s u :=
  Only.step (setFlag_only a n) hl

theorem clearFlags_only (a : Nat) (v m : Word) : Only [.regs] u (u.clearFlags a v m) := by
  exact fun p hp => by cases p <;> first | rfl | exact ⟨rfl, rfl⟩ | exact ⟨rfl, rfl, rfl⟩ | exact absurd (by decide) hp
@[simp] theorem only_clearFlags (a : Nat) (v m : Word) (hl : Part.regs ∈ l) : Only l s (u.clearFlags a v m) ↔ Only l s u :=
  Only.step (clearFlags_only a v m) (by simpa using hl)

theorem commit_only : Only [.order] u u.commit := by
  exact fun p hp => by cases p <;> first | rfl | exact ⟨rfl, rfl⟩ | exact ⟨rfl, rfl, rfl⟩ | exact absurd (by decide) hp
@[simp] theorem only_commit (hl : Part.order ∈ l) : Only l s u.commit ↔ Only l s u :=
  Only.step (commit_only) (by simpa using hl)

theorem emit_only (e : Emit) : Only [.out] u (u.emit e) := by
  exact fun p hp => by cases p <;> first | rfl | exact ⟨rfl, rfl⟩ | exact ⟨rfl, rfl, rfl⟩ | exact absurd (by decide) hp
@[simp] theorem only_emit (e : Emit) (hl : Part.out ∈ l) : Only l s (u.emit e) ↔ Only l s u :=
  Only.step (emit_only e) (by simpa using hl)

theorem setFired_only (k t : Nat) : Only [.fired] u (u.setFired k t) := by
  exact fun p hp => by cases p <;> first | rfl | exact ⟨rfl, rfl⟩ | exact ⟨rfl, rfl, rfl⟩ | exact absurd (by decide) hp
@[simp] theorem only_setFired (k t : Nat) (hl : Part.fired ∈ l) : Only l s (u.setFired k t) ↔ Only l s u :=
  Only.step (setFired_only k t) (by simpa using hl)

theorem setLane_only (n : Lane) (x : LaneSt) : Only [.plc] u (u.setLane n x) := by
  exact fun p hp => by cases p <;> first | rfl | exact ⟨rfl, rfl⟩ | exact ⟨rfl, rfl, rfl⟩ | exact absurd (by decide) hp
@[simp] theorem only_setLane (n : Lane) (x : LaneSt) (hl : Part.plc ∈ l) : Only l s (u.setLane n x) ↔ Only l s u :=
  Only.step (setLane_only n x) (by simpa using hl)

theorem modLane_only (n : Lane) (f : LaneSt → LaneSt) : Only [.plc] u (u.modLane n f) := by
  exact fun p hp => by cases p <;> first | rfl | exact ⟨rfl, rfl⟩ | exact ⟨rfl, rfl, rfl⟩ | exact absurd (by decide) hp
@[simp] theorem only_modLane (n : Lane) (f : LaneSt → LaneSt) (hl : Part.plc ∈ l) : Only l s (u.modLane n f) ↔ Only l s u :=
  Only.step (modLane_only n f) (by simpa using hl)

theorem setHead_only (h : Head) (x : HedSt) : Only [.hed] u (u.setHead h x) := by
  exact fun p hp => by cases p <;> first | rfl | exact ⟨rfl, rfl⟩ | exact ⟨rfl, rfl, rfl⟩ | exact absurd (by decide) hp
@[simp] theorem only_setHead (h : Head) (x : HedSt) (hl : Part.hed ∈ l) : Only l s (u.setHead h x) ↔ Only l s u :=
  Only.step (setHead_only h x) (by simpa using hl)

theorem modHead_only (h : Head) (f : HedSt → HedSt) : Only [.hed] u (u.modHead h f) := by
  exact fun p hp => by cases p <;> first | rfl | exact ⟨rfl, rfl⟩ | exact ⟨rfl, rfl, rfl⟩ | exact absurd (by decide) hp
@[simp] theorem only_modHead (h : Head) (f : HedSt → HedSt) (hl : Part.hed ∈ l) : Only l s (u.modHead h f) ↔ Only l s u :=
  Only.step (modHead_only h f) (by simpa using hl)

theorem setHealth_only (h : Head) (x : HltSt) : Only [.hlt] u (u.setHealth h x) := by
  exact fun p hp => by cases p <;> first | rfl | exact ⟨rfl, rfl⟩ | exact ⟨rfl, rfl, rfl⟩ | exact absurd (by decide) hp
@[simp] theorem only_setHealth (h : Head) (x : HltSt) (hl : Part.hlt ∈ l) : Only l s (u.setHealth h x) ↔ Only l s u :=
  Only.step (setHealth_only h x) (by simpa using hl)

theorem modHealth_only (h : Head) (f : HltSt → HltSt) : Only [.hlt] u (u.modHealth h f) := by
  exact fun p hp => by cases p <;> first | rfl | exact ⟨rfl, rfl⟩ | exact ⟨rfl, rfl, rfl⟩ | exact absurd (by decide) hp
@[simp] theorem only_modHealth (h : Head) (f : HltSt → HltSt) (hl : Part.hlt ∈ l) : Only l s (u.modHealth h f) ↔ Only l s u :=
  Only.step (modHealth_only h f) (by simpa using hl)

theorem setAxis_only (x : Axis) (a : AxisSt) : Only [.mot] u (u.setAxis x a) := by
  exact fun p hp => by cases p <;> first | rfl | exact ⟨rfl, rfl⟩ | exact ⟨rfl, rfl, rfl⟩ | exact absurd (by decide) hp
@[simp] theorem only_setAxis (x : Axis) (a : AxisSt) (hl : Part.mot ∈ l) : Only l s (u.setAxis x a) ↔ Only l s u :=
  Only.step (setAxis_only x a) (by simpa using hl)

theorem modAxis_only (x : Axis) (f : AxisSt → AxisSt) : Only [.mot] u (u.modAxis x f) := by
  exact fun p hp => by cases p <;> first | rfl | exact ⟨rfl, rfl⟩ | exact ⟨rfl, rfl, rfl⟩ | exact absurd (by decide) hp
@[simp] theorem only_modAxis (x : Axis) (f : AxisSt → AxisSt) (hl : Part.mot ∈ l) : Only l s (u.modAxis x f) ↔ Only l s u :=
  Only.step (modAxis_only x f) (by simpa using hl)

theorem setChan_only (c : Chan) (x : ChanSt) : Only [.hst] u (u.setChan c x) := by
  exact fun p hp => by cases p <;> first | rfl | exact ⟨rfl, rfl⟩ | exact ⟨rfl, rfl, rfl⟩ | exact absurd (by decide) hp
@[simp] theorem only_setChan (c : Chan) (x : ChanSt) (hl : Part.hst ∈ l) : Only l s (u.setChan c x) ↔ Only l s u :=
  Only.step (setChan_only c x) (by simpa using hl)

theorem modChan_only (c : Chan) (f : ChanSt → ChanSt) : Only [.hst] u (u.modChan c f) := by
  exact fun p hp => by cases p <;> first | rfl | exact ⟨rfl, rfl⟩ | exact ⟨rfl, rfl, rfl⟩ | exact absurd (by decide) hp
@[simp] theorem only_modChan (c : Chan) (f : ChanSt → ChanSt) (hl : Part.hst ∈ l) : Only l s (u.modChan c f) ↔ Only l s u :=
  Only.step (modChan_only c f) (by simpa using hl)

theorem setTimer_only (t : TimerId) (x : Timer) : Only [.tmr] u (u.setTimer t x) := by
  exact fun p hp => by cases p <;> first | rfl | exact ⟨rfl, rfl⟩ | exact ⟨rfl, rfl, rfl⟩ | exact absurd (by decide) hp
@[simp] theorem only_setTimer (t : TimerId) (x : Timer) (hl : Part.tmr ∈ l) : Only l s (u.setTimer t x) ↔ Only l s u :=
  Only.step (setTimer_only t x) (by simpa using hl)

theorem modTimer_only (t : TimerId) (f : Timer → Timer) : Only [.tmr] u (u.modTimer t f) := by
  exact fun p hp => by cases p <;> first | rfl | exact ⟨rfl, rfl⟩ | exact ⟨rfl, rfl, rfl⟩ | exact absurd (by decide) hp
@[simp] theorem only_modTimer (t : TimerId) (f : Timer → Timer) (hl : Part.tmr ∈ l) : Only l s (u.modTimer t f) ↔ Only l s u :=
  Only.step (modTimer_only t f) (by simpa using hl)

theorem setSess_only (i : Sess) (x : Session) : Only [.lnk] u (u.setSess i x) := by
  exact fun p hp => by cases p <;> first | rfl | exact ⟨rfl, rfl⟩ | exact ⟨rfl, rfl, rfl⟩ | exact absurd (by decide) hp
@[simp] theorem only_setSess (i : Sess) (x : Session) (hl : Part.lnk ∈ l) : Only l s (u.setSess i x) ↔ Only l s u :=
  Only.step (setSess_only i x) (by simpa using hl)

theorem modSess_only (i : Sess) (f : Session → Session) : Only [.lnk] u (u.modSess i f) := by
  exact fun p hp => by cases p <;> first | rfl | exact ⟨rfl, rfl⟩ | exact ⟨rfl, rfl, rfl⟩ | exact absurd (by decide) hp
@[simp] theorem only_modSess (i : Sess) (f : Session → Session) (hl : Part.lnk ∈ l) : Only l s (u.modSess i f) ↔ Only l s u :=
  Only.step (modSess_only i f) (by simpa using hl)

theorem setRejLane_only (n : Lane) (x : RejLane) : Only [.rej] u (u.setRejLane n x) := by
  exact fun p hp => by cases p <;> first | rfl | exact ⟨rfl, rfl⟩ | exact ⟨rfl, rfl, rfl⟩ | exact absurd (by decide) hp
@[simp] theorem only_setRejLane (n : Lane) (x : RejLane) (hl : Part.rej ∈ l) : Only l s (u.setRejLane n x) ↔ Only l s u :=
  Only.step (setRejLane_only n x) (by simpa using hl)

theorem modRejLane_only (n : Lane) (f : RejLane → RejLane) : Only [.rej] u (u.modRejLane n f) := by
  exact fun p hp => by cases p <;> first | rfl | exact ⟨rfl, rfl⟩ | exact ⟨rfl, rfl, rfl⟩ | exact absurd (by decide) hp
@[simp] theorem only_modRejLane (n : Lane) (f : RejLane → RejLane) (hl : Part.rej ∈ l) : Only l s (u.modRejLane n f) ↔ Only l s u :=
  Only.step (modRejLane_only n f) (by simpa using hl)

theorem setLaneState_only (n : Lane) (x : LaneState) : Only [.hat] u (u.setLaneState n x) := by
  exact fun p hp => by cases p <;> first | rfl | exact ⟨rfl, rfl⟩ | exact ⟨rfl, rfl, rfl⟩ | exact absurd (by decide) hp
@[simp] theorem only_setLaneState (n : Lane) (x : LaneState) (hl : Part.hat ∈ l) : Only l s (u.setLaneState n x) ↔ Only l s u :=
  Only.step (setLaneState_only n x) (by simpa using hl)

theorem modPwr_only (f : Pantry → Pantry) : Only [.pwr, .energy] u (u.modPwr f) := by
  exact fun p hp => by cases p <;> first | rfl | exact ⟨rfl, rfl⟩ | exact ⟨rfl, rfl, rfl⟩ | exact absurd (by decide) hp
@[simp] theorem only_modPwr (f : Pantry → Pantry) (hl : ∀ p ∈ ([.pwr, .energy] : List Part), p ∈ l) : Only l s (u.modPwr f) ↔ Only l s u :=
  Only.step (modPwr_only f) hl

theorem modFlt_only (f : Collector → Collector) : Only [.flt, .due] u (u.modFlt f) := by
  exact fun p hp => by cases p <;> first | rfl | exact ⟨rfl, rfl⟩ | exact ⟨rfl, rfl, rfl⟩ | exact absurd (by decide) hp
@[simp] theorem only_modFlt (f : Collector → Collector) (hl : ∀ p ∈ ([.flt, .due] : List Part), p ∈ l) : Only l s (u.modFlt f) ↔ Only l s u :=
  Only.step (modFlt_only f) hl

theorem modBoot_only (f : Boot → Boot) : Only [.boot] u (u.modBoot f) := by
  exact fun p hp => by cases p <;> first | rfl | exact ⟨rfl, rfl⟩ | exact ⟨rfl, rfl, rfl⟩ | exact absurd (by decide) hp
@[simp] theorem only_modBoot (f : Boot → Boot) (hl : Part.boot ∈ l) : Only l s (u.modBoot f) ↔ Only l s u :=
  Only.step (modBoot_only f) (by simpa using hl)

theorem modMem_only (f : Mem → Mem) : Only [.larder, .flash, .owed] u (u.modMem f) := by
  exact fun p hp => by cases p <;> first | rfl | exact ⟨rfl, rfl⟩ | exact ⟨rfl, rfl, rfl⟩ | exact absurd (by decide) hp
@[simp] theorem only_modMem (f : Mem → Mem) (hl : ∀ p ∈ ([.larder, .flash, .owed] : List Part), p ∈ l) : Only l s (u.modMem f) ↔ Only l s u :=
  Only.step (modMem_only f) hl

theorem modCmp_only (f : Cmp → Cmp) : Only [.cmp] u (u.modCmp f) := by
  exact fun p hp => by cases p <;> first | rfl | exact ⟨rfl, rfl⟩ | exact ⟨rfl, rfl, rfl⟩ | exact absurd (by decide) hp
@[simp] theorem only_modCmp (f : Cmp → Cmp) (hl : Part.cmp ∈ l) : Only l s (u.modCmp f) ↔ Only l s u :=
  Only.step (modCmp_only f) (by simpa using hl)

theorem modCal_only (f : Cal → Cal) : Only [.cal] u (u.modCal f) := by
  exact fun p hp => by cases p <;> first | rfl | exact ⟨rfl, rfl⟩ | exact ⟨rfl, rfl, rfl⟩ | exact absurd (by decide) hp
@[simp] theorem only_modCal (f : Cal → Cal) (hl : Part.cal ∈ l) : Only l s (u.modCal f) ↔ Only l s u :=
  Only.step (modCal_only f) (by simpa using hl)

theorem modRej_only (f : Rej → Rej) : Only [.rej] u (u.modRej f) := by
  exact fun p hp => by cases p <;> first | rfl | exact ⟨rfl, rfl⟩ | exact ⟨rfl, rfl, rfl⟩ | exact absurd (by decide) hp
@[simp] theorem only_modRej (f : Rej → Rej) (hl : Part.rej ∈ l) : Only l s (u.modRej f) ↔ Only l s u :=
  Only.step (modRej_only f) (by simpa using hl)

theorem modHat_only (f : Hat → Hat) : Only [.hat] u (u.modHat f) := by
  exact fun p hp => by cases p <;> first | rfl | exact ⟨rfl, rfl⟩ | exact ⟨rfl, rfl, rfl⟩ | exact absurd (by decide) hp
@[simp] theorem only_modHat (f : Hat → Hat) (hl : Part.hat ∈ l) : Only l s (u.modHat f) ↔ Only l s u :=
  Only.step (modHat_only f) (by simpa using hl)

theorem modHst_only (f : Hst → Hst) : Only [.hst] u (u.modHst f) := by
  exact fun p hp => by cases p <;> first | rfl | exact ⟨rfl, rfl⟩ | exact ⟨rfl, rfl, rfl⟩ | exact absurd (by decide) hp
@[simp] theorem only_modHst (f : Hst → Hst) (hl : Part.hst ∈ l) : Only l s (u.modHst f) ↔ Only l s u :=
  Only.step (modHst_only f) (by simpa using hl)

theorem modPlc_only (f : Plc → Plc) : Only [.plc] u (u.modPlc f) := by
  exact fun p hp => by cases p <;> first | rfl | exact ⟨rfl, rfl⟩ | exact ⟨rfl, rfl, rfl⟩ | exact absurd (by decide) hp
@[simp] theorem only_modPlc (f : Plc → Plc) (hl : Part.plc ∈ l) : Only l s (u.modPlc f) ↔ Only l s u :=
  Only.step (modPlc_only f) (by simpa using hl)

theorem modTmr_only (f : Tmr → Tmr) : Only [.tmr] u (u.modTmr f) := by
  exact fun p hp => by cases p <;> first | rfl | exact ⟨rfl, rfl⟩ | exact ⟨rfl, rfl, rfl⟩ | exact absurd (by decide) hp
@[simp] theorem only_modTmr (f : Tmr → Tmr) (hl : Part.tmr ∈ l) : Only l s (u.modTmr f) ↔ Only l s u :=
  Only.step (modTmr_only f) (by simpa using hl)

theorem modSes_only (f : Ses → Ses) : Only [.ses] u (u.modSes f) := by
  exact fun p hp => by cases p <;> first | rfl | exact ⟨rfl, rfl⟩ | exact ⟨rfl, rfl, rfl⟩ | exact absurd (by decide) hp
@[simp] theorem only_modSes (f : Ses → Ses) (hl : Part.ses ∈ l) : Only l s (u.modSes f) ↔ Only l s u :=
  Only.step (modSes_only f) (by simpa using hl)

theorem modLnk_only (f : Link → Link) : Only [.lnk] u (u.modLnk f) := by
  exact fun p hp => by cases p <;> first | rfl | exact ⟨rfl, rfl⟩ | exact ⟨rfl, rfl, rfl⟩ | exact absurd (by decide) hp
@[simp] theorem only_modLnk (f : Link → Link) (hl : Part.lnk ∈ l) : Only l s (u.modLnk f) ↔ Only l s u :=
  Only.step (modLnk_only f) (by simpa using hl)

theorem bump_only (a : Nat) : Only [.regs] u (u.bump a) := by
  unfold bump; split
  · exact Only.refl _ _
  · exact fun p hp => by cases p <;> first | rfl | exact ⟨rfl, rfl⟩ | exact ⟨rfl, rfl, rfl⟩ | exact absurd (by decide) hp
@[simp] theorem only_bump (a : Nat) (hl : Part.regs ∈ l) : Only l s (u.bump a) ↔ Only l s u :=
  Only.step (bump_only a) (by simpa using hl)

theorem bumpFld_only (a hi lo : Nat) : Only [.regs] u (u.bumpFld a hi lo) := by
  unfold bumpFld; split
  · exact Only.refl _ _
  · exact fun p hp => by cases p <;> first | rfl | exact ⟨rfl, rfl⟩ | exact ⟨rfl, rfl, rfl⟩ | exact absurd (by decide) hp
@[simp] theorem only_bumpFld (a hi lo : Nat) (hl : Part.regs ∈ l) : Only l s (u.bumpFld a hi lo) ↔ Only l s u :=
  Only.step (bumpFld_only a hi lo) (by simpa using hl)

end State
end Sys2Proof.Machine
end

