-- ==== Sys2Proof/Laws/Reports.lean ====
section
/-! SUPPORT. What messages, state items and the reads that fail may change. -/

namespace Sys2Proof.Machine.State

variable {l : List Part} {s u : State}

theorem queueItem_only (i : Sess) (e : EventItem) : Only [.lnk] u (u.queueItem i e).1 := by
  unfold queueItem
  dsimp only
  split <;> simp (disch := decide)

theorem queueItems_only (want : Session → Sess → Bool) (e : EventItem) :
    ∀ (is : List Sess) (u : State), Only [.lnk] u (queueItems want e is u).1
  | [], u => Only.refl _ u
  | i :: is, u => by
    unfold queueItems
    split
    · exact (queueItem_only i e).trans (queueItems_only want e is _)
    · exact queueItems_only want e is u

theorem recordBin_only (m : FaultMsg) : Only [.regs, .guards, .flt] u (u.recordBin m) := by
  have bin (v : State) : Only [.flt] v (v.modFlt fun f => { f with bin := some m }) :=
    fun p hp => by cases p <;> first | rfl | exact ⟨rfl, rfl⟩ | exact ⟨rfl, rfl, rfl⟩ | exact absurd (by decide) hp
  unfold recordBin
  dsimp only
  split <;> split <;> simp (disch := decide) [Only.step (bin _)]

theorem recordSource_only (k : Nat) : Only [.order, .regs, .flt] u (u.recordSource k) := by
  have quiet (v : State) (q : Tab (Option Nat)) : Only [.flt] v (v.modFlt fun f => { f with quietEnd := q }) :=
    fun p hp => by cases p <;> first | rfl | exact ⟨rfl, rfl⟩ | exact ⟨rfl, rfl, rfl⟩ | exact absurd (by decide) hp
  unfold recordSource setSrcState
  dsimp only
  split
  · exact Only.refl _ _
  · refine (Only.step (quiet _ _) (by decide)).2 ?_
    split <;> simp (disch := decide)

theorem trapPulse_only : Only [.regs, .flt, .out] u u.trapPulse := by
  have pulse (v : State) (q : Option Nat) : Only [.flt] v (v.modFlt fun f => { f with trapEnd := q }) :=
    fun p hp => by cases p <;> first | rfl | exact ⟨rfl, rfl⟩ | exact ⟨rfl, rfl, rfl⟩ | exact absurd (by decide) hp
  unfold trapPulse
  dsimp only
  split <;> simp (disch := decide) [Only.step (pulse _ _)]

theorem errPin_only : Only [.regs, .guards, .flt] u u.errPin := by
  have runs (v : State) (q : Option Nat) : Only [.flt] v (v.modFlt fun f => { f with errMinEnd := q }) :=
    fun p hp => by cases p <;> first | rfl | exact ⟨rfl, rfl⟩ | exact ⟨rfl, rfl, rfl⟩ | exact absurd (by decide) hp
  unfold errPin
  simp (disch := decide) [Only.step (runs _ _)]

theorem selectResets_only (m : FaultMsg) (b : Bool) : Only [.due] u (u.selectResets m b) := by
  have joins (v : State) (q : Nat × Bool) : Only [.due] v (v.modFlt fun f => { f with due := f.due ++ [q] }) :=
    fun p hp => by cases p <;> first | rfl | exact ⟨rfl, rfl⟩ | exact ⟨rfl, rfl, rfl⟩ | exact absurd (by decide) hp
  unfold selectResets
  repeat' split
  all_goals first | exact Only.refl _ _ | exact joins _ _

/-- A message changes only what it reports, and the resets it selects wait (R111). -/
theorem raiseN_only : ∀ (n : Nat) (u : State) (k : Kind) (a : Word) (o : Option Lane), Only messageParts u (raiseN n u k a o)
  | 0, u, _, _, _ => Only.refl _ u
  | n + 1, u, k, a, o => by
    unfold raiseN
    dsimp only
    split
    · exact Only.refl _ _
    · refine Only.trans ?_ (Only.foldl (fun s i => raiseN_only n s _ _ _) _ _)
      refine (Only.step (selectResets_only _ _) (by decide)).2 ?_
      have fault : ∀ (c : Bool) (v : State) (w : Session → Sess → Bool) (e : EventItem),
          Only messageParts v (if c = true then queueItems w e allSess v else (v, [])).1 := fun c v w e => by
        split
        · exact (queueItems_only w e _ v).mono (by decide)
        · exact Only.refl _ _
      have trap : ∀ (c : Bool) (v : State) (e : EventItem),
          Only messageParts v
            (if c = true then queueItems v.trapPulse.wantsTrap e allSess v.trapPulse else (v, [])).1 := fun c v e => by
        split
        · exact (trapPulse_only.mono (by decide)).trans ((queueItems_only _ e _ _).mono (by decide))
        · exact Only.refl _ _
      have core : Only messageParts u ((u.commit.recordBin ⟨k.src, k.code, a, u.commit.order, o,
          match o with | some l => (u.commit.lane l).pc | none => 0⟩).recordSource k.src) :=
        (Only.step (recordSource_only _) (by decide)).2
          ((Only.step (recordBin_only _) (by decide)).2 (by simp (disch := decide)))
      split
      · refine (Only.step errPin_only (by decide)).2 ?_
        exact (core.trans (fault _ _ _ _)).trans (trap _ _ _)
      · exact (core.trans (fault _ _ _ _)).trans (trap _ _ _)

/-- What a frame without the memories keeps of the reaction table. -/
theorem picks_of_only {m : List Part} (h : Only m s u) (hm : .flash ∉ m) (k : Nat) : u.picks k = s.picks k := by
  have h' : { u.mem with larder := [], staged := [], heldOps := [] } = { s.mem with larder := [], staged := [], heldOps := [] } := h .flash hm
  have e : u.mem.tables = s.mem.tables := (congrArg Mem.tables h' :)
  simp only [picks, reaction, Mem.table, e]

theorem selectResets_quiet (m : FaultMsg) (b : Bool) (h : u.picks m.source = false) : u.selectResets m b = u := by
  have h' := Bool.or_eq_false_iff.1 h
  unfold selectResets
  rw [h'.1, h'.2]
  split <;> rfl

/-- A message of a source that selects no reset, where source 8 selects none, leaves the resets that wait as they are. -/
theorem raiseN_quiet :
    ∀ (n : Nat) (u : State) (k : Kind) (a : Word) (o : Option Lane), u.picks k.src = false → u.picks 8 = false →
      Only noticeParts u (raiseN n u k a o)
  | 0, u, _, _, _, _, _ => Only.refl _ u
  | n + 1, u, k, a, o, hk, h8 => by
    unfold raiseN
    dsimp only
    split
    · exact Only.refl _ _
    · have fault : ∀ (c : Bool) (v : State) (w : Session → Sess → Bool) (e : EventItem),
          Only noticeParts v (if c = true then queueItems w e allSess v else (v, [])).1 := fun c v w e => by
        split
        · exact (queueItems_only w e _ v).mono (by decide)
        · exact Only.refl _ _
      have trap : ∀ (c : Bool) (v : State) (e : EventItem),
          Only noticeParts v
            (if c = true then queueItems v.trapPulse.wantsTrap e allSess v.trapPulse else (v, [])).1 := fun c v e => by
        split
        · exact (trapPulse_only.mono (by decide)).trans ((queueItems_only _ e _ _).mono (by decide))
        · exact Only.refl _ _
      have core : Only noticeParts u ((u.commit.recordBin ⟨k.src, k.code, a, u.commit.order, o,
          match o with | some l => (u.commit.lane l).pc | none => 0⟩).recordSource k.src) :=
        (Only.step (recordSource_only _) (by decide)).2
          ((Only.step (recordBin_only _) (by decide)).2 (by simp (disch := decide)))
      have drops : ∀ (is : List Sess) (v : State), Only noticeParts u v →
          Only noticeParts u (is.foldl (fun s i => raiseN n s Kind.eventDrop (word i.val) none) v) := fun is => by
        induction is with
        | nil => exact fun v hv => hv
        | cons i is ih =>
          intro v hv
          have p8 : v.picks 8 = false := by rw [picks_of_only hv (by decide)]; exact h8
          exact ih _ (hv.trans (raiseN_quiet n v _ _ _ p8 p8))
      have sel : ∀ (v : State), Only noticeParts u v → ∀ (m : FaultMsg) (b : Bool), m.source = k.src →
          Only noticeParts u (v.selectResets m b) := fun v hv m b hm => by
        rw [selectResets_quiet]
        · exact hv
        · rw [hm, picks_of_only hv (by decide)]; exact hk
      refine drops _ _ (sel _ ?_ _ _ rfl)
      split
      · exact (Only.step errPin_only (by decide)).2 ((core.trans (fault _ _ _ _)).trans (trap _ _ _))
      · exact (core.trans (fault _ _ _ _)).trans (trap _ _ _)

@[simp] theorem only_raise (k : Kind) (a : Word) (hl : ∀ p ∈ messageParts, p ∈ l) : Only l s (u.raise k a) ↔ Only l s u :=
  Only.step (raiseN_only 12 u k a none) hl

@[simp] theorem only_raiseLane (k : Kind) (a : Word) (n : Lane) (hl : ∀ p ∈ messageParts, p ∈ l) :
    Only l s (u.raiseLane k a n) ↔ Only l s u :=
  Only.step (raiseN_only 12 u k a (some n)) hl

theorem stateItem_only (k : Nat) (o : Option Lane) (a b : Nat) : Only messageParts u (u.stateItem k o a b) := by
  unfold stateItem
  dsimp only
  exact ((queueItems_only _ _ _ u).mono (by decide)).trans (Only.foldl (fun v i => raiseN_only 12 v _ _ none) _ _)

@[simp] theorem only_stateItem (k : Nat) (o : Option Lane) (a b : Nat) (hl : ∀ p ∈ messageParts, p ∈ l) :
    Only l s (u.stateItem k o a b) ↔ Only l s u :=
  Only.step (stateItem_only k o a b) hl

end Sys2Proof.Machine.State
end

