-- ==== Sys2Proof/Laws/Records.lean ====
section
/-! SUPPORT. What the changes of product records may touch. -/

namespace Sys2Proof.Machine.State

variable {l : List Part} {s u : State}

theorem writeLarderBytes_rest : ∀ (b : List Byte) (a : Nat) (m : Mem),
    { m.writeLarderBytes a b with larder := [] } = { m with larder := [] }
  | [], _, _ => rfl
  | _ :: rest, a, _ => (writeLarderBytes_rest rest (a + 1) _).trans rfl

/-- Bytes written to the Larder change nothing else of the memories. -/
theorem larderBytes_only (a : Nat) (b : List Byte) : Only [.larder] u (u.modMem fun m => m.writeLarderBytes a b) := by
  have e : { u.mem.writeLarderBytes a b with larder := [] } = { u.mem with larder := [] } := writeLarderBytes_rest b a u.mem
  intro p hp
  cases p
  case flash => exact (congrArg (fun m : Mem => { m with staged := [], heldOps := [] }) e :)
  case owed => exact ⟨(congrArg Mem.staged e :), (congrArg Mem.heldOps e :)⟩
  all_goals first | rfl | exact ⟨rfl, rfl⟩ | exact ⟨rfl, rfl, rfl⟩ | exact absurd (by decide) hp

theorem countVerdict_only (n : Lane) (v : Verdict) : Only [.regs] u (u.countVerdict n v) := by
  cases v <;> simp (disch := decide) [countVerdict]

theorem releaseRes_only (w : ResFor) : Only [.energy] u (u.release w) :=
  fun p hp => by cases p <;> first | rfl | exact ⟨rfl, rfl⟩ | exact ⟨rfl, rfl, rfl⟩ | exact absurd (by decide) hp

theorem endsOf_only (n : Lane) (r : Rec) : Only [.regs, .energy, .cmp] u (u.endsOf n r) := by
  unfold endsOf
  dsimp only
  split <;> simp (disch := decide) [Only.step (releaseRes_only _), Only.step (countVerdict_only _ _)]

theorem putRec_only (n : Lane) (r : Rec) : Only [.plc] u (u.putRec n r) := by unfold putRec; simp (disch := decide)

theorem copySlot_only (n : Lane) (r : Rec) : Only [.larder] u (u.copySlot n r) := by
  unfold copySlot
  dsimp only
  split
  · exact larderBytes_only _ _
  · exact Only.refl _ _

theorem closeRec_only (n : Lane) (r : Rec) : Only recordParts u (u.closeRec n r) := by
  unfold closeRec
  simp (disch := decide) [Only.step (copySlot_only _ _), Only.step (putRec_only _ _), Only.step (endsOf_only _ _)]

theorem storeRec_only (n : Lane) (r : Rec) : Only recordParts u (u.storeRec n r) := by
  unfold storeRec
  dsimp only
  have p : Only recordParts u (u.putRec n r) := (putRec_only n r).mono (by decide)
  split
  · exact (Only.step (copySlot_only _ _) (by decide)).2 p
  · cases r.state with
    | final => exact p
    | printing => exact (Only.step (closeRec_only _ _) (by decide)).2 p
    | created => exact (Only.step (closeRec_only _ _) (by decide)).2 p
    | latched => exact (Only.step (closeRec_only _ _) (by decide)).2 p

theorem proposeRec_only (n : Lane) (r : Rec) (v : Verdict) (c : Nat) : Only recordParts u (u.proposeRec n r v c) := by
  unfold proposeRec
  dsimp only
  split
  · exact storeRec_only _ _
  · simp (disch := decide) [Only.step (storeRec_only _ _)]

theorem suspectPrinting_only (n : Lane) (c : Nat) : Only recordParts u (u.suspectPrinting n c) := by
  unfold suspectPrinting
  split
  · exact proposeRec_only _ _ _ _
  · exact Only.refl _ _

theorem endRecords_only (n : Lane) (c : Nat) : Only recordParts u (u.endRecords n c) := by
  refine Only.foldl (fun v r => ?_) _ _
  cases r.state with
  | final => exact Only.refl _ _
  | printing => exact closeRec_only _ _
  | created => exact closeRec_only _ _
  | latched => exact closeRec_only _ _

theorem freeSlot_only (n : Lane) (r : Rec) : Only [.larder] u (u.freeSlot n r) := by
  unfold freeSlot
  dsimp only
  split
  · exact larderBytes_only _ _
  · exact Only.refl _ _

theorem freeRec_only (n : Lane) (r : Rec) : Only [.larder, .plc] u (u.freeRec n r) := by
  unfold freeRec
  simp (disch := decide) [Only.step (freeSlot_only _ _)]

theorem discardRecs_only (n : Lane) : Only [.larder, .plc] u (u.discardRecs n) := by
  unfold discardRecs
  dsimp only
  simp (disch := decide) only [only_modLane]
  exact (Only.foldl (fun v r => freeSlot_only _ _) _ _).mono (by decide)

end Sys2Proof.Machine.State
end

