-- ==== Sys2Proof/Laws/Clock.lean ====
section
/-! SUPPORT. What the passing of time may change, and that the tick comes to its deadline: timers, their actions, what they feed,
and the advance of the tick. -/

namespace Sys2Proof.Machine.State

variable {l : List Part} {s u : State}

/-! ### Hoist starts -/

theorem beginRun_only (c : Chan) (k : RunKind) : Only [.hst, .order] u (u.beginRun c k) := by
  unfold beginRun
  simp (disch := decide)

theorem startChan_only (c : Chan) (k : RunKind) : Only [.hst, .order, .regs, .guards] u (u.startChan c k) := by
  unfold startChan
  split <;> simp (disch := decide) [Only.step (beginRun_only _ _)]

/-! ### Timers -/

/-- The parts that timers may change by themselves. -/
def timerParts : List Part := [.tmr, .hst, .order, .regs, .guards, .out]

theorem tmStart_only (t : TimerId) : Only [.tmr, .regs] u (u.tmStart t) := by
  unfold tmStart
  dsimp only
  split <;> simp (disch := decide)

theorem toutLevel_only (p : Nat) (v : Bool) : Only [.regs, .out] u (u.toutLevel p v) := by
  unfold toutLevel
  simp (disch := decide)

theorem toutOp_only (p n : Nat) : Only [.regs, .out] u (u.toutOp p n) := by
  unfold toutOp
  split <;> first | exact toutLevel_only _ _ | exact Only.refl _ _

theorem act_only {m : List Part} (b : Bool) {f : State → State} (h : ∀ v, Only m v (f v)) (hm : .order ∈ m) : Only m u (u.act b f) := by
  unfold act
  split
  · exact (h u).trans (by simp [hm])
  · exact Only.refl _ _

theorem tmActions_only (t : TimerId) (w : Word) {self : State → State} (h : ∀ v, Only [.tmr] v (self v)) (mask : Word) :
    Only timerParts u (u.tmActions t w self mask) := by
  unfold tmActions
  dsimp only
  simp (disch := decide) only [only_commit, only_setFlags]
  have a1 := act_only (u := u) (bit w 0) (fun v => (h v).mono (m := timerParts) (by decide)) (by decide)
  have a2 (v : State) : Only timerParts v (v.act (bit w 1) fun s => s.tmStop t) :=
    act_only _ (fun v => by simp (disch := decide) [tmStop]) (by decide)
  have a3 (v : State) (n : TimerId) : Only timerParts v (v.act (bit w 4) fun s => s.tmLoad n 0) :=
    act_only _ (fun v => by simp (disch := decide) [tmLoad]) (by decide)
  have a4 (v : State) (n : TimerId) : Only timerParts v (v.act (bit w 2) fun s => s.tmStart n) :=
    act_only _ (fun v => (tmStart_only n).mono (by decide)) (by decide)
  have a5 (v : State) (n : TimerId) : Only timerParts v (v.act (bit w 3) fun s => s.tmStop n) :=
    act_only _ (fun v => by simp (disch := decide) [tmStop]) (by decide)
  have a6 (v : State) (c : Bool) : Only timerParts v (v.act c fun s => s.toutOp (bits w 13 12) (bits w 9 8)) :=
    act_only _ (fun v => (toutOp_only _ _).mono (by decide)) (by decide)
  have all := ((((a1.trans (a2 _)).trans (a3 _ (u.tmLink t))).trans (a4 _ (u.tmLink t))).trans (a5 _ (u.tmLink t))).trans
    (a6 _ (decide (bits w 9 8 ≠ 0)))
  split
  · exact all.trans ((startChan_only _ _).mono (by decide))
  · exact all

theorem tmPass_only (t : TimerId) (k : Nat) : Only [.tmr] u (u.tmPass t k).1 := by
  unfold tmPass
  dsimp only
  split <;> simp (disch := decide)

theorem passAll_only : ∀ (xs : List (TimerId × Nat)) (u : State), Only [.tmr] u (passAll xs u).1
  | [], u => Only.refl _ u
  | (t, k) :: xs, u => by
    unfold passAll
    exact (tmPass_only t k).trans (passAll_only xs _)

/-! ### Lanes -/

theorem laneMarks_only (xs : List (TimerId × Nat)) (n : Lane) : Only [.tmr] u (u.laneMarks xs n) :=
  Only.foldl (fun _ _ => by simp (disch := decide)) _ _

theorem reverseCheck_only (n : Lane) : Only clockParts u (u.reverseCheck n) := by
  unfold reverseCheck
  dsimp only
  split
  · simp (disch := decide)
  · split
    · refine (Only.step (suspectPrinting_only _ _) (by decide)).2 ?_
      simp (disch := decide)
    · exact Only.refl _ _

theorem fireTimer_only {ovf : State → TimerId → State} (h : ∀ v t, Only clockParts v (ovf v t)) (e : TimerId × Nat) :
    Only clockParts u (fireTimer ovf u e) := by
  unfold fireTimer
  dsimp only
  have a : Only clockParts u (u.tmActions e.1 (u.tmAct e.1 e.2)
      (fun s => if e.2 < 4 then s.modTimer e.1 fun x => { x with count := x.count - u.tmVal e.1 e.2 } else s) (word (2 ^ e.2))) :=
    (tmActions_only _ _ (fun v => by split <;> simp (disch := decide)) _).mono (by decide)
  split
  · exact a.trans (h _ _)
  · exact a

theorem feedTimers_only {ovf : State → TimerId → State} (h : ∀ v t, Only clockParts v (ovf v t)) (xs : List (TimerId × Nat)) :
    Only clockParts u (feedTimers ovf u xs) := by
  unfold feedTimers
  exact ((passAll_only xs u).mono (by decide)).trans (Only.foldl (fun v e => fireTimer_only h e) _ _)

theorem laneCountWith_only {ovf : State → TimerId → State} (h : ∀ v t, Only clockParts v (ovf v t)) (n : Lane) (d : Int) :
    Only clockParts u (laneCountWith ovf u n d) := by
  unfold laneCountWith
  dsimp only
  refine (Only.step (reverseCheck_only _) (by decide)).2 ((Only.step (feedTimers_only h _) (by decide)).2 ?_)
  refine (Only.step (laneMarks_only _ _) (by decide)).2 ?_
  simp (disch := decide)

theorem overflowN_only : ∀ (f : Nat) (u : State) (t : TimerId), Only clockParts u (overflowN f u t)
  | 0, u, _ => Only.refl _ u
  | f + 1, u, t => by
    unfold overflowN
    refine (feedTimers_only (overflowN_only f) _).trans (Only.foldl (fun v n => ?_) _ _)
    split
    · exact laneCountWith_only (overflowN_only f) _ _
    · exact Only.refl _ _

theorem feed_only (xs : List (TimerId × Nat)) : Only clockParts u (u.feed xs) := feedTimers_only (overflowN_only 40) xs

theorem feedSrc_only (k n : Nat) : Only clockParts u (u.feedSrc k n) := feed_only _

theorem laneCount_only (n : Lane) (d : Int) : Only clockParts u (u.laneCount n d) := laneCountWith_only (overflowN_only 40) n d

theorem countLanes_only (k : Nat) (d : Int) : Only clockParts u (u.countLanes k d) :=
  Only.foldl (fun _ _ => by split <;> first | exact laneCount_only _ _ | exact Only.refl _ _) _ _

/-! ### The tick -/

theorem nextTick_bounds {d : Nat} (h : u.tick < d) : u.tick < u.nextTick d ∧ u.nextTick d ≤ d := by
  unfold nextTick
  have : ∀ (ts : List TimerId) (m : Nat), u.tick < m → m ≤ d →
      u.tick < ts.foldl (fun m t => match u.hitTick t with | some h => if u.tick < h ∧ h < m then h else m | none => m) m ∧
        ts.foldl (fun m t => match u.hitTick t with | some h => if u.tick < h ∧ h < m then h else m | none => m) m ≤ d := by
    intro ts
    induction ts with
    | nil => exact fun m h1 h2 => ⟨h1, h2⟩
    | cons t ts ih =>
      intro m h1 h2
      rw [List.foldl_cons]
      split
      · split
        · exact ih _ (by omega) (by omega)
        · exact ih _ h1 h2
      · exact ih _ h1 h2
  exact this _ d h (Nat.le_refl d)

theorem runTicks_only : ∀ (f : Nat) (u : State) (d : Nat), Only (.tick :: clockParts) u (runTicks f u d)
  | 0, u, _ => Only.refl _ u
  | f + 1, u, d => by
    unfold runTicks
    split
    · have t : Only (.tick :: clockParts) u { u with tick := u.nextTick d } :=
        fun p hp => by cases p <;> first | rfl | exact ⟨rfl, rfl⟩ | exact ⟨rfl, rfl, rfl⟩ | exact absurd (by decide) hp
      exact (t.trans ((feed_only _).mono (by decide))).trans (runTicks_only f _ d)
    · exact Only.refl _ _

theorem runTicks_tick : ∀ (f : Nat) (u : State) (d : Nat), d - u.tick ≤ f → (runTicks f u d).tick = max u.tick d
  | 0, u, d, h => by
    unfold runTicks
    omega
  | f + 1, u, d, h => by
    unfold runTicks
    split
    · rename_i hlt
      obtain ⟨b1, b2⟩ := nextTick_bounds hlt
      dsimp only
      generalize hv : ({ u with tick := u.nextTick d }.feed _) = v
      have e : v.tick = u.nextTick d := by
        rw [← hv]
        exact feed_only _ .tick (by decide)
      rw [runTicks_tick f v d (by omega), e]
      omega
    · omega

/-- The parts that an advance of the tick leaves as they are do not include `clockParts` and the tick. -/
theorem advanceTo_only (d : Nat) : Only (.tick :: clockParts) u (u.advanceTo d) := by
  unfold advanceTo
  split
  · exact runTicks_only _ _ _
  · exact Only.refl _ _

/-- The tick comes to the deadline, or stays where it lies beyond. -/
theorem advanceTo_tick (h : u.ticking = true) (d : Nat) : (u.advanceTo d).tick = max u.tick d := by
  unfold advanceTo
  rw [if_pos h]
  exact runTicks_tick _ _ _ (Nat.le_refl _)

theorem advanceDue_only (d : Option Nat) : Only (.tick :: clockParts) u (u.advanceDue d) := by
  cases d
  · exact Only.refl _ _
  · exact advanceTo_only _

/-- The core still runs after an advance. -/
theorem coreOn_of_only {m : List Part} (h : Only m s u) (hm : .boot ∉ m) : u.coreOn = s.coreOn := by
  have e : u.boot = s.boot := h .boot hm
  simp only [coreOn, e]

theorem pwrState_of_only {m : List Part} (h : Only m s u) (hm : .pwr ∉ m) : u.pwr.state = s.pwr.state := by
  have e : { u.pwr with live := [], spent := [], refused := false } = { s.pwr with live := [], spent := [], refused := false } :=
    h .pwr hm
  exact (congrArg Pantry.state e :)

theorem ticking_of_only {m : List Part} (h : Only m s u) (hb : .boot ∉ m) (hp : .pwr ∉ m) : u.ticking = s.ticking := by
  simp only [ticking, coreOn_of_only h hb, pwrState_of_only h hp]

/-! ### Events in time -/

theorem timed_some (h : s.ticking = true) (d : Nat) (f : State → State) : s.timed (some d) f = f (s.advanceTo d) := by
  simp [timed, h]

theorem periodic_eq (h : s.ticking = true) (k b p : Nat) (f : State → State) :
    s.periodic k b p f =
      f ((s.advanceTo (s.dueAt k b p)).setFired k (s.advanceTo (s.dueAt k b p)).tick) := by
  simp [periodic, timed, h]

end Sys2Proof.Machine.State
end

