-- ==== Sys2Proof/Laws/Replies.lean ====
section
/-! SUPPORT. What responses, messages to sessions and the end of a session may change. -/

namespace Sys2Proof.Machine.State

variable {l : List Part} {s u : State}

/-- A STATE item where source 8 selects no reset. -/
theorem stateItem_quiet (k : Nat) (o : Option Lane) (a b : Nat) (h8 : u.picks 8 = false) :
    Only noticeParts u (u.stateItem k o a b) := by
  have drops : ∀ (is : List Sess) (v : State), Only noticeParts u v →
      Only noticeParts u (is.foldl (fun s i => raise s Kind.eventDrop (word i.val)) v) := fun is => by
    induction is with
    | nil => exact fun v hv => hv
    | cons i is ih =>
      intro v hv
      have p8 : v.picks 8 = false := by rw [picks_of_only hv (by decide)]; exact h8
      exact ih _ (hv.trans (raiseN_quiet 12 v _ _ _ p8 p8))
  unfold stateItem
  generalize EventItem.state k o a b u.order _ = e
  have q : Only noticeParts u (queueItems (fun x _ => bit x.classes 1) e allSess u).1 :=
    (queueItems_only (fun x _ => bit x.classes 1) e allSess u).mono (by decide)
  exact drops _ _ q

theorem transmit_only (p : Nat) (full : Bool) (b : List Byte) : Only [.regs, .out] u (u.transmit p full b) := by
  unfold transmit
  repeat' split
  all_goals simp (disch := decide)

theorem sendFrameI_only (b : List Byte) : Only [.regs, .out] u (u.sendFrameI b) :=
  Only.foldl (fun _ _ => transmit_only _ _ _) _ _

theorem sendIp_only (r : Route) (n : Nat) (d : BitVec 32) (b : List Byte) : Only [.regs, .lnk, .out] u (u.sendIp r n d b) :=
  (Only.step (sendFrameI_only _) (by decide)).2 (by simp (disch := decide))

theorem sendTo_only (p : Peer) (r : Route) (m : List Byte) : Only replyParts u (u.sendTo p r m) := by
  unfold sendTo
  cases p with
  | lp => simp (disch := decide)
  | ether => exact (sendFrameI_only _).mono (by decide)
  | udp => exact (sendIp_only _ _ _ _).mono (by decide)

theorem sendSess_only (i : Sess) (a b c : Nat) (m : List Byte) : Only replyParts u (u.sendSess i a b c m) := by
  unfold sendSess
  dsimp only
  split
  · exact sendTo_only _ _ _
  · simp (disch := decide) [Only.step (sendTo_only _ _ _)]

theorem noteSent_only (i : Sess) (r : Resp) : Only [.lnk, .out] u (u.noteSent i r) := by
  unfold noteSent
  simp (disch := decide)

theorem owe_only (i : Sess) (q : BitVec 16) (t : BitVec 6) : Only [.lnk] u (u.owe i q t) := by
  unfold owe
  split <;> simp (disch := decide)

theorem holdBack_only (w : LpWork) : Only [.ses] u (u.holdBack w) := by unfold holdBack; simp (disch := decide)

theorem disown_only (i : Sess) : Only [.owed, .plc] u (u.disown i) := by
  have mem (v : State) (f : List Staged) (g : List HeldOp) :
      Only [.owed] v (v.modMem fun m => { m with staged := f, heldOps := g }) :=
    fun p hp => by cases p <;> first | rfl | exact ⟨rfl, rfl⟩ | exact ⟨rfl, rfl, rfl⟩ | exact absurd (by decide) hp
  unfold disown
  exact ((mem u _ _).mono (by decide)).trans (Only.foldl (fun _ _ => by simp (disch := decide)) _ _)

theorem fillGuards_only : Only [.guards] u u.fillGuards := Only.foldl (fun _ _ => by simp (disch := decide)) _ _

theorem leaveStandalone_quiet (h8 : u.picks 8 = false) : Only noticeParts u u.leaveStandalone := by
  unfold leaveStandalone
  split
  · have e : Only noticeParts u (u.setFld Reg.DEV_STATUS 1 1 0) := by simp (disch := decide)
    exact e.trans (stateItem_quiet _ _ _ _ (by rw [picks_of_only e (by decide)]; exact h8))
  · exact Only.refl _ _

theorem changeOwner_quiet (n : Option Sess) (k : Nat) (h8 : u.picks 8 = false) : Only noticeParts u (u.changeOwner n k) := by
  unfold changeOwner
  dsimp only
  generalize hv : commit _ = v
  have e : Only noticeParts u v := by
    rw [← hv]
    simp (disch := decide) [Only.step fillGuards_only]
  have p8 : v.picks 8 = false := by rw [picks_of_only e (by decide)]; exact h8
  have f := e.trans (stateItem_quiet 3 none (ownerCode u.owner) (ownerCode n) p8)
  split
  · exact f.trans (leaveStandalone_quiet (by rw [picks_of_only f (by decide)]; exact h8))
  · exact f

theorem freeSlotOf_only (i : Sess) : Only [.owed, .plc, .lnk, .ses] u (u.freeSlotOf i) := by
  unfold freeSlotOf
  dsimp only
  split <;> simp (disch := decide) [Only.step (disown_only _)]

theorem vacate_quiet (i : Sess) (h8 : u.picks 8 = false) : Only noticeParts u (u.vacate i) := by
  unfold vacate
  split
  · exact changeOwner_quiet _ _ h8
  · exact Only.refl _ _

theorem endClosed_quiet (i : Sess) (h8 : u.picks 8 = false) : Only leaveParts u (u.endClosed i) := by
  have e : Only leaveParts u (u.freeSlotOf i) := (freeSlotOf_only i).mono (by decide)
  exact e.trans ((vacate_quiet i (by rw [picks_of_only e (by decide)]; exact h8)).mono (by decide))

/-- Responses that do not end their session. -/
theorem sendResps_only (i : Sess) (r : List Resp) (h : r.any closes = false) : Only replyParts u (u.sendResps i r) := by
  unfold sendResps
  rw [h]
  exact (Only.step (sendSess_only _ _ _ _ _) (by decide)).2 ((Only.foldl (fun _ _ => noteSent_only _ _) _ _).mono (by decide))

theorem sendResps_quiet (i : Sess) (r : List Resp) (h8 : u.picks 8 = false) : Only leaveParts u (u.sendResps i r) := by
  unfold sendResps
  have e : Only leaveParts u ((r.foldl (fun (s : State) (r : Resp) => s.noteSent i r) u).sendSess i 2 r.length 0 (r.flatMap respBytes)) :=
    (Only.step (sendSess_only _ _ _ _ _) (by decide)).2 ((Only.foldl (fun _ _ => noteSent_only _ _) _ _).mono (by decide))
  dsimp only
  split
  · exact e.trans (endClosed_quiet i (by rw [picks_of_only e (by decide)]; exact h8))
  · exact e

theorem answerOne_only (i : Sess) (r : List Resp) (h : r.any closes = false) : Only replyParts u (u.answerOne i r) := by
  unfold answerOne
  split
  · refine (Only.step (holdBack_only _) (by decide)).2 ((Only.foldl (m := [.lnk]) (fun v x => ?_) _ _).mono (by decide))
    split
    · exact Only.refl _ _
    · exact owe_only _ _ _
  · exact sendResps_only i r h

/-- A single response is a RESPONSE of its own. -/
theorem respond_eq (i : Sess) (r : Resp) : u.respond i r = if (u.sess i).bound = true then u.answerOne i [r] else u := rfl

/-- A response that does not end its session changes only what is sent. -/
theorem respond_only (i : Sess) (r : Resp) (h : closes r = false) : Only replyParts u (u.respond i r) := by
  rw [respond_eq]
  split
  · exact answerOne_only i [r] (by simp [h])
  · exact Only.refl _ _

/-- The response of an operation other than CLOSE. -/
theorem only_respond (i : Sess) (r : Resp) (hr : closes r = false) (hl : ∀ p ∈ replyParts, p ∈ l) :
    Only l s (u.respond i r) ↔ Only l s u :=
  Only.step (respond_only i r hr) hl

theorem sendWork_quiet (w : LpWork) (h8 : u.picks 8 = false) : Only leaveParts u (u.sendWork w) := by
  cases w with
  | resps r => exact sendResps_quiet 0 r h8
  | nak c k => exact (sendSess_only _ _ _ _ _).mono (by decide)
  | raw m => exact (sendTo_only _ _ _).mono (by decide)

theorem pumpN_quiet : ∀ (n : Nat) (u : State), u.picks 8 = false → Only leaveParts u (pumpN n u)
  | 0, u, _ => Only.refl _ u
  | n + 1, u, h8 => by
    unfold pumpN
    split
    · split
      · exact Only.refl _ _
      · rename_i w rest _
        have e : Only leaveParts u (u.modSes fun x => { x with lpHeld := rest }) := by simp (disch := decide)
        have f := e.trans (sendWork_quiet w (by rw [picks_of_only e (by decide)]; exact h8))
        exact f.trans (pumpN_quiet n _ (by rw [picks_of_only f (by decide)]; exact h8))
    · exact Only.refl _ _

theorem sendEvents_only (i : Sess) : Only replyParts u (u.sendEvents i) := by
  unfold sendEvents
  dsimp only
  split
  · exact (Only.step (sendSess_only _ _ _ _ _) (by decide)).2 (by simp (disch := decide))
  · exact Only.refl _ _

theorem pumpEvents_only : Only replyParts u u.pumpEvents :=
  Only.foldl (fun _ i => (((sendEvents_only i).trans (sendEvents_only i)).trans (sendEvents_only i)).trans (sendEvents_only i)) _ _

end Sys2Proof.Machine.State
end

