-- ==== Sys2Proof/Laws/Blocks.lean ====
section
/-! SUPPORT. Registers by block: which blocks of registers an operation may change. -/

namespace Sys2Proof.Machine

theorem RegsIn.refl (l : List Nat) (s : State) : RegsIn l s s := fun _ _ => rfl

@[simp] theorem regsIn_self (l : List Nat) (s : State) : RegsIn l s s ↔ True := iff_true_intro (RegsIn.refl l s)

theorem RegsIn.trans {l : List Nat} {s t u : State} (h : RegsIn l s t) (k : RegsIn l t u) : RegsIn l s u :=
  fun a ha => (k a ha).trans (h a ha)

theorem RegsIn.mono {l m : List Nat} {s t : State} (h : RegsIn l s t) (hl : ∀ b ∈ l, b ∈ m) : RegsIn m s t :=
  fun a ha => h a fun hb => ha (hl _ hb)

theorem RegsIn.step {l m : List Nat} {s t u : State} (h : RegsIn m t u) (hl : ∀ b ∈ m, b ∈ l) : RegsIn l s u ↔ RegsIn l s t :=
  ⟨fun k => k.trans fun a ha => (h a fun hb => ha (hl _ hb)).symm, fun k => k.trans (h.mono hl)⟩

theorem RegsIn.foldl {α : Type} {m : List Nat} {f : State → α → State} (h : ∀ s a, RegsIn m s (f s a)) :
    ∀ (xs : List α) (s : State), RegsIn m s (xs.foldl f s)
  | [], s => RegsIn.refl m s
  | x :: xs, s => (h s x).trans (RegsIn.foldl h xs (f s x))

theorem RegsIn.foldl_mem {α : Type} {m : List Nat} {f : State → α → State} :
    ∀ (xs : List α) (s : State), (∀ s, ∀ a ∈ xs, RegsIn m s (f s a)) → RegsIn m s (xs.foldl f s)
  | [], s, _ => RegsIn.refl m s
  | x :: xs, s, h => (h s x (by simp)).trans (RegsIn.foldl_mem xs (f s x) fun v a ha => h v a (by simp [ha]))

/-- An operation that does not change registers. -/
theorem Only.regsIn {l : List Part} {s t : State} (h : Only l s t) (hl : .regs ∉ l) : RegsIn [] s t := fun a _ => by
  have e : t.regs = s.regs := h .regs hl
  simp only [State.reg, e]

namespace State

variable {l : List Nat} {s u : State}

theorem setReg_in (a : Nat) (v : Word) : RegsIn [a / 0x1000] u (u.setReg a v) := fun b hb =>
  setReg_reg_other _ _ _ _ fun e => hb (by simp [e])

@[simp] theorem regsIn_setReg (a : Nat) (v : Word) (hl : a / 0x1000 ∈ l) : RegsIn l s (u.setReg a v) ↔ RegsIn l s u :=
  RegsIn.step (setReg_in a v) (by simpa using hl)

@[simp] theorem regsIn_setFld (a hi lo v : Nat) (hl : a / 0x1000 ∈ l) : RegsIn l s (u.setFld a hi lo v) ↔ RegsIn l s u :=
  regsIn_setReg a _ hl

theorem bump_in (a : Nat) : RegsIn [a / 0x1000] u (u.bump a) := by
  unfold bump
  split
  · exact RegsIn.refl _ _
  · exact setReg_in _ _

@[simp] theorem regsIn_bump (a : Nat) (hl : a / 0x1000 ∈ l) : RegsIn l s (u.bump a) ↔ RegsIn l s u :=
  RegsIn.step (bump_in a) (by simpa using hl)

theorem bumpFld_in (a hi lo : Nat) : RegsIn [a / 0x1000] u (u.bumpFld a hi lo) := by
  unfold bumpFld
  split
  · exact RegsIn.refl _ _
  · exact setReg_in _ _

@[simp] theorem regsIn_bumpFld (a hi lo : Nat) (hl : a / 0x1000 ∈ l) : RegsIn l s (u.bumpFld a hi lo) ↔ RegsIn l s u :=
  RegsIn.step (bumpFld_in a hi lo) (by simpa using hl)

theorem setFlags_in (a : Nat) (m : Word) : RegsIn [a / 0x1000] u (u.setFlags a m) := setReg_in _ _

@[simp] theorem regsIn_setFlags (a : Nat) (m : Word) (hl : a / 0x1000 ∈ l) : RegsIn l s (u.setFlags a m) ↔ RegsIn l s u :=
  RegsIn.step (setFlags_in a m) (by simpa using hl)

@[simp] theorem regsIn_setFlag (a n : Nat) (hl : a / 0x1000 ∈ l) : RegsIn l s (u.setFlag a n) ↔ RegsIn l s u :=
  regsIn_setFlags a _ hl

/-- An operation whose frame leaves registers out. -/
theorem regsIn_of_only {m : List Part} {t : State} (h : Only m u t) (hm : .regs ∉ m) : RegsIn l s t ↔ RegsIn l s u :=
  RegsIn.step (h.regsIn hm) (by simp)

@[simp] theorem regsIn_setGuard (a k : Nat) : RegsIn l s (u.setGuard a k) ↔ RegsIn l s u := Iff.rfl
@[simp] theorem regsIn_commit : RegsIn l s u.commit ↔ RegsIn l s u := Iff.rfl
@[simp] theorem regsIn_emit (e : Emit) : RegsIn l s (u.emit e) ↔ RegsIn l s u := Iff.rfl
@[simp] theorem regsIn_setFired (k t : Nat) : RegsIn l s (u.setFired k t) ↔ RegsIn l s u := Iff.rfl
@[simp] theorem regsIn_setLane (n : Lane) (x : LaneSt) : RegsIn l s (u.setLane n x) ↔ RegsIn l s u := Iff.rfl
@[simp] theorem regsIn_modLane (n : Lane) (f : LaneSt → LaneSt) : RegsIn l s (u.modLane n f) ↔ RegsIn l s u := Iff.rfl
@[simp] theorem regsIn_setHead (h : Head) (x : HedSt) : RegsIn l s (u.setHead h x) ↔ RegsIn l s u := Iff.rfl
@[simp] theorem regsIn_modHead (h : Head) (f : HedSt → HedSt) : RegsIn l s (u.modHead h f) ↔ RegsIn l s u := Iff.rfl
@[simp] theorem regsIn_setHealth (h : Head) (x : HltSt) : RegsIn l s (u.setHealth h x) ↔ RegsIn l s u := Iff.rfl
@[simp] theorem regsIn_modHealth (h : Head) (f : HltSt → HltSt) : RegsIn l s (u.modHealth h f) ↔ RegsIn l s u := Iff.rfl
@[simp] theorem regsIn_setAxis (x : Axis) (a : AxisSt) : RegsIn l s (u.setAxis x a) ↔ RegsIn l s u := Iff.rfl
@[simp] theorem regsIn_modAxis (x : Axis) (f : AxisSt → AxisSt) : RegsIn l s (u.modAxis x f) ↔ RegsIn l s u := Iff.rfl
@[simp] theorem regsIn_setChan (c : Chan) (x : ChanSt) : RegsIn l s (u.setChan c x) ↔ RegsIn l s u := Iff.rfl
@[simp] theorem regsIn_modChan (c : Chan) (f : ChanSt → ChanSt) : RegsIn l s (u.modChan c f) ↔ RegsIn l s u := Iff.rfl
@[simp] theorem regsIn_setTimer (t : TimerId) (x : Timer) : RegsIn l s (u.setTimer t x) ↔ RegsIn l s u := Iff.rfl
@[simp] theorem regsIn_modTimer (t : TimerId) (f : Timer → Timer) : RegsIn l s (u.modTimer t f) ↔ RegsIn l s u := Iff.rfl
@[simp] theorem regsIn_setSess (i : Sess) (x : Session) : RegsIn l s (u.setSess i x) ↔ RegsIn l s u := Iff.rfl
@[simp] theorem regsIn_modSess (i : Sess) (f : Session → Session) : RegsIn l s (u.modSess i f) ↔ RegsIn l s u := Iff.rfl
@[simp] theorem regsIn_setRejLane (n : Lane) (x : RejLane) : RegsIn l s (u.setRejLane n x) ↔ RegsIn l s u := Iff.rfl
@[simp] theorem regsIn_modRejLane (n : Lane) (f : RejLane → RejLane) : RegsIn l s (u.modRejLane n f) ↔ RegsIn l s u := Iff.rfl
@[simp] theorem regsIn_setLaneState (n : Lane) (x : LaneState) : RegsIn l s (u.setLaneState n x) ↔ RegsIn l s u := Iff.rfl
@[simp] theorem regsIn_modPwr (f : Pantry → Pantry) : RegsIn l s (u.modPwr f) ↔ RegsIn l s u := Iff.rfl
@[simp] theorem regsIn_modFlt (f : Collector → Collector) : RegsIn l s (u.modFlt f) ↔ RegsIn l s u := Iff.rfl
@[simp] theorem regsIn_modBoot (f : Boot → Boot) : RegsIn l s (u.modBoot f) ↔ RegsIn l s u := Iff.rfl
@[simp] theorem regsIn_modMem (f : Mem → Mem) : RegsIn l s (u.modMem f) ↔ RegsIn l s u := Iff.rfl
@[simp] theorem regsIn_modCmp (f : Cmp → Cmp) : RegsIn l s (u.modCmp f) ↔ RegsIn l s u := Iff.rfl
@[simp] theorem regsIn_modCal (f : Cal → Cal) : RegsIn l s (u.modCal f) ↔ RegsIn l s u := Iff.rfl
@[simp] theorem regsIn_modRej (f : Rej → Rej) : RegsIn l s (u.modRej f) ↔ RegsIn l s u := Iff.rfl
@[simp] theorem regsIn_modHat (f : Hat → Hat) : RegsIn l s (u.modHat f) ↔ RegsIn l s u := Iff.rfl
@[simp] theorem regsIn_modHst (f : Hst → Hst) : RegsIn l s (u.modHst f) ↔ RegsIn l s u := Iff.rfl
@[simp] theorem regsIn_modPlc (f : Plc → Plc) : RegsIn l s (u.modPlc f) ↔ RegsIn l s u := Iff.rfl
@[simp] theorem regsIn_modTmr (f : Tmr → Tmr) : RegsIn l s (u.modTmr f) ↔ RegsIn l s u := Iff.rfl
@[simp] theorem regsIn_modSes (f : Ses → Ses) : RegsIn l s (u.modSes f) ↔ RegsIn l s u := Iff.rfl
@[simp] theorem regsIn_modLnk (f : Link → Link) : RegsIn l s (u.modLnk f) ↔ RegsIn l s u := Iff.rfl

/-! ### Messages -/

theorem recordBin_in (m : FaultMsg) : RegsIn [4] u (u.recordBin m) := by
  unfold recordBin
  dsimp only
  split <;> split <;> simp (disch := decide)

theorem recordSource_in (k : Nat) (hk : k < 36) : RegsIn [4] u (u.recordSource k) := by
  have e : Reg.FLT_SRC_STATE (k / 16) / 0x1000 ∈ [4] := by simp only [List.mem_singleton, Reg.FLT_SRC_STATE]; omega
  unfold recordSource setSrcState
  dsimp only
  split
  · exact RegsIn.refl _ _
  · rw [regsIn_modFlt]
    split <;> simp (disch := first | exact e | decide)

theorem trapPulse_in : RegsIn [4] u u.trapPulse := by
  unfold trapPulse
  dsimp only
  split <;> simp (disch := decide)

theorem errPin_in : RegsIn [4] u u.errPin := by
  unfold errPin
  simp (disch := decide)

/-- A message changes registers of the collector only. -/
theorem raiseN_in : ∀ (n : Nat) (u : State) (k : Kind) (a : Word) (o : Option Lane), k.src < 36 → RegsIn [4] u (raiseN n u k a o)
  | 0, u, _, _, _, _ => RegsIn.refl _ u
  | n + 1, u, k, a, o, hk => by
    unfold raiseN
    dsimp only
    split
    · exact RegsIn.refl _ _
    · refine RegsIn.trans ?_ (RegsIn.foldl (fun s i => raiseN_in n s _ _ _ (by decide)) _ _)
      refine (regsIn_of_only (selectResets_only _ _) (by decide)).2 ?_
      have fault : ∀ (c : Bool) (v : State) (w : Session → Sess → Bool) (e : EventItem),
          RegsIn [4] v (if c = true then queueItems w e allSess v else (v, [])).1 := fun c v w e => by
        split
        · exact ((queueItems_only w e _ v).regsIn (by decide)).mono (by simp)
        · exact RegsIn.refl _ _
      have trap : ∀ (c : Bool) (v : State) (e : EventItem),
          RegsIn [4] v
            (if c = true then queueItems v.trapPulse.wantsTrap e allSess v.trapPulse else (v, [])).1 := fun c v e => by
        split
        · exact trapPulse_in.trans (((queueItems_only _ e _ _).regsIn (by decide)).mono (by simp))
        · exact RegsIn.refl _ _
      have core : RegsIn [4] u ((u.commit.recordBin ⟨k.src, k.code, a, u.commit.order, o,
          match o with | some l => (u.commit.lane l).pc | none => 0⟩).recordSource k.src) :=
        RegsIn.trans (RegsIn.trans (by simp) (recordBin_in _)) (recordSource_in _ hk)
      split
      · exact ((core.trans (fault _ _ _ _)).trans (trap _ _ _)).trans errPin_in
      · exact (core.trans (fault _ _ _ _)).trans (trap _ _ _)

@[simp] theorem regsIn_raise (k : Kind) (a : Word) (hl : k.src < 36 ∧ 4 ∈ l) : RegsIn l s (u.raise k a) ↔ RegsIn l s u :=
  RegsIn.step (raiseN_in 12 u k a none hl.1) (by simpa using hl.2)

@[simp] theorem regsIn_raiseLane (k : Kind) (a : Word) (n : Lane) (hl : k.src < 36 ∧ 4 ∈ l) :
    RegsIn l s (u.raiseLane k a n) ↔ RegsIn l s u :=
  RegsIn.step (raiseN_in 12 u k a (some n) hl.1) (by simpa using hl.2)

theorem stateItem_in (k : Nat) (o : Option Lane) (a b : Nat) : RegsIn [4] u (u.stateItem k o a b) := by
  unfold stateItem
  generalize EventItem.state k o a b u.order _ = e
  have q : RegsIn [4] u (queueItems (fun x _ => bit x.classes 1) e allSess u).1 :=
    ((queueItems_only (fun x _ => bit x.classes 1) e allSess u).regsIn (by decide)).mono (by simp)
  exact q.trans (RegsIn.foldl (fun v i => raiseN_in 12 v _ _ none (by decide)) _ _)

@[simp] theorem regsIn_stateItem (k : Nat) (o : Option Lane) (a b : Nat) (hl : 4 ∈ l) :
    RegsIn l s (u.stateItem k o a b) ↔ RegsIn l s u :=
  RegsIn.step (stateItem_in k o a b) (by simpa using hl)

/-! ### Time -/

theorem startChan_in (c : Chan) (k : RunKind) : RegsIn [8] u (u.startChan c k) := by
  have e : Reg.HST_EVT c / 0x1000 ∈ [8] := by revert c; decide
  unfold startChan
  split
  case h_1 => exact ((beginRun_only c k).regsIn (by decide)).mono (by simp)
  all_goals simp (disch := first | exact e | decide)

theorem tmCfg_block (t : TimerId) : Reg.TMR_CFG t / 0x1000 = 5 := by revert t; decide
theorem tmStat_block (t : TimerId) : Reg.TMR_STAT t / 0x1000 = 5 := by revert t; decide

theorem tmStop_in (t : TimerId) : RegsIn [5] u (u.tmStop t) := by
  unfold tmStop
  simp [tmCfg_block]

theorem tmStart_in (t : TimerId) : RegsIn [5] u (u.tmStart t) := by
  unfold tmStart
  dsimp only
  split <;> simp [tmCfg_block]

theorem toutLevel_in (p : Nat) (v : Bool) : RegsIn [5] u (u.toutLevel p v) := by
  unfold toutLevel
  simp (disch := decide)

theorem toutOp_in (p n : Nat) : RegsIn [5] u (u.toutOp p n) := by
  unfold toutOp
  split <;> first | exact toutLevel_in _ _ | exact RegsIn.refl _ _

theorem act_in {m : List Nat} (b : Bool) {f : State → State} (h : ∀ v, RegsIn m v (f v)) : RegsIn m u (u.act b f) := by
  unfold act
  split
  · exact (h u).trans (by simp)
  · exact RegsIn.refl _ _

theorem tmActions_in (t : TimerId) (w : Word) {self : State → State} (h : ∀ v, RegsIn [5, 8] v (self v)) (mask : Word) :
    RegsIn [5, 8] u (u.tmActions t w self mask) := by
  unfold tmActions
  dsimp only
  rw [regsIn_commit, regsIn_setFlags _ _ (by simp [tmStat_block])]
  have a1 := act_in (u := u) (bit w 0) h
  have a2 (v : State) : RegsIn [5, 8] v (v.act (bit w 1) fun s => s.tmStop t) := act_in _ fun v => (tmStop_in t).mono (by simp)
  have a3 (v : State) (n : TimerId) : RegsIn [5, 8] v (v.act (bit w 4) fun s => s.tmLoad n 0) :=
    act_in _ fun v => by simp [tmLoad]
  have a4 (v : State) (n : TimerId) : RegsIn [5, 8] v (v.act (bit w 2) fun s => s.tmStart n) :=
    act_in _ fun v => (tmStart_in n).mono (by simp)
  have a5 (v : State) (n : TimerId) : RegsIn [5, 8] v (v.act (bit w 3) fun s => s.tmStop n) :=
    act_in _ fun v => (tmStop_in n).mono (by simp)
  have a6 (v : State) (c : Bool) : RegsIn [5, 8] v (v.act c fun s => s.toutOp (bits w 13 12) (bits w 9 8)) :=
    act_in _ fun v => (toutOp_in _ _).mono (by simp)
  have all := ((((a1.trans (a2 _)).trans (a3 _ (u.tmLink t))).trans (a4 _ (u.tmLink t))).trans (a5 _ (u.tmLink t))).trans
    (a6 _ (decide (bits w 9 8 ≠ 0)))
  split
  · exact all.trans ((startChan_in _ _).mono (by simp))
  · exact all

theorem countVerdict_in (n : Lane) (v : Verdict) : RegsIn [6] u (u.countVerdict n v) := by
  have h1 : Reg.PLC_CNT_MARKED n / 0x1000 ∈ [6] := by revert n; decide
  have h2 : Reg.PLC_CNT_UNMARKED n / 0x1000 ∈ [6] := by revert n; decide
  have h3 : Reg.PLC_CNT_INCOMPLETE n / 0x1000 ∈ [6] := by revert n; decide
  have h4 : Reg.PLC_CNT_SUSPECT n / 0x1000 ∈ [6] := by revert n; decide
  have h5 : Reg.PLC_CNT_BYPASSED n / 0x1000 ∈ [6] := by revert n; decide
  cases v <;> simp [countVerdict, h1, h2, h3, h4, h5]

theorem endsOf_in (n : Lane) (r : Rec) : RegsIn [6] u (u.endsOf n r) := by
  unfold endsOf
  dsimp only
  rw [regsIn_modCmp, regsIn_of_only (releaseRes_only _) (by decide)]
  split
  · exact RegsIn.refl _ _
  · exact countVerdict_in _ _

theorem closeRec_in (n : Lane) (r : Rec) : RegsIn [6] u (u.closeRec n r) := by
  unfold closeRec
  dsimp only
  rw [regsIn_commit, regsIn_of_only (copySlot_only _ _) (by decide), regsIn_of_only (putRec_only _ _) (by decide)]
  exact endsOf_in _ _

theorem storeRec_in (n : Lane) (r : Rec) : RegsIn [6] u (u.storeRec n r) := by
  unfold storeRec
  dsimp only
  have p : RegsIn [6] u (u.putRec n r) := ((putRec_only n r).regsIn (by decide)).mono (by simp)
  split
  · exact p.trans (((copySlot_only _ _).regsIn (by decide)).mono (by simp))
  · cases r.state with
    | final => exact p
    | printing => exact p.trans (closeRec_in _ _)
    | created => exact p.trans (closeRec_in _ _)
    | latched => exact p.trans (closeRec_in _ _)

theorem proposeRec_in (n : Lane) (r : Rec) (v : Verdict) (c : Nat) : RegsIn [6] u (u.proposeRec n r v c) := by
  unfold proposeRec
  dsimp only
  split
  · exact storeRec_in _ _
  · rw [regsIn_commit]
    exact storeRec_in _ _

theorem suspectPrinting_in (n : Lane) (c : Nat) : RegsIn [6] u (u.suspectPrinting n c) := by
  unfold suspectPrinting
  split
  · exact proposeRec_in _ _ _ _
  · exact RegsIn.refl _ _

/-- The blocks of registers that the passing of time may change: FLT, TMR, PLC and HST. -/
def clockBlocks : List Nat := [4, 5, 6, 8]

theorem reverseCheck_in (n : Lane) : RegsIn clockBlocks u (u.reverseCheck n) := by
  have e : Reg.PLC_EVT n / 0x1000 ∈ clockBlocks := by revert n; decide
  unfold reverseCheck
  dsimp only
  split
  · simp
  · split
    · refine RegsIn.trans ?_ ((suspectPrinting_in _ _).mono (by decide))
      rw [regsIn_raiseLane _ _ _ ⟨by have := n.isLt; simp only [Kind.reverse]; omega, by decide⟩, regsIn_setFlag _ _ e]
      simp
    · exact RegsIn.refl _ _

theorem fireTimer_in {ovf : State → TimerId → State} (h : ∀ v t, RegsIn clockBlocks v (ovf v t)) (e : TimerId × Nat) :
    RegsIn clockBlocks u (fireTimer ovf u e) := by
  unfold fireTimer
  dsimp only
  have a : RegsIn clockBlocks u (u.tmActions e.1 (u.tmAct e.1 e.2)
      (fun s => if e.2 < 4 then s.modTimer e.1 fun x => { x with count := x.count - u.tmVal e.1 e.2 } else s) (word (2 ^ e.2))) :=
    (tmActions_in _ _ (fun v => by split <;> simp) _).mono (by decide)
  split
  · exact a.trans (h _ _)
  · exact a

theorem feedTimers_in {ovf : State → TimerId → State} (h : ∀ v t, RegsIn clockBlocks v (ovf v t)) (xs : List (TimerId × Nat)) :
    RegsIn clockBlocks u (feedTimers ovf u xs) := by
  unfold feedTimers
  exact (((passAll_only xs u).regsIn (by decide)).mono (by simp)).trans (RegsIn.foldl (fun v e => fireTimer_in h e) _ _)

theorem laneCountWith_in {ovf : State → TimerId → State} (h : ∀ v t, RegsIn clockBlocks v (ovf v t)) (n : Lane) (d : Int) :
    RegsIn clockBlocks u (laneCountWith ovf u n d) := by
  unfold laneCountWith
  dsimp only
  refine RegsIn.trans (RegsIn.trans ?_ (feedTimers_in h _)) (reverseCheck_in _)
  rw [regsIn_of_only (laneMarks_only _ _) (by decide)]
  simp

theorem overflowN_in : ∀ (f : Nat) (u : State) (t : TimerId), RegsIn clockBlocks u (overflowN f u t)
  | 0, u, _ => RegsIn.refl _ u
  | f + 1, u, t => by
    unfold overflowN
    refine (feedTimers_in (overflowN_in f) _).trans (RegsIn.foldl (fun v n => ?_) _ _)
    split
    · exact laneCountWith_in (overflowN_in f) _ _
    · exact RegsIn.refl _ _

theorem feed_in (xs : List (TimerId × Nat)) : RegsIn clockBlocks u (u.feed xs) := feedTimers_in (overflowN_in 40) xs

theorem laneCount_in (n : Lane) (d : Int) : RegsIn clockBlocks u (u.laneCount n d) := laneCountWith_in (overflowN_in 40) n d

theorem runTicks_in : ∀ (f : Nat) (u : State) (d : Nat), RegsIn clockBlocks u (runTicks f u d)
  | 0, u, _ => RegsIn.refl _ u
  | f + 1, u, d => by
    unfold runTicks
    split
    · have t : RegsIn clockBlocks u { u with tick := u.nextTick d } := fun _ _ => rfl
      exact (t.trans (feed_in _)).trans (runTicks_in f _ d)
    · exact RegsIn.refl _ _

/-- An advance of the tick changes registers of the collector, the timers, placement and the Hoist only. -/
theorem advanceTo_in (d : Nat) : RegsIn clockBlocks u (u.advanceTo d) := by
  unfold advanceTo
  split
  · exact runTicks_in _ _ _
  · exact RegsIn.refl _ _

/-- A field of a register outside the blocks that change. -/
theorem fld_of_regsIn (h : RegsIn l s u) (a hi lo : Nat) (ha : a / 0x1000 ∉ l) : u.fld a hi lo = s.fld a hi lo := by
  simp only [fld, h a ha]

theorem rbit_of_regsIn (h : RegsIn l s u) (a n : Nat) (ha : a / 0x1000 ∉ l) : u.rbit a n = s.rbit a n := by
  simp only [rbit, h a ha]

/-! ### Replies -/

theorem transmit_in (p : Nat) (full : Bool) (b : List Byte) (hp : p < 2) : RegsIn [2] u (u.transmit p full b) := by
  have e : Reg.LNK_TX p / 0x1000 ∈ [2] := by simp only [List.mem_singleton, Reg.LNK_TX]; omega
  unfold transmit
  repeat' split
  · exact RegsIn.refl _ _
  · exact (bump_in Reg.LNK_FWD_DROP).mono (by decide)
  · simp [e]

end State
end Sys2Proof.Machine
end

