-- ==== Sys2Proof/Laws/Memory.lean ====
section
/-! SUPPORT. The memories: every operation keeps the canonical form `Memory.wf`, a read after a write gives what was written, and
a write leaves every other place alone. -/

namespace Sys2Proof.Machine

/-- The canonical form, part by part. -/
theorem Memory.wf_iff (m : Mem) :
    Memory.wf m = true ↔
      Tab.wf voidWord m.larder = true ∧ Tab.wf blankByte m.cellar = true ∧ Tab.wf blankByte m.loft = true ∧
        Tab.wf tableReset m.tables = true := by
  simp [Memory.wf, and_assoc]

namespace Mem

variable (m : Mem)

/-! ### The canonical form -/

theorem setWord64_wf (i : Nat) (v : Option (BitVec 64)) (h : Memory.wf m = true) : Memory.wf (m.setWord64 i v) = true := by
  rw [Memory.wf_iff] at *
  exact ⟨Tab.wf_set _ _ _ _ h.1, h.2.1, h.2.2.1, h.2.2.2⟩

theorem voidBank_wf (b : Nat) (h : Memory.wf m = true) : Memory.wf (m.voidBank b) = true := by
  rw [Memory.wf_iff] at *
  exact ⟨Tab.wf_clear voidWord m.larder (fun i => i / 32768 == b) h.1, h.2.1, h.2.2.1, h.2.2.2⟩

theorem voidAll_wf (h : Memory.wf m = true) : Memory.wf m.voidAll = true := by
  rw [Memory.wf_iff] at *
  exact ⟨rfl, h.2.1, h.2.2.1, h.2.2.2⟩

theorem writeLarder_wf (a n x : Nat) (h : Memory.wf m = true) : Memory.wf (m.writeLarder a n x) = true := setWord64_wf _ _ _ h

theorem writeLarderBytes_wf (l : List Byte) : ∀ (m : Mem) (a : Nat), Memory.wf m = true → Memory.wf (m.writeLarderBytes a l) = true := by
  induction l with
  | nil => exact fun _ _ h => h
  | cons b l ih => exact fun m a h => ih _ _ (writeLarder_wf m a 1 _ h)

theorem writeLarderWords_wf (l : List Word) : ∀ (m : Mem) (a : Nat), Memory.wf m = true → Memory.wf (m.writeLarderWords a l) = true := by
  induction l with
  | nil => exact fun _ _ h => h
  | cons b l ih => exact fun m a h => ih _ _ (writeLarder_wf m a 4 _ h)

theorem setCellarByte_wf (a : Nat) (b : Byte) (h : Memory.wf m = true) : Memory.wf (m.setCellarByte a b) = true := by
  rw [Memory.wf_iff] at *
  exact ⟨h.1, Tab.wf_set _ _ _ _ h.2.1, h.2.2.1, h.2.2.2⟩

theorem programCellar_wf (l : List Byte) : ∀ (m : Mem) (a : Nat), Memory.wf m = true → Memory.wf (m.programCellar a l) = true := by
  induction l with
  | nil => exact fun _ _ h => h
  | cons b l ih => exact fun m a h => ih _ _ (setCellarByte_wf m a _ h)

theorem setCellarBytes_wf (l : List Byte) : ∀ (m : Mem) (a : Nat), Memory.wf m = true → Memory.wf (m.setCellarBytes a l) = true := by
  induction l with
  | nil => exact fun _ _ h => h
  | cons b l ih => exact fun m a h => ih _ _ (setCellarByte_wf m a _ h)

theorem eraseCellar_wf (a n : Nat) (h : Memory.wf m = true) : Memory.wf (m.eraseCellar a n) = true := by
  rw [Memory.wf_iff] at *
  exact ⟨h.1, Tab.wf_clear blankByte m.cellar (fun k => decide (a ≤ k) && decide (k < a + n)) h.2.1, h.2.2.1, h.2.2.2⟩

theorem setLoftByte_wf (o : Nat) (b : Byte) (h : Memory.wf m = true) : Memory.wf (m.setLoftByte o b) = true := by
  rw [Memory.wf_iff] at *
  exact ⟨h.1, h.2.1, Tab.wf_set _ _ _ _ h.2.2.1, h.2.2.2⟩

theorem setLoftBytes_wf (l : List Byte) : ∀ (m : Mem) (o : Nat), Memory.wf m = true → Memory.wf (m.setLoftBytes o l) = true := by
  induction l with
  | nil => exact fun _ _ h => h
  | cons b l ih => exact fun m o h => ih _ _ (setLoftByte_wf m o b h)

theorem setTable_wf (a : Nat) (v : Word) (h : Memory.wf m = true) : Memory.wf (m.setTable a v) = true := by
  rw [Memory.wf_iff] at *
  exact ⟨h.1, h.2.1, h.2.2.1, Tab.wf_set _ _ _ _ h.2.2.2⟩

theorem setTableWords_wf (l : List Word) : ∀ (m : Mem) (a : Nat), Memory.wf m = true → Memory.wf (m.setTableWords a l) = true := by
  induction l with
  | nil => exact fun _ _ h => h
  | cons b l ih => exact fun m a h => ih _ _ (setTable_wf m a b h)

/-! ### Read after write -/

@[simp] theorem word64_setWord64_same (i : Nat) (v : Option (BitVec 64)) : (m.setWord64 i v).word64 i = v := Tab.get_set_same ..

theorem word64_setWord64_other {i j : Nat} (v : Option (BitVec 64)) (h : j ≠ i) : (m.setWord64 i v).word64 j = m.word64 j :=
  Tab.get_set_other _ _ _ h

@[simp] theorem cellarByte_setCellarByte_same (a : Nat) (b : Byte) : (m.setCellarByte a b).cellarByte a = b := Tab.get_set_same ..

theorem cellarByte_setCellarByte_other {a c : Nat} (b : Byte) (h : c ≠ a) : (m.setCellarByte a b).cellarByte c = m.cellarByte c :=
  Tab.get_set_other _ _ _ h

@[simp] theorem loftByte_setLoftByte_same (o : Nat) (b : Byte) : (m.setLoftByte o b).loftByte o = b := Tab.get_set_same ..

theorem loftByte_setLoftByte_other {o c : Nat} (b : Byte) (h : c ≠ o) : (m.setLoftByte o b).loftByte c = m.loftByte c :=
  Tab.get_set_other _ _ _ h

@[simp] theorem table_setTable_same (a : Nat) (v : Word) : (m.setTable a v).table a = v := Tab.get_set_same ..

theorem table_setTable_other {a c : Nat} (v : Word) (h : c ≠ a) : (m.setTable a v).table c = m.table c := Tab.get_set_other _ _ _ h

/-- A Larder write leaves every other word of the Larder alone. -/
theorem word64_writeLarder_other {a i : Nat} (n x : Nat) (h : i ≠ larderIdx a) : (m.writeLarder a n x).word64 i = m.word64 i :=
  word64_setWord64_other _ _ h

/-- A Larder write makes its word valid (R78). -/
theorem word64_writeLarder_same (a n x : Nat) :
    (m.writeLarder a n x).word64 (larderIdx a) = some (mergeWord ((m.word64 (larderIdx a)).getD 0) (a % 8) n x) :=
  word64_setWord64_same ..

/-- Setting bytes of the Loft leaves every byte outside alone. -/
theorem loftByte_setLoftBytes_other (l : List Byte) :
    ∀ (m : Mem) (o c : Nat), (c < o ∨ o + l.length ≤ c) → (m.setLoftBytes o l).loftByte c = m.loftByte c := by
  induction l with
  | nil => exact fun _ _ _ _ => rfl
  | cons b l ih =>
    intro m o c h
    simp only [setLoftBytes, List.length_cons] at *
    rw [ih _ _ _ (by omega), loftByte_setLoftByte_other _ _ (by omega)]

/-- The Loft bytes set are the ones read back. -/
theorem loftByte_setLoftBytes_mem (l : List Byte) : ∀ (m : Mem) (o i : Nat), i < l.length →
    (m.setLoftBytes o l).loftByte (o + i) = l.getD i 0 := by
  induction l with
  | nil => intro m o i h; simp at h
  | cons b rest ih =>
    intro m o i h
    cases i with
    | zero =>
      rw [Mem.setLoftBytes, loftByte_setLoftBytes_other rest _ _ _ (by omega)]
      simp
    | succ k =>
      have := ih (m.setLoftByte o b) (o + 1) k (by simpa using h)
      simpa [Mem.setLoftBytes, Nat.add_assoc, Nat.add_comm 1 k] using this

theorem loftBytes_setLoftBytes (l : List Byte) (m : Mem) (o : Nat) : (m.setLoftBytes o l).loftBytes o l.length = l := by
  apply List.ext_getElem
  · simp [Mem.loftBytes]
  · intro i h1 h2
    simp only [Mem.loftBytes, List.getElem_map, List.getElem_range]
    rw [loftByte_setLoftBytes_mem l m o i h2]
    simp [h2]

/-- Programming leaves every byte of the Cellar outside alone. -/
theorem cellarByte_programCellar_other (l : List Byte) :
    ∀ (m : Mem) (a c : Nat), (c < a ∨ a + l.length ≤ c) → (m.programCellar a l).cellarByte c = m.cellarByte c := by
  induction l with
  | nil => exact fun _ _ _ _ => rfl
  | cons b l ih =>
    intro m a c h
    simp only [programCellar, List.length_cons] at *
    rw [ih _ _ _ (by omega), cellarByte_setCellarByte_other _ _ (by omega)]

end Mem

end Sys2Proof.Machine
end

