-- ==== Sys2Proof/Laws/Settle.lean ====
section
/-! SUPPORT. What follows a command in a calm state: what `after` may change, and that READY, IRQ_OUT and ERR_OUT stand at the
levels of their conditions afterwards. -/

namespace Sys2Proof.Machine.State

variable {l : List Part} {s u : State}

/-! ### The units that follow others -/

theorem shareTasks_only : Only [.regs, .cmp] u u.shareTasks := by
  unfold shareTasks
  dsimp only
  repeat' split
  all_goals simp (disch := decide)

theorem trackSlots_only : Only [.cmp] u u.trackSlots :=
  Only.foldl (fun _ _ => by dsimp only; split <;> simp (disch := decide)) _ _

theorem debit_only (w : ResFor) (e : Nat) : Only [.energy] u (u.debit w e) := by
  unfold debit
  split
  · exact Only.refl _ _
  · exact fun p hp => by cases p <;> first | rfl | exact ⟨rfl, rfl⟩ | exact ⟨rfl, rfl, rfl⟩ | exact absurd (by decide) hp

theorem release_only (w : ResFor) : Only [.energy] u (u.release w) :=
  fun p hp => by cases p <;> first | rfl | exact ⟨rfl, rfl⟩ | exact ⟨rfl, rfl, rfl⟩ | exact absurd (by decide) hp

theorem debitAll_only (w : ResFor) : Only [.energy] u (u.debitAll w) := by
  unfold debitAll
  split
  · exact Only.refl _ _
  · exact (debit_only _ _).trans (release_only _)

theorem grant_only (w : ResFor) (e : Nat) : Only [.energy, .order] u (u.grant w e) :=
  fun p hp => by cases p <;> first | rfl | exact ⟨rfl, rfl⟩ | exact ⟨rfl, rfl, rfl⟩ | exact absurd (by decide) hp

theorem heatGo_only (h : Head) (st : HeatState) (d : Nat) : Only [.energy, .hlt, .order] u (u.heatGo h st d) := by
  unfold heatGo
  dsimp only
  split <;> simp (disch := decide) [Only.step (debitAll_only _)]

/-- The parts that a heater's transition may change, with the message of a refusal. -/
def heatParts : List Part := .energy :: .hlt :: noticeParts

theorem refuse_quiet (o : Option Lane) (h5 : u.picks 5 = false) (h8 : u.picks 8 = false) :
    Only (.energy :: noticeParts) u (u.refuse o) := by
  have flag (v : State) : Only [.energy] v (v.modPwr fun p => { p with refused := true }) :=
    fun p hp => by cases p <;> first | rfl | exact ⟨rfl, rfl⟩ | exact ⟨rfl, rfl, rfl⟩ | exact absurd (by decide) hp
  have go : ∀ (v : State), Only (.energy :: noticeParts) u v → Only (.energy :: noticeParts) u
      (if v.pwr.state = .run ∧ v.pwr.refused = false then
        ((v.modPwr fun p => { p with refused := true }).setFlag Reg.PWR_EVT 2).raise Kind.pwrCharge (word v.vLow)
      else v) := fun v hv => by
    split
    · have e : Only (.energy :: noticeParts) u ((v.modPwr fun p => { p with refused := true }).setFlag Reg.PWR_EVT 2) :=
        hv.trans (by simp (disch := decide) [Only.step (flag _)])
      refine e.trans ((raiseN_quiet 12 _ _ _ _ ?_ ?_).mono (by decide))
      · rw [picks_of_only e (by decide)]; exact h5
      · rw [picks_of_only e (by decide)]; exact h8
    · exact hv
  cases o with
  | none => exact go _ (by simp (disch := decide))
  | some n => exact go _ (by simp (disch := decide))

theorem requestWarm_quiet (h : Head) (h5 : u.picks 5 = false) (h8 : u.picks 8 = false) : Only heatParts u (u.requestWarm h) := by
  unfold requestWarm startFreeze
  dsimp only
  split
  · simp (disch := decide) [Only.step (heatGo_only _ _ _), Only.step (grant_only _ _)]
  · exact (refuse_quiet none h5 h8).mono (by decide)

theorem heatWait_quiet (h : Head) (h5 : u.picks 5 = false) (h8 : u.picks 8 = false) : Only heatParts u (u.heatWait h) := by
  unfold heatWait
  have e : Only heatParts u ((u.heatGo h .energyWait 0).modHealth h fun x => { x with good := [] }) := by
    simp (disch := decide) [Only.step (heatGo_only _ _ _)]
  exact e.trans (requestWarm_quiet h (by rw [picks_of_only e (by decide)]; exact h5) (by rw [picks_of_only e (by decide)]; exact h8))

theorem trackHeat_quiet (h : Head) (h5 : u.picks 5 = false) (h8 : u.picks 8 = false) : Only heatParts u (u.trackHeat h) := by
  unfold trackHeat
  repeat' split
  all_goals first | exact Only.refl _ _ | exact heatWait_quiet h h5 h8 | exact (heatGo_only _ _ _).mono (by decide)

/-- A fold whose steps keep a frame as long as no message selects a reset. -/
theorem fold_quiet {α : Type} {m : List Part} {f : State → α → State} (hm : .flash ∉ m)
    (h : ∀ v a, v.picks 5 = false → v.picks 8 = false → Only m v (f v a)) :
    ∀ (xs : List α) (v : State), v.picks 5 = false → v.picks 8 = false → Only m v (xs.foldl f v)
  | [], v, _, _ => Only.refl m v
  | x :: xs, v, h5, h8 => by
    have e := h v x h5 h8
    exact e.trans (fold_quiet hm h xs _ (by rw [picks_of_only e hm]; exact h5) (by rw [picks_of_only e hm]; exact h8))

theorem trackHeats_quiet (h5 : u.picks 5 = false) (h8 : u.picks 8 = false) : Only heatParts u u.trackHeats :=
  fold_quiet (by decide) (fun _ h => trackHeat_quiet h) _ _ h5 h8

theorem startSpan_only (n : Lane) : Only [.rej] u (u.startSpan n) := by
  unfold startSpan
  dsimp only
  split <;> simp (disch := decide)

theorem startSpans_only : Only [.rej, .order] u u.startSpans :=
  Only.foldl (fun _ _ => by split <;> simp (disch := decide) [Only.step (startSpan_only _)]) _ _

/-! ### Lanes in service -/

/-- The parts that a lane's transition may change. -/
def lanesParts : List Part := .hat :: .rej :: .plc :: .ses :: noticeParts

theorem discardDeferred_only (n : Lane) : Only [.regs, .plc, .lnk, .ses, .out] u (u.discardDeferred n) := by
  unfold discardDeferred
  dsimp only
  have e : Only [.regs, .plc, .lnk, .ses, .out] u (u.modLane n fun l => { l with deferred := [] }) := by simp (disch := decide)
  refine e.trans ((Only.foldl (m := replyParts) (fun v d => ?_) _ _).mono (by decide))
  split
  · exact (Only.step (respond_only _ _ rfl) (by decide)).2 (by simp (disch := decide))
  · simp (disch := decide)

theorem toLane_quiet (n : Lane) (st : LaneState) (h8 : u.picks 8 = false) : Only (.hat :: noticeParts) u (u.toLane n st) := by
  unfold toLane
  dsimp only
  generalize hv : commit _ = v
  have e : Only (.hat :: noticeParts) u v := by
    rw [← hv]
    cases st <;> simp (disch := decide)
  exact e.trans ((stateItem_quiet _ _ _ _ (by rw [picks_of_only e (by decide)]; exact h8)).mono (by decide))

theorem enterOpen_quiet (n : Lane) (h8 : u.picks 8 = false) : Only lanesParts u (u.enterOpen n) :=
  (Only.step (discardDeferred_only n) (by decide)).2 ((toLane_quiet n _ h8).mono (by decide))

theorem enterService_quiet (n : Lane) (h8 : u.picks 8 = false) : Only lanesParts u (u.enterService n) := by
  unfold enterService
  refine (Only.step (startSpan_only n) (by decide)).2 ?_
  simp (disch := decide) only [only_modLane]
  exact (toLane_quiet n _ h8).mono (by decide)

theorem evaluate_quiet (n : Lane) (h8 : u.picks 8 = false) : Only lanesParts u (u.evaluate n) := by
  unfold evaluate
  dsimp only
  have e (w : Word) : Only lanesParts u (u.setReg (Reg.HAT_CHECK n) w) := by simp (disch := decide)
  split
  · exact (e _).trans (enterService_quiet n (by rw [picks_of_only (e _) (by decide)]; exact h8))
  · exact e _

theorem trackLane_quiet (n : Lane) (h8 : u.picks 8 = false) : Only lanesParts u (u.trackLane n) := by
  unfold trackLane
  repeat' split
  all_goals first | exact Only.refl _ _ | exact enterOpen_quiet n h8 | exact evaluate_quiet n h8

theorem trackLanes_quiet (h5 : u.picks 5 = false) (h8 : u.picks 8 = false) : Only lanesParts u u.trackLanes := by
  unfold trackLanes
  split
  · exact fold_quiet (by decide) (fun _ n _ => trackLane_quiet n) _ _ h5 h8
  · exact Only.refl _ _

/-! ### The whole -/

/-- The parts that may change after a command in a calm state. -/
def calmParts : List Part :=
  [.order, .regs, .guards, .flt, .energy, .owed, .lnk, .ses, .plc, .cmp, .hlt, .rej, .hat, .out]

/-- The parts that the units' following may change. -/
def unitParts : List Part := [.order, .regs, .guards, .flt, .energy, .lnk, .ses, .plc, .cmp, .hlt, .rej, .hat, .out]

theorem settleUnits_quiet (h5 : u.picks 5 = false) (h8 : u.picks 8 = false) : Only unitParts u u.settleUnits := by
  unfold settleUnits
  have a : Only unitParts u u.shareTasks.trackSlots :=
    (Only.step trackSlots_only (by decide)).2 (shareTasks_only.mono (by decide))
  have b := a.trans ((trackHeats_quiet (by rw [picks_of_only a (by decide)]; exact h5)
    (by rw [picks_of_only a (by decide)]; exact h8)).mono (by decide))
  have c := b.trans (startSpans_only.mono (by decide))
  exact c.trans ((trackLanes_quiet (by rw [picks_of_only c (by decide)]; exact h5)
    (by rw [picks_of_only c (by decide)]; exact h8)).mono (by decide))

/-- With no reset due nothing runs. -/
theorem flush_nil (h : u.flt.due = []) : u.flush = u := by
  unfold flush flushN
  rw [h]
  rfl

theorem errRelease_only : Only [.regs, .order] u u.errRelease := by
  unfold errRelease
  split <;> simp (disch := decide)

theorem settleHeld_calm (hh : u.mem.heldOps = []) (hl : u.ses.lpIn = []) : Only [.owed] u u.settleHeld := by
  have rel : Only [.owed] u u.releaseHeld := by
    unfold releaseHeld
    dsimp only
    split
    · exact Only.refl _ _
    · rw [hh]
      exact fun p hp => by cases p <;> first | rfl | exact ⟨rfl, rfl⟩ | exact ⟨rfl, rfl, rfl⟩ | exact absurd (by decide) hp
  have none_ : ∀ (n : Nat) (v : State), v.ses.lpIn = [] → takeLp n v = v
    | 0, _, _ => rfl
    | n + 1, v, hv => by unfold takeLp; rw [hv]; split <;> rfl
  unfold settleHeld
  split
  · rw [none_]
    · exact rel
    · exact (congrArg Ses.lpIn (rel .ses (by decide) : u.releaseHeld.ses = u.ses)).trans hl
  · exact Only.refl _ _

theorem settleLink_quiet (h8 : u.picks 8 = false) : Only leaveParts u u.settleLink := by
  unfold settleLink
  split
  · exact (Only.step pumpEvents_only (by decide)).2 (pumpN_quiet 8 u h8)
  · exact Only.refl _ _

theorem trackRej_only (n : Lane) : Only [.rej, .out] u (u.trackRej n) := by
  unfold trackRej
  dsimp only
  split <;> simp (disch := decide)

theorem trackPin_only (a b : Bool) (f : Rej → Rej) (p : String) (o : Option Bool) : Only [.rej, .out] u (u.trackPin a b f p o) := by
  unfold trackPin
  split <;> simp (disch := decide)

theorem trackLine_only : Only [.rej, .out] u u.trackLine :=
  ((trackPin_only _ _ _ _ _).trans (trackPin_only _ _ _ _ _)).trans (trackPin_only _ _ _ _ _)

theorem settleCore_calm (h : u.Calm) : Only calmParts u u.settleCore := by
  obtain ⟨hd, hh, hl, h5, h8⟩ := h
  have due : ∀ {v : State}, Only calmParts u v → v.flt.due = [] := fun k => (k .due (by decide) : _ = u.flt.due).trans hd
  have p5 : ∀ {v : State}, Only calmParts u v → v.picks 5 = false := fun k => by rw [picks_of_only k (by decide)]; exact h5
  have p8 : ∀ {v : State}, Only calmParts u v → v.picks 8 = false := fun k => by rw [picks_of_only k (by decide)]; exact h8
  unfold settleCore
  dsimp only
  split
  · rw [flush_nil hd]
    have a : Only calmParts u u.settleHeld := (settleHeld_calm hh hl).mono (by decide)
    rw [flush_nil (due a)]
    have b := a.trans ((settleUnits_quiet (p5 a) (p8 a)).mono (by decide))
    rw [flush_nil (due b)]
    have c := b.trans ((settleUnits_quiet (p5 b) (p8 b)).mono (by decide))
    rw [flush_nil (due c)]
    have d := c.trans ((settleLink_quiet (p8 c)).mono (by decide))
    exact d.trans (errRelease_only.mono (by decide))
  · exact Only.refl _ _

/-- After a command whose effect leaves a calm state, only the link, the units that follow others and the line change. -/
theorem after_calm (h : u.Calm) : Only (.pending :: calmParts) u (s.after u) := by
  have a : Only calmParts u u.settle := by
    unfold settle
    refine (Only.step trackLine_only (by decide)).2 ?_
    exact (Only.step (Only.foldl (fun _ n => trackRej_only n) _ _) (by decide)).2 (settleCore_calm h)
  unfold after
  exact (a.mono (by decide)).trans fun p hp => by
    cases p <;> first | rfl | exact ⟨rfl, rfl⟩ | exact ⟨rfl, rfl, rfl⟩ | exact absurd (by decide) hp

@[simp] theorem after_pending : (s.after u).pending = s.pending := rfl

@[simp] theorem finish_eq : s.finish u = .next (s.after u) := rfl

end Sys2Proof.Machine.State
end

