-- ==== Sys2Proof/Laws/OwnerWrite.lean ====
section
/-! SUPPORT. A granted owner write: what it comes to, in general and for one word of a register that only takes its fields and
starts its own action. -/

namespace Sys2Proof.Machine.State

variable {s : State} {o : OpCtx} {env : OpEnv} {a : Nat} {ws : List Word} {v : Word}

/-- An operation of a session that asks runs and is answered. -/
theorem runOp_asks {op : Byte} {f : State → State × Answer} (h : s.Asks o) {t : State} {k : Nat} {d : List Byte} {c : Code}
    (hf : f s = (t, .now c k d)) :
    s.runOp o op f = t.respond o.sess (respOf op (BitVec.ofNat 8 o.tag.toNat) o.seq c k d) := by
  obtain ⟨h1, h2, h3, h4⟩ := h
  unfold runOp
  simp [h1, h2, h3, h4, hf]

theorem hasUe_nil {m : MemEnv} (h : m.ecc = []) (a : Nat) : hasUe m a = false := by simp [hasUe, h]

/-- A granted write is made, and answered OK with its order stamp. -/
theorem ownerWrites_granted (h : s.Granted o env a ws) :
    s.ownerWrites o env a ws =
      (s.makeWrite env (wordsAt a ws)).1.respond o.sess
        (respOf 3 (BitVec.ofNat 8 o.tag.toNat) o.seq .ok (s.makeWrite env (wordsAt a ws)).2 []) := by
  obtain ⟨hask, hown, had, hheld, hcommit, hecc, hiso⟩ := h
  refine runOp_asks hask ?_
  unfold wordsAt at *
  have acc : (writeList (word a) ws).findSome? (fun w => s.accessCode env.mem w.1) = none := by
    rw [List.findSome?_eq_none_iff]
    intro w hw
    simp [accessCode, mergeRead, hiso w hw, hasUe_nil hecc]
  have note (m : MemEnv) (hm : m.ecc = []) : s.noteCorrected m = s := by simp [noteCorrected, hm]
  unfold opWrite
  simp only [hown, List.nil_append, had, hheld, commitWrite, hcommit, accessWrite, Bool.false_eq_true, if_false]
  rw [note _ (by simp [hecc]), acc]

/-- The next state of a granted write. -/
theorem finish_granted (h : s.Granted o env a ws) :
    s.finish (s.ownerWrites o env a ws) =
      .next (s.answered o 3 (s.makeWrite env (wordsAt a ws)).1 (s.makeWrite env (wordsAt a ws)).2 []) := by
  rw [ownerWrites_granted h]
  rfl

/-- A register of which a write takes the fields and starts the action, and nothing else: no job is selected, no latched set or
waveform table changes, no timer value is passed over. -/
def ownAction (a : Nat) : Bool :=
  decide (a < 0x10000) && (jobLane a).isNone &&
    allLanes.all (fun n => !touchesLatched [(a, 0)] n && !touchesTable [(a, 0)] n) &&
    decide (a < 0x5000 ∨ 0x5800 ≤ a ∨ a % 0x40 < 0x10 ∧ a < 0x5400 ∨ 0x5700 ≤ a)

theorem selectsJob_none (h : jobLane a = none) (v : Word) : selectsJob (a, v) = false := by simp [selectsJob, h]

theorem touchesTable_value (h : jobLane a = none) (v w : Word) (n : Head) :
    touchesTable [(a, v)] n = touchesTable [(a, w)] n := by
  simp only [touchesTable, List.any_cons, List.any_nil, selectsJob_none h]

theorem touchesLatched_value (v w : Word) (n : Lane) : touchesLatched [(a, v)] n = touchesLatched [(a, w)] n := rfl

theorem lappedBy_own (t : TimerId) (u : State) (h : a < 0x5000 ∨ 0x5800 ≤ a ∨ a % 0x40 < 0x10 ∧ a < 0x5400 ∨ 0x5700 ≤ a) :
    u.lappedBy t [(a, v)] = 0 := by
  have ht := t.isLt
  unfold lappedBy
  have e : ∀ c ∈ List.range 4, (decide (a = Reg.TMR_VAL_LO t c) || decide (a = Reg.TMR_VAL_HI t c)) = false := by
    intro c hc
    have := List.mem_range.1 hc
    simp only [Bool.or_eq_false_iff, decide_eq_false_iff_not, Reg.TMR_VAL_LO, Reg.TMR_VAL_HI]
    have hc : c = 0 ∨ c = 1 ∨ c = 2 ∨ c = 3 := by omega
    rcases hc with rfl | rfl | rfl | rfl <;> omega
  have : (List.range 4).map (fun (c : Nat) =>
      if (([(a, v)] : Words).any fun w => decide (w.1 = Reg.TMR_VAL_LO t c) || decide (w.1 = Reg.TMR_VAL_HI t c)) &&
        decide (u.tmMode t c = 1) && decide (((u.timer t).count - u.tmVal t c).toNat < 2 ^ 47) then 2 ^ (12 + c) else 0) =
      (List.range 4).map fun _ => 0 := by
    refine List.map_congr_left fun c hc => ?_
    simp only [List.any_cons, List.any_nil, Bool.or_false, e c hc, Bool.false_and, Bool.false_eq_true, if_false]
  rw [this]
  rfl

theorem setLapped_own (u : State) (h : a < 0x5000 ∨ 0x5800 ≤ a ∨ a % 0x40 < 0x10 ∧ a < 0x5400 ∨ 0x5700 ≤ a) :
    u.setLapped [(a, v)] = u := by
  unfold setLapped
  have : ∀ (l : List TimerId) (u : State), l.foldl (fun (s : State) (t : TimerId) =>
      if s.lappedBy t [(a, v)] = 0 then s else s.setFlags (Reg.TMR_STAT t) (s.lappedBy t [(a, v)])) u = u := by
    intro l
    induction l with
    | nil => exact fun _ => rfl
    | cons t l ih => intro u; rw [List.foldl_cons, lappedBy_own t u h, if_pos rfl, ih]
  exact this _ u

/-- The effect of a live word that only takes its fields and starts its own action: its fields are placed, one commit, and the
action. -/
theorem makeWrite_own (ha : ownAction a = true) (hw : v &&& w1gMask a = 0) (hm : s.moot (a, v) = false) :
    s.makeWrite env [(a, v)] = (effect s env (s.placeWords [(a, v)]).commit (a, v), s.order + 1) := by
  simp only [ownAction, Bool.and_eq_true, decide_eq_true_eq, Option.isNone_iff_eq_none, List.all_eq_true,
    Bool.not_eq_true'] at ha
  obtain ⟨⟨⟨hlt, hj⟩, ht⟩, hr⟩ := ha
  have stale : s.staleClear (a, v) = false := by simp [staleClear, hw]
  have lanes : ∀ (l : List Lane), (∀ n ∈ l, n ∈ allLanes) → ∀ u : State,
      l.foldl (fun (s : State) (n : Lane) => if touchesLatched [(a, v)] n then s.commitLate n else s) u = u := by
    intro l hl
    induction l with
    | nil => exact fun _ => rfl
    | cons n l ih =>
      intro u
      rw [List.foldl_cons, touchesLatched_value v 0, (ht n (hl n (by simp))).1, if_neg (by simp)]
      exact ih (fun m hm => hl m (by simp [hm])) u
  have tables : ∀ (l : List Lane), (∀ n ∈ l, n ∈ allLanes) → ∀ u : State,
      l.foldl (fun (s : State) (n : Lane) => if touchesTable [(a, v)] n then s.checkTable n else s) u = u := by
    intro l hl
    induction l with
    | nil => exact fun _ => rfl
    | cons n l ih =>
      intro u
      rw [List.foldl_cons, touchesTable_value hj v 0, (ht n (hl n (by simp))).2, if_neg (by simp)]
      exact ih (fun m hm => hl m (by simp [hm])) u
  have store : s.storeWords env.mem [(a, v)] = s.placeWords [(a, v)] := by
    have h1 : ¬ 0x10000000 ≤ a := by omega
    have h2 : ¬ 0x10000 ≤ a := by omega
    simp [storeWords, hj, h1, h2, hw]
  have old : (s.placeWords [(a, v)]).order = s.order := by
    simp only [placeWords, List.foldl_cons, List.foldl_nil]
    split <;> rfl
  unfold makeWrite
  simp only [List.filter_cons, List.filter_nil, stale, hm, Bool.not_false, if_true, Bool.false_eq_true, if_false,
    List.foldl_nil, List.isEmpty_cons]
  rw [store, setLapped_own _ hr]
  simp only [startAll, List.foldl_cons, List.foldl_nil]
  rw [lanes _ (fun _ h => h), tables _ (fun _ h => h)]
  simp [old]

/-- The next state of a granted write of such a word. -/
theorem finish_own {v : Word} (h : s.Granted o env a [v]) (h32 : a < 2 ^ 32) (ha : ownAction a = true) (hw : v &&& w1gMask a = 0)
    (hm : s.moot (a, v) = false) :
    s.finish (s.ownerWrites o env a [v]) =
      .next (s.written o (effect s env (s.placeWords [(a, v)]).commit (a, v))) := by
  have e : wordsAt a [v] = [(a, v)] := by
    simp only [wordsAt, writeList, wordAddrs, word, BitVec.toNat_ofNat, Nat.mod_eq_of_lt h32]; simp
  rw [finish_granted h, e, makeWrite_own ha hw hm]
  rfl

/-- Placing the fields of a word changes registers only. -/
theorem placeWords_only (l : Words) : Only [.regs] s (s.placeWords l) :=
  Only.foldl (fun _ _ => by split <;> simp (disch := decide)) _ _

/-- Placing the fields of one word changes that register only. -/
theorem placeWords_reg_other (b : Nat) (h : b ≠ a) : (s.placeWords [(a, v)]).reg b = s.reg b := by
  simp only [placeWords, List.foldl_cons, List.foldl_nil]
  split
  · rfl
  · exact setReg_reg_other _ _ _ _ (Ne.symm h)

/-- A register without fields keeps what it reads as. -/
theorem placeWords_reg_trigger (h : rwMask a = 0) (b : Nat) : (s.placeWords [(a, v)]).reg b = s.reg b := by
  by_cases hb : b = a
  · subst hb
    simp only [placeWords, List.foldl_cons, List.foldl_nil]
    split
    · rfl
    · rw [setReg_reg_same, h]
      have e : ~~~(0 : Word) = BitVec.allOnes 32 := by decide
      have z : v &&& (0 : Word) = 0 := by simp
      rw [e, z, BitVec.and_allOnes]
      simp
  · exact placeWords_reg_other b hb

end Sys2Proof.Machine.State
end

