-- ==== Sys2Proof/Laws/PerInstr.lean ====
section
/-! SUPPORT. What holds of every command as syntax, one lemma for each constructor. `NoWord`: the table gives the command no bits,
and so no word spells it. -/

namespace Sys2Proof.Laws

/-- No word spells the command. -/
def NoWord.Statement (i : Instr) : Prop := ∀ nbits w : Nat, decodeTableWord nbits w ≠ some i

namespace NoWord

theorem none_spelled (i : Instr) : Statement i := fun _ _ => by simp [decodeTableWord]

theorem vaonRelease (conv : List (List Nat)) : Statement (.vaonRelease conv) := none_spelled _
theorem sccpClassRead : Statement .sccpClassRead := none_spelled _
theorem pgoodHigh (conv : List (List Nat)) : Statement (.pgoodHigh conv) := none_spelled _
theorem pantrySample (v i b : BitVec 12) (pgood : Bool) : Statement (.pantrySample v i b pgood) := none_spelled _
theorem finalCheckpointTimeout : Statement .finalCheckpointTimeout := none_spelled _
theorem parkingStart : Statement .parkingStart := none_spelled _
theorem railOut (rail : Fin 3) : Statement (.railOut rail) := none_spelled _
theorem railBringupTimeout : Statement .railBringupTimeout := none_spelled _
theorem railRetry : Statement .railRetry := none_spelled _
theorem tb100Lock (lv : Levels) : Statement (.tb100Lock lv) := none_spelled _
theorem tb100LockTimeout : Statement .tb100LockTimeout := none_spelled _
theorem pwrReqService (o : OpCtx) : Statement (.pwrReqService o) := none_spelled _
theorem pwrReqRun (o : OpCtx) : Statement (.pwrReqRun o) := none_spelled _
theorem pwrReqSleep (o : OpCtx) : Statement (.pwrReqSleep o) := none_spelled _
theorem wake (slow : Nat) (cause : Fin 4) : Statement (.wake slow cause) := none_spelled _
theorem sleepTimerExpiry : Statement .sleepTimerExpiry := none_spelled _
theorem makeupLimitWake : Statement .makeupLimitWake := none_spelled _
theorem resetNLow : Statement .resetNLow := none_spelled _
theorem devResetReq (o : OpCtx) : Statement (.devResetReq o) := none_spelled _
theorem resetReqStart : Statement .resetReqStart := none_spelled _
theorem scanInstructionChange : Statement .scanInstructionChange := none_spelled _
theorem faultChipResetStart : Statement .faultChipResetStart := none_spelled _
theorem chipResetComplete (lv : Levels) : Statement (.chipResetComplete lv) := none_spelled _
theorem resetOutRelease : Statement .resetOutRelease := none_spelled _
theorem bootDone (answers : Bool) : Statement (.bootDone answers) := none_spelled _
theorem claimWaitEnd : Statement .claimWaitEnd := none_spelled _
theorem ladderWatchdogExpiry (port : Src) : Statement (.ladderWatchdogExpiry port) := none_spelled _
theorem blockResetComplete (unit : Src) (env : MemEnv) : Statement (.blockResetComplete unit env) := none_spelled _
theorem quietPeriodEnd (src : Src) : Statement (.quietPeriodEnd src) := none_spelled _
theorem errMinEnd : Statement .errMinEnd := none_spelled _
theorem trapPulseEnd : Statement .trapPulseEnd := none_spelled _
theorem fltRelease (o : OpCtx) (src : Src) : Statement (.fltRelease o src) := none_spelled _
theorem envelopeWindowEnd (n : Lane) : Statement (.envelopeWindowEnd n) := none_spelled _
theorem scrubRead (env : MemEnv) : Statement (.scrubRead env) := none_spelled _
theorem celProgram (c : Chan) (paddr : Word) (data : List Byte) (verify : Bool) : Statement (.celProgram c paddr data verify) := none_spelled _
theorem celErase4k (c : Chan) (paddr : Word) (verify : Bool) : Statement (.celErase4k c paddr verify) := none_spelled _
theorem celErase64k (c : Chan) (paddr : Word) (verify : Bool) : Statement (.celErase64k c paddr verify) := none_spelled _
theorem celCommand (c : Chan) (opcode : Byte) (data : List Byte) : Statement (.celCommand c opcode data) := none_spelled _
theorem celStatusPoll (status : Byte) : Statement (.celStatusPoll status) := none_spelled _
theorem celPollTimeout : Statement .celPollTimeout := none_spelled _
theorem stagedWrite (o : OpCtx) (src dst len : Word) (env : OpEnv) : Statement (.stagedWrite o src dst len env) := none_spelled _
theorem loftMapSwitch (ok : Bool) : Statement (.loftMapSwitch ok) := none_spelled _
theorem frameReceived (p : Fin 2) (bytes : List Byte) (rxFull egressFull : Bool) (env : OpEnv) : Statement (.frameReceived p bytes rxFull egressFull env) := none_spelled _
theorem addressAgeing : Statement .addressAgeing := none_spelled _
theorem linkDownEvent (p : Fin 2) : Statement (.linkDownEvent p) := none_spelled _
theorem linkRestart (o : OpCtx) (p : Fin 2) (cfg : Word) : Statement (.linkRestart o p cfg) := none_spelled _
theorem arpRequest (p : Fin 2) (bytes : List Byte) : Statement (.arpRequest p bytes) := none_spelled _
theorem icmpEchoRequest (p : Fin 2) (bytes : List Byte) : Statement (.icmpEchoRequest p bytes) := none_spelled _
theorem waislinkRequest (peer : Peer) (route : Route) (bytes : List Byte) (env : OpEnv) : Statement (.waislinkRequest peer route bytes env) := none_spelled _
theorem hostKeepalive (peer : Peer) (route : Route) (bytes : List Byte) : Statement (.hostKeepalive peer route bytes) := none_spelled _
theorem localPortTransaction (mosi : List Byte) (env : OpEnv) : Statement (.localPortTransaction mosi env) := none_spelled _
theorem lpEnClear (o : OpCtx) : Statement (.lpEnClear o) := none_spelled _
theorem read (o : OpCtx) (addr : Word) (n : Nat) (env : OpEnv) : Statement (.read o addr n env) := none_spelled _
theorem readList (o : OpCtx) (addrs : List Word) (env : OpEnv) : Statement (.readList o addrs env) := none_spelled _
theorem write (o : OpCtx) (addr : Word) (words : List Word) (env : OpEnv) : Statement (.write o addr words env) := none_spelled _
theorem writeDeferred (o : OpCtx) (addr : Word) (words : List Word) (lane : Nat) (target : Pc) : Statement (.writeDeferred o addr words lane target) := none_spelled _
theorem deferredCommit (n : Lane) (env : OpEnv) : Statement (.deferredCommit n env) := none_spelled _
theorem writeMasked (o : OpCtx) (addr mask value : Word) (env : OpEnv) : Statement (.writeMasked o addr mask value env) := none_spelled _
theorem open_ (peer : Peer) (route : Route) (seq : BitVec 16) (tag : BitVec 6) (kaMs : Nat) : Statement (.open_ peer route seq tag kaMs) := none_spelled _
theorem close (o : OpCtx) : Statement (.close o) := none_spelled _
theorem nonce (o : OpCtx) (bytes : Option (List Byte)) : Statement (.nonce o bytes) := none_spelled _
theorem claim (o : OpCtx) (prio : Nat) (nonceId : Word) (mac : List Byte) : Statement (.claim o prio nonceId mac) := none_spelled _
theorem electionClose : Statement .electionClose := none_spelled _
theorem grant (o : OpCtx) (dst : Nat) : Statement (.grant o dst) := none_spelled _
theorem resign (o : OpCtx) : Statement (.resign o) := none_spelled _
theorem keyInstall (o : OpCtx) (slot : Byte) (nonceId : Word) (wrapped mac : List Byte) : Statement (.keyInstall o slot nonceId wrapped mac) := none_spelled _
theorem subscribe (o : OpCtx) (classes lo hi : Word) : Statement (.subscribe o classes lo hi) := none_spelled _
theorem discover (peer : Peer) (route : Route) (seq : BitVec 16) (tag : BitVec 6) : Statement (.discover peer route seq tag) := none_spelled _
theorem eventResend (i : Sess) : Statement (.eventResend i) := none_spelled _
theorem idleKeepalive (i : Sess) : Statement (.idleKeepalive i) := none_spelled _
theorem keepaliveLoss (i : Sess) : Statement (.keepaliveLoss i) := none_spelled _
theorem timerMatch (t : TimerId) (n : Nat) : Statement (.timerMatch t n) := none_spelled _
theorem timerOverflow (t : TimerId) (n : Nat) : Statement (.timerOverflow t n) := none_spelled _
theorem timerLoad (o : OpCtx) (t : TimerId) (env : OpEnv) : Statement (.timerLoad o t env) := none_spelled _
theorem forceHigh (o : OpCtx) (pins : BitVec 4) : Statement (.forceHigh o pins) := none_spelled _
theorem forceLow (o : OpCtx) (pins : BitVec 4) : Statement (.forceLow o pins) := none_spelled _
theorem tclkEdge (p : Fin 4) (level : Bool) : Statement (.tclkEdge p level) := none_spelled _
theorem tclkStopWindowEnd (p : Fin 4) : Statement (.tclkStopWindowEnd p) := none_spelled _
theorem encoderCount (e : Enc) (a b : Bool) : Statement (.encoderCount e a b) := none_spelled _
theorem encZEdge (e : Enc) (level full : Bool) : Statement (.encZEdge e level full) := none_spelled _
theorem encLosChange (e : Enc) (level full : Bool) : Statement (.encLosChange e level full) := none_spelled _
theorem coarseStep (c : Fin 2) (step dir : Bool) : Statement (.coarseStep c step dir) := none_spelled _
theorem interpolationTick (x : Axis) : Statement (.interpolationTick x) := none_spelled _
theorem feedbackCount (i : Fin 2) (a b : Bool) : Statement (.feedbackCount i a b) := none_spelled _
theorem fbZEdge (i : Fin 2) (level full : Bool) : Statement (.fbZEdge i level full) := none_spelled _
theorem auxInEdge (p : Fin 4) (level full : Bool) : Statement (.auxInEdge p level full) := none_spelled _
theorem driveFaultIn (x : Axis) (full : Bool) : Statement (.driveFaultIn x full) := none_spelled _
theorem photoEyeEdge (p : Fin 4) (level full : Bool) : Statement (.photoEyeEdge p level full) := none_spelled _
theorem inhibitChange (level full : Bool) : Statement (.inhibitChange level full) := none_spelled _
theorem stallWindowEnd (n : Lane) : Statement (.stallWindowEnd n) := none_spelled _
theorem latch (n : Lane) (env : MemEnv) : Statement (.latch n env) := none_spelled _
theorem columnEmission (n : Lane) (done link : Bool) (env : MemEnv) : Statement (.columnEmission n done link env) := none_spelled _
theorem firing (h : Head) (late : Bool) (refill : List (BitVec 16)) : Statement (.firing h late refill) := none_spelled _
theorem gateAction (n : Lane) : Statement (.gateAction n) := none_spelled _
theorem rejWindowEnd (n : Lane) : Statement (.rejWindowEnd n) := none_spelled _
theorem spanEnd (n : Lane) : Statement (.spanEnd n) := none_spelled _
theorem readbackSample (n : Lane) (level : Bool) : Statement (.readbackSample n level) := none_spelled _
theorem liveEdge (late : Bool) : Statement (.liveEdge late) := none_spelled _
theorem rejRelease (o : OpCtx) (n : Lane) : Statement (.rejRelease o n) := none_spelled _
theorem jobSelection (o : OpCtx) (n : Lane) (crate : BitVec 17) (job : Byte) (env : OpEnv) : Statement (.jobSelection o n crate job env) := none_spelled _
theorem jobDeselection (o : OpCtx) (n : Lane) : Statement (.jobDeselection o n) := none_spelled _
theorem crateVerify (o : OpCtx) (crate : BitVec 17) : Statement (.crateVerify o crate) := none_spelled _
theorem crateVerifyDone (answers : Bool) : Statement (.crateVerifyDone answers) := none_spelled _
theorem secondBoundary : Statement .secondBoundary := none_spelled _
theorem calSet (o : OpCtx) (day time : Word) : Statement (.calSet o day time) := none_spelled _
theorem checkpointRequest : Statement .checkpointRequest := none_spelled _
theorem motEnable (o : OpCtx) (x : Axis) : Statement (.motEnable o x) := none_spelled _
theorem motDisable (o : OpCtx) (x : Axis) : Statement (.motDisable o x) := none_spelled _
theorem motMove (o : OpCtx) (x : Axis) : Statement (.motMove o x) := none_spelled _
theorem motHome (o : OpCtx) (x : Axis) : Statement (.motHome o x) := none_spelled _
theorem motEngage (o : OpCtx) (x : Axis) : Statement (.motEngage o x) := none_spelled _
theorem motDecel (o : OpCtx) (x : Axis) : Statement (.motDecel o x) := none_spelled _
theorem motStop (o : OpCtx) (x : Axis) : Statement (.motStop o x) := none_spelled _
theorem motClear (o : OpCtx) (x : Axis) : Statement (.motClear o x) := none_spelled _
theorem profileTick (x : Axis) : Statement (.profileTick x) := none_spelled _
theorem moveDone (x : Axis) : Statement (.moveDone x) := none_spelled _
theorem microstepEmission (x : Axis) (onA onB : Nat) : Statement (.microstepEmission x onA onB) := none_spelled _
theorem camPoint (x : Axis) : Statement (.camPoint x) := none_spelled _
theorem fbFreezeWindowEnd (x : Axis) : Statement (.fbFreezeWindowEnd x) := none_spelled _
theorem mFreezeWindowEnd (x : Axis) : Statement (.mFreezeWindowEnd x) := none_spelled _
theorem overCurrent (x : Axis) (b : Bool) (sense : BitVec 12) : Statement (.overCurrent x b sense) := none_spelled _
theorem standstillDelayEnd (x : Axis) : Statement (.standstillDelayEnd x) := none_spelled _
theorem rampEnd (x : Axis) : Statement (.rampEnd x) := none_spelled _
theorem servoPeriodBoundary : Statement .servoPeriodBoundary := none_spelled _
theorem uplinkEvaluation (up4 up5 : List Byte) : Statement (.uplinkEvaluation up4 up5) := none_spelled _
theorem hstEnable (o : OpCtx) (c : Chan) : Statement (.hstEnable o c) := none_spelled _
theorem hstDisable (o : OpCtx) (c : Chan) : Statement (.hstDisable o c) := none_spelled _
theorem hstStart (o : OpCtx) (c : Chan) : Statement (.hstStart o c) := none_spelled _
theorem hstAbort (o : OpCtx) (c : Chan) : Statement (.hstAbort o c) := none_spelled _
theorem hstAbortEnd (c : Chan) : Statement (.hstAbortEnd c) := none_spelled _
theorem hstResume (o : OpCtx) (c : Chan) : Statement (.hstResume o c) := none_spelled _
theorem shaftDispatch (f : Shaft) : Statement (.shaftDispatch f) := none_spelled _
theorem hstRequest (line : Fin 8) : Statement (.hstRequest line) := none_spelled _
theorem move (c : Chan) (env : MemEnv) : Statement (.move c env) := none_spelled _
theorem move2d (c : Chan) (env : MemEnv) : Statement (.move2d c env) := none_spelled _
theorem gather (c : Chan) (env : MemEnv) : Statement (.gather c env) := none_spelled _
theorem scatter (c : Chan) (env : MemEnv) : Statement (.scatter c env) := none_spelled _
theorem loop (c : Chan) (env : MemEnv) : Statement (.loop c env) := none_spelled _
theorem wait (c : Chan) (env : MemEnv) : Statement (.wait c env) := none_spelled _
theorem waitMemoryPoll (c : Chan) (env : MemEnv) : Statement (.waitMemoryPoll c env) := none_spelled _
theorem waitDelayEnd (c : Chan) : Statement (.waitDelayEnd c) := none_spelled _
theorem signal (c : Chan) (env : MemEnv) : Statement (.signal c env) := none_spelled _
theorem set (c : Chan) (env : MemEnv) : Statement (.set c env) := none_spelled _
theorem end_ (c : Chan) (env : MemEnv) : Statement (.end_ c env) := none_spelled _
theorem hstCompletion (c : Chan) : Statement (.hstCompletion c) := none_spelled _
theorem hstDueKey (c : Chan) : Statement (.hstDueKey c) := none_spelled _
theorem hstBusError (c : Chan) (k : Nat) : Statement (.hstBusError c k) := none_spelled _
theorem postedWriteError (c : Chan) (addr : Word) : Statement (.postedWriteError c addr) := none_spelled _
theorem shelfDescriptor (c : Chan) (env : MemEnv) : Statement (.shelfDescriptor c env) := none_spelled _
theorem shelfKick (o : OpCtx) (c : Chan) (env : OpEnv) : Statement (.shelfKick o c env) := none_spelled _
theorem shelfPoll (c : Chan) (env : MemEnv) : Statement (.shelfPoll c env) := none_spelled _
theorem hedEnable (o : OpCtx) (h : Head) : Statement (.hedEnable o h) := none_spelled _
theorem hedDisable (o : OpCtx) (h : Head) : Statement (.hedDisable o h) := none_spelled _
theorem headPresentChange (h : Head) (level full : Bool) : Statement (.headPresentChange h level full) := none_spelled _
theorem presSettleEnd (h : Head) : Statement (.presSettleEnd h) := none_spelled _
theorem identEnd (h : Head) (c0 c1 c2 c3 : BitVec 12) : Statement (.identEnd h c0 c1 c2 c3) := none_spelled _
theorem hedIdWrite (o : OpCtx) (h : Head) (id : Word) : Statement (.hedIdWrite o h id) := none_spelled _
theorem tLogicEnd (h : Head) (env : MemEnv) : Statement (.tLogicEnd h env) := none_spelled _
theorem tHvEnd (h : Head) : Statement (.tHvEnd h) := none_spelled _
theorem restart (o : OpCtx) (h : Head) : Statement (.restart o h) := none_spelled _
theorem trimLoad (o : OpCtx) (h : Head) (env : OpEnv) : Statement (.trimLoad o h env) := none_spelled _
theorem svc (o : OpCtx) (h : Head) : Statement (.svc o h) := none_spelled _
theorem serviceFiring (h : Head) : Statement (.serviceFiring h) := none_spelled _
theorem heaterEnable (o : OpCtx) (h : Head) (on : Bool) : Statement (.heaterEnable o h on) := none_spelled _
theorem heaterLoopPeriod (h : Head) (code : BitVec 12) : Statement (.heaterLoopPeriod h code) := none_spelled _
theorem freezeWindowEnd (h : Head) : Statement (.freezeWindowEnd h) := none_spelled _
theorem holdTExpiry (h : Head) : Statement (.holdTExpiry h) := none_spelled _
theorem warmMaxExpiry (h : Head) : Statement (.warmMaxExpiry h) := none_spelled _
theorem heatRestart (o : OpCtx) (h : Head) : Statement (.heatRestart o h) := none_spelled _
theorem scan (o : OpCtx) (h : Head) (env : OpEnv) : Statement (.scan o h env) := none_spelled _
theorem dropGateShot (h : Head) : Statement (.dropGateShot h) := none_spelled _
theorem gateComparatorFall (h : Head) (full : Bool) : Statement (.gateComparatorFall h full) := none_spelled _
theorem scanEnd (h : Head) : Statement (.scanEnd h) := none_spelled _
theorem mapLoad (o : OpCtx) (h : Head) : Statement (.mapLoad o h) := none_spelled _
theorem mapSave (o : OpCtx) (h : Head) : Statement (.mapSave o h) := none_spelled _
theorem nozzleEntryWrite (o : OpCtx) (h : Head) (sel : BitVec 10) (entry : Word) : Statement (.nozzleEntryWrite o h sel entry) := none_spelled _
theorem keepWetWaitEnd (h : Head) : Statement (.keepWetWaitEnd h) := none_spelled _
theorem keepWetFiring (h : Head) : Statement (.keepWetFiring h) := none_spelled _
theorem fireCountSave (h : Head) : Statement (.fireCountSave h) := none_spelled _
theorem laneDrain (o : OpCtx) (n : Lane) : Statement (.laneDrain o n) := none_spelled _
theorem laneOpen (o : OpCtx) (n : Lane) : Statement (.laneOpen o n) := none_spelled _
theorem laneClose (o : OpCtx) (n : Lane) : Statement (.laneClose o n) := none_spelled _
theorem newHead (o : OpCtx) (n : Lane) : Statement (.newHead o n) := none_spelled _
theorem closeWaitEnd (n : Lane) : Statement (.closeWaitEnd n) := none_spelled _
theorem leaseTransfer (o : OpCtx) (r : Fin 66) (dst : Byte) : Statement (.leaseTransfer o r dst) := none_spelled _
theorem vaonPowerOnReset : Statement .vaonPowerOnReset := none_spelled _
theorem linkUp (p : Fin 2) (amp24 : Bool) : Statement (.linkUp p amp24) := none_spelled _
theorem discardedPulse (input : Fin 32) : Statement (.discardedPulse input) := none_spelled _
theorem driveFaultRelease (x : Axis) : Statement (.driveFaultRelease x) := none_spelled _
theorem vioFall : Statement .vioFall := none_spelled _
theorem boundaryScanEntry : Statement .boundaryScanEntry := none_spelled _
theorem heaterPwmPeriod (h : Head) : Statement (.heaterPwmPeriod h) := none_spelled _
theorem chopperTurnOff (x : Axis) (b : Bool) (sense : BitVec 12) : Statement (.chopperTurnOff x b sense) := none_spelled _
theorem chopperOffEnd (x : Axis) (b : Bool) (sense : BitVec 12) : Statement (.chopperOffEnd x b sense) := none_spelled _

end NoWord
end Sys2Proof.Laws
end

