-- ==== Sys2Proof/Laws/Units.lean ====
section
/-! SUPPORT. What the shared operations of the units may touch: messages of heads, head health and axes with their consequences,
transitions of head ports and axes, frames and firings, and lane transitions. -/

namespace Sys2Proof.Machine.State

variable {l : List Part} {s u : State}

/-! ### Head ports -/

theorem hedRaise_only (h : Head) (f : Nat) (k : Kind) (a : Word) : Only messageParts u (u.hedRaise h f k a) := by
  unfold hedRaise
  split
  · exact Only.refl _ _
  · simp (disch := decide)

theorem hedPin_only (h : Head) (n : String) (v : Bool) : Only [.out] u (u.hedPin h n v) := by
  unfold hedPin
  simp (disch := decide)

theorem hedGo_only (h : Head) (st : HedState) (a b c : Bool) : Only [.order, .regs, .guards, .hed, .out] u (u.hedGo h st a b c) := by
  have pin (t : State) (p : Prop) [Decidable p] (n : String) (v : Bool) : Only [.out] t (if p then t else t.hedPin h n v) :=
    only_ite (Only.refl _ _) (hedPin_only h n v)
  have flag (t : State) (p : Prop) [Decidable p] (n : Nat) : Only [.regs, .guards] t (if p then t.setFlag (Reg.HED_EVT h) n else t) :=
    only_ite (setFlag_only _ _) (Only.refl _ _)
  unfold hedGo
  simp (disch := decide) only [only_commit, Only.step (flag _ _ _), Only.step (pin _ _ _ _), only_setHead, only_self]

theorem hedTimer_only (h : Head) (ms : Nat) : Only [.hed] u (u.hedTimer h ms) := by
  unfold hedTimer
  simp (disch := decide)

theorem sendFrame_only (h : Head) (f k : Nat) (c : List Nat) : Only [.hed, .out] u (u.sendFrame h f k c) := by
  unfold sendFrame
  simp (disch := decide)

theorem pushFiring_only (h : Head) (f : Nat) (use : FireFor) (c : List Nat) : Only [.hed] u (u.pushFiring h f use c) := by
  unfold pushFiring
  simp (disch := decide)

theorem abandon_only (n : Lane) (r : Rec) (c : Nat) : Only recordParts u (u.abandon n r c) := closeRec_only _ _

theorem unmark_only (n : Lane) (r : Rec) (c : Nat) : Only recordParts u (u.unmark n r c) := closeRec_only _ _

theorem loseHead_only (h : Head) : Only recordParts u (u.loseHead h) := by
  refine Only.foldl (fun v r => ?_) _ _
  cases r.state with
  | printing => exact abandon_only _ _ _
  | latched => exact unmark_only _ _ _
  | created => exact Only.refl _ _
  | final => exact Only.refl _ _

theorem hedToReady_only (h : Head) : Only [.order, .regs, .guards, .hed, .hlt, .out] u (u.hedToReady h) := by
  unfold hedToReady
  simp (disch := decide) [Only.step (hedGo_only _ _ _ _ _)]

/-! ### Head health -/

theorem hltRaise_only (h : Head) (f : Nat) (k : Kind) (a : Word) : Only messageParts u (u.hltRaise h f k a) := by
  unfold hltRaise
  split
  · exact Only.refl _ _
  · simp (disch := decide)

theorem enterHolding_only (h : Head) (o : Option Nat) : Only ([.energy, .hlt] ++ messageParts) u (u.enterHolding h o) := by
  unfold enterHolding
  dsimp only
  split <;> simp (disch := decide) [Only.step (heatGo_only _ _ _), Only.step (hltRaise_only _ _ _ _)]

theorem heaterOff_only (h : Head) : Only ([.energy, .hlt] ++ messageParts) u (u.heaterOff h) := by
  unfold heaterOff
  simp (disch := decide) [Only.step (heatGo_only _ _ _), Only.step (hltRaise_only _ _ _ _)]

theorem setEntry_only (h : Head) (i : Nat) (v : BitVec 16) : Only [.hlt] u (u.setEntry h i v) := by
  unfold setEntry
  simp (disch := decide)

theorem writeEntry_only (h : Head) (i v : Nat) : Only (.hlt :: messageParts) u (u.writeEntry h i v) := by
  unfold writeEntry
  dsimp only
  split <;> simp (disch := decide) [Only.step (setEntry_only _ _ _), Only.step (hltRaise_only _ _ _ _)]

/-! ### Axes -/

theorem stopAxis_only (x : Axis) (b : Bool) (st : AxisState) : Only [.order, .energy, .mot] u (u.stopAxis x b st) := by
  unfold stopAxis
  simp (disch := decide) [Only.step (debitAll_only _)]

theorem stopFor_only (x : Axis) (b : Bool) : Only [.order, .energy, .mot] u (u.stopFor x b) := by
  unfold stopFor
  split
  · simp (disch := decide)
  · simp (disch := decide)
  · exact stopAxis_only _ _ _

theorem suspectCarried_only (x : Axis) : Only recordParts u (u.suspectCarried x) := by
  unfold suspectCarried
  split
  · exact suspectPrinting_only _ _
  · exact Only.refl _ _

/-- A message of an axis and its consequences. -/
theorem motMessage_only (x : Axis) (k : Kind) (a : Word) : Only axisParts u (u.motMessage x k a) := by
  unfold motMessage
  split
  · exact Only.refl _ _
  · simp (disch := decide) [Only.step (stopFor_only _ _), Only.step (suspectCarried_only _)]

/-! ### Lanes in service -/

theorem toLane_only (n : Lane) (st : LaneState) : Only (.hat :: messageParts) u (u.toLane n st) := by
  unfold toLane
  cases st <;> simp (disch := decide)

theorem enterOpen_only (n : Lane) : Only ([.ses, .plc, .hat] ++ messageParts) u (u.enterOpen n) := by
  unfold enterOpen
  simp (disch := decide) [Only.step (discardDeferred_only _), Only.step (toLane_only _ _)]

theorem laneOpen_only (n : Lane) : Only ([.ses, .hat] ++ (recordParts ++ messageParts)) u (u.laneOpen n) := by
  unfold laneOpen
  split
  · exact Only.refl _ _
  · exact (enterOpen_only n).mono (by decide)
  · simp (disch := decide) [Only.step (enterOpen_only _), Only.step (discardRecs_only _), Only.step (endRecords_only _ _)]

theorem transfer_only (r : Nat) (b : Byte) : Only [.hat] u (u.transfer r b) := by
  unfold transfer setLease
  split <;> simp (disch := decide)

end Sys2Proof.Machine.State
end

