-- ==== Sys2Proof/WellFormed.lean ====
section
/-! DEFINITION. Which commands are well formed: the operands that a row of the command table can bring. Each check is a
function of its own, and `Instr.wf` says which checks a command must pass. A meaning is total: it also answers on a command
that fails a check, but no sender presents one. -/

namespace Sys2Proof

/-- Four straps, each converted eight times (R152). -/
def wfStraps (conv : List (List Nat)) : Bool := decide (conv.length = 4) && conv.all fun l => decide (l.length = 8)

/-- A SLOW32K count of the wake (R41): 32 bits. -/
def wfSlow (slow : Nat) : Bool := decide (slow < 2 ^ 32)

/-- The bytes of a Cellar program operation: 1 to 256 (R89). -/
def wfPage (data : List Byte) : Bool := decide (1 ≤ data.length) && decide (data.length ≤ 256)

/-- The bytes of a raw Cellar command: up to 4 (R89). -/
def wfRaw (data : List Byte) : Bool := decide (data.length ≤ 4)

/-- A port of the switch: A, B (R178). -/
def wfRoute (r : Route) : Bool := decide (r.port < 2)

/-- A nonce is 16 bytes (R226). -/
def wfNonce : Option (List Byte) → Bool
  | none => true
  | some l => decide (l.length = 16)

/-- What an operation finds outside. -/
def wfEnv (env : OpEnv) : Bool := wfNonce env.nonce

/-- A message of type 5, KEEPALIVE (R189). -/
def wfKeepalive (bytes : List Byte) : Bool := decide ((bytes.drop 1).head? = some 5)

/-- The words of one WRITE fit an item of a message, which has at most 1,472 bytes (R190, R194). -/
def wfWords (words : List Word) : Bool := decide (words.length ≤ 363)

/-- A byte field of a message (R195, R229, R233). -/
def wfByte (n : Nat) : Bool := decide (n < 256)

/-- A 16-bit field of a message (R193, R199). -/
def wfHalf (n : Nat) : Bool := decide (n < 65536)

/-- An authentication code (R228), and a wrapped key (R238): 32 bytes. -/
def wfMac (mac : List Byte) : Bool := decide (mac.length = 32)

/-- Source events that a timer counts: at least one (R245). -/
def wfEvents (n : Nat) : Bool := decide (1 ≤ n)

/-- A stepper axis, X0 to X3 (11_motion_profiles, the table of axes). -/
def wfStepper (x : Axis) : Bool := decide (x.val < 4)

/-- A servo axis, X4, X5 (11_motion_profiles, the table of axes). -/
def wfServo (x : Axis) : Bool := decide (4 ≤ x.val)

/-- A job that a selection names: 255 deselects (R282). -/
def wfJob (job : Byte) : Bool := decide (job ≠ 255)

/-- A well-formed command. -/
def Instr.wf : Instr → Bool
  | .vaonRelease conv => wfStraps conv
  | .pgoodHigh conv => wfStraps conv
  | .wake slow _ => wfSlow slow
  | .celProgram _ _ data _ => wfPage data
  | .celCommand _ _ data => wfRaw data
  | .stagedWrite _ _ _ _ env => wfEnv env
  | .frameReceived _ _ _ _ env => wfEnv env
  | .waislinkRequest _ route _ env => wfRoute route && wfEnv env
  | .hostKeepalive _ route bytes => wfRoute route && wfKeepalive bytes
  | .localPortTransaction _ env => wfEnv env
  | .read _ _ n env => wfHalf n && wfEnv env
  | .readList _ addrs env => wfWords addrs && wfEnv env
  | .write _ _ words env => wfWords words && wfEnv env
  | .writeDeferred _ _ words lane _ => wfWords words && wfByte lane
  | .deferredCommit _ env => wfEnv env
  | .writeMasked _ _ _ _ env => wfEnv env
  | .open_ _ route _ _ kaMs => wfRoute route && wfHalf kaMs
  | .nonce _ bytes => wfNonce bytes
  | .claim _ prio _ mac => wfByte prio && wfMac mac
  | .grant _ dst => wfByte dst
  | .keyInstall _ _ _ wrapped mac => wfMac wrapped && wfMac mac
  | .discover _ route _ _ => wfRoute route
  | .timerMatch _ n => wfEvents n
  | .timerOverflow _ n => wfEvents n
  | .timerLoad _ _ env => wfEnv env
  | .interpolationTick .. => true
  | .driveFaultIn x _ => wfServo x
  | .driveFaultRelease x => wfServo x
  | .jobSelection _ _ _ job env => wfJob job && wfEnv env
  | .microstepEmission .. => true
  | .overCurrent x _ _ => wfStepper x
  | .standstillDelayEnd x => wfStepper x
  | .rampEnd x => wfStepper x
  | .chopperTurnOff x _ _ => wfStepper x
  | .chopperOffEnd x _ _ => wfStepper x
  | .shelfKick _ _ env => wfEnv env
  | .trimLoad _ _ env => wfEnv env
  | .scan _ _ env => wfEnv env
  | .sccpClassRead .. => true
  | .pantrySample .. => true
  | .finalCheckpointTimeout .. => true
  | .parkingStart .. => true
  | .railOut .. => true
  | .railBringupTimeout .. => true
  | .railRetry .. => true
  | .tb100Lock .. => true
  | .tb100LockTimeout .. => true
  | .pwrReqService .. => true
  | .pwrReqRun .. => true
  | .pwrReqSleep .. => true
  | .sleepTimerExpiry .. => true
  | .makeupLimitWake .. => true
  | .resetNLow .. => true
  | .devResetReq .. => true
  | .resetReqStart .. => true
  | .scanInstructionChange .. => true
  | .faultChipResetStart .. => true
  | .chipResetComplete .. => true
  | .resetOutRelease .. => true
  | .bootDone .. => true
  | .claimWaitEnd .. => true
  | .ladderWatchdogExpiry .. => true
  | .blockResetComplete .. => true
  | .quietPeriodEnd .. => true
  | .errMinEnd .. => true
  | .trapPulseEnd .. => true
  | .fltRelease .. => true
  | .envelopeWindowEnd .. => true
  | .scrubRead .. => true
  | .celErase4k .. => true
  | .celErase64k .. => true
  | .celStatusPoll .. => true
  | .celPollTimeout .. => true
  | .loftMapSwitch .. => true
  | .addressAgeing .. => true
  | .linkDownEvent .. => true
  | .linkRestart .. => true
  | .arpRequest .. => true
  | .icmpEchoRequest .. => true
  | .lpEnClear .. => true
  | .close .. => true
  | .electionClose .. => true
  | .resign .. => true
  | .subscribe .. => true
  | .eventResend .. => true
  | .idleKeepalive .. => true
  | .keepaliveLoss .. => true
  | .forceHigh .. => true
  | .forceLow .. => true
  | .tclkEdge .. => true
  | .tclkStopWindowEnd .. => true
  | .encoderCount .. => true
  | .encZEdge .. => true
  | .encLosChange .. => true
  | .coarseStep .. => true
  | .feedbackCount .. => true
  | .fbZEdge .. => true
  | .auxInEdge .. => true
  | .photoEyeEdge .. => true
  | .inhibitChange .. => true
  | .stallWindowEnd .. => true
  | .latch .. => true
  | .columnEmission .. => true
  | .firing .. => true
  | .gateAction .. => true
  | .rejWindowEnd .. => true
  | .spanEnd .. => true
  | .readbackSample .. => true
  | .liveEdge .. => true
  | .rejRelease .. => true
  | .jobDeselection .. => true
  | .crateVerify .. => true
  | .crateVerifyDone .. => true
  | .secondBoundary .. => true
  | .calSet .. => true
  | .checkpointRequest .. => true
  | .motEnable .. => true
  | .motDisable .. => true
  | .motMove .. => true
  | .motHome .. => true
  | .motEngage .. => true
  | .motDecel .. => true
  | .motStop .. => true
  | .motClear .. => true
  | .profileTick .. => true
  | .moveDone .. => true
  | .camPoint .. => true
  | .fbFreezeWindowEnd .. => true
  | .mFreezeWindowEnd .. => true
  | .servoPeriodBoundary .. => true
  | .uplinkEvaluation .. => true
  | .hstEnable .. => true
  | .hstDisable .. => true
  | .hstStart .. => true
  | .hstAbort .. => true
  | .hstAbortEnd .. => true
  | .hstResume .. => true
  | .shaftDispatch .. => true
  | .hstRequest .. => true
  | .move .. => true
  | .move2d .. => true
  | .gather .. => true
  | .scatter .. => true
  | .loop .. => true
  | .wait .. => true
  | .waitMemoryPoll .. => true
  | .waitDelayEnd .. => true
  | .signal .. => true
  | .set .. => true
  | .end_ .. => true
  | .hstCompletion .. => true
  | .hstDueKey .. => true
  | .hstBusError .. => true
  | .postedWriteError .. => true
  | .shelfDescriptor .. => true
  | .shelfPoll .. => true
  | .hedEnable .. => true
  | .hedDisable .. => true
  | .headPresentChange .. => true
  | .presSettleEnd .. => true
  | .identEnd .. => true
  | .hedIdWrite .. => true
  | .tLogicEnd .. => true
  | .tHvEnd .. => true
  | .restart .. => true
  | .svc .. => true
  | .serviceFiring .. => true
  | .heaterEnable .. => true
  | .heaterLoopPeriod .. => true
  | .freezeWindowEnd .. => true
  | .holdTExpiry .. => true
  | .warmMaxExpiry .. => true
  | .heatRestart .. => true
  | .dropGateShot .. => true
  | .gateComparatorFall .. => true
  | .scanEnd .. => true
  | .mapLoad .. => true
  | .mapSave .. => true
  | .nozzleEntryWrite .. => true
  | .keepWetWaitEnd .. => true
  | .keepWetFiring .. => true
  | .fireCountSave .. => true
  | .laneDrain .. => true
  | .laneOpen .. => true
  | .laneClose .. => true
  | .newHead .. => true
  | .closeWaitEnd .. => true
  | .leaseTransfer .. => true
  | .vaonPowerOnReset .. => true
  | .linkUp .. => true
  | .discardedPulse .. => true
  | .vioFall .. => true
  | .boundaryScanEntry .. => true
  | .heaterPwmPeriod .. => true

end Sys2Proof
end

