-- ==== Sys2Proof/Tests/Slice0.lean ====
section
/-! SUPPORT. Tests: ill-formed commands that `Instr.wf` refuses; for each clause of each statement a state and operands that meet
its hypotheses together, with a value of the outcome where it is short; and worked cases of the spec. -/

namespace Sys2Proof.Tests

open Sys2Proof.Machine Sys2Proof.Machine.State

section

set_option maxRecDepth 100000

/-! ### Ill-formed commands -/

theorem test_wf_straps : (Instr.vaonRelease []).wf = false := by decide
theorem test_wf_slow : (Instr.wake (2 ^ 32) 0).wf = false := by decide
theorem test_wf_page : (Instr.celProgram 0 0 [] false).wf = false := by decide
theorem test_wf_raw : (Instr.celCommand 0 0 [1, 2, 3, 4, 5]).wf = false := by decide
theorem test_wf_route : (Instr.discover (.ether 1) ⟨2, 1, none⟩ 0 0).wf = false := by decide
theorem test_wf_nonce : (Instr.nonce ⟨1, 0, 0⟩ (some [1])).wf = false := by decide
theorem test_wf_env : (Instr.timerLoad ⟨1, 0, 0⟩ 0 { OpEnv.quiet with nonce := some [] }).wf = false := by decide
theorem test_wf_keepalive : (Instr.hostKeepalive (.ether 1) ⟨0, 1, none⟩ [1, 1]).wf = false := by decide
theorem test_wf_words : (Instr.write ⟨1, 0, 0⟩ 0 (List.replicate 364 0) OpEnv.quiet).wf = false := by decide
theorem test_wf_byte : (Instr.grant ⟨1, 0, 0⟩ 256).wf = false := by decide
theorem test_wf_half : (Instr.read ⟨1, 0, 0⟩ 0 65536 OpEnv.quiet).wf = false := by decide
theorem test_wf_mac : (Instr.claim ⟨1, 0, 0⟩ 1 0 []).wf = false := by decide
theorem test_wf_events : (Instr.timerMatch 0 0).wf = false := by decide
theorem test_wf_stepper : (Instr.rampEnd 4).wf = false := by decide
theorem test_wf_servo : (Instr.driveFaultRelease 3).wf = false := by decide
theorem test_wf_job : (Instr.jobSelection ⟨1, 0, 0⟩ 0 0 255 OpEnv.quiet).wf = false := by decide

/-! ### States -/

/-- A running machine: bring-up complete, the Pantry in RUN with four samples of 48 V, session 1 bound and owner. -/
def base : State :=
  let s := { State.reset with tick := 1000000, order := 100 }
  let s := s.modBoot fun b => { b with phase := .running, doneAt := 900000, resetOut := true }
  let s := s.modPwr fun p => { p with state := .run, samples := [48000, 48000, 48000, 48000] }
  let s := s.setSess 1 { sess0 with bound := true, peer := .ether 0x020000000001, kaMs := 1000, binds := 1, nextSeq := 1 }
  s.setReg Reg.SES_OWNER 1

/-- Its owner's operation. -/
def who : OpCtx := ⟨1, 1, 5⟩

/-- An observer in session 2, and its operation. -/
def two : State := base.setSess 2 { sess0 with bound := true, peer := .ether 0x020000000002, kaMs := 1000, binds := 1, nextSeq := 1 }
def other : OpCtx := ⟨2, 1, 5⟩

/-- The next state of a command. -/
def run (i : Instr) (s : State) : State :=
  match exec i s with
  | .next t => t
  | _ => State.reset

/-- A machine in another power state, and one whose core is in another phase. -/
def powered (p : PowerState) : State := base.modPwr fun x => { x with state := p }
def phased (p : CorePhase) : State := base.modBoot fun b => { b with phase := p }

/-! ### The step -/

theorem test_step_front : ({ base with pending := [.parkingStart] }).pending = .parkingStart :: [] := rfl
theorem test_step_idle : base.pending = [] ∧ (match step base with | .next t => t.tick | _ => 0) = base.tick + 1 := by decide
theorem test_line : ∃ t, step base = .next t := ⟨_, rfl⟩
theorem test_calm : base.Calm := by unfold Calm; decide

/-! ### Power, reset and bring-up -/

theorem test_pwrReqService : base.Granted who OpEnv.quiet Reg.PWR_REQ [0x80000003] ∧ base.pwr.state = .run ∧
    (run (.pwrReqService who) base).pwr.state = .service := by unfold Granted Asks; decide
theorem test_pwrReqRun : (powered .service).Granted who OpEnv.quiet Reg.PWR_REQ [0x80000004] ∧ (powered .service).pwr.state = .service ∧
    (run (.pwrReqRun who) (powered .service)).pwr.state = .run := by unfold Granted Asks; decide
theorem test_pwrReqSleep : base.Granted who OpEnv.quiet Reg.PWR_REQ [0x80000006] ∧ base.pwr.state = .run ∧
    (run (.pwrReqSleep who) base).pwr.state = .sleep := by unfold Granted Asks; decide
theorem test_vaonRelease : (powered .off).pwr.state = .off := rfl
theorem test_sccpClassRead : (base.modPwr fun p => { p with pgood := false }).pwr.pgood = false := rfl
theorem test_pgoodHigh : (powered .classify).pwr.state = .classify ∧
    (run (.pgoodHigh []) (powered .classify)).pwr.state = .charge := by decide
theorem test_pgoodHigh_dark : (powered .dark).pwr.state = .dark ∧ (run (.pgoodHigh []) (powered .dark)).pwr.pgood = true := by decide
theorem test_pantrySample : base.ticking = true ∧ base.pwr.state = .run ∧
    (run (.pantrySample 0xFFF 0 0 false) base).pwr.state = .hold := by decide
theorem test_pantrySample_good : base.fld Reg.PWR_BUS 15 0 ≤ (0xFFF : BitVec 12).toNat * base.fld Reg.PWR_SENSE 15 0 / 4096 ∧
    (run (.pantrySample 0xFFF 0 0xFFF true) base).pwr.state = .run := by decide
theorem test_parkingStart : (powered .hold).pwr.state = .hold ∧ (powered .hold).coreOn = true ∧ (powered .hold).markLive = false ∧
    (powered .hold).pwr.parked = false ∧ (run .parkingStart (powered .hold)).pwr.parked = true := by decide
/-- Parking: a READY head, one that is not, a flying carriage whose axis is suspect, and an axis that carries none. -/
def parks : State :=
  ((powered .hold).modHead 0 fun x => { x with state := .ready }).setReg (Reg.MOT_CFG 0) 0x1000
theorem test_parkingStart_units : (parks.head 0).state = .ready ∧ (parks.head 1).state ≠ .ready ∧
    parks.rbit (Reg.MOT_CFG 0) 12 = true ∧ (parks.axis 0).suspect = true ∧ parks.rbit (Reg.MOT_CFG 1) 12 = false ∧
    ((run .parkingStart parks).head 0).state = .parked := by decide
theorem test_finalCheckpointTimeout : base.ticking = true ∧
    (base.modPwr fun p => { p with finalCkpt := some 5 }).pwr.finalCkpt = some 5 ∧
    (run .finalCheckpointTimeout (base.modPwr fun p => { p with finalCkpt := some 5 })).pwr.state = .dark := by decide
/-- The reaction entry of a source with word 0 `v`. -/
def reacting (s : State) (src : Nat) (v : Word) : State := s.modMem fun m => m.setTable (0xB0000 + 0x40 * src) v
theorem test_railOut : (reacting base 5 0).coreOn = true ∧ bit ((reacting base 5 0).reaction 5 0) 1 = false ∧
    (run (.railOut 1) (reacting base 5 0)).pwr.state = .dark := by decide
theorem test_railOut_trap : (reacting base 5 2).coreOn = true ∧ bit ((reacting base 5 2).reaction 5 0) 1 = true ∧
    (run (.railOut 1) (reacting base 5 2)).pwr.state = .run := by decide
theorem test_railBringupTimeout : (phased .off).pwr.railEn = true ∧ (phased .off).boot.phase = .off ∧
    (run .railBringupTimeout (phased .off)).pwr.retry = true ∧ (run .tb100LockTimeout (phased .off)).pwr.retry = true := by decide
theorem test_railRetry : ((powered .charge).modPwr fun p => { p with retry := true }).pwr.retry = true ∧
    (powered .charge).pwr.state = .charge := by decide
theorem test_tb100Lock : Levels.low.resetN = true ∧ (phased .off).boot.scanHeld = false ∧ (phased .off).mem.staged = [] ∧
    (phased .off).pwr.railEn = true ∧ (phased .off).boot.phase = .off ∧
    (run (.tb100Lock Levels.low) (phased .off)).boot.phase = .bringup := by decide
theorem test_chipResetComplete : (phased (.reset 3 0)).boot.phase = .reset 3 0 ∧
    (run (.chipResetComplete Levels.low) (phased (.reset 3 0))).reg Reg.DEV_RESET_CAUSE = 3 := by decide
theorem test_wake : ((powered .sleep).setReg Reg.PWR_WAKE_EN 0x1F).pwr.state = .sleep ∧
    ((powered .sleep).setReg Reg.PWR_WAKE_EN 0x1F).rbit Reg.PWR_WAKE_EN 3 = true ∧
    (run (.wake 128 3) ((powered .sleep).setReg Reg.PWR_WAKE_EN 0x1F)).tick = base.tick + 390625 := by decide
/-- In SLEEP with the timer's wake enabled. -/
def sleeper : State := ((powered .sleep).setReg Reg.PWR_WAKE_EN 0x1F).setReg Reg.PWR_SLEEP_TIMER 256
theorem test_sleepTimerExpiry : sleeper.rbit Reg.PWR_WAKE_EN 4 = true ∧ sleeper.reg Reg.PWR_SLEEP_TIMER ≠ 0 ∧
    (run .sleepTimerExpiry sleeper).tick = base.tick + 781250 := by decide
theorem test_makeupLimitWake : (powered .sleep).pwr.state = .sleep ∧
    (run .makeupLimitWake (powered .sleep)).reg Reg.PWR_WAKE_CAUSE = 64 := by decide
theorem test_resetStarts : base.coreOn = true ∧ (run .resetNLow base).boot.phase = .reset 3 0 ∧
    (run .boundaryScanEntry base).boot.phase = .reset 6 0 ∧ (run .scanInstructionChange base).boot.scanHeld = false := by decide
theorem test_resetReqStart : (base.modBoot fun b => { b with reqAt := some 7 }).boot.reqAt = some 7 ∧
    (run .resetReqStart (base.modBoot fun b => { b with reqAt := some 7 })).boot.phase = .reset 5 0 := by decide
theorem test_faultChipResetStart : (base.modFlt fun f => { f with resetPending := some ⟨9, false, 5⟩ }).flt.resetPending = some ⟨9, false, 5⟩ ∧
    (run .faultChipResetStart (base.modFlt fun f => { f with resetPending := some ⟨9, false, 5⟩ })).boot.phase = .reset 4 9 := by decide
theorem test_devResetReq : base.Granted who OpEnv.quiet Reg.DEV_RESET_REQ [0x44800001] ∧
    (run (.devResetReq who) base).boot.reqAt = some (base.tick + 100000) := by unfold Granted Asks; decide
theorem test_resetOutRelease : (base.modBoot fun b => { b with resetOut := false }).coreOn = true ∧
    (base.modBoot fun b => { b with resetOut := false }).boot.resetOut = false ∧
    (run .resetOutRelease (base.modBoot fun b => { b with resetOut := false })).boot.resetOut = true := by decide
theorem test_vaonPowerOnReset : (run .vaonPowerOnReset base).pwr.state = .off ∧ (run .vioFall base).pinsDriven = false := by decide
theorem test_bootDone : State.reset.boot.phase = .bringup ∧ (run (.bootDone true) State.reset).booted = true := by decide
theorem test_claimWaitEnd : (base.modBoot fun b => { b with claimWaitEnd := some 9 }).ticking = true ∧
    (base.modBoot fun b => { b with claimWaitEnd := some 9 }).boot.claimWaitEnd = some 9 ∧
    (run .claimWaitEnd (base.modBoot fun b => { b with claimWaitEnd := some 9 })).rbit Reg.DEV_STATUS 1 = true := by decide

/-! ### Fault messages and the collector -/

/-- Source 11 with a trap, ERR_OUT, a quiet period of 5 ms and `LIMIT` 3. -/
def watched : State :=
  base.modMem fun m => ((m.setTable (0xB0000 + 0x40 * 11) 0x12).setTable (0xB0004 + 0x40 * 11) 5).setTable (0xB0008 + 0x40 * 11) 3
/-- Its message, twice. -/
def told : State := watched.raise .hstBus 7
/-- Source 11 RETIRED, with a window count. -/
def retired : State := (watched.setSrcState 11 2).setFld (Reg.FLT_RECOV 11) 24 16 4
/-- The state `s` with the quiet period of source 11 due now and the window count `n`. -/
def quiet (n : Nat) : State :=
  (base.setFld (Reg.FLT_RECOV 11) 24 16 n).modFlt fun f => { f with quietEnd := Tab.set (fun _ => none) f.quietEnd 11 (some base.tick) }

theorem test_message : Kind.hstBus.src < 36 ∧ watched.unitInReset Kind.hstBus.src = false ∧
    watched.rbit Reg.FLT_BIN_STAT 0 = false ∧ watched.srcState Kind.hstBus.src = 0 ∧ told.rbit Reg.FLT_BIN_STAT 0 = true ∧
    told.flt.trapEnd = some (base.tick + base.fld Reg.FLT_CTRL 15 8 * 100) := by decide
theorem test_message_trap : bit (watched.reaction Kind.hstBus.src 0) 1 = true ∧ bit (watched.reaction Kind.hstBus.src 0) 4 = true ∧
    told.rbit Reg.FLT_ERR 0 = true := by decide
theorem test_message_full : told.unitInReset Kind.hstBus.src = false ∧ told.rbit Reg.FLT_BIN_STAT 0 = true ∧
    (told.raise .hstBus 8).rbit Reg.FLT_BIN_STAT 1 = true := by decide
theorem test_message_retired : retired.unitInReset Kind.hstBus.src = false ∧ retired.srcState Kind.hstBus.src = 2 ∧
    (retired.raise .hstBus 7).srcState 11 = 2 := by decide
/-- R118: the reset reaction table asks for a quiet period of 1,000 ms. -/
theorem test_message_reset : (base.raise .hstBus 7).quietDue 11 = some (base.tick + 100000000) := by decide
theorem test_errMinEnd : base.ticking = true ∧ (base.modFlt fun f => { f with errMinEnd := some 9 }).flt.errMinEnd = some 9 ∧
    (run .errMinEnd (base.modFlt fun f => { f with errMinEnd := some 9 })).flt.errMinEnd = none := by decide
theorem test_trapPulseEnd : (base.modFlt fun f => { f with trapEnd := some 9 }).flt.trapEnd = some 9 ∧
    (run .trapPulseEnd (base.modFlt fun f => { f with trapEnd := some 9 })).flt.trapEnd = none := by decide
theorem test_quietPeriodEnd : (quiet 3).quietDue 11 = some base.tick ∧ (quiet 3).ticking = true ∧
    (run (.quietPeriodEnd 11) (quiet 3)).srcState 11 = 0 := by decide
theorem test_quietPeriodEnd_limit :
    (run (.quietPeriodEnd 11) ((quiet 8).modFlt fun f => { f with winStart := Tab.set (fun _ => 0) f.winStart 11 900000 })).srcState 11
      = 2 := by decide
theorem test_fltRelease : retired.Granted who OpEnv.quiet Reg.FLT_RELEASE [word (2 ^ 31 + 11)] ∧ retired.srcState 11 = 2 ∧
    retired.flt.held.contains 11 = false ∧ (run (.fltRelease who 11) retired).srcState 11 = 0 := by unfold Granted Asks; decide
theorem test_ladderWatchdogExpiry : base.coreOn = true ∧ base.isolated 3 = false ∧ base.unitInReset 1 = false ∧
    (run (.ladderWatchdogExpiry 3) base).isolated 3 = true := by decide
theorem test_ladderWatchdogExpiry_dev : base.isolated 0 = false ∧
    (run (.ladderWatchdogExpiry 0) base).boot.phase = .reset 7 1 := by decide
/-- The Cellar interface in block reset, its port isolated. -/
def cellarDown : State := (base.setReg (Reg.DEV_LAD_ISO_LO) 8).modFlt fun f => { f with inReset := [3] }
theorem test_blockResetComplete : cellarDown.coreOn = true ∧ cellarDown.flt.inReset.contains 3 = true ∧
    cellarDown.flt.held.contains 3 = false ∧ cellarDown.isolated 3 = true ∧
    (run (.blockResetComplete 3 MemEnv.quiet) cellarDown).isolated 3 = false := by decide
/-- Lane 1 has moved 9 counts in the window; its rate is 8 or 10. -/
def moved (rate : Word) : State := (base.setReg (Reg.DEV_ENV_RATE 1) rate).modLane 1 fun l => { l with advance := 9 }
theorem test_envelopeWindowEnd : (moved 8).ticking = true ∧ ((run (.envelopeWindowEnd 1) (moved 8)).lane 1).outside = true ∧
    ((run (.envelopeWindowEnd 1) (moved 10)).lane 1).outside = false := by decide

/-! ### Memories -/

/-- Channel 0 runs. -/
def runs : State := base.modChan 0 fun c => { c with state := .running }
/-- A Cellar operation runs: an erase, or the programming of two bytes over bytes that were 0xF0 and erased. -/
def flashing (op : Nat) (data : List Byte) : State :=
  base.modMem fun m => { m with celRun := some ⟨op, 0x1000, data.length - 1, data, false, base.tick + 500, base.tick + 900000⟩,
                                cellar := [(0x1000, 0xF0)] }
theorem test_celProgram : runs.mayExecute 0 = true ∧ runs.isolated 3 = false ∧ runs.mem.celRun = none ∧
    runs.celRangeOk 1 (bits (0x1000 : Word) 28 0) 1 false = true ∧ runs.crateInUse (celRange 1 (bits (0x1000 : Word) 28 0) 1) = false ∧
    (run (.celProgram 0 0x1000 [1, 2] true) runs).fld Reg.MEM_CEL_PSTAT 7 4 = 1 := by decide
theorem test_celErase4k : runs.celRangeOk 2 (bits (0x1000 : Word) 28 0) 0 false = true ∧
    runs.crateInUse (celRange 2 (bits (0x1000 : Word) 28 0) 0) = false ∧
    (run (.celErase4k 0 0x1000 true) runs).mem.celRun.isSome = true := by decide
theorem test_celErase64k : runs.celRangeOk 3 (bits (0x10000 : Word) 28 0) 0 false = true ∧
    runs.crateInUse (celRange 3 (bits (0x10000 : Word) 28 0) 0) = false ∧
    (run (.celErase64k 0 0x10000 true) runs).mem.celRun.isSome = true := by decide
theorem test_celCommand : ([1, 2, 3, 4] : List Byte).length ≤ 4 ∧
    (run (.celCommand 0 0x66 [1, 2, 3, 4]) runs).mem.celRun.isSome = true := by decide
theorem test_celStatusPoll : (flashing 1 [0x3C, 0x55]).ticking = true ∧ (flashing 1 [0x3C, 0x55]).mem.celRun.isSome = true ∧
    (run (.celStatusPoll 0) (flashing 1 [0x3C, 0x55])).mem.cellarByte 0x1000 = 0x30 ∧
    (run (.celStatusPoll 1) (flashing 1 [0x3C, 0x55])).mem.celRun.isSome = true := by decide
theorem test_celStatusPoll_erase :
    (run (.celStatusPoll 0) (flashing 2 [])).mem.cellarByte 0x1000 = 0xFF := by decide
theorem test_celPollTimeout : (run .celPollTimeout (flashing 2 [])).fld Reg.MEM_CEL_PSTAT 7 4 = 3 := by decide
/-- The first 64 bytes of the Larder are written. -/
def filled : State := (List.range 8).foldl (fun (s : State) (k : Nat) => s.modMem fun m => m.setWord64 k (some (BitVec.ofNat 64 k))) base
theorem test_stagedWrite : filled.Granted who OpEnv.quiet Reg.MEM_LFT_SSRC [0x10000000, 0x16000, 64, 1] ∧
    stagedRangeOk (0x10000000 : Word).toNat (bits (0x16000 : Word) 17 0) (bits (64 : Word) 14 0) = true ∧
    filled.isolated 2 = false ∧ (∀ k, k < 64 / 8 → (filled.mem.word64 (larderIdx 0x10000000 + k)).isSome = true) ∧
    filled.wouldGrant false (stagedEnergy 64) = true ∧
    (run (.stagedWrite who 0x10000000 0x16000 64 OpEnv.quiet) filled).fld Reg.MEM_LFT_STAT 7 4 = 1 := by unfold Granted Asks; decide
/-- A staged write of the owner awaits its switch. -/
def staging : State := base.modMem fun m => { m with staged := [⟨.owner, 0x10000, List.replicate 64 7⟩] }
theorem test_loftMapSwitch : staging.coreOn = true ∧ staging.mem.staged ≠ [] ∧
    (run (.loftMapSwitch true) staging).mem.loftByte 0x10001 = 7 ∧
    (run (.loftMapSwitch false) staging).fld Reg.MEM_LFT_STAT 7 4 = 6 := by decide
theorem test_scrubRead : filled.ticking = true ∧
    (run (.scrubRead ⟨[(0x10000000, .uncorrectable)], false⟩) filled).mem.word64 0 = none ∧
    (run (.scrubRead MemEnv.quiet) filled).scrubAt 15 = 1 := by decide

/-! ### The link and Waislink -/

/-- A frame to the station or to another address, from `02:00:00:00:00:09`. -/
def toStation : List Byte := buildFrame base.stationMac 0x020000000009 none 0x9999 [1, 2]
def toOther : List Byte := buildFrame 0x02000000000A 0x020000000009 none 0x9999 [1, 2]
theorem test_frameReceived : base.linkRuns 0 = true ∧ frameSize toOther = true ∧ base.takesFrame (readFrame toOther) = false ∧
    (run (.frameReceived 0 toOther false false OpEnv.quiet) base).learned 0x020000000009 = some 0 := by decide
theorem test_frameReceived_taken : frameSize toStation = true ∧ base.takesFrame (readFrame toStation) = true ∧
    (run (.frameReceived 0 toStation true false OpEnv.quiet) base).rbit Reg.FLT_PEND_A 6 = true := by decide
theorem test_frameReceived_short : frameSize [1, 2, 3] = false ∧
    (run (.frameReceived 1 [1, 2, 3] false false OpEnv.quiet) base).reg (Reg.LNK_RXERR 1) = 1 := by decide
/-- Both links are up. -/
def linked : State := base.modLnk fun l => { l with ports := Vector.replicate 2 ⟨true, false⟩ }
theorem test_linkUp : base.linkRuns 1 = true ∧ (run (.linkUp 1 true) base).lnk.ports[(1 : Fin 2)].up = true := by decide
theorem test_linkDown : linked.linkRuns 0 = true ∧ linked.lnk.ports[(0 : Fin 2)].up = true ∧
    (run (.linkDownEvent 0) linked).rbit Reg.FLT_PEND_A 6 = true := by decide
theorem test_linkRestart : linked.Granted who OpEnv.quiet Reg.LNK_PORTA_CFG [5] ∧ linked.Granted who OpEnv.quiet Reg.LNK_PORTB_CFG [5] ∧
    (run (.linkRestart who 0 5) linked).lnk.ports[(0 : Fin 2)].up = false ∧
    (run (.linkRestart who 1 5) linked).reg Reg.LNK_PORTB_CFG = 5 := by unfold Granted Asks; decide
/-- The station at 192.168.0.8. -/
def ip4 : State := base.setReg Reg.LNK_IP 0xC0A80008
/-- An ARP request from 192.168.0.1, and an ICMP echo request from it with both checksums worked out by hand. -/
def arp : List Byte := buildFrame ip4.stationMac 0x020000000009 none 0x0806
  [0, 1, 8, 0, 6, 4, 0, 1, 2, 0, 0, 0, 0, 9, 192, 168, 0, 1, 0, 0, 0, 0, 0, 0, 192, 168, 0, 8]
def echo : List Byte := buildFrame ip4.stationMac 0x020000000009 none 0x0800
  [0x45, 0, 0, 28, 0, 0, 0, 0, 64, 1, 0xF9, 0x87, 192, 168, 0, 1, 192, 168, 0, 8, 8, 0, 0xF7, 0xFC, 0, 1, 0, 2]
theorem test_arpRequest : ip4.linkRuns 0 = true ∧ ip4.takesFrame (readFrame arp) = true ∧ ip4.vlanOk (readFrame arp) = true ∧
    ip4.stationIp ≠ 0 ∧ (readFrame arp).etype = 0x0806 ∧ ip4.arpOk (readFrame arp).payload = true ∧ 0 ∈ ip4.egress 2 (readFrame arp).src ∧
    ip4.portOn 0 = true ∧ (run (.arpRequest 0 arp) ip4).out.length = 2 := by decide
theorem test_icmpEchoRequest : ip4.takesFrame (readFrame echo) = true ∧ ip4.vlanOk (readFrame echo) = true ∧
    (readFrame echo).etype = 0x0800 ∧
    parseIp (readFrame echo).payload = some (0xC0A80001, ip4.stationIp, 1, [8, 0, 0xF7, 0xFC, 0, 1, 0, 2]) ∧
    fold16 (wordSum [8, 0, 0xF7, 0xFC, 0, 1, 0, 2]) = 0xFFFF ∧ (run (.icmpEchoRequest 0 echo) ip4).lnk.ipId = ip4.lnk.ipId + 1 := by decide
/-- One address has been learned. -/
def learnt : State := base.learn 0x020000000009 1
theorem test_addressAgeing : learnt.ticking = true ∧ learnt.ageDue = some (learnt.tick + 30000000000) ∧
    ((oldestEntry (learnt.advanceTo (learnt.tick + 30000000000)).lnk.table).map (·.mac)) = some 0x020000000009 ∧
    (run .addressAgeing learnt).learned 0x020000000009 = none := by decide
/-- R190, R191: an item of 8 octets, and a message of it. -/
def resignItem : List Byte := [0x0D, 5, 8, 0, 0, 0, 0, 0]
def request (type seq : Byte) : List Byte := [1, type, 1, 1, seq, 0, 24, 0, 1, 1, 0, 0, 0, 0, 0, 0] ++ resignItem
theorem test_messageReadsBack : (∀ x ∈ [resignItem], 8 ≤ x.length ∧ x.length % 4 = 0 ∧ u16 x 2 = x.length) ∧
    [resignItem].flatten.length ≤ 1456 ∧ message 1 1 1 1 0x101 0 [resignItem].flatten = request 1 1 := by decide
/-- The peer and route of session 1. -/
def peer1 : Peer := .ether 0x020000000001
def route1 : Route := ⟨0, 0x020000000001, none⟩
theorem test_waislinkRequest : base.peerRuns peer1 = true ∧ base.admits = true ∧ base.booted = true ∧
    parseMessage (request 1 1) = some [resignItem] ∧ base.names peer1 (request 1 1) = some 1 ∧ badOp resignItem = false ∧
    (base.refresh 1 route1 0).tagBusy 1 (itemTag6 resignItem) = false ∧ opLength resignItem = some resignItem.length ∧
    (match (((base.refresh 1 route1 0).modSess 1 fun y => { y with nextSeq := y.nextSeq + 1 }).operation ⟨1, 1, 5⟩ OpEnv.quiet resignItem).2 with
      | .now c _ _ => decide (c = .ok) | _ => false) = true ∧
    (run (.waislinkRequest peer1 route1 (request 1 1) OpEnv.quiet) base).owner = none := by decide
/-- R203: a duplicate (the session expects 3, the message is 1), and a message 17 behind. -/
theorem test_waislinkRequest_duplicate :
    (((base.modSess 1 fun x => { x with nextSeq := 3 }).sess 1).nextSeq - BitVec.ofNat 16 (u16 (request 1 1) 4)).toNat = 2 ∧
    (base.modSess 1 fun x => { x with nextSeq := 3 }).names peer1 (request 1 1) = some 1 ∧
    (∀ x ∈ [resignItem], u8 x 0 ≠ 1 ∧ u8 x 0 ≠ 2) ∧
    (run (.waislinkRequest peer1 route1 (request 1 1) OpEnv.quiet) (base.modSess 1 fun x => { x with nextSeq := 3 })).owner = some 1 := by
  decide
theorem test_waislinkRequest_gap :
    (((base.modSess 1 fun x => { x with nextSeq := 18 }).sess 1).nextSeq - BitVec.ofNat 16 (u16 (request 1 1) 4)).toNat = 17 ∧
    (run (.waislinkRequest peer1 route1 (request 1 1) OpEnv.quiet) (base.modSess 1 fun x => { x with nextSeq := 18 })).out ≠ [] := by decide
theorem test_hostKeepalive : u8 (request 5 1) 1 = 5 ∧ parseMessage (request 5 1) = some [resignItem] ∧
    base.names peer1 (request 5 1) = some 1 ∧ (run (.hostKeepalive peer1 route1 (request 5 1)) base).owner = some 1 := by decide
/-- Session 0 is bound and a message waits in the outbound queue. -/
def local0 (delivered : Bool) : State :=
  (base.setSess 0 { sess0 with bound := true, peer := .lp, kaMs := 1000, binds := 1 }).modSes
    fun x => { x with lpOut := [request 1 1], lpDelivered := delivered }
/-- A SEND of `request 1 1` with the CRC `c`. -/
def sends (c : Nat) : List Byte := [1, 0, 24, 0, 0, 0, 0, 0] ++ request 1 1 ++ bytesLE 4 c
theorem test_localPortTransaction_fetch : (local0 false).coreOn = true ∧ (local0 false).lpOn = true ∧
    (local0 false).unitInReset 9 = false ∧ (local0 false).pwr.state ≠ .sleep ∧ (local0 false).booted = true ∧
    lpVoid (2 :: List.replicate 39 0) = false ∧ (local0 false).ses.lpOut = [request 1 1] ∧
    12 + (request 1 1).length ≤ (2 :: List.replicate 39 (0 : Byte)).length ∧
    (run (.localPortTransaction (2 :: List.replicate 39 0) OpEnv.quiet) (local0 false)).ses.lpDelivered = true := by decide
theorem test_localPortTransaction_ack : (local0 true).ses.lpDelivered = true ∧ lpVoid (4 :: List.replicate 7 0) = false ∧
    (run (.localPortTransaction (4 :: List.replicate 7 0) OpEnv.quiet) (local0 true)).ses.lpOut = [] := by decide
/-- Good and bad SENDs. -/
def good : List Byte := sends (crc32c ([1, 0, 24, 0, 0, 0, 0, 0] ++ request 1 1))
theorem test_localPortTransaction_send : lpVoid good = false ∧ (local0 false).lpGood good = true ∧
    (run (.localPortTransaction good OpEnv.quiet) (local0 false)).ses.lastGood = true := by decide
theorem test_localPortTransaction_bad : lpVoid (sends 0) = false ∧ (local0 false).lpGood (sends 0) = false ∧
    (run (.localPortTransaction (sends 0) OpEnv.quiet) (local0 false)).rbit Reg.SES_EVT 3 = true := by decide
theorem test_lpEnClear : (local0 false).Granted who OpEnv.quiet Reg.SES_CTRL [(local0 false).keeping Reg.SES_CTRL 16 16 0] ∧
    (local0 false).rbit Reg.SES_CTRL 16 = true ∧ ((local0 false).sess 0).bound = true ∧
    ((run (.lpEnClear who) (local0 false)).sess 0).bound = false := by unfold Granted Asks; decide
/-- The check value of CRC-32C: that of the digits 1 to 9. -/
theorem test_crc32c : crc32c [0x31, 0x32, 0x33, 0x34, 0x35, 0x36, 0x37, 0x38, 0x39] = 0xE3069283 := by decide

/-! ### Operations of a session -/

/-- A word that a READ meets: `FLT_CTRL`. -/
theorem test_read : base.Asks who ∧ (∀ a ∈ wordAddrs (word Reg.FLT_CTRL).toNat 1, base.badRead a = false ∧ base.heldAt a = false ∧
      Read.isFail (base.readWord MemEnv.quiet a) = false ∧ regionOf base a = regionOf base (word Reg.FLT_CTRL).toNat) ∧
    (run (.read who (word Reg.FLT_CTRL) 1 OpEnv.quiet) base).out.getLast? =
      some (.resp 1 ⟨1, 5, .ok, 1, base.order, [0x14, 0x0A, 0, 0]⟩) := by unfold Asks; decide
theorem test_readList : base.badRead 0x1004 = false ∧ base.heldAt 0x1004 = false ∧
    Read.isFail (base.readWord MemEnv.quiet 0x1004) = false := by decide
theorem test_readList_guard : w1gMask Reg.SES_EVT ≠ 0 ∧
    (run (.readList who [0x1004] OpEnv.quiet) (base.setGuard Reg.SES_EVT 16)).guard Reg.SES_EVT = 0 ∧
    (run (.readList other [0x1004] OpEnv.quiet) (two.setGuard Reg.SES_EVT 16)).guard Reg.SES_EVT = 16 := by decide
theorem test_write_observer : two.Asks other ∧ two.isOwner other.sess = false ∧ (Reg.SES_EVT, (1 : Word)) ∈ wordsAt (word Reg.SES_EVT).toNat [1] ∧
    Reg.SES_EVT < 0x10000 ∧ 1 &&& w1gMask Reg.SES_EVT ≠ 0 ∧
    (run (.write other (word Reg.SES_EVT) [1] OpEnv.quiet) two).out.getLast? =
      some (.resp 2 ⟨3, 5, .notOwner, 1, 0, []⟩) := by unfold Asks; decide
theorem test_write : base.Granted who OpEnv.quiet Reg.FLT_CTRL [0x0B14] ∧ Reg.FLT_CTRL / 0x1000 = 4 ∧ rwMask Reg.FLT_CTRL ≠ 0 ∧
    w1gMask Reg.FLT_CTRL = 0 ∧ wtMask Reg.FLT_CTRL = 0 ∧
    (run (.write who (word Reg.FLT_CTRL) [0x0B14] OpEnv.quiet) base).fld Reg.FLT_CTRL 15 8 = 11 := by unfold Granted Asks; decide
/-- `SES_EVT` with generation 3 and two flags. -/
def flagged : State := base.setReg Reg.SES_EVT 0x30000006
theorem test_write_clear : flagged.Granted who OpEnv.quiet Reg.SES_EVT [0x30000002] ∧ Reg.SES_EVT < 0x5000 ∧ rwMask Reg.SES_EVT = 0 ∧
    (0x30000002 : Word) &&& w1gMask Reg.SES_EVT ≠ 0 ∧ flagged.clearFresh Reg.SES_EVT 0x30000002 = true ∧
    (run (.write who (word Reg.SES_EVT) [0x30000002] OpEnv.quiet) flagged).reg Reg.SES_EVT = 0x30000004 := by unfold Granted Asks; decide
theorem test_write_stale : flagged.Granted who OpEnv.quiet Reg.SES_EVT [0x20000002] ∧ flagged.clearFresh Reg.SES_EVT 0x20000002 = false ∧
    (run (.write who (word Reg.SES_EVT) [0x20000002] OpEnv.quiet) flagged).reg Reg.SES_EVT = 0x30000006 := by unfold Granted Asks; decide
theorem test_writeMasked : base.isOwner who.sess = true ∧ hasTrigger Reg.FLT_CTRL = false ∧ base.derived Reg.FLT_CTRL = none ∧
    rwMask Reg.FLT_CTRL &&& 0xFF ≠ 0 ∧ base.isolated (portOf base Reg.FLT_CTRL) = false ∧
    base.admitWrite true [(Reg.FLT_CTRL, base.maskedValue (word Reg.FLT_CTRL) 0xFF 20)] [] = none ∧
    base.commitRefusal OpEnv.quiet.mem [(Reg.FLT_CTRL, base.maskedValue (word Reg.FLT_CTRL) 0xFF 20)] = none ∧
    (run (.writeMasked who (word Reg.FLT_CTRL) 0xFF 20 OpEnv.quiet) base).fld Reg.FLT_CTRL 7 0 = 20 := by decide
theorem test_write_larder : filled.Granted who OpEnv.quiet 0x10000004 [9] ∧
    (run (.write who 0x10000004 [9] OpEnv.quiet) filled).mem.word64 0 = some 0x900000000 := by unfold Granted Asks; decide
theorem test_write_table : base.Granted who OpEnv.quiet (0xB0000 + 0x40 * 11) [0x11] ∧
    (run (.write who (word (0xB0000 + 0x40 * 11)) [0x12] OpEnv.quiet) base).reaction 11 0 = 0x12 := by unfold Granted Asks; decide
/-- Lane 0 is in service. -/
def inService : State := base.setLaneState 0 .inService
theorem test_writeDeferred : inService.Asks who ∧ inService.isOwner who.sess = true ∧
    inService.admitWrite true (wordsAt (0x10000004 : Word).toNat [9]) (countCode [9] ++ inService.deferCodes true 0 50) = none ∧
    ((run (.writeDeferred who 0x10000004 [9] 0 50) inService).lane 0).deferred = [⟨50, 1, 1, 5, true, 0x10000004, [9]⟩] := by
  unfold Asks; decide
/-- A deferred write of lane 0 has come due. -/
def deferring : State :=
  inService.modLane 0 fun l => { l with hwm := 50, deferred := [⟨50, 1, 1, 5, true, 0x10000004, [9]⟩] }
theorem test_deferredCommit : deferring.ticking = true ∧ deferring.deferredNext 0 = some ⟨50, 1, 1, 5, true, 0x10000004, [9]⟩ ∧
    deferring.mayWriteBank holdOwner (bankOf 0x10000004) = true ∧ deferring.isolated 2 = false ∧
    (run (.deferredCommit 0 OpEnv.quiet) deferring).mem.word64 0 = some 0x900000000 := by decide

/-! ### Sessions, claims and ownership -/

def peer9 : Peer := .ether 0x020000000009
theorem test_open : base.admits = true ∧ base.booted = true ∧ base.sessOf peer9 = none ∧ base.freeSlotFor peer9 = some 2 ∧
    ((run (.open_ peer9 route1 7 3 500) base).sess 2).nextSeq = 8 := by decide
theorem test_subscribe : (3 : Word) &&& 0xFFFFFFFC = 0 ∧ (0xF : Word) &&& 0xFFFFFFF0 = 0 ∧
    ((run (.subscribe who 3 5 0xF) base).sess 1).srcHi = 0xF := by decide
theorem test_discover : 0 ∈ base.egress 2 route1.mac ∧ base.portOn 0 = true ∧
    (run (.discover (.ether 0x020000000009) route1 7 3) base).out.length = 2 := by decide
theorem test_close : base.Asks who ∧ who.sess ≠ 0 ∧ base.owner = some who.sess ∧ (run (.close who) base).owner = none := by
  unfold Asks; decide
theorem test_close_observer : two.Asks other ∧ two.owner ≠ some other.sess ∧ (run (.close other) two).owner = some 1 := by unfold Asks; decide
/-- The nonce 0 to 15 of session 0 under `NONCE_ID` 5, and its operation. -/
def nonces : State := local0 false |>.modSess 0 fun x => { x with nonce := some (5, (List.range 16).map (BitVec.ofNat 8)) }
def local1 : OpCtx := ⟨0, 1, 5⟩
theorem test_nonce : base.Asks who ∧ ((run (.nonce who (some (List.replicate 16 3))) base).sess 1).nonce = some (1, List.replicate 16 3) ∧
    (run (.nonce who none) base).ses.entropyBad = true := by unfold Asks; decide
/-- Nobody owns the GL4480; session 0 does. -/
def vacant : State := nonces.setReg Reg.SES_OWNER 15
def owns0 : State := nonces.setReg Reg.SES_OWNER 0x300
/-- R227 worked outside the model: the MAC of session 0's claim of priority 3 under the key of 32 zero bytes. -/
def claimMac : List Byte := [189, 125, 54, 217, 181, 108, 180, 250, 29, 186, 83, 176, 160, 111, 85, 240,
  21, 145, 134, 11, 99, 159, 245, 103, 12, 65, 234, 57, 212, 249, 106, 209]
theorem test_sha256 : (sha256 [0x61, 0x62, 0x63]).take 4 = [0xBA, 0x78, 0x16, 0xBF] := by decide
/-- RFC 4231, test case 2. -/
theorem test_hmac : (hmacSha256 [0x4A, 0x65, 0x66, 0x65] ("what do ya want for nothing?".toList.map fun c => BitVec.ofNat 8 c.toNat)).take 4
    = [0x5B, 0xDC, 0xC1, 0x46] := by decide
theorem test_claim : vacant.Asks local1 ∧ (vacant.sess local1.sess).nonce = some (5, (List.range 16).map (BitVec.ofNat 8)) ∧
    vacant.claimKey local1.sess 3 = some (List.replicate 32 0) ∧
    hmacSha256 (List.replicate 32 0) (vacant.claimText local1.sess ((List.range 16).map (BitVec.ofNat 8)) 5 3) = claimMac ∧
    vacant.owner = none ∧ vacant.ses.electEnd = none ∧ vacant.localPrec = false ∧
    ((run (.claim local1 3 5 claimMac) vacant).sess 0).cand = some (3, 1, 5) := by unfold Asks; decide
theorem test_claim_owner : owns0.Asks local1 ∧ owns0.owner = some local1.sess ∧
    hmacSha256 (List.replicate 32 0) (owns0.claimText local1.sess ((List.range 16).map (BitVec.ofNat 8)) 5 3) = claimMac ∧
    (run (.claim local1 3 5 claimMac) owns0).out ≠ [] := by unfold Asks; decide
theorem test_claim_fails : claimMac ≠ [1] ∧ vacant.unitInReset 9 = false ∧
    (run (.claim local1 3 5 (0 :: claimMac.tail)) vacant).rbit Reg.SES_EVT 2 = true := by decide
/-- R238 worked outside the model: the key 1 to 32 wrapped for slot 0 under the key of 32 zero bytes, and the MAC. -/
def wrapped : List Byte := [239, 193, 85, 155, 4, 156, 185, 100, 39, 248, 178, 158, 224, 197, 163, 75,
  11, 224, 162, 79, 47, 85, 228, 201, 243, 155, 48, 133, 33, 13, 214, 69]
def keyMac : List Byte := [190, 219, 207, 134, 128, 110, 23, 171, 191, 1, 0, 164, 208, 75, 7, 233,
  175, 7, 138, 182, 233, 24, 112, 75, 73, 48, 64, 24, 212, 184, 84, 208]
theorem test_keyInstall : owns0.isOwner local1.sess = true ∧ owns0.badSlot 0 = false ∧
    owns0.claimKey local1.sess (owns0.fld Reg.SES_OWNER 10 8) = some (List.replicate 32 0) ∧
    owns0.wouldGrant false (stagedEnergy 64) = true ∧ wrapped.length = 32 ∧
    ((run (.keyInstall local1 0 5 wrapped keyMac) owns0).mem.staged.map fun w => w.data.take 32) =
      [(List.range 32).map fun k => BitVec.ofNat 8 (k + 1)] := by decide
/-- The MAC and the unwrapped key, as the statement has them. -/
theorem test_keyInstall_mac :
    hmacSha256 (List.replicate 32 0) ([0x47, 0x4C, 0x4B, 0x49] ++
      owns0.keyText local1.sess ((List.range 16).map (BitVec.ofNat 8)) 5 0 ++ wrapped) = keyMac ∧
    List.zipWith (fun a b => a ^^^ b) wrapped (hmacSha256 (List.replicate 32 0) ([0x47, 0x4C, 0x4B, 0x57] ++
      owns0.keyText local1.sess ((List.range 16).map (BitVec.ofNat 8)) 5 0)) ≠ List.replicate 32 0 := by decide
theorem test_grant : two.Asks who ∧ two.isOwner who.sess = true ∧ (two.sess 2).bound = true ∧ (2 : Sess) ≠ who.sess ∧
    (two.sess 3).bound = false ∧ (run (.grant who 2) two).owner = some 2 ∧ (run (.grant who 3) two).owner = some 1 := by unfold Asks; decide
theorem test_grant_observer : two.Asks other ∧ two.isOwner other.sess = false ∧ (run (.grant other 1) two).owner = some 1 ∧
    (run (.resign other) two).owner = some 1 ∧ (run (.resign who) two).owner = none := by unfold Asks; decide
/-- The election of session 2's claim closes now. -/
def electing : State :=
  ((two.setReg Reg.SES_OWNER 15).modSess 2 fun x => { x with cand := some (4, 1, 5) }).modSes fun x => { x with electEnd := some two.tick }
theorem test_electionClose : electing.ticking = true ∧ electing.ses.electEnd = some two.tick ∧
    (electing.advanceTo two.tick).leader = some 2 ∧ (((electing.advanceTo two.tick).sess 2).cand).isSome = true ∧
    (run .electionClose electing).owner = some 2 ∧ (run .electionClose electing).fld Reg.SES_OWNER 10 8 = 4 := by decide
theorem test_keepaliveLoss : base.lossDue 1 = some 100000000 ∧ ((base.advanceTo 100000000).sess 1).bound = true ∧
    (base.advanceTo 100000000).unitInReset 8 = false ∧ (base.advanceTo 100000000).owner = some 1 ∧
    (run (.keepaliveLoss 1) base).owner = none := by decide
theorem test_keepaliveLoss_observer : two.lossDue 2 = some 100000000 ∧ (two.advanceTo 100000000).owner ≠ some 2 ∧
    (run (.keepaliveLoss 2) two).owner = some 1 := by decide
/-- An event message of session 1 is unacknowledged. -/
def unacked : State := base.modSess 1 fun x => { x with unacked := [⟨1, false, [.state 0 none 1 2 9 0]⟩] }
theorem test_eventResend : unacked.admits = true ∧ unacked.resendDue 1 = some 5000000 ∧
    ((unacked.advanceTo 5000000).sess 1).unacked ≠ [] ∧ ((run (.eventResend 1) unacked).sess 1).unacked.length = 1 := by decide
theorem test_idleKeepalive : base.admits = true ∧ base.idleDue 1 = some 25000000 ∧ ((run (.idleKeepalive 1) base).sess 1).sentAt = 25000000 := by
  decide
theorem test_idleKeepalive_local : ((local0 false).modSes fun x => { x with lpOut := [] }).idleDue 0 = some 25000000 ∧
    ((run (.idleKeepalive 0) ((local0 false).modSes fun x => { x with lpOut := [] })).ses.lpOut).length = 1 := by decide

/-! ### Timers -/

/-- Timer 2 counts TB100, or lane 0's placement clock; channel 1 compares with 5 and has action word `a`. -/
def timing (src a : Nat) : State :=
  (((base.setReg (Reg.TMR_CFG 2) (word (0x100 + src))).setReg (Reg.TMR_VAL_LO 2 1) 5).setReg (Reg.TMR_VAL_HI 2 1) 0x10000).setReg
    (Reg.TMR_ACT 2 1) (word a)
theorem test_timerMatch_tick : (timing 0 0).ticking = true ∧ (timing 0 0).tmSrc 2 = 0 ∧ (timing 0 0).tmRun 2 = true ∧
    (∀ x : TimerId, (timing 0 0).tmRun x = true → (timing 0 0).tmHits x 1 = []) ∧
    ((run (.timerMatch 2 1) (timing 0 0)).timer 2).count = 1 := by decide
theorem test_timerMatch : (timing 3 0).tmSrc 2 = 3 ∧ (timing 3 0).tmHits 2 4 = [] ∧ (timing 3 0).tmHits 2 5 = [1] ∧
    (timing 3 0).tmAct 2 1 = 0 ∧ (run (.timerMatch 2 5) (timing 3 0)).rbit (Reg.TMR_STAT 2) 1 = true := by decide
theorem test_timerMatch_reset : (timing 3 1).tmAct 2 1 = 1 ∧ (timing 3 1).tmHits 2 7 = [1] ∧
    ((run (.timerMatch 2 7) (timing 3 1)).timer 2).count = 2 := by decide
/-- Timer 2 stands two counts below its wrap. -/
def wrapping : State := (timing 3 0).modTimer 2 fun x => { x with count := BitVec.ofNat 48 (2 ^ 48 - 2) }
theorem test_timerOverflow : wrapping.tmRun 2 = true ∧ wrapping.tmHits 2 3 = [4] ∧ wrapping.tmAct 2 4 = 0 ∧
    (∀ x, wrapping.tmSrc x = 11 → wrapping.tmOvfSrc x ≠ 2) ∧
    (∀ l : Lane, ¬ (wrapping.fld (Reg.PLC_SRC l) 2 0 = 5 ∧ wrapping.fld (Reg.PLC_SRC l) 7 4 = 2)) ∧
    (run (.timerOverflow 2 3) wrapping).rbit (Reg.TMR_STAT 2) 4 = true := by decide
/-- R245: a prescaler of 2.5 counts 4 of 10 events. -/
theorem test_timerMatch_prescaled :
    ((run (.timerMatch 2 10) ((timing 3 0).setReg (Reg.TMR_PRE 2) 0x00028000)).timer 2).count = 4 := by decide
theorem test_timerLoad : base.Granted who OpEnv.quiet (Reg.TMR_CFG 2) [base.keeping (Reg.TMR_CFG 2) 31 31 1] ∧
    ((run (.timerLoad who 2 OpEnv.quiet) (base.setReg (Reg.TMR_LOAD_LO 2) 77)).timer 2).count = 77 := by unfold Granted Asks; decide
theorem test_forceHigh : base.Granted who OpEnv.quiet Reg.TMR_TOUT [base.keeping Reg.TMR_TOUT 19 16 5] ∧
    (run (.forceHigh who 5) base).fld Reg.TMR_TOUT 3 0 = 5 := by unfold Granted Asks; decide
theorem test_forceLow : base.Granted who OpEnv.quiet Reg.TMR_TOUT [base.keeping Reg.TMR_TOUT 23 20 5] ∧
    (run (.forceLow who 5) (base.setReg Reg.TMR_TOUT 0xF)).fld Reg.TMR_TOUT 3 0 = 10 := by unfold Granted Asks; decide
/-- TCLK1 is enabled with a stop window of 3,000 ticks. -/
def clocked : State := base.setReg (Reg.TMR_TCLK_CFG 1) 0x30023
theorem test_tclkEdge : clocked.rbit (Reg.TMR_TCLK_CFG 1) 0 = true ∧ clocked.tmr.aux[(1 : Fin 4)] ≠ true ∧
    (run (.tclkEdge 1 true) clocked).tmr.tclkAt[(1 : Fin 4)] = clocked.tick := by decide
theorem test_tclkStopWindowEnd : clocked.tclkDue 1 = some 3000 ∧ (clocked.advanceTo 3000).unitInReset 10 = false ∧
    (run (.tclkStopWindowEnd 1) clocked).rbit Reg.TMR_TCLK_STAT 9 = true := by decide
/-- Channel 1 of timer 2 captures rising edges of AUX_IN3. -/
def capturing : State := (base.setReg (Reg.TMR_VAL_HI 2 1) 0x1320000).modTimer 2 fun x => { x with count := 9 }
theorem test_auxInEdge : base.rbit (Reg.TMR_TCLK_CFG 3) 0 = false ∧ base.tmr.aux[(3 : Fin 4)] ≠ true ∧
    (∀ x : Axis, ¬ (base.fld (Reg.MOT_CFG x) 21 20 = 3 ∧ base.rbit (Reg.MOT_CFG x) 22 = true)) ∧
    (∀ t : TimerId, ∀ c < 4, base.tmMode t c ≠ 2) ∧ (run (.auxInEdge 3 true false) base).tmr.aux[(3 : Fin 4)] = true := by decide
theorem test_auxInEdge_capture : capturing.tmMode 2 1 = 2 ∧ capturing.fld (Reg.TMR_VAL_HI 2 1) 23 20 = 3 ∧
    edgeOf (capturing.fld (Reg.TMR_VAL_HI 2 1) 25 24) true = true ∧ capturing.tmAct 2 1 = 0 ∧
    (∀ t : TimerId, ∀ c < 4, capturing.tmMode t c = 2 → t = 2 ∧ c = 1) ∧
    (run (.auxInEdge 3 true false) capturing).tmVal 2 1 = 9 := by decide

/-! ### Placement -/

/-- Encoder 0 decodes quadrature and feeds lane 0, one count to one step. -/
def encoded : State := (base.setReg (Reg.PLC_ENC_CFG 0) 0x321).setReg (Reg.PLC_SRC 0) 1
theorem test_encoderCount : encoded.ticking = true ∧ encoded.losNow 0 = false ∧
    decode (encoded.fld (Reg.PLC_ENC_CFG 0) 1 0) encoded.plc.encs[(0 : Enc)].a encoded.plc.encs[(0 : Enc)].b true false = (false, some 1) ∧
    encoded.fld (Reg.PLC_SRC 0) 2 0 = 1 + (0 : Enc).val ∧ ((run (.encoderCount 0 true false) encoded).lane 0).pc = 1 := by decide
/-- A record of lane 0 in state `st`: serial 7, trigger at 20, latch at 10, gate at 40, 3 columns 2 apart. -/
def record (st : RecState) : Rec :=
  { slot := 0, serial := 7, state := st, verdict := .pending, cause := 0, edge := 0, trigger := 20, latch := 10, gate := 40, columns := 3,
    job := 0, pitch := 0x20000, latchAt := 10, eFix := 0, eCol := 0, col := 0, last := 0, skips := 0, counted := false,
    abandoned := false, set := none, ring := none }
def recorded (s : State) (r : Rec) : State := s.modLane 0 fun l => { l with recs := [r] }
theorem test_encoderCount_illegal :
    decode (encoded.fld (Reg.PLC_ENC_CFG 0) 1 0) encoded.plc.encs[(0 : Enc)].a encoded.plc.encs[(0 : Enc)].b true true = (true, none) ∧
    encoded.unitInReset 32 = false ∧ encoded.laneEnc 0 = some 0 ∧ (recorded encoded (record .printing)).printing 0 = some (record .printing) ∧
    (recorded encoded (record .printing)).slotWritable 0 ((recorded encoded (record .printing)).slotAddr 0 (record .printing)) = true ∧
    ((run (.encoderCount 0 true true) (recorded encoded (record .printing))).printing 0).map (·.verdict) = some .suspect := by decide
theorem test_encZEdge : encoded.plc.encs[(0 : Enc)].z = false ∧
    (run (.encZEdge 0 true false) (encoded.setReg (Reg.PLC_ENC_RAW 0) 5)).reg (Reg.PLC_ENC_ZCAP 0) = 5 := by decide
/-- LOS of encoder 1 is enabled, active high. -/
def losOn : State := base.setReg (Reg.PLC_ENC_CFG 1) 0x30321
theorem test_encLosChange : losOn.losNow 1 = false ∧ losOn.rbit (Reg.PLC_ENC_CFG 1) 16 = true ∧ losOn.rbit (Reg.PLC_ENC_CFG 1) 17 = true ∧
    losOn.unitInReset 33 = false ∧ (run (.encLosChange 1 true false) losOn).losNow 1 = true := by decide
/-- Coarse step input 1 is enabled. -/
def stepping : State := base.setReg (Reg.PLC_CSTEP_CFG 1) 0x10321
theorem test_coarseStep : stepping.rbit (Reg.PLC_CSTEP_CFG 1) 0 = true ∧ stepping.plc.steps[(1 : Fin 2)].1 ≠ true ∧
    edgeOf (stepping.fld (Reg.PLC_CSTEP_CFG 1) 17 16) true = true ∧
    (run (.coarseStep 1 true true) stepping).reg (Reg.PLC_CSTEP_RAW 1) = 0xFFFFFFFF := by decide
theorem test_discardedPulse : base.discardCounter 0 = some (Reg.PLC_ENC_FILT 0) ∧
    (run (.discardedPulse 0) base).reg (Reg.PLC_ENC_FILT 0) = 1 := by decide
theorem test_inhibitChange : (run (.inhibitChange false false) base).rej.inhibit = false := by decide
theorem test_full_photoEye : base.ticking = true ∧ base.unitInReset 0 = false ∧ base.fitted 0 = true ∧ base.usesInput 0 18 = true ∧
    (run (.photoEyeEdge 0 true true) base).rejecting 0 = true := by decide
theorem test_full_aux : base.rbit (Reg.TMR_TCLK_CFG 3) 0 = false ∧ (run (.auxInEdge 3 true true) base).rbit Reg.FLT_PEND_A 0 = true ∧
    (run (.inhibitChange true true) base).rbit Reg.FLT_PEND_A 0 = true := by decide
theorem test_full_encoder : encoded.usesInput 0 2 = true ∧ (run (.encZEdge 0 true true) encoded).rejecting 0 = true ∧
    (run (.encLosChange 0 true true) encoded).rejecting 0 = true := by decide

/-! ### Product records -/

/-- Lane 0 is in service with a job of 3 columns; PE0 is enabled for rising edges. -/
def producing : State :=
  (((base.setLaneState 0 .inService).setReg (Reg.DEV_ENV_RATE 0) 100).setReg (Reg.PLC_PE 0) 0x110).modLane 0 fun l => { l with cols := 3 }
theorem test_photoEyeEdge : producing.plc.pe[(0 : Fin 4)] ≠ true ∧ (∀ m : Lane, producing.peSelected m 0 true = true ↔ m = 0) ∧
    producing.unitInReset 14 = false ∧ producing.mayCreate 0 = true ∧ (producing.lane 0).recs = [] ∧ producing.losHold 0 = false ∧
    producing.slotWritable 0 (producing.slotAddr 0 (producing.newRec 0)) = true ∧
    ((run (.photoEyeEdge 0 true false) producing).lane 0).recs.map (·.trigger) = [0x400] := by decide
theorem test_photoEyeEdge_ignored : (producing.setReg (Reg.DEV_ENV_RATE 0) 0).mayCreate 0 = false ∧
    (∀ m : Lane, (producing.setReg (Reg.DEV_ENV_RATE 0) 0).peSelected m 0 true = true ↔ m = 0) ∧
    (run (.photoEyeEdge 0 true false) (producing.setReg (Reg.DEV_ENV_RATE 0) 0)).reg (Reg.PLC_PE_IGNORED 0) = 1 := by decide
/-- A created record has reached its latch point. -/
def latching : State := (recorded producing (record .created)).modLane 0 fun l => { l with pc := 12, hwm := 12 }
theorem test_latch_bypass : (latching.latchNext 0).map (·.serial) = some 7 ∧ (record .created).verdict = .pending ∧
    latching.slotWritable 0 (latching.slotAddr 0 (record .created)) = true ∧ (latching.setReg (Reg.REJ_CTRL 0) 1).bypassed 0 = true ∧
    ((run (.latch 0 MemEnv.quiet) (latching.setReg (Reg.REJ_CTRL 0) 1)).lane 0).recs.map (·.verdict) = [.bypassed] := by decide
theorem test_latch_noJob : latching.bypassed 0 = false ∧ (latching.setReg (Reg.DEV_ENV_RATE 0) 0).maxRate 0 = 0 ∧
    ((run (.latch 0 MemEnv.quiet) (latching.setReg (Reg.DEV_ENV_RATE 0) 0)).lane 0).recs.map (·.cause) = [4] := by decide
/-- Slot 0 has its ring, staging area and render channel 0; head 0 is ready with 4 nozzles in one row. -/
def rendering (s : State) : State :=
  let s := ((s.setReg (Reg.CMP_RING_BASE 0) 0x10310000).setReg (Reg.CMP_STAGE 0) 0x10320000).setReg (Reg.CMP_RENDER 0) 0
  let s := (s.modHead 0 fun x => { x with state := .ready }).setReg (Reg.HED_GEOM 0) 0x00040001
  s.setLease (resChan 0) { s.lease (resChan 0) with holder := holdSlot 0 }
/-- The Cellar is isolated: the layout of the job cannot be read. -/
def latchable : State := (rendering latching).setReg Reg.DEV_LAD_ISO_LO 8
theorem test_latch : latchable.bypassed 0 = false ∧ (latchable.lane 0).outside = false ∧ latchable.losHold 0 = false ∧
    latchable.carryAxis 0 = none ∧ ((run (.latch 0 MemEnv.quiet) latchable).lane 0).recs.map (·.state) = [.latched] := by decide
/-- The checks of the latch on the record as it stands after the latch. -/
def latchedAt : State := (latchable.latchHead 0).takeLatch 0 (record .created)
theorem test_latch_checks : (latchedAt.findRec 0 7).map (latchedAt.latchStop 0) = some none ∧ latchedAt.healthVerdict 0 = none ∧
    latchedAt.wouldGrant true 0 = true := by decide
theorem test_stallWindowEnd : producing.stallDue 0 = some 500000 ∧ (producing.advanceTo 500000).printing 0 = none ∧
    ((run (.stallWindowEnd 0) producing).lane 0).stallDone = true := by decide
theorem test_stallWindowEnd_printing :
    ((recorded producing (record .printing)).advanceTo 500000).printing 0 = some (record .printing) ∧
    ((run (.stallWindowEnd 0) (recorded producing (record .printing))).lane 0).recs.map (·.cause) = [32] := by decide
/-- A record whose columns come: its ring starts at column 0, whose bytes are in the Larder. -/
def emitting (st : RecState) (k : Nat) : State :=
  let s := (recorded (rendering producing) { record st with ring := some 0, col := k }).modLane 0 fun l => { l with pc := 24, hwm := 24 }
  (List.range 24).foldl (fun (s : State) (i : Nat) => s.modMem fun m => m.setWord64 (larderIdx 0x10310000 + i) (some 0)) s
theorem test_columnEmission_late : ((emitting .latched 0).columnNext 0).map (·.serial) = some 7 ∧
    ((run (.columnEmission 0 false false MemEnv.quiet) (emitting .latched 0)).lane 0).recs.map (·.cause) = [128] := by decide
theorem test_columnEmission : let s := emitting .printing 1
    (s.columnNext 0).map (·.col) = some 1 ∧ (s.planFire 0).2 - (s.planFire 0).1 ≤ s.fld (Reg.HED_PACE 0) 31 16 ∧ s.isolated 18 = false ∧
    s.unitInReset 18 = false ∧ (s.columnData 0 (s.columnAddr 0 0 1) 1 MemEnv.quiet).toOption.isSome = true ∧
    ((run (.columnEmission 0 true false MemEnv.quiet) s).head 0).firings.length = 1 := by decide
theorem test_columnEmission_last :
    ((run (.columnEmission 0 true false MemEnv.quiet) (emitting .printing 2)).lane 0).recs.map (·.verdict) = [.marked] := by decide
/-- The previous firing was far too late for the next. -/
def slowed : State := (emitting .printing 1).modHead 0 fun x => { x with fLast := some 1000000 }
theorem test_columnEmission_skip : (slowed.planFire 0).2 - (slowed.planFire 0).1 > slowed.fld (Reg.HED_PACE 0) 31 16 ∧
    (record .printing).skips < slowed.fld (Reg.HED_SKIP 0) 11 0 ∧
    (run (.columnEmission 0 true false MemEnv.quiet) slowed).reg (Reg.HED_SKIPS 0) = 1 := by decide

/-! ### Rejects and line signals -/

/-- A final record stands at the gate of lane 0. -/
def gated (v : Verdict) : State :=
  (recorded base { record .final with verdict := v }).modLane 0 fun l => { l with pc := 45, hwm := 45 }
theorem test_gateAction_pass : ((gated .marked).atGate 0).map (·.state) = some .final ∧ gatePasses .marked = true ∧
    (run (.gateAction 0) (gated .marked)).reg (Reg.REJ_CNT_PASS 0) = 1 := by decide
theorem test_gateAction_reject : gatePasses .suspect = false ∧ (gated .suspect).merges 0 = false ∧
    (run (.gateAction 0) (gated .suspect)).reg (Reg.REJ_CNT_REJ 0) = 1 := by decide
/-- A reject window of lane 0 ends by position or by time. -/
def windowed (e : WinEnd) : State := (base.modRejLane 0 fun x => { x with window := some e }).modLane 0 fun l => { l with pc := 45, hwm := 45 }
theorem test_rejWindowEnd_pos : pcGe ((windowed (.pos 44)).lane 0).hwm 44 = true ∧
    ((run (.rejWindowEnd 0) (windowed (.pos 44))).rejLane 0).window = none := by decide
theorem test_rejWindowEnd_time : ((windowed (.time 2000000)).rejLane 0).window = some (.time 2000000) ∧
    ((run (.rejWindowEnd 0) (windowed (.time 2000000))).rejLane 0).window = none := by decide
/-- An unrecorded span of lane 0 ends at its count. -/
def spanned : State := (base.modRejLane 0 fun x => { x with span := some 45 }).modLane 0 fun l => { l with pc := 45, hwm := 45 }
theorem test_spanEnd : (spanned.rejLane 0).span = some 45 ∧ pcGe (spanned.lane 0).pc 45 = true ∧
    ((run (.spanEnd 0) spanned).rejLane 0).span = none := by decide
/-- Lane 0 reads its output back. -/
def backRead : State := (base.setReg (Reg.REJ_CFG 0) 0x80).modRejLane 0 fun x => { x with drive := some true, rbAt := some 1000000 }
theorem test_readbackSample : backRead.readbackDue 0 = some 1000000 ∧ (backRead.rejLane 0).drive = some true ∧
    ((run (.readbackSample 0 true) backRead).rejLane 0).rbAt = none := by decide
theorem test_readbackSample_differs : (backRead.rejLane 0).rbDiffers = false ∧ (backRead.advanceTo 1000000).unitInReset 34 = false ∧
    (run (.readbackSample 0 false) backRead).rbit (Reg.REJ_EVT 0) 0 = true := by decide
/-- LIVE toggles now. -/
def living : State := base.modRej fun r => { r with liveAt := some 1000000 }
theorem test_liveEdge : living.rej.liveAt = some 1000000 ∧ (run (.liveEdge false) living).rej.live = !base.rej.live ∧
    (run (.liveEdge true) living).reg Reg.REJ_LIVE_DROP = 1 := by decide
/-- A forced reject of lane 0. -/
def forcing (s : State) : State := s.modRejLane 0 fun x => { x with forceOverrun := true }
theorem test_rejRelease : (forcing producing).Granted who OpEnv.quiet (Reg.REJ_CTRL 0) [(forcing producing).keeping (Reg.REJ_CTRL 0) 31 31 1] ∧
    (forcing producing).forced 0 = true ∧ (forcing producing).maxRate 0 ≠ 0 ∧
    ((run (.rejRelease who 0) (forcing producing)).rejLane 0).span.isSome = true := by unfold Granted Asks; decide
theorem test_rejRelease_noJob : (forcing base).Granted who OpEnv.quiet (Reg.REJ_CTRL 0) [(forcing base).keeping (Reg.REJ_CTRL 0) 31 31 1] ∧
    (forcing base).forced 0 = true ∧ (forcing base).maxRate 0 = 0 ∧ ((run (.rejRelease who 0) (forcing base)).rejLane 0).spanDue = true := by
  unfold Granted Asks; decide

/-! ### Jobs, crates and the calendar -/

/-- R378-R383 written out and its CRCs worked outside the model: an unsigned crate of one job, 3 columns and `MAX_RATE` 48. -/
def crate0 : List Byte := [
  66, 79, 82, 90, 1, 0, 0, 0, 128, 68, 0, 0, 0, 0, 0, 0, 192, 0, 0, 0, 3, 0, 1, 0,
  0, 0, 0, 0, 0, 0, 0, 0, 0, 0, 0, 0, 0, 0, 0, 0, 0, 0, 0, 0, 0, 0, 0, 0,
  0, 0, 0, 0, 0, 0, 0, 0, 0, 0, 0, 0, 74, 106, 41, 100, 1, 0, 0, 0, 112, 0, 0, 0,
  48, 0, 0, 0, 219, 92, 82, 145, 2, 0, 0, 0, 160, 0, 0, 0, 16, 0, 0, 0, 234, 154, 112, 66,
  6, 0, 0, 0, 176, 0, 0, 0, 4, 0, 0, 0, 199, 75, 103, 72, 3, 0, 0, 0, 1, 0, 255, 255,
  255, 255, 255, 255, 2, 0, 255, 255, 255, 255, 1, 0, 232, 3, 0, 0, 10, 0, 0, 0, 0, 0, 0, 0,
  0, 0, 1, 0, 0, 1, 0, 0, 48, 0, 0, 0, 32, 3, 0, 0, 0, 0, 0, 0, 0, 0, 0, 0,
  0, 0, 0, 0, 0, 0, 0, 0, 0, 0, 0, 0, 0, 0, 0, 0, 0, 0, 0, 0, 0, 0, 0, 0]
/-- The Cellar holds it from address 0 on. -/
def crated : State := base.modMem fun m => { m with cellar := ((List.range 192).zip crate0).filter fun c => !decide (c.2 = 0xFF) }
theorem test_jobSelection_check : (0 : Byte) ≠ 255 ∧ OpEnv.quiet.mem.noDqs = false ∧
    (match crated.checkSelection 0 0 0 true with | .ok x => (x.job.columns, x.env.maxRate, x.job.eFix, x.values.length) | .error _ => (0, 0, 0, 0))
      = (3, 48, 1000, 0) := by decide
theorem test_jobSelection : crated.Granted who OpEnv.quiet (Reg.PLC_JOB 0) [word ((0 : BitVec 17).toNat + (0 : Byte).toNat * 2 ^ 24)] := by
  unfold Granted Asks; decide
theorem test_jobDeselection : producing.Granted who OpEnv.quiet (Reg.PLC_JOB 0) [0xFF000000] ∧ producing.lateRec 0 = none ∧
    (run (.jobDeselection who 0) producing).maxRate 0 = 0 := by unfold Granted Asks; decide
theorem test_crateVerify : base.Granted who OpEnv.quiet Reg.CMP_CRATE_VADDR [word (3 : BitVec 17).toNat, 1] ∧
    (run (.crateVerify who 3) base).crates.run = some ⟨3, false⟩ := by unfold Granted Asks; decide
/-- A verification of the crate at `a` runs. -/
def verifying (a : Nat) (changed : Bool) : State := { crated with crates := { crated.crates with run := some ⟨a, changed⟩ } }
theorem test_crateVerifyDone : (verifying 0 false).ticking = true ∧ (verifying 0 false).celHeld = false ∧
    (match verifyCrate ((verifying 0 false).crateSrc 0 true) (verifying 0 false).installedKey with | .ok h => h.hcrc | .error _ => 0)
      = 0x64296A4A ∧ (run (.crateVerifyDone true) (verifying 0 false)).fld Reg.CMP_CRATE_VSTAT 7 4 = 2 := by decide
theorem test_crateVerifyDone_fails :
    (match verifyCrate ((verifying 1 false).crateSrc 1 true) (verifying 1 false).installedKey with | .ok _ => 0 | .error e => e.reason) = Why.magic ∧
    Why.magic ≠ Why.read ∧ Why.magic < 256 ∧ (run (.crateVerifyDone true) (verifying 1 false)).fld Reg.CMP_CRATE_VSTAT 15 8 = 2 := by decide
theorem test_crateVerifyDone_changed : (verifying 0 true).crates.run = some ⟨0, true⟩ ∧ (verifying 0 true).celHeld = false := by decide
/-- The calendar stands at a day and second. -/
def dated (d sec : Nat) : State := { base with cal := { base.cal with day := d, second := sec, isSet := true } }
theorem test_secondBoundary : (dated 5 7).pwr.state ≠ .off ∧ (dated 5 7).cal.isSet = true ∧
    (run .secondBoundary (dated 5 7)).cal.second = 8 ∧ (run .secondBoundary (dated 5 86399)).cal.day = 6 ∧
    (run .secondBoundary (dated 73048 86399)).cal.isSet = false := by decide
theorem test_calSet : base.Granted who OpEnv.quiet Reg.CAL_SET_DAY [9, 100, 1] ∧ (run (.calSet who 9 100) base).cal.day = 9 := by
  unfold Granted Asks; decide
/-- Counter 0 has moved since the last checkpoint. -/
def counted : State := base.setReg (Reg.CAL_CNT_VAL 0) 5
def counted1 : State := counted.advanceTo (counted.dueAt Ev.checkpoint counted.boot.doneAt (counted.fld Reg.CAL_CKPT_CFG 11 0 * 100000000))
theorem test_checkpointRequest : counted.booted = true ∧ counted.fld Reg.CAL_CKPT_CFG 11 0 ≠ 0 ∧ counted1.unitInReset 13 = false ∧
    counted1.cal.ckpt ≠ counted1.cntWords ∧ counted1.wouldGrant false 236 = true ∧ counted1.mem.staged = [] ∧
    (run .checkpointRequest counted).mem.staged.length = 1 := by decide
theorem test_checkpointRequest_refused : ((counted.modPwr fun p => { p with samples := [] }).advanceTo 0).wouldGrant false 236 = false ∧
    (run .checkpointRequest (counted.modPwr fun p => { p with samples := [] })).rbit Reg.CAL_EVT 2 = true := by decide

/-! ### Axes -/

/-- Axis `x` has profile speeds and stands in state `st`. -/
def axis (x : Axis) (st : AxisState) : State :=
  let s := ((base.setReg (Reg.MOT_VMAX x) 0x1000000).setReg (Reg.MOT_VSTART x) 0x100000).setReg (Reg.MOT_ACC x) 0x1000
  let s := ((s.setReg (Reg.MOT_DEC x) 0x1000).setReg (Reg.MOT_HOMEVEL x) 0x200000).setReg (Reg.MOT_TARGET x) 500
  s.modAxis x fun a => { a with state := st, suspect := false }
def commands (s : State) (x : Axis) (k : Nat) : Prop := s.Granted who OpEnv.quiet (Reg.MOT_CMD x) [word (2 ^ k)]
theorem test_motEnable : commands base 0 0 ∧ (base.axis 0).state = .disabled ∧ ((run (.motEnable who 0) base).axis 0).state = .idle := by
  unfold commands Granted Asks; decide
theorem test_motDisable : commands (axis 0 .idle) 0 1 ∧ ((axis 0 .idle).axis 0).state ≠ .disabled ∧
    ((run (.motDisable who 0) (axis 0 .idle)).axis 0).state = .disabled := by unfold commands Granted Asks; decide
theorem test_motMove : commands (axis 0 .idle) 0 2 ∧ ((axis 0 .idle).axis 0).cmd.toInt ≠ sword ((axis 0 .idle).reg (Reg.MOT_TARGET 0)) ∧
    (axis 0 .idle).moveDistance 0 < 2 ^ 32 ∧ ((run (.motMove who 0) (axis 0 .idle)).axis 0).rem = 500 := by
  unfold commands Granted Asks; decide
theorem test_motMove_there : commands ((axis 4 .idle).setReg (Reg.MOT_TARGET 4) 0) 4 2 ∧
    (((axis 4 .idle).setReg (Reg.MOT_TARGET 4) 0).axis 4).cmd.toInt = sword (((axis 4 .idle).setReg (Reg.MOT_TARGET 4) 0).reg (Reg.MOT_TARGET 4)) ∧
    ((run (.motMove who 4) ((axis 4 .idle).setReg (Reg.MOT_TARGET 4) 0)).axis 4).state = .idle := by unfold commands Granted Asks; decide
theorem test_motHome : commands (axis 4 .idle |>.setReg (Reg.MOT_CFG 4) 0x400000) 4 3 ∧
    ((run (.motHome who 4) (axis 4 .idle |>.setReg (Reg.MOT_CFG 4) 0x400000)).axis 4).home = some .search := by
  unfold commands Granted Asks; decide
theorem test_motEngage : commands (axis 0 .idle) 0 4 ∧ ((run (.motEngage who 0) (axis 0 .idle)).axis 0).state = .gear := by
  unfold commands Granted Asks; decide
theorem test_motDecel : commands (axis 4 .move) 4 5 ∧ commands (axis 4 .home) 4 5 ∧ commands (axis 4 .gear) 4 5 ∧
    ((run (.motDecel who 4) (axis 4 .gear)).axis 4).state = .idle := by unfold commands Granted Asks; decide
theorem test_motStop : commands (axis 4 .move) 4 6 ∧ (axis 4 .move).axMoves 4 = true ∧
    ((run (.motStop who 4) (axis 4 .move)).axis 4).state = .halt := by unfold commands Granted Asks; decide
theorem test_motClear : commands ((axis 0 .halt).modAxis 0 fun a => { a with faultNow := false }) 0 7 ∧
    ((run (.motClear who 0) (axis 0 .halt)).axis 0).state = .idle := by unfold commands Granted Asks; decide

/-- Axis 0 moves with 500 microsteps to go, at phase `ph`. -/
def moving (ph : Nat) : State :=
  (axis 0 .move).modAxis 0 fun a => { a with rem := 500, v := 0x1000000000, vs := 0x1000000000, vm := 0x10000000000, ph := ph }
theorem test_profileTick : (moving 0).ticking = true ∧ (moving 0).profileDue 0 = some 1000000 ∧
    ((run (.profileTick 0) (moving 0)).axis 0).ph = 0x1000001000 := by decide
theorem test_profileTick_carry : (moving (2 ^ 48 - 1)).profileDue 0 = some 1000000 ∧ ((moving (2 ^ 48 - 1)).axis 0).home ≠ some .search ∧
    ((1 : BitVec 64) - ((moving (2 ^ 48 - 1)).axis 0).emit).toInt.natAbs ≤ (moving 0).fld (Reg.MOT_STEP 0) 31 16 ∧
    ((run (.profileTick 0) (moving (2 ^ 48 - 1))).axis 0).cmd = 1 := by decide
theorem test_moveDone : (axis 0 .move).moveOver 0 = true ∧ ((axis 0 .move).axis 0).home ≠ some .stop ∧
    (run (.moveDone 0) (axis 0 .move)).rbit (Reg.MOT_EVT 0) 0 = true := by decide
/-- The stop phase of a homing with reference 40, at position 50. -/
def homing : State := (axis 4 .home).modAxis 4 fun a => { a with home := some .stop, homeRef := some 40, cmd := 50, emit := 50 }
theorem test_moveDone_home : homing.moveOver 4 = true ∧ (homing.axis 4).home = some .stop ∧ (homing.axis 4).homeRef = some 40 ∧
    (run (.moveDone 4) homing).rbit (Reg.MOT_EVT 4) 1 = true := by decide
/-- Two microsteps of axis `x` wait to be emitted; the coils' drive phase stands before a full step. -/
def behind (x : Axis) (p : BitVec 10) : State :=
  (axis x .idle).modAxis x fun a => { a with cmd := 2, drive := { a.drive with standstill := false, phase := p } }
theorem test_microstepEmission : (behind 0 5).mayEmit 0 = true ∧ ((5 : BitVec 10) + 1).toNat % 256 ≠ 0 ∧
    ((run (.microstepEmission 0 0 0) (behind 0 5)).axis 0).emit = 1 ∧ (behind 4 0).mayEmit 4 = true ∧
    (behind 4 0).rbit (Reg.MOT_CFG 4) 16 = false ∧ ((run (.microstepEmission 4 0 0) (behind 4 0)).axis 4).emit = 1 := by decide
/-- A cam point of axis 0 is due, with a blend of 5 counts or none. -/
def camming (blend : Word) : State := (axis 0 .gear).modMem fun m => m.setTable 0xA0004 blend
theorem test_camPoint : (camming 0).camDue 0 = true ∧ (camming 0).axGmode 0 = false ∧
    ((run (.camPoint 0) (camming 0)).axis 0).nextCam = 1 ∧ (camming 0x50000).camDue 0 = true ∧
    ((run (.camPoint 0) (camming 0x50000)).axis 0).blend.isSome = true := by decide
/-- A feedback freeze window of axis 4 runs from command position 0; the axis has moved by 10. -/
def freezing (move : Word) : State :=
  ((axis 4 .move).modAxis 4 fun a => { a with fbWin := some (1000000, 0, 0), cmd := 10, emit := 10 }).setReg (Reg.MOT_FOLLOW 4) move
theorem test_fbFreezeWindowEnd : (freezing 0x1000100).fbWinDue 4 = some 3000000 ∧
    ((run (.fbFreezeWindowEnd 4) (freezing 0x1000100)).axis 4).state = .move := by decide
theorem test_fbFreezeWindowEnd_frozen : (freezing 0x50100).fbWinDue 4 = some 3000000 ∧ (freezing 0x50100).unitInReset 30 = false ∧
    ((run (.fbFreezeWindowEnd 4) (freezing 0x50100)).axis 4).state = .halt := by decide
/-- A frozen-master window of axis 0 in GEAR runs, at a ratio. -/
def frozen (r : BitVec 64) : State := (axis 0 .gear).modAxis 0 fun a => { a with mWin := some (1000000, 0), ratio := r }
theorem test_mFreezeWindowEnd : (frozen 0).mWinDue 0 = some 3000000 ∧ ((run (.mFreezeWindowEnd 0) (frozen 0)).axis 0).state = .gear ∧
    (frozen (2 ^ 33)).mWinDue 0 = some 3000000 ∧ (frozen (2 ^ 33)).fld (Reg.MOT_GEAR 0) 31 16 * 2 ^ 24 ≤ (2 ^ 33 : BitVec 64).toInt.natAbs ∧
    (frozen (2 ^ 33)).unitInReset 26 = false ∧ ((run (.mFreezeWindowEnd 0) (frozen (2 ^ 33))).axis 0).state = .halt := by decide
theorem test_feedbackCount : decode 1 base.plc.fbs[(0 : Fin 2)].a base.plc.fbs[(0 : Fin 2)].b true false = (false, some 1) ∧
    (run (.feedbackCount 0 true false) base).reg (Reg.MOT_FBCOUNT 4) = 1 ∧
    decode 1 base.plc.fbs[(0 : Fin 2)].a base.plc.fbs[(0 : Fin 2)].b true true = (true, none) ∧
    (run (.feedbackCount 0 true true) base).reg (Reg.MOT_FB_JUMPS 0) = 1 := by decide
/-- Axis 4 homes and waits for the index of its own encoder. -/
def indexing : State := ((axis 4 .home).modAxis 4 fun a => { a with home := some .index, cmd := 33 }).setReg (Reg.MOT_CFG 4) 0x1000000
theorem test_fbZEdge : (4 : Axis) = servoAxis 0 ∧ indexing.plc.fbs[(0 : Fin 2)].z = false ∧ (indexing.axis 4).home = some .index ∧
    indexing.fld (Reg.MOT_CFG 4) 26 24 = 1 ∧ ((run (.fbZEdge 0 true false) indexing).axis 4).homeRef = some 33 := by decide
/-- The interpolator of axis 0 has 3 microsteps to spread, at a phase. -/
def spreading (ph : Nat) : State :=
  (axis 0 .gear).modAxis 0 fun a => { a with drive := { a.drive with pend := 3, iv := 100, iph := ph, tPrev := 1000000 } }
theorem test_interpolationTick : ((spreading 0).axis 0).drive.pend ≠ 0 ∧ ((run (.interpolationTick 0) (spreading 0)).axis 0).drive.iph = 100 := by
  decide
theorem test_interpolationTick_carry : 2 ^ 32 ≤ ((spreading (2 ^ 32 - 50)).axis 0).drive.iph + ((spreading (2 ^ 32 - 50)).axis 0).drive.iv ∧
    ((1 : BitVec 64) - ((spreading 0).axis 0).emit).toInt.natAbs ≤ (spreading 0).fld (Reg.MOT_STEP 0) 31 16 ∧
    ((run (.interpolationTick 0) (spreading (2 ^ 32 - 50))).axis 0).drive.pend = 2 := by decide
theorem test_driveFaultIn : isStepper 4 = false ∧ ((axis 4 .move).axis 4).faultNow = false ∧ (axis 4 .move).unitInReset 30 = false ∧
    ((run (.driveFaultIn 4 false) (axis 4 .move)).axis 4).state = .halt ∧
    ((run (.driveFaultRelease 4) (run (.driveFaultIn 4 false) (axis 4 .move))).axis 4).faultNow = false := by decide

/-! ### The drive stage and the axis bus -/

/-- The coils of axis 0 carry a target of 100; coil A drives since now, or is off since now with peak 120. -/
def chopping (c : ChopStep) : State :=
  (axis 0 .idle).modDrive 0 fun d =>
    { d with standstill := false, coilA := { d.coilA with tgt := 100, upper := 110, lower := 90, step := c } }
theorem test_overCurrent : (chopping (.drive 1000000)).overLimit 0 0xFFF = true ∧ (chopping (.drive 1000000)).unitInReset 26 = false ∧
    ((run (.overCurrent 0 false 0xFFF) (chopping (.drive 1000000))).axis 0).state = .halt := by decide
/-- Axis 0 is idle with its delay running, or ramps up until tick 1,000,500. -/
def resting (r : Option Nat) : State :=
  (axis 0 .idle).modDrive 0 fun d => { d with standstill := false, rampEnd := r, ssFrom := 1000000 }
theorem test_standstillDelayEnd : (resting none).standstillDue 0 = some 21000000 ∧
    ((run (.standstillDelayEnd 0) (resting none)).axis 0).drive.cs = 0x40 := by decide
theorem test_rampEnd : ((resting (some 1000500)).axis 0).drive.rampEnd = some 1000500 ∧
    ((run (.rampEnd 0) (resting (some 1000500))).axis 0).drive.cs = 0x40 := by decide
theorem test_chopperTurnOff : ((chopping (.drive 1000000)).coil 0 false).step = .drive 1000000 ∧
    ((chopping (.drive 1000000)).axis 0).drive.rampEnd = none ∧
    (chopping (.drive 1000000)).chops 0 ((chopping (.drive 1000000)).coil 0 false) = true ∧
    ((run (.chopperTurnOff 0 false 120) (chopping (.drive 1000000))).coil 0 false).step = .off 1000100 120 := by decide
/-- R320, R321: the mean of peak 120 and valley 80 is the target, so the offset stays. -/
theorem test_chopperOffEnd : (chopping (.off 1000000 120)).offEnd 0 false 80 = some 1000400 ∧
    ((run (.chopperOffEnd 0 false 80) (chopping (.off 1000000 120))).coil 0 false).off = 0 := by decide
/-- The axis bus is enabled; its next boundary is at tick 1,012,500, or an evaluation of frame 7 is due now. -/
def bussed : State := (base.setReg Reg.MOT_AXB_CFG 0x02080A01).modAxb fun b => { b with first := true, nextAt := 1012500, misses := Vector.replicate 2 1, seq := 7 }
def evaluating : State := bussed.modAxb fun b => { b with evalAt := some 1000000 }
theorem test_servoPeriodBoundary : bussed.axbDue = some 1012500 ∧ (bussed.advanceTo 1012500).axbEn = true ∧
    (bussed.advanceTo 1012500).unitInReset 30 = false ∧ (run .servoPeriodBoundary bussed).mot.axb.nextAt = 1025000 ∧
    (run .servoPeriodBoundary (bussed.modFlt fun f => { f with inReset := [30] })).mot.axb.nextAt = 1025000 := by decide
/-- R311, R312: good uplinks of frame 7 with positions 5 and 6. -/
def uplink (t pos : Byte) : List Byte := let b := [t, 7, 0, 0, pos, 0, 0, 0]; b ++ bytesLE 4 (crc32c b)
theorem test_uplinkEvaluation : evaluating.mot.axb.evalAt = some 1000000 ∧ evaluating.axbMiss 0 (uplink 0x60 5) = false ∧
    evaluating.axbMiss 1 (uplink 0x61 6) = false ∧ (u8 (uplink 0x60 5) 2).testBit 1 = false ∧ evaluating.rbit (Reg.MOT_CFG 4) 16 = false ∧
    evaluating.rbit (Reg.MOT_CFG 5) 16 = false ∧ (run (.uplinkEvaluation (uplink 0x60 5) (uplink 0x61 6)) evaluating).reg (Reg.MOT_AXB_UP 1) = 6 := by
  decide
theorem test_uplinkEvaluation_miss : evaluating.axbMiss 0 [] = true ∧ (evaluating.setReg (Reg.MOT_CFG 4) 1).axOutMode 4 = true ∧
    evaluating.mot.axb.misses[0] + 1 = evaluating.fld Reg.MOT_AXB_CFG 27 24 ∧ evaluating.unitInReset 30 = false ∧
    (run (.uplinkEvaluation [] []) (evaluating.setReg (Reg.MOT_CFG 4) 1)).rbit Reg.FLT_PEND_B 2 = true := by decide

/-! ### The Hoist -/

/-- Channel 0 stands in a state. -/
def chan (st : ChanState) : State := base.modChan 0 fun c => { c with state := st }
def orders (s : State) (k : Nat) : Prop := s.Granted who OpEnv.quiet (Reg.HST_CMD 0) [word (2 ^ k)]
theorem test_hstEnable : orders base 0 ∧ (base.chan 0).state = .disabled ∧ ((run (.hstEnable who 0) base).chan 0).state = .idle := by
  unfold orders Granted Asks; decide
theorem test_hstDisable : orders (chan .running) 1 ∧ ((run (.hstDisable who 0) (chan .running)).chan 0).dropped = true := by
  unfold orders Granted Asks; decide
theorem test_hstStart : orders (chan .idle) 2 ∧ ((run (.hstStart who 0) (chan .idle)).chan 0).state = .queued ∧
    orders (chan .running) 2 ∧ ((chan .running).chan 0).pendStart = none ∧
    ((run (.hstStart who 0) (chan .running)).chan 0).pendStart = some .free := by unfold orders Granted Asks; decide
theorem test_hstAbort : orders (chan .running) 3 ∧ ((run (.hstAbort who 0) (chan .running)).chan 0).aborting = true ∧
    orders (chan .halted) 3 ∧ orders (chan .queued) 3 ∧ orders (chan .waiting) 3 ∧
    ((run (.hstAbort who 0) (chan .halted)).chan 0).state = .idle := by unfold orders Granted Asks; decide
theorem test_hstResume : orders (chan .halted) 4 ∧ ((run (.hstResume who 0) (chan .halted)).chan 0).state = .queued := by
  unfold orders Granted Asks; decide
/-- Channel 0 changed. -/
def with0 (st : ChanState) (f : ChanSt → ChanSt) : State := (chan st).modChan 0 f
theorem test_hstAbortEnd : (with0 .running fun c => { c with aborting := true }).ticking = true ∧
    ((run (.hstAbortEnd 0) (with0 .running fun c => { c with aborting := true })).chan 0).state = .idle := by decide
/-- Channels 0 and 1 of shaft 0 are queued, channel 1 first; each shaft dispatches whole runs or bursts. -/
def queues (bursts : Bool) : State :=
  ((with0 .queued fun c => { c with queuedAt := 9 }).modChan 1 fun c => { c with state := .queued, queuedAt := 3 }).setReg
    (Reg.HST_SHAFT_CFG 0) (if bursts then 1 else 0)
theorem test_shaftDispatch : (queues false).hoistRuns = true ∧ (queues false).rbit (Reg.HST_SHAFT_CFG 0) 0 = false ∧
    (queues false).hst.running[(0 : Shaft)] = none ∧ (queues false).chShaft 1 = 0 ∧ ((queues false).chan 1).state = .queued ∧
    ((run (.shaftDispatch 0) (queues false)).chan 1).state = .running := by decide
theorem test_shaftDispatch_bursts : (queues true).rbit (Reg.HST_SHAFT_CFG 0) 0 = true ∧
    (run (.shaftDispatch 0) (queues true)).hst.served[(0 : Shaft)].isSome = true := by decide
/-- Head 0 streams its waveform on line 1, for which channel 0 waits. -/
def lined : State :=
  ((((with0 .waiting fun c => { c with wait := some .request }).setReg (Reg.HST_CFG 0) 0x100000).setReg (Reg.HED_CTRL 0) 0x11).modHead 0
    fun x => { x with state := .ready })
theorem test_hstRequest : lined.hoistRuns = true ∧ lined.lineRoom 1 (lined.lineWaits 1) = true ∧ lined.chReqLine 0 = 1 ∧
    lined.reqPend 0 < 255 ∧ lined.chReqLine 1 ≠ 1 ∧ ((run (.hstRequest 0) lined).chan 0).state = .queued := by decide
/-- Channel 0's run is ready to complete. -/
def ready (k : RunKind) (p : Option RunKind) : State := with0 .running fun c => { c with ready := true, kind := k, pendStart := p }
theorem test_hstCompletion : (ready .free none).hoistRuns = true ∧
    (∀ d : Chan, ¬ ((ready .free none).rbit (Reg.HST_CFG d) 17 = true ∧ (ready .free none).fld (Reg.HST_CFG d) 28 24 = 0)) ∧
    ((run (.hstCompletion 0) (ready .free none)).chan 0).state = .idle ∧
    ((run (.hstCompletion 0) (ready .free (some .free))).chan 0).state = .queued := by decide
theorem test_hstDueKey : (ready (.paced 1000000) none).dueKey 0 = some 1000000 ∧
    (((ready (.paced 1000000) none).advanceTo 1000000).chan 0).ready = true ∧
    ((run (.hstDueKey 0) (ready (.paced 1000000) none)).chan 0).state = .idle := by decide
theorem test_hstDueKey_late : (with0 .running fun c => { c with kind := .paced 1000000 }).dueKey 0 = some 1000000 ∧
    ((run (.hstDueKey 0) (with0 .running fun c => { c with kind := .paced 1000000 })).chan 0).late = true := by decide
theorem test_postedWriteError : base.hoistRuns = true ∧ base.chConfirmed 0 = false ∧
    (run (.postedWriteError 0 8) base).rbit (Reg.HST_EVT 0) 5 = true := by decide

/-! ### Programs -/

/-- Channel 0 stands at the start of the Larder, at instruction words written out from R356-R363; words of data follow at 0x100. -/
def code (l : List (BitVec 64)) : State :=
  let s := (List.range l.length).foldl (fun (s : State) (k : Nat) => s.modMem fun m => m.setWord64 k (some (l.getD k 0)))
    (with0 .running fun c => { c with pos := 0x10000000 })
  (List.range 3).foldl (fun (s : State) (k : Nat) => s.modMem fun m => m.setWord64 (32 + k) (some (BitVec.ofNat 64 (0x100 + k)))) s
/-- The fetch gives this instruction. -/
def fetches (s : State) (o : Nat) (i : HInstr) : Bool :=
  match s.fetchInstr MemEnv.quiet 0 with
  | .instr p j => decide (o = p ∧ i = j)
  | _ => false
/-- All its elements can be moved. -/
def moves (s : State) : Bool :=
  match s.currentXfer 0 with
  | some x => (match State.moveN 0 MemEnv.quiet x x.total s 0 [] with
    | (w, k, _, .done) => decide (k = x.total) && decide (w.chReqLine 0 = 0) && x.misaligned.isNone && !x.overlaps && decide (x.done = 0)
    | _ => false)
  | none => false
/-- May channel 0 write its bank: the owner leases it to the channel. -/
def leased (s : State) : State := s.setLease 0 { s.lease 0 with holder := holdChan 0 }
/-- MOVE of one 4-byte element from 0x10000100 to 0x10000200. -/
def move1 : State := leased (code [0x00000000_00000201, 0x10000200_10000100])
theorem test_move : move1.hoistRuns = true ∧ move1.mayExecute 0 = true ∧ move1.chShelf 0 = false ∧ (move1.chan 0).xfer = none ∧
    fetches move1 1 (.xfer ⟨.linear, 2, 0, 0x10000100, 0x10000200, 1, 1, 0, 0, 0, 0, 0, 0, 0x10000010⟩) = true ∧ moves move1 = true ∧
    (run (.move 0 MemEnv.quiet) move1).mem.word64 64 = some 0x100 ∧ ((run (.move 0 MemEnv.quiet) move1).chan 0).pos = 0x10000010 := by decide
/-- The single-element form: both ends lie in the Larder, and the channel may write. -/
theorem test_move_one : regionOf move1 0x10000100 = .larder ∧ regionOf move1 0x10000200 = .larder ∧
    move1.isolated 2 = false ∧ move1.mayWriteBank (holdChan 0) (bankOf 0x10000200) = true ∧ move1.chReqLine 0 = 0 ∧
    Read.isFail (move1.hoistRead MemEnv.quiet 0x10000100 4) = false := by decide
/-- MOVE2D of two rows of one element, 8 apart; its source is an offset from the cursor. -/
def move2 : State := leased (code [0x00010000_00001202, 0x10000200_10000100, 0x00000008_00000008])
theorem test_move2d : fetches move2 2 (.xfer ⟨.twoD, 2, 0, 0x10000100, 0x10000200, 1, 2, 8, 8, 0, 0, 16, 0, 0x10000018⟩) = true ∧
    moves move2 = true ∧ (run (.move2d 0 MemEnv.quiet) move2).mem.word64 65 = some 0x101 ∧
    ((run (.move2d 0 MemEnv.quiet) move2).chan 0).cs = 16 := by decide
/-- GATHER and SCATTER of one element with the table at 0x10000108, whose first entry is 0x101. -/
def gather1 : State := leased (code [0x00000000_00000003, 0x10000200_10000000, 0x00000000_10000108])
def scatter1 : State := leased (code [0x00000000_00000004, 0x10000200_10000100, 0x00000000_10000108])
theorem test_gather : fetches gather1 3 (.xfer ⟨.gather, 0, 0, 0x10000000, 0x10000200, 1, 1, 0, 0, 0x10000108, 0, 0, 0, 0x10000018⟩) = true ∧
    moves gather1 = true ∧ (run (.gather 0 MemEnv.quiet) gather1).mem.word64 64 = some 1 := by decide
theorem test_scatter : fetches scatter1 4 (.xfer ⟨.scatter, 0, 0, 0x10000100, 0x10000200, 1, 1, 0, 0, 0x10000108, 0, 0, 0, 0x10000018⟩) = true ∧
    moves scatter1 = true ∧ (run (.scatter 0 MemEnv.quiet) scatter1).mem.word64 96 = some 0 := by decide
/-- R345: SWAP 3 of an 8-byte element, and a misaligned destination. -/
def move8 : State := leased (code [0x00000000_00000F01, 0x10000200_10000100])
theorem test_move_swap : (run (.move 0 MemEnv.quiet) move8).mem.word64 64 = some 0x00010000 := by decide
theorem test_move_misaligned : ((run (.move 0 MemEnv.quiet) (leased (code [0x00000000_00000201, 0x10000202_10000100]))).chan 0).state = .halted := by
  decide
theorem test_hstBusError : (move1.currentXfer 0).map (·.total) = some 1 ∧ (move1.chan 0).ready = false ∧
    ((run (.hstBusError 0 0) move1).chan 0).state = .halted ∧ (run (.hstBusError 0 0) move1).reg (Reg.HST_ERR_ADDR 0) = 0x10000100 := by decide
/-- LOOP of 3 with counter 1, going back 2 units. -/
def loop3 : State := code [0x00000002_00030105]
theorem test_loop : fetches loop3 5 (.loop 1 3 2) = true ∧ ((run (.loop 0 MemEnv.quiet) loop3).chan 0).pos = 0x0FFFFFF0 := by decide
/-- WAIT for flag 3, for a delay of 700 ticks, and for the word at 0x10000100. -/
def waitSig : State := code [0x00000000_00030006, 0]
def waitDelay : State := code [0x00000000_00000206, 0x00000000_000002BC]
def waitMem (v : BitVec 32) : State := code [0x10000100_00000106, (v ++ (0xFFFF : BitVec 32))]
theorem test_wait_signal : fetches waitSig 6 (.waitSig 3) = true ∧ ((run (.wait 0 MemEnv.quiet) waitSig).chan 0).wait = some (.sig 3) ∧
    ((run (.wait 0 MemEnv.quiet) (waitSig.setReg (Reg.HST_SIG 0) 8)).chan 0).pos = 0x10000010 := by decide
theorem test_wait_delay : (waitDelay.chan 0).kind = .free ∧ fetches waitDelay 6 (.waitDelay 700) = true ∧
    ((run (.wait 0 MemEnv.quiet) waitDelay).chan 0).wait = some (.delay 1000700) := by decide
theorem test_wait_memory : fetches (waitMem 0x100) 6 (.waitMem 0x10000100 0xFFFF 0x100) = true ∧ (waitMem 0x100).heldAt 0x10000100 = false ∧
    ((run (.wait 0 MemEnv.quiet) (waitMem 0x100)).chan 0).pos = 0x10000010 ∧
    ((run (.wait 0 MemEnv.quiet) (waitMem 0x101)).chan 0).state = .waiting := by decide
/-- Waiting for the word since tick 999,000, for a value. -/
def polls (v : Word) : State := (code [0, 0]).modChan 0 fun c => { c with state := .waiting, wait := some (.mem 0x10000100 0xFFFF v 999000) }
theorem test_waitMemoryPoll : ((polls 0x100).advanceTo 1000000).heldAt 0x10000100 = false ∧
    Read.isFail (((polls 0x100).advanceTo 1000000).hoistRead MemEnv.quiet 0x10000100 4) = false ∧
    ((run (.waitMemoryPoll 0 MemEnv.quiet) (polls 0x100)).chan 0).state = .queued ∧
    ((run (.waitMemoryPoll 0 MemEnv.quiet) (polls 0x101)).chan 0).state = .waiting := by decide
theorem test_waitDelayEnd : ((run (.waitDelayEnd 0) (with0 .waiting fun c => { c with wait := some (.delay 1000700) })).chan 0).state = .queued := by
  decide
/-- SIGNAL flag 3 of channel 1, which is idle, or waits for it. -/
def signals (f : ChanSt → ChanSt) : State := (code [0x00000000_00030107]).modChan 1 f
theorem test_signal : fetches (signals fun c => { c with state := .idle }) 7 (.signal 1 3) = true ∧
    (signals id).holder (resChan 1) = (signals id).holder (resChan 0) ∧
    (run (.signal 0 MemEnv.quiet) (signals fun c => { c with state := .idle })).rbit (Reg.HST_SIG 1) 3 = true ∧
    ((run (.signal 0 MemEnv.quiet) (signals fun c => { c with state := .waiting, wait := some (.sig 3) })).chan 1).state = .queued := by decide
theorem test_set_cursor : fetches (code [0x00000123_00000108, 0]) 8 (.setCur true 0x123) = true ∧
    ((run (.set 0 MemEnv.quiet) (code [0x00000123_00000108, 0])).chan 0).cs = 0x123 ∧
    fetches (code [0x00000123_00000208, 0]) 8 (.setCur false 0x123) = true := by decide
def setWord : State := leased (code [0x00000123_00000008, 0x00000000_10000204])
theorem test_set_word : fetches setWord 8 (.setMem 0x10000204 0x123) = true ∧ regionOf setWord 0x10000204 = .larder ∧
    setWord.mayWriteBank (holdChan 0) (bankOf 0x10000204) = true ∧
    (run (.set 0 MemEnv.quiet) setWord).mem.word64 64 = some 0x12300000000 := by decide
theorem test_end : fetches (code [0xF]) 15 .end_ = true ∧ (code [0xF]).chConfirmed 0 = false ∧
    ((run (.end_ 0 MemEnv.quiet) (code [0xF])).chan 0).ready = true := by decide
/-- R356: opcode 0 is reserved. -/
theorem test_program_fault : (match (code [0]).fetchInstr MemEnv.quiet 0 with | .fault (.ok n) => decide (n = 0) | _ => false) = true ∧
    ((run (.loop 0 MemEnv.quiet) (code [0])).chan 0).state = .halted := by decide

/-! ### Shelves -/

/-- A Shelf of two slots at the start of the Larder with these words in slot 0; channel 0 stands at it. -/
def shelf (l : List (BitVec 64)) : State :=
  ((code l).setReg (Reg.HST_CFG 0) 0x100).setReg (Reg.HST_BASE 0) 0x10000000
theorem test_shelfDescriptor_empty : (shelf [0]).hoistRuns = true ∧ (shelf [0]).mayExecute 0 = true ∧ (shelf [0]).chShelf 0 = true ∧
    ((shelf [0]).chan 0).shelf = none ∧ (shelf [0]).ringOk 0 = true ∧
    ((run (.shelfDescriptor 0 MemEnv.quiet) (shelf [0])).chan 0).wait = some (.empty 1000000) := by decide
/-- An owned descriptor of one 4-byte element from 0x10000100 to 0x10000200, with `LAST` or not; the owner holds the channel. -/
def owned (last : Bool) : State :=
  shelf [if last then 0x83 else 0x81, 0x10000100_00000000, 0x00000000_10000200, 0]
/-- The parts of the hypotheses: the descriptor, its transfer, and the rights of its write-back. -/
theorem test_shelfDescriptor_parts :
    (State.decodeDesc [0x81, 0, 0, 0x10000100, 0x10000200, 0, 0, 0] 0x10000000) =
      some ⟨.linear, 2, 0, 0x10000100, 0x10000200, 1, 1, 0, 0, 0, 0, 0, 0, 0x10000000⟩ ∧
    (match State.moveN 0 MemEnv.quiet ⟨.linear, 2, 0, 0x10000100, 0x10000200, 1, 1, 0, 0, 0, 0, 0, 0, 0x10000000⟩ 1
        ((owned false).modChan 0 fun z => { z with shelf := some ⟨0x81, false⟩ }) 0 [] with
      | (w, k, _, .done) => decide (k = 1) && decide (w.chReqLine 0 = 0) && decide (regionOf w 0x10000000 = .larder) && !w.isolated 2 &&
          w.mayWriteBank (w.holder (resChan 0)) 0
      | _ => false) = true := by decide
theorem test_shelfDescriptor : ((run (.shelfDescriptor 0 MemEnv.quiet) (owned false)).chan 0).head = 1 ∧
    (run (.shelfDescriptor 0 MemEnv.quiet) (owned false)).mem.word64 64 = some 0x100 ∧
    ((run (.shelfDescriptor 0 MemEnv.quiet) (owned true)).chan 0).ready = true := by decide
/-- Channel 0 waits at an empty slot since tick 900,000, polling each 10 µs; the slot is empty or owned now. -/
def emptied (l : List (BitVec 64)) : State :=
  ((shelf l).setReg (Reg.HST_SHELF_CFG 0) 0x10002).modChan 0 fun c => { c with state := .waiting, wait := some (.empty 900000) }
theorem test_shelfKick : (emptied [1]).Granted who OpEnv.quiet (Reg.HST_SHELF_STAT 0) [0x80000000] ∧
    ((run (.shelfKick who 0 OpEnv.quiet) (emptied [1])).chan 0).state = .queued ∧
    ((run (.shelfKick who 0 OpEnv.quiet) (emptied [0])).chan 0).state = .waiting := by unfold Granted Asks; decide
theorem test_shelfPoll : (emptied [1]).shPoll 0 ≠ 0 ∧ (((emptied [1]).advanceTo 901000).chan 0).wait = some (.empty 900000) ∧
    ((run (.shelfPoll 0 MemEnv.quiet) (emptied [1])).chan 0).state = .queued ∧
    ((run (.shelfPoll 0 MemEnv.quiet) (emptied [0])).chan 0).wait = some (.empty 1000000) := by decide

/-! ### Heads -/

/-- Head 0 stands in a state with its timed step ending at tick 1,000,500; PRESENT is active high; 4 nozzles in one row. -/
def headed (st : HedState) (f : HedSt → HedSt := id) : State :=
  ((base.setReg (Reg.HED_ENABLE 0) 3).setReg (Reg.HED_GEOM 0) 0x00040001).modHead 0 fun x =>
    f { x with state := st, level := true, stepEnd := some 1000500 }
def writes0 (s : State) (a : Nat) (v : Word) : Prop := s.Granted who OpEnv.quiet a [v]
theorem test_hedEnable : writes0 base (Reg.HED_ENABLE 0) (base.keeping (Reg.HED_ENABLE 0) 0 0 1) ∧ (base.head 0).state = .off ∧
    ((run (.hedEnable who 0) base).head 0).state = .absent := by unfold writes0 Granted Asks; decide
theorem test_hedDisable : writes0 (headed .ready) (Reg.HED_ENABLE 0) ((headed .ready).keeping (Reg.HED_ENABLE 0) 0 0 0) ∧
    ((run (.hedDisable who 0) (headed .ready)).head 0).state = .off := by unfold writes0 Granted Asks; decide
theorem test_headPresentChange : (headed .off).ticking = true ∧ (headed .absent).rbit (Reg.HED_ENABLE 0) 1 = true ∧
    ((run (.headPresentChange 0 true false) (headed .absent fun x => { x with stepEnd := none, level := false })).head 0).stepEnd = some 21000000 ∧
    ((run (.headPresentChange 0 false false) (headed .absent)).head 0).stepEnd = none := by decide
theorem test_headPresentChange_lost : (headed .ready).unitInReset 18 = false ∧ ((headed .ready).head 0).state ≠ .off ∧
    ((run (.headPresentChange 0 false false) (headed .ready)).head 0).state = .absent := by decide
theorem test_presSettleEnd : ((headed .absent).head 0).stepEnd = some 1000500 ∧
    ((run (.presSettleEnd 0) (headed .absent)).head 0).state = .ident := by decide
theorem test_identEnd : ((headed .ident).advanceTo 1000500).fld (Reg.HED_ID 0) 11 0 ≤ min (min 5 6) (min 7 8) ∧
    min (min 5 6) (min 7 8) ≤ ((headed .ident).advanceTo 1000500).fld (Reg.HED_ID 0) 27 16 ∧
    ((run (.identEnd 0 8 7 6 5) (headed .ident)).head 0).state = .power ∧ (run (.identEnd 0 8 7 6 5) (headed .ident)).reg (Reg.HED_ID_CODE 0) = 5 ∧
    ((run (.identEnd 0 5 6 7 8) ((headed .ident).setReg (Reg.HED_ID 0) 0x0FFF0006)).head 0).state = .mismatch := by decide
theorem test_hedIdWrite : writes0 (headed .mismatch) (Reg.HED_ID 0) 0x0FFF0001 ∧
    ((run (.hedIdWrite who 0 0x0FFF0001) (headed .mismatch)).head 0).state = .ident := by unfold writes0 Granted Asks; decide
theorem test_tLogicEnd : ((headed .power).head 0).logicOn = false ∧
    ((run (.tLogicEnd 0 MemEnv.quiet) (headed .power)).head 0).ckStart = some 1000504 := by decide
theorem test_tHvEnd : ((run (.tHvEnd 0) (headed .power fun x => { x with logicOn := true })).head 0).state = .ready := by decide
theorem test_restart : writes0 (headed .fault) (Reg.HED_CMD 0) (word 1) ∧ ((run (.restart who 0) (headed .fault)).head 0).state = .ready := by
  unfold writes0 Granted Asks; decide
theorem test_trimLoad : writes0 (headed .ready) (Reg.HED_CMD 0) (word 2) ∧
    ((headed .ready).trimCodes 0 MemEnv.quiet).toOption = some (List.replicate 8 0) ∧
    ((run (.trimLoad who 0 OpEnv.quiet) (headed .ready)).head 0).seq = 1 := by unfold writes0 Granted Asks; decide
theorem test_svc : writes0 (headed .ready) (Reg.HED_CMD 0) (word 4) ∧ ((run (.svc who 0) (headed .ready)).head 0).svc = some (1, 1010000) := by
  unfold writes0 Granted Asks; decide
/-- Two service firings are left; each takes one byte, and `l` is buffered. -/
def serving (l : List Byte) : State := headed .ready fun x => { x with svc := some (2, 1000500), svcBuf := l }
theorem test_serviceFiring : (serving [0xE4]).svcBytes 0 = 1 ∧ ((run (.serviceFiring 0) (serving [0xE4])).head 0).firings.map (·.codes) = [[0, 1, 2, 3]] ∧
    (run (.serviceFiring 0) (serving [])).reg (Reg.HED_SVC_LATE 0) = 1 := by decide
/-- A firing has been decided. -/
def fires (u : FireFor) : State := headed .ready fun x => { x with firings := [⟨1000500, u, [0, 1, 2, 3], 0x8000, 0x1000⟩] }
theorem test_firing : ((fires .service).head 0).firings ≠ [] ∧ (fires .service).wfSrc 0 = false ∧
    (run (.firing 0 false []) (fires .service)).fireCount 0 3 = 1 ∧ (run (.firing 0 false []) (fires .service)).fireCount 0 0 = 0 := by decide
/-- A firing of column 1 of the record that is printed. -/
def firesCol : State := recorded (fires (.column 7 1)) (record .printing)
theorem test_firing_late : (firesCol.findRec 0 7).map (·.verdict) = some .pending ∧ firesCol.unitInReset 18 = false ∧
    ((run (.firing 0 true []) firesCol).findRec 0 7).map (·.cause) = some 64 := by decide

/-! ### Head health -/

/-- The heater of head 0 in a state; `TTAB` rises by 16 a step. -/
def heated (st : HeatState) (f : HltSt → HltSt := id) : State :=
  let s := (List.range 17).foldl (fun (s : State) (k : Nat) => s.setReg (Reg.HLT_TTAB 0 k) (word (16 * k))) (headed .ready)
  (s.setReg (Reg.HLT_CTRL 0) (if st = .idle then 0 else 1)).modHealth 0 fun x => f { x with heat := st }
theorem test_heaterEnable : (heated .idle).rbit (Reg.HLT_CTRL 0) 0 = false ∧
    writes0 (heated .idle) (Reg.HLT_CTRL 0) ((heated .idle).keeping (Reg.HLT_CTRL 0) 0 0 (b2n true)) ∧ (heated .idle).heatAllowed 0 = true ∧
    (heated .idle).wouldGrant false ((heated .idle).reg (Reg.HLT_EWARM 0)).toNat = true ∧
    ((run (.heaterEnable who 0 true) (heated .idle)).health 0).heat = .warming := by unfold writes0 Granted Asks; decide
theorem test_heaterEnable_paused : (heated .idle |>.modHead 0 fun x => { x with state := .off }).heatAllowed 0 = false ∧
    ((run (.heaterEnable who 0 true) (heated .idle |>.modHead 0 fun x => { x with state := .off })).health 0).heat = .paused := by decide
theorem test_heaterEnable_off : writes0 (heated .regulating) (Reg.HLT_CTRL 0) ((heated .regulating).keeping (Reg.HLT_CTRL 0) 0 0 (b2n false)) ∧
    ((run (.heaterEnable who 0 false) (heated .regulating)).health 0).heat = .idle := by unfold writes0 Granted Asks; decide
theorem test_heatRestart : writes0 (heated .tripped) (Reg.HLT_CMD 0) (word 1) ∧
    ((run (.heatRestart who 0) (heated .tripped)).health 0).heat = .warming := by unfold writes0 Granted Asks; decide
/-- R465: code 0x180 lies half-way between entries 1 and 2, at 24. -/
theorem test_heaterLoopPeriod : (heated .regulating).booted = true ∧ (heated .regulating).fld (Reg.HLT_LOOP 0) 9 0 ≠ 0 ∧
    (heated .regulating).unitInReset 22 = false ∧ (heated .regulating).inRange 0 0x180 = true ∧
    (run (.heaterLoopPeriod 0 0x180) (heated .regulating)).thermTemp 0 = 24 := by decide
theorem test_heaterLoopPeriod_range : (heated .regulating).inRange 0 0xFFF = false ∧
    ((run (.heaterLoopPeriod 0 0xFFF) (heated .regulating)).health 0).heat = .holding := by decide
theorem test_heaterPwmPeriod : (heated .regulating).fld (Reg.HLT_PWM 0) 19 0 ≠ 0 ∧
    ((run (.heaterPwmPeriod 0) (heated .regulating fun x => { x with dutyNext := 77 })).health 0).duty = 77 := by decide
theorem test_freezeWindowEnd : (heated .regulating fun x => { x with freeze := some (0, 5) }).freezeDue 0 = some 3000000000 ∧
    ((heated .regulating fun x => { x with freeze := some (0, 5) }).advanceTo 3000000000).unitInReset 22 = false ∧
    ((run (.freezeWindowEnd 0) (heated .regulating fun x => { x with freeze := some (0, 5) })).health 0).heat = .holding := by decide
theorem test_holdTExpiry : (heated .holding fun x => { x with hold := some (0, none, 0) }).holdDue 0 = some 6000000000 ∧
    ((run (.holdTExpiry 0) (heated .holding fun x => { x with hold := some (0, none, 0) })).health 0).heat = .tripped := by decide
theorem test_warmMaxExpiry : (heated .warming).warmDue 0 = some 60000000000 ∧ ((run (.warmMaxExpiry 0) (heated .warming)).health 0).heat = .tripped := by
  decide
/-- Nozzles 1 and 2 of head 0 are to be scanned, two shots each. -/
def scans : State := ((heated .idle).setReg (Reg.HLT_SCAN 0) 0x10020001).setReg (Reg.HLT_SCAN_SHOT 0) 0x000102
def litGate : OpEnv := { OpEnv.quiet with gates := Vector.replicate 4 0xFFF }
theorem test_scan : scans.Granted who litGate (Reg.HLT_CMD 0) [word 2] ∧
    scans.fld (Reg.HLT_GATE 0) 27 16 ≤ litGate.gates[(0 : Head)].toNat ∧
    ((run (.scan who 0 litGate) scans).health 0).scan.map (·.todo) = some [1, 2] := by unfold Granted Asks; decide
theorem test_scan_dark : scans.Granted who OpEnv.quiet (Reg.HLT_CMD 0) [word 2] ∧
    OpEnv.quiet.gates[(0 : Head)].toNat < (scans.setReg (Reg.HLT_GATE 0) 0x2BB80800).fld (Reg.HLT_GATE 0) 27 16 ∧
    (run (.scan who 0 OpEnv.quiet) scans).rbit (Reg.HLT_EVT 0) 5 = true := by unfold Granted Asks; decide
/-- The scan runs. -/
def scanning (c : Scan) : State := scans.modHealth 0 fun x => { x with scan := some c }
def shooting : State := scanning ⟨[1, 2], 1, 1000500, [], none, []⟩
theorem test_dropGateShot : (shooting.health 0).scan.isSome = true ∧ (shooting.advanceTo 1000500).hedReady 0 = true ∧
    ((run (.dropGateShot 0) shooting).health 0).scan.map (·.todo) = some [2] := by decide
theorem test_gateComparatorFall :
    ((run (.gateComparatorFall 0 false) (scanning ⟨[], 0, 0, [(1, 999000, 1001000, false), (2, 999000, 999500, false)], some 1001000, []⟩)).health 0).scan.map
      (·.hits) = some [(1, 1)] := by decide
/-- The scan has ended: nozzle 1 has been hit twice, nozzle 2 never. -/
def scanned : State := scanning ⟨[], 0, 0, [], some 1000500, [(1, 2)]⟩
theorem test_scanEnd : (scanned.scanList 0).length < 8 ∧ (run (.scanEnd 0) scanned).nozClass 0 1 = 0 ∧ (run (.scanEnd 0) scanned).nozClass 0 2 = 2 ∧
    (run (.scanEnd 0) scanned).mapEntry 0 0 = 0 := by decide
/-- No nozzle of ten has been hit. -/
def blind : State := (scanning ⟨[], 0, 0, [], some 1000500, []⟩).setReg (Reg.HLT_SCAN 0) 0x10090000
theorem test_scanEnd_blind : 8 ≤ (blind.scanList 0).length ∧ (∀ i ∈ blind.scanList 0, blind.scanClass 0 (State.hitsOf [] i) = 2) ∧
    blind.unitInReset 22 = false ∧ (run (.scanEnd 0) blind).rbit (Reg.HLT_EVT 0) 5 = true := by decide
/-- The bytes of an empty map of head 0 before its CRC, and the whole region (R481). -/
def mapFront : List Byte := [0x47#8, 0x4C#8, 0x4E#8, 0x48#8, 1#8, 0#8, 0#8, 0#8, 1#8, 0#8, 0#8, 0#8, 0#8, 0#8, 0#8, 0#8] ++ List.replicate 2048 0
def mapFile : List Byte := mapFront ++ bytesLE 4 (crc32c mapFront) ++ List.replicate 44 0
theorem crcBit_lt (c : Nat) (h : c < 2 ^ 32) : crcBit c < 2 ^ 32 := by
  unfold crcBit; split
  · exact Nat.xor_lt_two_pow (by omega) (by decide)
  · omega
theorem crcByte_lt (c : Nat) (b : Byte) (h : c < 2 ^ 32) : crcByte c b < 2 ^ 32 := by
  have := Nat.xor_lt_two_pow (n := 32) h (by omega : b.toNat < 2 ^ 32)
  unfold crcByte; exact crcBit_lt _ (crcBit_lt _ (crcBit_lt _ (crcBit_lt _ (crcBit_lt _ (crcBit_lt _ (crcBit_lt _ (crcBit_lt _ this)))))))
theorem crcFold_lt (l : List Byte) : ∀ c, c < 2 ^ 32 → l.foldl crcByte c < 2 ^ 32 := by
  induction l with
  | nil => exact fun _ h => h
  | cons b l ih => exact fun c h => ih _ (crcByte_lt c b h)
theorem crc32c_lt (l : List Byte) : crc32c l < 2 ^ 32 := Nat.xor_lt_two_pow (crcFold_lt l _ (by decide)) (by decide)
theorem leBytes_bytesLE4 (n : Nat) (h : n < 2 ^ 32) : leBytes (bytesLE 4 n) = n := by
  simp [bytesLE, leBytes]; omega
theorem leBytes_take4 (n : Nat) (l : List Byte) (h : n < 2 ^ 32) : leBytes ((bytesLE 4 n ++ l).take 4) = n := by
  rw [show (bytesLE 4 n ++ l).take 4 = bytesLE 4 n from rfl, leBytes_bytesLE4 n h]
theorem mapFront_length : mapFront.length = 2064 := by simp [mapFront]
theorem mapFile_crc : u32 mapFile 2064 = crc32c (mapFile.take 2064) := by
  have ht : mapFile.take 2064 = mapFront := by rw [mapFile, List.append_assoc]; exact List.take_left' mapFront_length
  have hd : mapFile.drop 2064 = bytesLE 4 (crc32c mapFront) ++ List.replicate 44 0 := by
    rw [mapFile, List.append_assoc]; exact List.drop_left' mapFront_length
  rw [ht, u32, hd]
  exact leBytes_take4 _ _ (crc32c_lt _)
theorem mapFile_entry (i : Nat) (hi : i < 1024) : u16 mapFile (16 + 2 * i) = 0 := by
  have h : mapFront.drop (16 + 2 * i) = List.replicate (2 + (2046 - 2 * i)) 0 := by
    rw [← List.drop_drop]; show (List.replicate 2048 (0 : Byte)).drop (2 * i) = _
    rw [List.drop_replicate]; congr 1; omega
  rw [u16, mapFile, List.append_assoc, List.drop_append_of_le_length (by rw [mapFront_length]; omega), h, ← List.replicate_append_replicate,
    List.append_assoc, List.take_left' (List.length_replicate ..)]; rfl
theorem test_mapRegion : State.mapRegionOk 0 mapFile = true := by
  have h : (List.range 1024).all (fun i => decide (u16 mapFile (16 + 2 * i) < 8192)) = true := by
    rw [List.all_eq_true]; intro i hi
    rw [mapFile_entry i (List.mem_range.mp hi)]; rfl
  simp only [mapRegionOk, Bool.and_eq_true, decide_eq_true_eq]
  exact ⟨⟨⟨⟨⟨⟨rfl, rfl⟩, rfl⟩, rfl⟩, rfl⟩, h⟩, mapFile_crc⟩
theorem mapFile_length : mapFile.length = 2112 := by simp [mapFile, mapFront_length]; rfl
/-- The map stands in the Loft. -/
def mapped : State := base.modMem fun m => m.setLoftBytes 0x9000 mapFile
theorem test_mapLoad : writes0 base (Reg.HLT_CMD 0) (word 4) ∧ State.mapRegionOk 0 (base.mem.loftBytes 0x9000 2112) = false ∧
    (run (.mapLoad who 0) base).rbit (Reg.HLT_EVT 0) 9 = true := by unfold writes0 Granted Asks; decide
theorem test_mapLoad_valid : State.mapRegionOk 0 (mapped.mem.loftBytes 0x9000 2112) = true := by
  have h : mapped.mem.loftBytes 0x9000 mapFile.length = mapFile := Mem.loftBytes_setLoftBytes mapFile base.mem 0x9000
  rw [mapFile_length] at h
  rw [h]; exact test_mapRegion
theorem test_mapLoad_granted : writes0 mapped (Reg.HLT_CMD 0) (word 4) := by unfold writes0 Granted Asks; decide
theorem test_mapSave : writes0 base (Reg.HLT_CMD 0) (word 8) ∧ base.wouldGrant false 596 = true ∧
    (run (.mapSave who 0) base).mem.staged.map (·.offset) = [0x9000] := by unfold writes0 Granted Asks; decide
theorem test_nozzleEntryWrite : base.Granted who OpEnv.quiet (Reg.HLT_NOZ_SEL 0) [word (5 : BitVec 10).toNat, 2] ∧ base.nozClass 0 5 ≠ 2 ∧
    base.unitInReset 22 = false ∧ (run (.nozzleEntryWrite who 0 5 2) base).mapEntry 0 5 = 2 ∧
    (run (.nozzleEntryWrite who 0 5 2) base).rbit (Reg.HLT_EVT 0) 4 = true := by unfold Granted Asks; decide
/-- Keep-wet spitting is enabled; a burst runs at its firing `g`, or none. -/
def wets (b : Option Burst) : State := (heated .idle fun x => { x with burst := b }).setReg (Reg.HLT_CTRL 0) 4
theorem test_keepWetWaitEnd : (wets none).spitDue 0 = some 200000000 ∧ ((wets none).advanceTo 200000000).mayBurst 0 = true ∧
    ((wets none).advanceTo 200000000).wouldGrant false ((wets none).reg (Reg.HLT_ESPIT 0)).toNat = true ∧
    ((run (.keepWetWaitEnd 0) (wets none)).health 0).burst.map (·.g) = some 0 ∧
    (recorded (wets none) (record .printing)).mayBurst 0 = false ∧ (recorded (wets none) (record .printing)).spitDue 0 = some 200000000 := by decide
theorem test_keepWetFiring : ((wets (some ⟨0, 1000500⟩)).advanceTo 1000500).hedReady 0 = true ∧
    ((run (.keepWetFiring 0) (wets (some ⟨0, 1000500⟩))).health 0).burst.map (·.g) = some 1 := by decide
/-- Fire counts have changed, or not. -/
def tired (b : Bool) : State := base.modHealth 0 fun x => { x with firesDirty := b }
theorem test_fireCountSave : (tired true).booted = true ∧ (tired true).fld Reg.HLT_FC_CFG 11 0 ≠ 0 ∧ (tired true).unitInReset 22 = false ∧
    (tired true).wouldGrant false 1364 = true ∧ (run (.fireCountSave 0) (tired true)).mem.staged.map (·.offset) = [0xD000] ∧
    (run (.fireCountSave 0) (tired false)).mem.staged = [] := by decide

/-! ### The Hatch -/

/-- Lane 0 in a state. -/
def laned (st : LaneState) : State := base.setLaneState 0 st
theorem test_laneDrain : writes0 (laned .inService) (Reg.HAT_LANE_CMD 0) (word 1) ∧ (run (.laneDrain who 0) (recorded (laned .inService) (record .printing))).laneState 0 = .draining := by
  unfold writes0 Granted Asks; decide
theorem test_laneOpen : writes0 (laned .inService) (Reg.HAT_LANE_CMD 0) (word 2) ∧ (run (.laneOpen who 0) (laned .inService)).laneState 0 = .open_ := by
  unfold writes0 Granted Asks; decide
theorem test_laneClose : writes0 (laned .open_) (Reg.HAT_LANE_CMD 0) (word 4) ∧ (run (.laneClose who 0) (laned .open_)).laneState 0 = .closing := by
  unfold writes0 Granted Asks; decide
theorem test_newHead : writes0 (laned .open_) (Reg.HAT_LANE_CMD 0) (word 8) ∧
    ((run (.newHead who 0) ((laned .open_).modHealth 0 fun x => { x with map := [(3, 2)] })).health 0).map = [] := by unfold writes0 Granted Asks; decide
/-- The close of lane 0 waits until tick 1,000,500. -/
def closing : State := (laned .closing).modHat fun h => { h with closeEnd := h.closeEnd.set 0 (some 1000500) }
theorem test_closeWaitEnd : closing.closeEnd 0 = some 1000500 ∧ (closing.advanceTo 1000500).unitInReset 35 = false ∧
    (run (.closeWaitEnd 0) closing).laneState 0 = .open_ := by decide
theorem test_leaseTransfer : base.holder 20 ≠ holdHed 0 ∧ writes0 base (Reg.HAT_LEASE 20) (word (holdHed 0).toNat) ∧
    (run (.leaseTransfer who 20 (holdHed 0)) base).holder 20 = holdHed 0 := by unfold writes0 Granted Asks; decide

end

end Sys2Proof.Tests
end

/-! ## One word of a granted write -/

section
namespace Sys2Proof.Machine.State

variable {s : State} {o : OpCtx} {env : OpEnv} {a : Nat} {v : Word}

/-! ### The write that an operation makes -/

theorem wordsAt_single (h : a < 2 ^ 32) : wordsAt a [v] = [(a, v)] := by
  simp only [wordsAt, writeList, wordAddrs, word, BitVec.toNat_ofNat, Nat.mod_eq_of_lt h]
  simp

/-- The next state of a granted `WRITE` of one word, from what the write makes. -/
theorem exec_write_single (h : s.Granted o env a [v]) (h32 : a < 2 ^ 32) {u : State} {k : Nat}
    (hw : s.makeWrite env [(a, v)] = (u, k)) : exec (.write o (word a) [v] env) s = .next (s.answered o 3 u k []) := by
  have granted : exec (.write o (word a) [v] env) s = _ := finish_granted h
  rw [granted, wordsAt_single h32, hw]

theorem noteCorrected_nil (m : MemEnv) (h : m.ecc = []) : s.noteCorrected m = s := by simp [noteCorrected, h]

/-- An access without detected errors, at a port that is not isolated, makes the write. -/
theorem accessWrite_single (hecc : env.mem.ecc = []) (hiso : s.isolated (portOf s a) = false) {u : State} {k : Nat}
    (hw : s.makeWrite env [(a, v)] = (u, k)) : s.accessWrite env [(a, v)] = (u, .ok, k) := by
  have acc : s.accessCode env.mem a = none := by simp [accessCode, mergeRead, hiso, hasUe_nil hecc]
  unfold accessWrite
  rw [noteCorrected_nil _ (by simp [hecc])]
  simp only [List.findSome?_cons, List.findSome?_nil, acc, hw]

/-- The next state of a `WRITE_MASKED` that the owner makes of a register's fields and that no check refuses. -/
theorem exec_writeMasked_fields {m : Word} (h : s.Asks o) (hown : s.isOwner o.sess = true) (ha : a < 0x10000)
    (htrig : hasTrigger a = false) (hm : rwMask a &&& m ≠ 0) (hjob : jobLane a = none)
    (hiso : s.isolated (portOf s a) = false) (hecc : env.mem.ecc = [])
    (had : s.admitWrite true [(a, s.maskedValue (word a) m v)] [] = none)
    (hcommit : s.commitRefusal env.mem [(a, s.maskedValue (word a) m v)] = none) {u : State} {k : Nat}
    (hw : s.makeWrite env [(a, s.maskedValue (word a) m v)] = (u, k)) :
    exec (.writeMasked o (word a) m v env) s = .next (s.answered o 4 u k []) := by
  have addr : (word a).toNat = a := by simp only [word, BitVec.toNat_ofNat]; omega
  have held : s.selectionHeld [(a, s.maskedValue (word a) m v)] = false := by simp [selectionHeld, selectsJob_none hjob]
  have wrong : ¬ (0x10000 ≤ a ∨ hasTrigger a = true) := by simp [htrig]; omega
  have op : s.opMasked o (word a) m v env = (u, .now .ok k []) := by
    unfold opMasked
    simp only [addr, hown, hm, wrong, decide_false, Bool.true_or, if_false, had, held, commitWrite, hcommit,
      accessWrite_single hecc hiso hw, Bool.false_eq_true]
  have run := runOp_asks (op := 4) (f := fun s => s.opMasked o (word a) m v env) h op
  exact congrArg (fun t => s.finish t) run

/-! ### Words outside the blocks of the units -/

/-- The latched sets of lanes are registers of the blocks PLC, CMP and CAL (R278, R401, R423). -/
theorem touchesLatched_outside (h : a < 0x5000 ∨ 0xA0000 ≤ a) (n : Lane) : touchesLatched [(a, v)] n = false := by
  have := n.isLt
  simp only [touchesLatched, List.any_cons, List.any_nil, Bool.or_false, Bool.or_eq_false_iff, decide_eq_false_iff_not,
    Reg.PLC_JOB, Reg.PLC_MARK_BASE, Reg.CMP_GCACHE, Reg.CAL_SHELF, Reg.CAL_DATE_OVR]
  omega

theorem jobLane_outside (h : a < 0x5000 ∨ 0xA0000 ≤ a) : jobLane a = none := by
  unfold jobLane
  exact if_neg (by omega)

/-- The waveform check of a head reads registers of the blocks PLC and HED and the waveform tables (R459). -/
theorem touchesTable_outside (h : a < 0x5000 ∨ 0xA0000 ≤ a) (n : Head) : touchesTable [(a, v)] n = false := by
  have := n.isLt
  simp only [touchesTable, List.any_cons, List.any_nil, Bool.or_false, selectsJob_none (jobLane_outside h), Bool.and_false,
    Bool.or_eq_false_iff, decide_eq_false_iff_not, Reg.HED_WF, Reg.HED_SCALE, waveBase]
  exact ⟨by omega, decide_eq_false (by omega)⟩

theorem ownAction_low (h : a < 0x5000) : ownAction a = true := by
  have h' : a < 0x5000 ∨ 0xA0000 ≤ a := .inl h
  have reg : a < 0x10000 := by omega
  simp [ownAction, jobLane_outside h', touchesLatched_outside h', touchesTable_outside h', h, reg]

/-- The effect of a live word outside those blocks: it is stored, one commit, and what it starts. -/
theorem makeWrite_outside (h : a < 0x5000 ∨ 0xA0000 ≤ a) (hs : s.staleClear (a, v) = false) (hm : s.moot (a, v) = false) :
    s.makeWrite env [(a, v)] =
      (effect s env (s.storeWords env.mem [(a, v)]).commit (a, v), (s.storeWords env.mem [(a, v)]).order + 1) := by
  have late : ∀ u : State, allLanes.foldl (fun (s : State) (n : Lane) =>
      if touchesLatched [(a, v)] n then s.commitLate n else s) u = u := fun u =>
    List.foldl_fixed' (fun n => by rw [touchesLatched_outside h]; rfl) _
  have table : ∀ u : State, allLanes.foldl (fun (s : State) (n : Lane) =>
      if touchesTable [(a, v)] n then s.checkTable n else s) u = u := fun u =>
    List.foldl_fixed' (fun n => by rw [touchesTable_outside h]; rfl) _
  unfold makeWrite
  simp only [List.filter_cons, List.filter_nil, hs, hm, Bool.not_false, if_true, Bool.false_eq_true, if_false,
    List.foldl_nil, List.isEmpty_cons, startAll, List.foldl_cons, late, table,
    setLapped_own _ (show a < 0x5000 ∨ 0x5800 ≤ a ∨ a % 0x40 < 0x10 ∧ a < 0x5400 ∨ 0x5700 ≤ a by omega)]
  rfl

end Sys2Proof.Machine.State
end

/-! ## Writes of registers -/

section
namespace Sys2Proof.Machine

/-- The bits that a masked write gives a register: those of the mask from the value, the others kept. -/
theorem placed_maskedValue (r rw m v : Word) :
    (r &&& ~~~rw) ||| (((r &&& ~~~m) ||| (v &&& m)) &&& rw) = (r &&& ~~~(rw &&& m)) ||| (v &&& (rw &&& m)) := by
  ext i hi
  simp only [BitVec.getElem_or, BitVec.getElem_and, BitVec.getElem_not]
  cases r[i] <;> cases rw[i] <;> cases m[i] <;> simp

namespace State

variable {s : State} {o : OpCtx} {env : OpEnv} {a : Nat} {v : Word}

/-- An address with writable bits is one of the register map. -/
theorem regAt_of_rwMask (h : rwMask a ≠ 0) (ha : a / 0x1000 = 3 ∨ a / 0x1000 = 4) : (regAt a).isSome = true := by
  unfold rwMask at h
  simp only [Reg.MOT_CFG, Reg.MOT_DRV_CFG] at h
  rw [if_neg (by omega), if_neg (by omega)] at h
  cases hr : regAt a with
  | none => simp [hr] at h
  | some x => rfl

/-- The fields of a register of the blocks up to FLT, placed. -/
theorem placeWords_reg_same (h : a < 0x5000) :
    (s.placeWords [(a, v)]).reg a = (s.reg a &&& ~~~(rwMask a)) ||| (v &&& rwMask a) := by
  simp only [placeWords, List.foldl_cons, List.foldl_nil]
  rw [if_neg (by omega), setReg_reg_same]

/-! ### What a register below block TMR starts -/

/-- The registers of the blocks DEV to FLT whose write starts something. -/
def linkActions : List Nat :=
  [Reg.DEV_RESET_REQ, Reg.SES_CTRL, Reg.LNK_PORTA_CFG, Reg.LNK_PORTB_CFG, Reg.PWR_REQ, Reg.FLT_RELEASE]

theorem effect_low (ha : a < 0x5000) (hn : a ∉ linkActions) (u : State) : effect s env u (a, v) = u := by
  simp only [linkActions, List.mem_cons, List.not_mem_nil, or_false, not_or] at hn
  obtain ⟨reset, ctrl, portA, portB, request, release⟩ := hn
  have link : linkEffect s u a v = u := by
    unfold linkEffect
    rw [if_neg reset, if_neg ctrl, if_neg portA, if_neg portB, if_neg request, if_neg release]
  have block : a / 0x1000 = 0 ∨ a / 0x1000 = 1 ∨ a / 0x1000 = 2 ∨ a / 0x1000 = 3 ∨ a / 0x1000 = 4 := by omega
  unfold effect
  dsimp only
  rw [if_neg (by omega)]
  rcases block with h | h | h | h | h <;> rw [h] <;> exact link

theorem moot_low (ha : a < 0x5000) (hn : a ∉ linkActions) :
    s.moot (a, v) =
      (if rwMask a ≠ 0 then false
      else if w1gMask a ≠ 0 then decide (v &&& w1gMask a = 0) || !s.clearFresh a v
      else s.mootCommand a v) := by
  simp only [linkActions, List.mem_cons, List.not_mem_nil, or_false, not_or] at hn
  obtain ⟨-, -, -, -, request, release⟩ := hn
  unfold moot
  dsimp only
  rw [if_neg (by omega), if_neg request, if_neg release, if_neg (by omega)]

/-! ### Registers that only hold their fields -/

/-- A register of the blocks PWR and FLT that starts something holds a WT field. -/
theorem not_linkAction_of_fields (h : a / 0x1000 = 3 ∨ a / 0x1000 = 4) (hwt : wtMask a = 0) : a ∉ linkActions := by
  have triggers : ∀ x ∈ linkActions, x / 0x1000 = 3 ∨ x / 0x1000 = 4 → wtMask x ≠ 0 := by decide
  exact fun ha => triggers a ha h hwt

/-- What a write makes of a register that only holds its fields: they are placed, and one commit. -/
theorem makeWrite_fields (h : a / 0x1000 = 3 ∨ a / 0x1000 = 4) (hrw : rwMask a ≠ 0) (hg : w1gMask a = 0) (hwt : wtMask a = 0) :
    s.makeWrite env [(a, v)] = ((s.placeWords [(a, v)]).commit, s.order + 1) := by
  have low : a < 0x5000 := by omega
  have plain := not_linkAction_of_fields h hwt
  have live : s.moot (a, v) = false := by rw [moot_low low plain, if_pos hrw]
  rw [makeWrite_own (ownAction_low low) (by simp [hg]) live, effect_low low plain]

/-- A commit of placed fields changes the register and the order stamp alone. -/
theorem placed_frame : RegsBut [a] s (s.placeWords [(a, v)]).commit ∧ Only [.order, .regs] s (s.placeWords [(a, v)]).commit :=
  ⟨fun _ hb => placeWords_reg_other _ (by simpa using hb),
    (only_commit (by decide)).2 ((placeWords_only _).mono (by decide))⟩

/-- A granted write of a register that only holds its fields (R19, R194). -/
theorem write_fields (hgr : s.Granted o env a [v]) (h : a / 0x1000 = 3 ∨ a / 0x1000 = 4) (hrw : rwMask a ≠ 0)
    (hg : w1gMask a = 0) (hwt : wtMask a = 0) :
    ∃ u : State, exec (.write o (word a) [v] env) s = .next (s.written o u) ∧
      u.reg a = (s.reg a &&& ~~~(rwMask a)) ||| (v &&& rwMask a) ∧ RegsBut [a] s u ∧ Only [.order, .regs] s u :=
  ⟨_, exec_write_single hgr (by omega) (makeWrite_fields h hrw hg hwt), placeWords_reg_same (by omega), placed_frame⟩

/-- A masked write of such a register (R196). -/
theorem writeMasked_fields (m : Word) (hask : s.Asks o) (hown : s.isOwner o.sess = true) (h : a / 0x1000 = 3 ∨ a / 0x1000 = 4)
    (htrig : hasTrigger a = false) (hder : s.derived a = none) (hm : rwMask a &&& m ≠ 0)
    (hiso : s.isolated (portOf s a) = false) (hecc : env.mem.ecc = [])
    (had : s.admitWrite true [(a, s.maskedValue (word a) m v)] [] = none)
    (hcommit : s.commitRefusal env.mem [(a, s.maskedValue (word a) m v)] = none) :
    ∃ u : State, exec (.writeMasked o (word a) m v env) s = .next (s.answered o 4 u (s.order + 1) []) ∧
      u.reg a = (s.reg a &&& ~~~(rwMask a &&& m)) ||| (v &&& (rwMask a &&& m)) ∧ RegsBut [a] s u ∧ Only [.order, .regs] s u := by
  have hrw : rwMask a ≠ 0 := fun e => hm (by simp [e])
  obtain ⟨hg, hwt⟩ : w1gMask a = 0 ∧ wtMask a = 0 := by simpa [hasTrigger] using htrig
  have held : s.readReg a = s.reg a := by simp [readReg, regAt_of_rwMask hrw h, hder]
  have addr : (word a).toNat = a := by simp only [word, BitVec.toNat_ofNat]; omega
  refine ⟨_, exec_writeMasked_fields hask hown (by omega) htrig hm (jobLane_outside (by omega)) hiso hecc had hcommit
    (makeWrite_fields h hrw hg hwt), ?_, placed_frame⟩
  calc (s.placeWords [(a, s.maskedValue (word a) m v)]).reg a
      = (s.reg a &&& ~~~(rwMask a)) ||| (s.maskedValue (word a) m v &&& rwMask a) := placeWords_reg_same (by omega)
    _ = (s.reg a &&& ~~~(rwMask a &&& m)) ||| (v &&& (rwMask a &&& m)) := by
      rw [maskedValue, addr, held, placed_maskedValue]

/-! ### Clears of flags -/

/-- What is stored by a clear: the flags written as 1 are cleared, and the First Bin is emptied with its flag (R115). -/
theorem storeWords_clear (ha : a < 0x5000) (h : v &&& w1gMask a ≠ 0) :
    s.storeWords env.mem [(a, v)] =
      (if a = Reg.FLT_BIN_STAT ∧ bit v 0 then
        ((s.placeWords [(a, v)]).clearFlags a v (w1gMask a)).modFlt fun f => { f with bin := none }
      else (s.placeWords [(a, v)]).clearFlags a v (w1gMask a)) := by
  have job := jobLane_outside (a := a) (.inl ha)
  have h1 : ¬ 0x10000000 ≤ a := by omega
  have h2 : ¬ 0x10000 ≤ a := by omega
  have h3 : ¬ v &&& w1gMask a = 0#32 := h
  simp [storeWords, job, h1, h2, h3]

/-- A register of the blocks DEV to FLT that starts something holds an RW field or no flag. -/
theorem not_linkAction_of_flags (hrw : rwMask a = 0) (hg : w1gMask a ≠ 0) : a ∉ linkActions := by
  have triggers : ∀ x ∈ linkActions, rwMask x ≠ 0 ∨ w1gMask x = 0 := by decide
  exact fun ha => (triggers a ha).elim (· hrw) hg

theorem w1gMask_of_clear (h : v &&& w1gMask a ≠ 0) : w1gMask a ≠ 0 := fun e => h (by simp [e])

theorem moot_clear (ha : a < 0x5000) (hrw : rwMask a = 0) (h : v &&& w1gMask a ≠ 0) :
    s.moot (a, v) = !s.clearFresh a v := by
  have hg := w1gMask_of_clear h
  rw [moot_low ha (not_linkAction_of_flags hrw hg), if_neg (by simp [hrw]), if_pos hg, decide_eq_false h, Bool.false_or]

theorem staleClear_clear (ha : a < 0x5000) (h : v &&& w1gMask a ≠ 0) : s.staleClear (a, v) = !s.clearFresh a v := by
  have : a < 0x10000 := by omega
  simp only [staleClear, decide_eq_true this, decide_eq_true h, Bool.true_and]

/-- Emptying the First Bin changes the collector alone, and no reset that is due. -/
theorem emptyBin_only (u : State) : Only [.flt] u (u.modFlt fun f => { f with bin := none }) := by
  intro p hp
  cases p with
  | flt => exact absurd (by decide) hp
  | energy => exact ⟨rfl, rfl, rfl⟩
  | owed => exact ⟨rfl, rfl⟩
  | _ => rfl

/-- What is stored by a clear keeps the order stamp, the guards and the other registers. -/
theorem storeWords_clear_frame (ha : a < 0x5000) (hrw : rwMask a = 0) (h : v &&& w1gMask a ≠ 0) :
    (s.storeWords env.mem [(a, v)]).reg a = s.reg a &&& ~~~(v &&& w1gMask a) ∧ RegsBut [a] s (s.storeWords env.mem [(a, v)]) ∧
      Only [.regs, .flt] s (s.storeWords env.mem [(a, v)]) := by
  have cleared : ∀ b, ((s.placeWords [(a, v)]).clearFlags a v (w1gMask a)).reg b =
      if a = b then s.reg a &&& ~~~(v &&& w1gMask a) else s.reg b := fun b => by
    rw [clearFlags, setReg_reg, placeWords_reg_trigger hrw, placeWords_reg_trigger hrw]
  have only : Only [.regs, .flt] s ((s.placeWords [(a, v)]).clearFlags a v (w1gMask a)) :=
    (only_clearFlags _ _ _ (by decide)).2 ((placeWords_only _).mono (by decide))
  rw [storeWords_clear ha h]
  split
  · exact ⟨(cleared a).trans (if_pos rfl), fun b hb => (cleared b).trans (if_neg fun e => hb (by simp [e])),
      only.trans ((emptyBin_only _).mono (by decide))⟩
  · exact ⟨(cleared a).trans (if_pos rfl), fun b hb => (cleared b).trans (if_neg fun e => hb (by simp [e])), only⟩

/-- A current clear commits what it stores (R13, R57). -/
theorem makeWrite_clear (ha : a < 0x5000) (hrw : rwMask a = 0) (h : v &&& w1gMask a ≠ 0) (hf : s.clearFresh a v = true) :
    s.makeWrite env [(a, v)] = ((s.storeWords env.mem [(a, v)]).commit, s.order + 1) := by
  obtain ⟨-, -, only⟩ := storeWords_clear_frame (s := s) (env := env) ha hrw h
  have order : (s.storeWords env.mem [(a, v)]).order = s.order := only.part .order (by decide)
  rw [makeWrite_outside (.inl ha) (by simp [staleClear_clear ha h, hf]) (by simp [moot_clear ha hrw h, hf]),
    effect_low ha (not_linkAction_of_flags hrw (w1gMask_of_clear h)), order]

/-- A clear that is not current is counted and commits nothing (R57, R59). -/
theorem makeWrite_stale (ha : a < 0x5000) (hrw : rwMask a = 0) (h : v &&& w1gMask a ≠ 0) (hf : s.clearFresh a v = false) :
    s.makeWrite env [(a, v)] = (s.bump (staleOf a), 0) := by
  unfold makeWrite
  simp [staleClear_clear ha h, moot_clear ha hrw h, hf]

/-- A granted clear with the current generation (R13). -/
theorem write_clear_current (hgr : s.Granted o env a [v]) (ha : a < 0x5000) (hrw : rwMask a = 0) (h : v &&& w1gMask a ≠ 0)
    (hf : s.clearFresh a v = true) :
    ∃ u : State, exec (.write o (word a) [v] env) s = .next (s.written o u) ∧
      u.reg a = s.reg a &&& ~~~(v &&& w1gMask a) ∧ u.guard a = s.guard a ∧ RegsBut [a] s u ∧ Only [.order, .regs, .flt] s u := by
  obtain ⟨same, others, only⟩ := storeWords_clear_frame (s := s) (env := env) ha hrw h
  have guards : (s.storeWords env.mem [(a, v)]).guards = s.guards := only.part .guards (by decide)
  exact ⟨_, exec_write_single hgr (by omega) (makeWrite_clear ha hrw h hf), same,
    congrArg (fun g => Tab.get (fun _ => 0) g a) guards, others, (only_commit (by decide)).2 (only.mono (by decide))⟩

/-- A granted clear that is not current (R57, R59). -/
theorem write_clear_stale (hgr : s.Granted o env a [v]) (ha : a < 0x5000) (hrw : rwMask a = 0) (h : v &&& w1gMask a ≠ 0)
    (hf : s.clearFresh a v = false) :
    ∃ u : State, exec (.write o (word a) [v] env) s = .next (s.answered o 3 u 0 []) ∧
      RegsBut [staleOf a] s u ∧ Only [.regs] s u ∧
      u.reg (staleOf a) = (if s.reg (staleOf a) = 0xFFFFFFFF then 0xFFFFFFFF else s.reg (staleOf a) + 1) := by
  refine ⟨_, exec_write_single hgr (by omega) (makeWrite_stale ha hrw h hf),
    fun b hb => bump_reg_other _ _ _ (fun e => hb (by simp [e])), bump_only _, ?_⟩
  rw [bump_reg_same]
  split
  · assumption
  · rfl

end State

/-- Settles O33: each clause is what its write stores, followed by one commit; a clear that is not current only counts. -/
theorem registerWritesTakeTheirBits : Obligations.RegisterWritesTakeTheirBits := by
  intro s o env a v
  refine ⟨State.write_fields, fun hgr ha hrw h => ?_, ?_⟩
  · exact ⟨State.write_clear_current hgr ha hrw h, State.write_clear_stale hgr ha hrw h⟩
  · intro m hask hown ha htrig hder hm hiso hecc had hcommit
    exact State.writeMasked_fields m hask hown ha htrig hder hm hiso hecc had hcommit

end Sys2Proof.Machine
end

/-! ## Writes of the Larder and of the reaction table -/

section
namespace Sys2Proof.Machine

/-! ### Bytes of a 64-bit word -/

theorem sliceWord_testBit (w : BitVec 64) (o n i : Nat) :
    (sliceWord w o n).testBit i = (decide (i < 8 * n) && w.getLsbD (8 * o + i)) := by
  rw [sliceWord, Nat.testBit_mod_two_pow, Nat.testBit_shiftRight, BitVec.testBit_toNat]

/-- A bit of a merged word comes from the bytes put where it lies among them, else from the word. -/
theorem mergeWord_getLsbD (w : BitVec 64) (o n x j : Nat) (hj : j < 64) :
    (mergeWord w o n x).getLsbD j = if 8 * o ≤ j ∧ j < 8 * o + 8 * n then x.testBit (j - 8 * o) else w.getLsbD j := by
  simp only [mergeWord, BitVec.getLsbD_or, BitVec.getLsbD_and, BitVec.getLsbD_not, BitVec.getLsbD_ofNat,
    Nat.testBit_shiftLeft, Nat.testBit_two_pow_sub_one, hj, decide_true, Bool.true_and]
  by_cases lo : 8 * o ≤ j
  · by_cases hi : j < 8 * o + 8 * n
    · have : j - 8 * o < 8 * n := by omega
      simp [lo, hi, this]
    · have : ¬ j - 8 * o < 8 * n := by omega
      simp [lo, hi, this]
  · simp [lo]

/-- The bytes that are put are read back. -/
theorem sliceWord_mergeWord_same (w : BitVec 64) {o n x : Nat} (ho : o + n ≤ 8) (hx : x < 2 ^ (8 * n)) :
    sliceWord (mergeWord w o n x) o n = x := by
  refine Nat.eq_of_testBit_eq fun i => ?_
  rw [sliceWord_testBit]
  by_cases hi : i < 8 * n
  · rw [mergeWord_getLsbD _ _ _ _ _ (by omega), if_pos (by omega)]
    simp [hi]
  · have : x.testBit i = false := Nat.testBit_lt_two_pow (Nat.lt_of_lt_of_le hx (Nat.pow_le_pow_right (by omega) (by omega)))
    simp [hi, this]

/-- Bytes apart from those that are put stay as they are. -/
theorem sliceWord_mergeWord_apart (w : BitVec 64) {o n x p k : Nat} (hp : p + k ≤ 8) (h : p + k ≤ o ∨ o + n ≤ p) :
    sliceWord (mergeWord w o n x) p k = sliceWord w p k := by
  refine Nat.eq_of_testBit_eq fun i => ?_
  rw [sliceWord_testBit, sliceWord_testBit]
  by_cases hi : i < 8 * k
  · rw [mergeWord_getLsbD _ _ _ _ _ (by omega), if_neg (by omega)]
  · simp [hi]

/-! ### Reads of the Larder after a write -/

/-- A read of a Larder word that is not void, without detected errors. -/
theorem readLarder_valid {m : Mem} {a n : Nat} {w : BitVec 64} (h : m.word64 (larderIdx a) = some w) :
    readLarder m MemEnv.quiet a n = .ok (sliceWord w (a % 8) n) := by
  simp [readLarder, h, State.hasUe_nil (m := MemEnv.quiet) rfl]

/-- What is written to the Larder is read back (R78). -/
theorem readLarder_writeLarder_same (m : Mem) {a n x : Nat} (ha : a % 8 + n ≤ 8) (hx : x < 2 ^ (8 * n)) :
    readLarder (m.writeLarder a n x) MemEnv.quiet a n = .ok x := by
  rw [readLarder_valid (m.word64_writeLarder_same a n x), sliceWord_mergeWord_same _ ha hx]

/-- Bytes of the same word that lie apart from those written read as before. -/
theorem readLarder_writeLarder_apart (m : Mem) {a n x b k : Nat} {w : BitVec 64} (hi : larderIdx b = larderIdx a)
    (hw : m.word64 (larderIdx a) = some w) (hb : b % 8 + k ≤ 8) (h : b % 8 + k ≤ a % 8 ∨ a % 8 + n ≤ b % 8) :
    readLarder (m.writeLarder a n x) MemEnv.quiet b k = readLarder m MemEnv.quiet b k := by
  have new : (m.writeLarder a n x).word64 (larderIdx b) = some (mergeWord w (a % 8) n x) := by
    rw [hi, m.word64_writeLarder_same, hw, Option.getD_some]
  have old : m.word64 (larderIdx b) = some w := by rw [hi, hw]
  rw [readLarder_valid new, readLarder_valid old, sliceWord_mergeWord_apart w hb h]

namespace State

variable {s u : State} {o : OpCtx} {env : OpEnv} {a : Nat} {v : Word}

/-! ### Frames -/

theorem writeLarder_only (a n x : Nat) : Only [.larder] u (u.modMem fun m => m.writeLarder a n x) := by
  intro p hp
  cases p with
  | larder => exact absurd (by decide) hp
  | energy => exact ⟨rfl, rfl, rfl⟩
  | owed => exact ⟨rfl, rfl⟩
  | _ => rfl

theorem setTable_only (a : Nat) (w : Word) : Only [.flash] u (u.modMem fun m => m.setTable a w) := by
  intro p hp
  cases p with
  | flash => exact absurd (by decide) hp
  | energy => exact ⟨rfl, rfl, rfl⟩
  | owed => exact ⟨rfl, rfl⟩
  | _ => rfl

/-! ### What the write makes -/

theorem firstCode_none {l : List Code} (h : firstCode l = none) : l = [] := by
  cases l with
  | nil => rfl
  | cons c l =>
    unfold firstCode at h
    split at h <;> cases h

/-- A write that passes the checks of its places names an address that a session may write. -/
theorem writableAt_of_granted (h : s.Granted o env a [v]) (h32 : a < 2 ^ 32) : s.writableAt a = true := by
  obtain ⟨-, -, had, -⟩ := h
  rw [wordsAt_single h32] at had
  have static : s.staticRefusal true [(a, v)] = none := by
    have codes := firstCode_none had
    simp only [List.append_eq_nil_iff, Option.toList_eq_nil_iff] at codes
    exact codes.1
  by_contra hw
  have bad : ([(a, v)] : Words).any (fun w => !s.writableAt w.1) = true := by simpa using hw
  rw [staticRefusal, if_pos bad] at static
  cases static

theorem aligned_of_granted (h : s.Granted o env a [v]) (h32 : a < 2 ^ 32) : a % 4 = 0 := by
  have places := writableAt_of_granted h h32
  simp only [writableAt, Bool.and_eq_true, decide_eq_true_eq] at places
  exact places.1

theorem storeWords_larder (h : 0x10000000 ≤ a) :
    s.storeWords env.mem [(a, v)] = s.modMem fun m => m.writeLarder a 4 v.toNat := by
  have h' : 0x10000 ≤ a := by omega
  simp [storeWords, jobLane_outside (a := a) (by omega), placeWords, h, h']

theorem storeWords_table (h : 0xA0000 ≤ a) (h2 : a < 0x10000000) :
    s.storeWords env.mem [(a, v)] = s.modMem fun m => m.setTable a (v &&& tableMask a) := by
  have h' : 0x10000 ≤ a := by omega
  have h2' : ¬ 0x10000000 ≤ a := by omega
  simp [storeWords, jobLane_outside (a := a) (by omega), placeWords, h2', h']

/-- A word of the memories is stored, and one commit; it starts nothing. -/
theorem makeWrite_memory (h : 0xA0000 ≤ a) (order : (s.storeWords env.mem [(a, v)]).order = s.order) :
    s.makeWrite env [(a, v)] = ((s.storeWords env.mem [(a, v)]).commit, s.order + 1) := by
  have h' : 0x10000 ≤ a := by omega
  have stale : s.staleClear (a, v) = false := by simp [staleClear]; omega
  have live : s.moot (a, v) = false := by simp [moot, h']
  have starts (t : State) : effect s env t (a, v) = t := by simp [effect, h']
  rw [makeWrite_outside (.inr h) stale live, starts, order]

/-- A granted write of a Larder word (R5, R78, R194). -/
theorem write_larder (hgr : s.Granted o env a [v]) (hlo : larderBase ≤ a) (hhi : a < larderBase + 0x400000) :
    ∃ u : State, exec (.write o (word a) [v] env) s = .next (s.written o u) ∧ readLarder u.mem MemEnv.quiet a 4 = .ok v.toNat ∧
      (∀ i, i ≠ larderIdx a → u.mem.word64 i = s.mem.word64 i) ∧
      (∀ x, s.mem.word64 (larderIdx a) = some x →
        readLarder u.mem MemEnv.quiet (a / 8 * 8 + (4 - a % 8)) 4 = readLarder s.mem MemEnv.quiet (a / 8 * 8 + (4 - a % 8)) 4) ∧
      Only [.order, .larder] s u := by
  unfold larderBase at hlo hhi
  have aligned : a % 8 = 0 ∨ a % 8 = 4 := by have := aligned_of_granted hgr (by omega); omega
  have made : s.makeWrite env [(a, v)] = _ := makeWrite_memory (by omega) (by rw [storeWords_larder hlo]; rfl)
  rw [storeWords_larder hlo] at made
  refine ⟨_, exec_write_single hgr (by omega) made, ?_, fun i hi => Mem.word64_writeLarder_other _ _ _ hi, fun x hx => ?_,
    (only_commit (by decide)).2 ((writeLarder_only _ _ _).mono (by decide))⟩
  · exact readLarder_writeLarder_same s.mem (by omega) v.isLt
  · refine readLarder_writeLarder_apart s.mem ?_ hx (by omega) (by omega)
    unfold larderIdx larderBase
    omega

/-- A granted write of a word of the reaction table (R71, R108). -/
theorem write_reaction (hgr : s.Granted o env a [v]) (hlo : 0xB0000 ≤ a) (hhi : a < 0xB1000) :
    ∃ u : State, exec (.write o (word a) [v] env) s = .next (s.written o u) ∧ u.mem.table a = v &&& tableMask a ∧
      (∀ b, b ≠ a → u.mem.table b = s.mem.table b) ∧ u.mem.larder = s.mem.larder ∧ Only [.order, .flash] s u := by
  have stored : s.storeWords env.mem [(a, v)] = _ := storeWords_table (by omega) (by omega)
  have made : s.makeWrite env [(a, v)] = _ := makeWrite_memory (by omega) (by rw [stored]; rfl)
  rw [stored] at made
  exact ⟨_, exec_write_single hgr (by omega) made, Mem.table_setTable_same .., fun b hb => Mem.table_setTable_other _ _ hb, rfl,
    (only_commit (by decide)).2 ((setTable_only _ _).mono (by decide))⟩

end State

/-- Settles O34: the write stores its word alone, commits, and starts nothing. -/
theorem memoryWritesPutTheirWords : Obligations.MemoryWritesPutTheirWords :=
  fun _ _ _ _ _ hgr => ⟨State.write_larder hgr, State.write_reaction hgr⟩

end Sys2Proof.Machine
end

/-! ## Reads at one cut -/

section
namespace Sys2Proof.Machine

/-! ### Chunks of a response -/

theorem bytesLE_length (n x : Nat) : (bytesLE n x).length = n := by
  induction n generalizing x with
  | zero => rfl
  | succ n ih => rw [bytesLE, List.length_cons, ih]

theorem length_flatMap_chunks {f : Nat → List Byte} {n : Nat} (l : List Nat) (h : ∀ a ∈ l, (f a).length = n) :
    (l.flatMap f).length = n * l.length := by
  rw [List.length_flatMap, List.map_congr_left h, List.map_const', List.sum_replicate, smul_eq_mul, Nat.mul_comm]

/-- The `k`-th chunk of a response is that of the `k`-th address. -/
theorem chunk_flatMap {f : Nat → List Byte} {n : Nat} (l : List Nat) (h : ∀ a ∈ l, (f a).length = n) {k a : Nat}
    (hk : l[k]? = some a) : ((l.flatMap f).drop (n * k)).take n = f a := by
  induction l generalizing k with
  | nil => simp at hk
  | cons b l ih =>
    have hb : (f b).length = n := h b (by simp)
    cases k with
    | zero =>
      obtain rfl : b = a := by simpa using hk
      simp [← hb]
    | succ k =>
      rw [List.flatMap_cons, Nat.mul_succ, Nat.add_comm, ← List.drop_drop, ← hb, List.drop_left, hb]
      exact ih (fun c hc => h c (by simp [hc])) (by simpa using hk)

namespace State

variable {s : State} {o : OpCtx}

/-! ### Captures -/

/-- The registers of the snapshot groups (R14). -/
def snapshotRegs : List Nat :=
  [Reg.DEV_ORDER_LO, Reg.DEV_ORDER_HI, Reg.DEV_TICK_LO, Reg.DEV_TICK_HI,
   Reg.PWR_LEDGER_HEAD_LO, Reg.PWR_LEDGER_HEAD_HI, Reg.PWR_LEDGER_HELD_LO, Reg.PWR_LEDGER_HELD_HI, Reg.PWR_LEDGER_V,
   Reg.FLT_BIN_HEAD, Reg.FLT_BIN_ADDR, Reg.FLT_BIN_ORDER_LO, Reg.FLT_BIN_ORDER_HI, Reg.FLT_BIN_PLACE_LO, Reg.FLT_BIN_PLACE_HI,
   Reg.CAL_NOW_DAY, Reg.CAL_NOW_TIME, Reg.CAL_NOW_YMD]

theorem groupValues_mem {a : Nat} {e : Nat × Word} (h : e ∈ s.groupValues a) : e.1 ∈ snapshotRegs := by
  unfold groupValues at h
  split at h
  · simp only [List.mem_cons, List.not_mem_nil, or_false] at h
    rcases h with rfl | rfl | rfl | rfl <;> simp [snapshotRegs]
  split at h
  · simp only [List.mem_cons, List.not_mem_nil, or_false] at h
    rcases h with rfl | rfl | rfl | rfl | rfl <;> simp [snapshotRegs]
  split at h
  · have bin : ∀ x ∈ [Reg.FLT_BIN_HEAD, Reg.FLT_BIN_ADDR, Reg.FLT_BIN_ORDER_LO, Reg.FLT_BIN_ORDER_HI, Reg.FLT_BIN_PLACE_LO,
        Reg.FLT_BIN_PLACE_HI], x ∈ snapshotRegs := by decide
    exact bin _ (List.of_mem_zip h).1
  split at h
  · simp only [List.mem_cons, List.not_mem_nil, or_false] at h
    rcases h with rfl | rfl | rfl <;> simp [snapshotRegs]
  · cases h

theorem setRegs_eq (l : List (Nat × Word)) : s.setRegs l = { s with regs := (s.setRegs l).regs } := by
  unfold setRegs
  induction l generalizing s with
  | nil => rfl
  | cons e l ih => rw [List.foldl_cons, ih]; rfl

theorem setRegs_reg_other {l : List (Nat × Word)} {b : Nat} (h : ∀ e ∈ l, e.1 ≠ b) : (s.setRegs l).reg b = s.reg b := by
  unfold setRegs
  induction l generalizing s with
  | nil => rfl
  | cons e l ih =>
    rw [List.foldl_cons, ih (fun x hx => h x (by simp [hx])), setReg_reg_other _ _ _ _ (h e (by simp))]

/-- A capture changes registers alone. -/
theorem capture_eq (l : List Nat) : s.capture_ l = { s with regs := (s.capture_ l).regs } := by
  unfold capture_
  induction l.filter _ generalizing s with
  | nil => rfl
  | cons a l ih => rw [List.foldl_cons, ih, setRegs_eq]

/-- A capture leaves every register outside the snapshot groups. -/
theorem capture_reg_other (l : List Nat) {b : Nat} (h : b ∉ snapshotRegs) : (s.capture_ l).reg b = s.reg b := by
  unfold capture_
  induction l.filter _ generalizing s with
  | nil => rfl
  | cons a l ih =>
    rw [List.foldl_cons, ih, setRegs_reg_other fun e he => ?_]
    rintro rfl
    exact h (groupValues_mem he)

@[simp] theorem capture_mem (l : List Nat) : (s.capture_ l).mem = s.mem := by rw [capture_eq]
@[simp] theorem capture_order (l : List Nat) : (s.capture_ l).order = s.order := by rw [capture_eq]
@[simp] theorem capture_guards (l : List Nat) : (s.capture_ l).guards = s.guards := by rw [capture_eq]

theorem capture_only (l : List Nat) : Only [.regs] s (s.capture_ l) :=
  Only.foldl (fun _ _ => Only.foldl (fun _ _ => setReg_only _ _) _ _) _ _

@[simp] theorem capture_isolated (l : List Nat) (p : Nat) : (s.capture_ l).isolated p = s.isolated p := by
  simp only [isolated, rbit, capture_reg_other l (show Reg.DEV_LAD_ISO_LO ∉ snapshotRegs by decide),
    capture_reg_other l (show Reg.DEV_LAD_ISO_HI ∉ snapshotRegs by decide)]

@[simp] theorem capture_fld_celCfg (l : List Nat) (hi lo : Nat) :
    (s.capture_ l).fld Reg.MEM_CEL_CFG hi lo = s.fld Reg.MEM_CEL_CFG hi lo := by
  simp only [fld, capture_reg_other l (show Reg.MEM_CEL_CFG ∉ snapshotRegs by decide)]

@[simp] theorem capture_regionOf (l : List Nat) (a : Nat) : regionOf (s.capture_ l) a = regionOf s a := by
  unfold regionOf cellarSize
  rw [capture_fld_celCfg]

@[simp] theorem capture_portOf (l : List Nat) (a : Nat) : portOf (s.capture_ l) a = portOf s a := by
  simp only [portOf, capture_regionOf]

@[simp] theorem capture_readBulk (l : List Nat) (env : MemEnv) (a n : Nat) : readBulk (s.capture_ l) env a n = readBulk s env a n := by
  simp only [readBulk, capture_isolated, capture_portOf, capture_regionOf, capture_mem, capture_fld_celCfg]

/-- A capture makes no read fail: it changes registers, which are read without failure. -/
theorem isFail_readWord_capture (l : List Nat) (env : MemEnv) (a : Nat) :
    Read.isFail ((s.capture_ l).readWord env a) = Read.isFail (s.readWord env a) := by
  unfold readWord
  simp only [capture_isolated, capture_portOf, capture_regionOf, capture_mem, capture_readBulk]
  split
  · rfl
  · cases regionOf s a <;> rfl

/-! ### Guards -/

theorem setGuard_guard_same (a k : Nat) : (s.setGuard a k).guard a = k := Tab.get_set_same ..

theorem setGuard_guard_other {a b : Nat} (k : Nat) (h : b ≠ a) : (s.setGuard a k).guard b = s.guard b := Tab.get_set_other _ _ _ h

/-- A read of the owner's empties the guards that it names (R57). -/
theorem zeroGuards_guard (l : List Nat) {a : Nat} (hg : w1gMask a ≠ 0) :
    (s.zeroGuards l).guard a = if a ∈ l then 0 else s.guard a := by
  unfold zeroGuards
  induction l generalizing s with
  | nil => simp
  | cons b l ih =>
    rw [List.foldl_cons, ih]
    by_cases hb : a = b
    · subst hb
      rw [if_neg hg, setGuard_guard_same]
      simp
    · have other : (if w1gMask b = 0 then s else s.setGuard b 0).guard a = s.guard a := by
        split
        · rfl
        · exact setGuard_guard_other 0 hb
      rw [other]
      simp [hb]

theorem zeroGuards_only (l : List Nat) : Only [.guards] s (s.zeroGuards l) :=
  Only.foldl (fun _ _ => only_ite (Only.refl _ _) (setGuard_only _ _)) _ _

/-! ### The response -/

/-- The bytes of the word at an address in a response. -/
def wordBytes (s : State) (env : MemEnv) (a : Nat) : List Byte :=
  match s.readWord env a with
  | .ok v => bytesLE 4 v
  | _ => []

theorem wordBytes_ok {env : MemEnv} {a v : Nat} (h : s.readWord env a = .ok v) : s.wordBytes env a = bytesLE 4 v := by
  simp [wordBytes, h]

theorem wordBytes_length {env : MemEnv} {a : Nat} (h : Read.isFail (s.readWord env a) = false) :
    (s.wordBytes env a).length = 4 := by
  cases hr : s.readWord env a with
  | ok v => rw [wordBytes_ok hr, bytesLE_length]
  | _ => rw [hr] at h; cases h

/-- What a read changes: the captures, and for the owner the guards. -/
def readEffect (s : State) (owner : Bool) (l : List Nat) : State :=
  if owner then (s.capture_ l).zeroGuards l else s.capture_ l

/-- A read none of whose words fails. -/
theorem readAt_ok {env : MemEnv} {l : List Nat} (owner : Bool) (hecc : env.ecc = [])
    (h : ∀ a ∈ l, Read.isFail (s.readWord env a) = false) :
    s.readAt owner env l = (s.readEffect owner l, .now .ok s.order (l.flatMap ((s.capture_ l).wordBytes env))) := by
  have noFail : (l.find? fun a => Read.isFail (s.readWord env a)) = none := by simpa [List.find?_eq_none] using h
  unfold readAt
  rw [noteCorrected_nil _ (by simp [envAt, hecc])]
  simp only [noFail, capture_order]
  rfl

theorem readEffect_regs (owner : Bool) (l : List Nat) : (s.readEffect owner l).regs = (s.capture_ l).regs := by
  unfold readEffect
  split
  · exact (zeroGuards_only l).part .regs (by decide)
  · rfl

theorem readEffect_only (owner : Bool) (l : List Nat) : Only [.regs, .guards] s (s.readEffect owner l) := by
  have captured : Only [.regs, .guards] s (s.capture_ l) := (capture_only l).mono (by decide)
  exact only_ite (captured.trans ((zeroGuards_only l).mono (by decide))) captured

theorem readEffect_guard (owner : Bool) {l : List Nat} {a : Nat} (ha : a ∈ l) (hg : w1gMask a ≠ 0) :
    (s.readEffect owner l).guard a = if owner then 0 else s.guard a := by
  unfold readEffect
  split
  · rw [zeroGuards_guard l hg, if_pos ha]
  · simp only [guard, capture_guards]

/-- A response answers the words of one cut: each word is what its address reads as once the groups named are captured. -/
def AnswersCut (s : State) (o : OpCtx) (env : MemEnv) (i : Instr) (op : Byte) (l : List Nat) : Prop :=
  ∃ (u : State) (data : List Byte), exec i s = .next (s.answered o op u s.order data) ∧ data.length = 4 * l.length ∧
    (∀ k a v, l[k]? = some a → (s.capture_ l).readWord env a = .ok v → (data.drop (4 * k)).take 4 = bytesLE 4 v) ∧
    u.regs = (s.capture_ l).regs ∧ Only [.regs, .guards] s u ∧
    ∀ a ∈ l, w1gMask a ≠ 0 → u.guard a = (if s.isOwner o.sess then 0 else s.guard a)

/-- An operation that runs as a read of some addresses, none of which fails, answers them at one cut. -/
theorem answersCut_of_readAt {env : MemEnv} {l : List Nat} {i : Instr} {op : Byte} {f : State → State × Answer}
    (hask : s.Asks o) (hecc : env.ecc = []) (hl : ∀ a ∈ l, Read.isFail (s.readWord env a) = false)
    (hi : exec i s = s.finish (s.runOp o op f)) (hf : f s = s.readAt (s.isOwner o.sess) env l) : AnswersCut s o env i op l := by
  have chunks : ∀ a ∈ l, ((s.capture_ l).wordBytes env a).length = 4 := fun a ha =>
    wordBytes_length (by rw [isFail_readWord_capture]; exact hl a ha)
  refine ⟨s.readEffect (s.isOwner o.sess) l, l.flatMap ((s.capture_ l).wordBytes env), ?_, length_flatMap_chunks l chunks, ?_,
    readEffect_regs _ _, readEffect_only _ _, fun a ha hg => readEffect_guard _ ha hg⟩
  · rw [hi, runOp_asks hask (hf.trans (readAt_ok _ hecc hl))]
    rfl
  · intro k a v hk hv
    rw [chunk_flatMap l chunks hk, wordBytes_ok hv]

/-- A `READ` of readable words of one region reads them (R193). -/
theorem opRead_readable {env : OpEnv} {addr : Word} {n : Nat} (h1 : 1 ≤ n) (h256 : n ≤ 256)
    (h : ∀ a ∈ wordAddrs addr.toNat n, s.badRead a = false ∧ s.heldAt a = false ∧ regionOf s a = regionOf s addr.toNat) :
    s.opRead o addr n env = s.readAt (s.isOwner o.sess) env.mem (wordAddrs addr.toNat n) := by
  have placed : ((wordAddrs addr.toNat n).any fun a => s.badRead a || decide (regionOf s a ≠ regionOf s addr.toNat)) = false := by
    rw [List.any_eq_false]
    intro a ha
    obtain ⟨bad, -, region⟩ := h a ha
    simp [bad, region]
  have free : (wordAddrs addr.toNat n).any s.heldAt = false := by
    rw [List.any_eq_false]
    intro a ha
    obtain ⟨-, held, -⟩ := h a ha
    simp [held]
  unfold opRead
  simp only [placed, free, Bool.false_eq_true, if_false]
  rw [if_neg (by omega)]

/-- A `READ_LIST` of readable words reads them (R193). -/
theorem opReadList_readable {env : OpEnv} {l : List Word} (h1 : 1 ≤ l.length) (h64 : l.length ≤ 64)
    (h : ∀ a ∈ l.map BitVec.toNat, s.badRead a = false ∧ s.heldAt a = false) :
    s.opReadList o l env = s.readAt (s.isOwner o.sess) env.mem (l.map BitVec.toNat) := by
  have placed : (l.map BitVec.toNat).any s.badRead = false := by
    rw [List.any_eq_false]
    intro a ha
    obtain ⟨bad, -⟩ := h a ha
    simp [bad]
  have free : (l.map BitVec.toNat).any s.heldAt = false := by
    rw [List.any_eq_false]
    intro a ha
    obtain ⟨-, held⟩ := h a ha
    simp [held]
  unfold opReadList
  simp only [placed, free, Bool.false_eq_true, if_false, List.length_map]
  rw [if_neg (by omega)]

end State

/-- Settles O31: a read whose words do not fail captures, answers each word as it then reads, and empties the owner's guards. -/
theorem readsAnswerOneCut : Obligations.ReadsAnswerOneCut := by
  intro s o env hask hecc readable reads
  constructor
  · intro addr n h1 h256 h
    refine State.answersCut_of_readAt hask hecc (fun a ha => ?_) rfl (State.opRead_readable h1 h256 fun a ha => ?_)
    · obtain ⟨⟨-, -, ok⟩, -⟩ := h a ha
      exact ok
    · obtain ⟨⟨bad, held, -⟩, region⟩ := h a ha
      exact ⟨bad, held, region⟩
  · intro l h1 h64 h
    have all : ∀ a ∈ l.map BitVec.toNat, readable a := by simpa using h
    refine State.answersCut_of_readAt hask hecc (fun a ha => ?_) rfl (State.opReadList_readable h1 h64 fun a ha => ?_)
    · obtain ⟨-, -, ok⟩ := all a ha
      exact ok
    · obtain ⟨bad, held, -⟩ := all a ha
      exact ⟨bad, held⟩

end Sys2Proof.Machine
end

/-! ## The end of an envelope window -/

section
namespace Sys2Proof.Machine

/-- A field leaves the bits below it as they are. -/
theorem bit_putBits_below (w : Word) {hi lo n : Nat} (v : Nat) (h : n < lo) : bit (putBits w hi lo v) n = bit w n := by
  change (putBits w hi lo v).getLsbD n = w.getLsbD n
  have below : ¬ lo ≤ n := by omega
  simp only [putBits, BitVec.getLsbD_or, BitVec.getLsbD_and, BitVec.getLsbD_not, BitVec.getLsbD_ofNat, Nat.testBit_shiftLeft,
    ge_iff_le, below, decide_false, Bool.false_and, Bool.and_false, Bool.not_false, Bool.and_true, Bool.or_false]
  cases hw : w.getLsbD n
  · rfl
  · simp [BitVec.lt_of_getLsbD hw]

theorem bit_or_pow (w : Word) {n : Nat} (h : n < 32) : bit (w ||| word (2 ^ n)) n = true := by
  change (w ||| word (2 ^ n)).getLsbD n = true
  simp only [word, BitVec.getLsbD_or, BitVec.getLsbD_ofNat, Nat.testBit_two_pow_self, h, decide_true, Bool.and_true,
    Bool.or_true]

namespace State

variable {s : State} {n : Lane}

/-- A flag that the hardware sets reads 1; it lies below the generation in bits [31:28] (R13). -/
theorem setFlag_rbit_same (s : State) (a : Nat) {k : Nat} (h : k < 28) : (s.setFlag a k).rbit a k = true := by
  unfold rbit
  rw [setFlag_reg_same, bit_putBits_below _ _ h, bit_or_pow _ (by omega)]

@[simp] theorem commit_rbit (s : State) (a k : Nat) : s.commit.rbit a k = s.rbit a k := rfl

/-- The window of a lane that ends now is an exceeding one (R32). -/
def exceeding (s : State) (n : Lane) : Bool :=
  decide (s.maxRate n ≠ 0) && !(s.lane n).madeUp && decide (s.maxRate n < (s.lane n).advance)

/-- The lane as its next window starts (R32). -/
def nextWindow (s : State) (n : Lane) : LaneSt := { s.lane n with advance := 0, outside := s.exceeding n, madeUp := false }

theorem endEnvelope_eq (s : State) (n : Lane) : s.endEnvelope n =
    if s.exceeding n then ((s.setLane n (s.nextWindow n)).setFlag Reg.DEV_ENV_STAT n.val).commit
    else s.setLane n (s.nextWindow n) := rfl

theorem endEnvelope_lane_same (s : State) (n : Lane) : (s.endEnvelope n).lane n = s.nextWindow n := by
  rw [endEnvelope_eq]
  split <;> simp

theorem endEnvelope_lane_other (s : State) {n m : Lane} (h : m ≠ n) : (s.endEnvelope n).lane m = s.lane m := by
  rw [endEnvelope_eq]
  split <;> simp [setLane_lane_other _ _ _ _ h.symm]

theorem endEnvelope_exceeding (h : s.exceeding n = true) :
    (s.endEnvelope n).rbit Reg.DEV_ENV_STAT n.val = true ∧ (s.endEnvelope n).order = s.order + 1 := by
  rw [endEnvelope_eq, if_pos h, commit_rbit]
  exact ⟨setFlag_rbit_same _ _ (by omega), rfl⟩

theorem endEnvelope_within (h : s.exceeding n = false) :
    (s.endEnvelope n).regs = s.regs ∧ (s.endEnvelope n).order = s.order := by
  simp [endEnvelope_eq, h]

theorem endEnvelope_only (s : State) (n : Lane) : Only [.order, .regs, .guards, .plc] s (s.endEnvelope n) := by
  rw [endEnvelope_eq]
  split <;> simp (disch := decide)

/-- An envelope window that ends is taken as an event, at the tick it is due (R32). -/
theorem exec_envelopeWindowEnd (h : s.ticking = true) (n : Lane) :
    let t := s.advanceTo (s.dueAt (Ev.envelope n) 0 100000)
    exec (.envelopeWindowEnd n) s = .next (s.after ((t.setFired (Ev.envelope n) t.tick).endEnvelope n)) :=
  congrArg s.finish (periodic_eq h _ _ _ _)

end State

/-- Settles O20: the command is the end of the window at the tick it is due, and each clause is what that end does. -/
theorem envelopeWindowEnds : Obligations.EnvelopeWindowEnds := by
  intro s n ticks t beyond
  refine ⟨_, State.exec_envelopeWindowEnd ticks n, ?_, ?_, fun h => State.endEnvelope_exceeding h,
    fun h => State.endEnvelope_within h, fun m hm => State.endEnvelope_lane_other _ hm, ?_⟩
  · rw [State.endEnvelope_lane_same, State.nextWindow]
  · rw [State.endEnvelope_lane_same]
    rfl
  · exact ((State.setFired_only _ _).mono (by decide)).trans ((State.endEnvelope_only _ n).mono (by decide))

end Sys2Proof.Machine
end

/-! ## The step and what follows a command -/

section
namespace Sys2Proof.Machine.State

variable {s : State}

/-- Where the tick does not run, time does not pass (R41). -/
theorem advanceTo_stopped (h : s.ticking = false) (d : Nat) : s.advanceTo d = s := by simp [advanceTo, h]

/-- The tick of an empty step. -/
theorem idle_tick (s : State) : (s.advanceTo (s.tick + 1)).tick = if s.ticking = true then s.tick + 1 else s.tick := by
  split
  case isTrue h => rw [advanceTo_tick h]; omega
  case isFalse h => rw [advanceTo_stopped (by simpa using h)]

end Sys2Proof.Machine.State

namespace Sys2Proof.Machine

/-- Settles O1: a step on an empty queue is one tick of time, whose frame is `clockParts`. -/
theorem stepRunsFrontCommand : Obligations.StepRunsFrontCommand := by
  intro s
  refine ⟨fun c rest h => by rw [step, h], fun h => ?_⟩
  have kept : Only (.tick :: clockParts) s (s.advanceTo (s.tick + 1)) := State.advanceTo_only _
  refine ⟨s.advanceTo (s.tick + 1), by rw [step, h]; rfl, State.idle_tick s, kept.part .mot (by decide), kept.part .hed (by decide),
    kept.part .hlt (by decide), kept.part .rej (by decide), kept.part .hat (by decide), kept.part .cal (by decide),
    kept.part .boot (by decide), kept.part .ses (by decide), kept.part .crates (by decide), State.pwrState_of_only kept (by decide),
    fun stopped => State.advanceTo_stopped stopped _⟩

/-- Settles O5: the frame of what follows a command in a calm state, part by part. -/
theorem calmCommandTouchesFollowersOnly : Obligations.CalmCommandTouchesFollowersOnly := by
  intro s u calm
  have kept : Only (.pending :: State.calmParts) u (s.after u) := State.after_calm calm
  have flash : { (s.after u).mem with larder := [], staged := [], heldOps := [] } =
      { u.mem with larder := [], staged := [], heldOps := [] } := kept.part .flash (by decide)
  exact ⟨kept.part .tick (by decide), kept.part .larder (by decide), (congrArg Mem.cellar flash :), (congrArg Mem.loft flash :),
    (congrArg Mem.tables flash :), kept.part .mot (by decide), kept.part .hst (by decide), kept.part .tmr (by decide),
    kept.part .hed (by decide), kept.part .cal (by decide), kept.part .crates (by decide), kept.part .boot (by decide),
    State.pwrState_of_only kept (by decide), kept.part .free (by decide), rfl⟩

end Sys2Proof.Machine
end

/-! ## Fields of words, and flags that a message leaves set -/

section
namespace Sys2Proof.Machine

/-! ### Fields of words -/

theorem bit_or (w m : Word) (n : Nat) : bit (w ||| m) n = (bit w n || bit m n) := by
  simp only [bit, BitVec.toNat_or, Nat.testBit_or]

/-- A bit of a word with a field put comes from the field where it lies in it, else from the word. -/
theorem bit_putBits (w : Word) (v : Nat) {hi lo n : Nat} (hn : n < 32) :
    bit (putBits w hi lo v) n = if lo ≤ n ∧ n ≤ hi then v.testBit (n - lo) else bit w n := by
  change (putBits w hi lo v).getLsbD n = if lo ≤ n ∧ n ≤ hi then v.testBit (n - lo) else w.getLsbD n
  simp only [putBits, BitVec.getLsbD_or, BitVec.getLsbD_and, BitVec.getLsbD_not, BitVec.getLsbD_ofNat, Nat.testBit_shiftLeft,
    Nat.testBit_two_pow_sub_one, hn, decide_true, Bool.true_and]
  by_cases h1 : lo ≤ n
  · by_cases h2 : n ≤ hi
    · have : n - lo < hi + 1 - lo := by omega
      simp [h1, h2, this]
    · have : ¬ n - lo < hi + 1 - lo := by omega
      simp [h1, h2, this]
  · simp [h1]

theorem testBit_bits (w : Word) (hi lo i : Nat) : (bits w hi lo).testBit i = (decide (i < hi + 1 - lo) && bit w (lo + i)) := by
  rw [bits, Nat.testBit_mod_two_pow, Nat.testBit_shiftRight, bit]

/-- A field is as before where each of its bits is. -/
theorem bits_congr {w x : Word} {hi lo : Nat} (h : ∀ n, lo ≤ n → n ≤ hi → bit w n = bit x n) : bits w hi lo = bits x hi lo := by
  refine Nat.eq_of_testBit_eq fun i => ?_
  rw [testBit_bits, testBit_bits]
  by_cases hi' : i < hi + 1 - lo
  · rw [h (lo + i) (by omega) (by omega)]
  · simp [hi']

/-- A field that is put is read back. -/
theorem bits_putBits_same (w : Word) {hi lo v : Nat} (hhi : hi < 32) (hv : v < 2 ^ (hi + 1 - lo)) : bits (putBits w hi lo v) hi lo = v := by
  refine Nat.eq_of_testBit_eq fun i => ?_
  rw [testBit_bits]
  by_cases hi' : i < hi + 1 - lo
  · rw [bit_putBits w v (by omega), if_pos (by omega)]
    simp [hi']
  · have : v.testBit i = false := Nat.testBit_lt_two_pow (Nat.lt_of_lt_of_le hv (Nat.pow_le_pow_right (by omega) (by omega)))
    simp [hi', this]

theorem bit_word_pow (n k : Nat) (hn : n < 32) : bit (word (2 ^ k)) n = decide (k = n) := by
  change (word (2 ^ k)).getLsbD n = _
  simp only [word, BitVec.getLsbD_ofNat, hn, decide_true, Bool.true_and, Nat.testBit_two_pow]

namespace State

variable {s t u : State}

/-- A flag below the generation after a hardware set of another or the same flag of its register (R13). -/
theorem setFlag_rbit (s : State) (a n k : Nat) (hk : k < 28) : (s.setFlag a n).rbit a k = (s.rbit a k || decide (n = k)) := by
  rw [rbit, setFlag_reg_same, bit_putBits_below _ _ hk, bit_or, bit_word_pow _ _ (by omega), rbit]

theorem setFlag_rbit_other {a b : Nat} (n k : Nat) (h : a ≠ b) : (s.setFlag a n).rbit b k = s.rbit b k := by
  simp only [rbit, setFlag_reg_other _ _ _ _ h]

/-- A field below the generation that holds none of the flags set. -/
theorem setFlag_fld (s : State) (a : Nat) {n hi lo : Nat} (hhi : hi < 28) (hn : n < lo ∨ hi < n) :
    (s.setFlag a n).fld a hi lo = s.fld a hi lo := by
  unfold fld
  refine bits_congr fun k h1 h2 => ?_
  rw [setFlag_reg_same, bit_putBits_below _ _ (by omega), bit_or, bit_word_pow _ _ (by omega), decide_eq_false (by omega), Bool.or_false]

theorem setFld_rbit (s : State) (a hi lo v : Nat) {k : Nat} (hk : k < 32) :
    (s.setFld a hi lo v).rbit a k = if lo ≤ k ∧ k ≤ hi then v.testBit (k - lo) else s.rbit a k := by
  rw [rbit, setFld_reg_same, bit_putBits _ _ hk, rbit]

theorem setFld_fld_same (s : State) (a : Nat) {hi lo v : Nat} (hhi : hi < 32) (hv : v < 2 ^ (hi + 1 - lo)) :
    (s.setFld a hi lo v).fld a hi lo = v := by
  rw [fld, setFld_reg_same, bits_putBits_same _ hhi hv]

/-! ### What a message may do -/

/-- A relation between states that the steps of a message keep (R111): it goes through its commit, the recording, the items,
the trap, the pin and the selection of resets. -/
structure ReportSteps (R : State → State → Prop) : Prop where
  refl : ∀ s, R s s
  trans : ∀ {s t u}, R s t → R t u → R s u
  commit : ∀ s, R s s.commit
  bin : ∀ s m, R s (s.recordBin m)
  source : ∀ s k, k < 36 → R s (s.recordSource k)
  items : ∀ w e l s, R s (queueItems w e l s).1
  trap : ∀ s, R s s.trapPulse
  pin : ∀ s, R s s.errPin
  resets : ∀ s m b, R s (s.selectResets m b)

namespace ReportSteps

variable {R : State → State → Prop}

theorem foldl {α : Type} (h : ReportSteps R) {f : State → α → State} (hf : ∀ s a, R s (f s a)) : ∀ (l : List α) (s : State), R s (l.foldl f s)
  | [], s => h.refl s
  | a :: l, s => h.trans (hf s a) (foldl h hf l (f s a))

/-- What a message of a unit that watches does after it has been recorded. -/
theorem after_record (h : ReportSteps R) {n : Nat} (ih : ∀ u k a o, k.src < 36 → R u (raiseN n u k a o)) (u : State) (k : Kind)
    (a : Word) (o : Option Lane) (hk : k.src < 36) (hin : u.unitInReset k.src = false) :
    ∃ m : FaultMsg, m.source = k.src ∧ R (u.commit.recordBin m) (raiseN (n + 1) u k a o) := by
  refine ⟨⟨k.src, k.code, a, u.commit.order, o, match o with | some l => (u.commit.lane l).pc | none => 0⟩, rfl, ?_⟩
  unfold raiseN
  simp only [hin, Bool.false_eq_true, if_false]
  refine h.trans ?_ (h.foldl (fun s i => ih s _ _ none (by decide)) _ _)
  refine h.trans (h.source _ k.src hk) (h.trans ?_ (h.resets _ _ _))
  have fault (c : Bool) (v : State) : R v (if c = true then queueItems (wantsFault k.src) (.fault
      ⟨k.src, k.code, a, u.commit.order, o, match o with | some l => (u.commit.lane l).pc | none => 0⟩) allSess v else (v, [])).1 := by
    split
    · exact h.items _ _ _ _
    · exact h.refl _
  have trap (c : Bool) (v : State) (e : EventItem) : R v
      (if c = true then queueItems v.trapPulse.wantsTrap e allSess v.trapPulse else (v, [])).1 := by
    split
    · exact h.trans (h.trap v) (h.items _ _ _ _)
    · exact h.refl _
  have pin (c : Bool) (v : State) : R v (if c = true then v.errPin else v) := by
    split
    · exact h.pin v
    · exact h.refl _
  exact h.trans (fault _ _) (h.trans (trap _ _ _) (pin _ _))

theorem raiseN (h : ReportSteps R) : ∀ (n : Nat) (u : State) (k : Kind) (a : Word) (o : Option Lane), k.src < 36 → R u (raiseN n u k a o)
  | 0, u, _, _, _, _ => h.refl u
  | n + 1, u, k, a, o, hk => by
    cases hin : u.unitInReset k.src with
    | true => unfold State.raiseN; rw [if_pos hin]; exact h.refl u
    | false =>
      obtain ⟨m, -, hm⟩ := h.after_record (raiseN h n) u k a o hk hin
      exact h.trans (h.commit u) (h.trans (h.bin _ m) hm)

theorem raise (h : ReportSteps R) (u : State) (k : Kind) (a : Word) (hk : k.src < 36) : R u (u.raise k a) := h.raiseN 12 u k a none hk

theorem stateItem (h : ReportSteps R) (u : State) (k : Nat) (o : Option Lane) (a b : Nat) : R u (u.stateItem k o a b) := by
  unfold State.stateItem
  dsimp only
  exact h.trans (h.items _ _ _ u)
    (h.foldl (f := fun (v : State) (i : Sess) => State.raise v Kind.eventDrop (word i.val)) (fun v i => h.raise v _ _ (by decide)) _ _)

/-- The frame of a message (R111). -/
theorem only {l : List Part} (hl : ∀ p ∈ messageParts, p ∈ l) : ReportSteps (Only l) where
  refl := Only.refl l
  trans := Only.trans
  commit _ := (only_commit (hl _ (by decide))).2 (Only.refl _ _)
  bin _ _ := ((recordBin_only _).mono (by decide)).mono hl
  source _ _ _ := ((recordSource_only _).mono (by decide)).mono hl
  items _ _ _ _ := ((queueItems_only _ _ _ _).mono (by decide)).mono hl
  trap _ := (trapPulse_only.mono (by decide)).mono hl
  pin _ := (errPin_only.mono (by decide)).mono hl
  resets _ _ _ := ((selectResets_only _ _).mono (by decide)).mono hl

/-- The blocks of registers of a message. -/
theorem regsIn {l : List Nat} (hl : 4 ∈ l) : ReportSteps (RegsIn l) where
  refl := RegsIn.refl l
  trans := RegsIn.trans
  commit _ := fun _ _ => rfl
  bin _ _ := (recordBin_in _).mono (by simpa using hl)
  source _ k hk := (recordSource_in k hk).mono (by simpa using hl)
  items _ _ _ _ := ((queueItems_only _ _ _ _).regsIn (by decide)).mono (by simp)
  trap _ := trapPulse_in.mono (by simpa using hl)
  pin _ := errPin_in.mono (by simpa using hl)
  resets _ _ _ := ((selectResets_only _ _).regsIn (by decide)).mono (by simp)

end ReportSteps

/-! ### Pending bits stay set -/

/-- Every flag of a register that was set below the generation is set still. -/
def FlagsStay (a : Nat) (s t : State) : Prop := ∀ k < 28, s.rbit a k = true → t.rbit a k = true

theorem FlagsStay.of_reg {a : Nat} (h : t.reg a = s.reg a) : FlagsStay a s t := fun k _ hs => by rw [rbit, h]; exact hs

theorem FlagsStay.trans {a : Nat} (h : FlagsStay a s t) (k : FlagsStay a t u) : FlagsStay a s u := fun n hn hs => k n hn (h n hn hs)

/-- A hardware set of flags clears none. -/
theorem FlagsStay.set {a : Nat} (h : FlagsStay a s t) (b n : Nat) : FlagsStay a s (t.setFlag b n) := by
  by_cases e : b = a
  · subst e
    exact h.trans fun k hk hs => by rw [setFlag_rbit _ _ _ _ hk, hs, Bool.true_or]
  · exact h.trans (.of_reg (setFlag_reg_other _ _ _ _ e))

theorem FlagsStay.of_only {a : Nat} {m : List Part} (h : Only m s t) (hm : .regs ∉ m) : FlagsStay a s t :=
  FlagsStay.of_reg (h.regsIn hm a (by simp))

/-- The recording of a message changes the source states alone, beside the collector. -/
theorem recordSource_reg_pend (s : State) (k : Nat) : (s.recordSource k).reg Reg.FLT_PEND_A = s.reg Reg.FLT_PEND_A := by
  have other : Reg.FLT_SRC_STATE (k / 16) ≠ Reg.FLT_PEND_A := by simp only [Reg.FLT_SRC_STATE, Reg.FLT_PEND_A]; omega
  unfold recordSource
  dsimp only
  split
  · rfl
  · split
    · exact (setFld_reg_other s _ _ _ _ 1 other :)
    · rfl

theorem trapPulse_reg_other (s : State) {a : Nat} (h : Reg.FLT_TRAP_COUNT ≠ a) : s.trapPulse.reg a = s.reg a := by
  unfold trapPulse
  rw [bump_reg_other _ _ _ h]
  split <;> rfl

/-- No step of a message clears a pending bit (R115). -/
theorem reportSteps_pend : ReportSteps (FlagsStay Reg.FLT_PEND_A) where
  refl s := .of_reg rfl
  trans := .trans
  commit s := .of_reg rfl
  bin s m := by
    have head : FlagsStay Reg.FLT_PEND_A s (if s.rbit Reg.FLT_BIN_STAT 0 then s.setFlag Reg.FLT_BIN_STAT 1
        else (s.modFlt fun f => { f with bin := some m }).setFlag Reg.FLT_BIN_STAT 0) := by
      split
      · exact FlagsStay.set (.of_reg rfl) _ _
      · exact FlagsStay.set (t := s.modFlt fun f => { f with bin := some m }) (.of_reg rfl) _ _
    unfold recordBin
    dsimp only
    by_cases h : m.source < 28
    · rw [if_pos h]; exact head.set _ _
    · rw [if_neg h]; exact head.set _ _
  source s k _ := .of_reg (recordSource_reg_pend s k)
  items w e l s := .of_only (queueItems_only w e l s) (by decide)
  trap s := .of_reg (trapPulse_reg_other s (by decide))
  pin s := FlagsStay.set (t := s.modFlt fun f => { f with errMinEnd := some (s.tick + s.fld Reg.FLT_CTRL 7 0 * 100000) })
    (.of_reg rfl) _ _
  resets s m b := .of_only (selectResets_only m b) (by decide)

/-- A message of a source below 28 sets its pending bit (R115). -/
theorem raise_pends (k : Kind) (a : Word) (hk : k.src < 28) (hin : u.unitInReset k.src = false) :
    (u.raise k a).rbit Reg.FLT_PEND_A k.src = true := by
  obtain ⟨m, hm, stay⟩ := reportSteps_pend.after_record (reportSteps_pend.raiseN 11) u k a none (by omega) hin
  refine stay k.src hk ?_
  rw [recordBin, hm, if_pos hk, setFlag_rbit _ _ _ _ hk]
  simp

end State

end Sys2Proof.Machine
end

/-! ## An overrun admission queue -/

section
namespace Sys2Proof.Machine
namespace State

variable {s t u : State}

theorem unitInReset_of_only {m : List Part} (h : Only m s u) (hm : .flt ∉ m) (k : Nat) : u.unitInReset k = s.unitInReset k := by
  have e : { u.flt with due := [] } = { s.flt with due := [] } := h.part .flt hm
  have reset : u.flt.inReset = s.flt.inReset := (congrArg Collector.inReset e :)
  have held : u.flt.held = s.flt.held := (congrArg Collector.held e :)
  simp only [unitInReset, reset, held]

/-! ### The lanes that use an input -/

/-- The event registers of the reject lanes. -/
def rejEvents : List Nat := allLanes.map fun n => Reg.REJ_EVT n

/-- Which lanes use an input is set by registers other than the event registers (R43, R493). -/
theorem usesInput_congr (h : RegsBut rejEvents s t) (n : Lane) (k : Nat) : t.usesInput n k = s.usesInput n k := by
  have source (n : Lane) : t.reg (Reg.PLC_SRC n) = s.reg (Reg.PLC_SRC n) := h _ (by revert n; decide)
  have eye (n : Lane) : t.reg (Reg.PLC_PE n) = s.reg (Reg.PLC_PE n) := h _ (by revert n; decide)
  have axis (x : Axis) : t.reg (Reg.MOT_CFG x) = s.reg (Reg.MOT_CFG x) := h _ (by revert x; decide)
  have inhibit (n : Lane) : t.reg (Reg.REJ_CTRL n) = s.reg (Reg.REJ_CTRL n) := h _ (by revert n; decide)
  have enc : t.laneEnc n = s.laneEnc n := by simp only [laneEnc, fld, source]
  have carry : t.carryAxis n = s.carryAxis n := by
    refine congrArg (fun f => allAxes.find? f) (funext fun x => ?_)
    rw [rbit, fld, axis, rbit, fld]
  have master : t.axMaster = s.axMaster := by funext x; rw [axMaster, axMaster, fld, axis, fld]
  unfold usesInput inhEn fld rbit
  rw [source, eye, inhibit, enc, carry, master]

/-! ### Forced rejects -/

/-- The lanes of a list that a condition selects are forced to reject. -/
def forceWhere (s : State) (c : Lane → Bool) (l : List Lane) : State :=
  l.foldl (fun (s : State) (n : Lane) => if c n then s.force n false else s) s

theorem force_regs (s : State) (n : Lane) (b : Bool) : RegsBut rejEvents s (s.force n b) := fun _ ha =>
  setFlag_reg_other _ _ _ _ fun e => ha (by rw [← e]; simp [rejEvents, allLanes]; omega)

theorem force_only (s : State) (n : Lane) (b : Bool) : Only [.regs, .guards, .rej] s (s.force n b) := by
  unfold force
  simp (disch := decide)

theorem force_overrun (s : State) (m n : Lane) :
    ((s.force m false).rejLane n).forceOverrun = ((s.rejLane n).forceOverrun || decide (n = m)) := by
  by_cases h : n = m
  · subst h
    simp [force]
  · have other : (s.force m false).rejLane n = s.rejLane n := setRejLane_rejLane_other _ _ _ _ (Ne.symm h)
    simp [other, h]

theorem force_event (s : State) (m n : Lane) :
    (s.force m false).rbit (Reg.REJ_EVT n) 3 = (s.rbit (Reg.REJ_EVT n) 3 || decide (n = m)) := by
  by_cases h : n = m
  · subst h
    exact (setFlag_rbit _ _ _ _ (by decide)).trans (by simp [rbit])
  · have apart : Reg.REJ_EVT m ≠ Reg.REJ_EVT n := by have := Fin.val_ne_of_ne h; simp only [Reg.REJ_EVT]; omega
    exact (setFlag_rbit_other _ _ apart).trans (by simp [h, rbit])

section
variable (c : Lane → Bool)

theorem forceWhere_regs (l : List Lane) : RegsBut rejEvents s (s.forceWhere c l) := by
  unfold forceWhere
  induction l generalizing s with
  | nil => exact fun _ _ => rfl
  | cons m l ih =>
    rw [List.foldl_cons]
    split
    · exact fun a ha => (ih a ha).trans (force_regs s m false a ha)
    · exact ih

theorem forceWhere_only (l : List Lane) : Only [.regs, .guards, .rej] s (s.forceWhere c l) :=
  Only.foldl (fun _ _ => only_ite (force_only _ _ _) (Only.refl _ _)) _ _

theorem forceWhere_inhibit (l : List Lane) : (s.forceWhere c l).rej.inhibit = s.rej.inhibit := by
  unfold forceWhere
  induction l generalizing s with
  | nil => rfl
  | cons m l ih => rw [List.foldl_cons, ih]; split <;> rfl

theorem forceWhere_overrun (n : Lane) (l : List Lane) :
    ((s.forceWhere c l).rejLane n).forceOverrun = ((s.rejLane n).forceOverrun || (decide (n ∈ l) && c n)) := by
  unfold forceWhere
  induction l generalizing s with
  | nil => simp
  | cons m l ih =>
    rw [List.foldl_cons, ih]
    by_cases h : n = m
    · subst h
      cases hc : c n <;> simp [force_overrun]
    · split <;> simp [force_overrun, h]

theorem forceWhere_event (n : Lane) (l : List Lane) :
    (s.forceWhere c l).rbit (Reg.REJ_EVT n) 3 = (s.rbit (Reg.REJ_EVT n) 3 || (decide (n ∈ l) && c n)) := by
  unfold forceWhere
  induction l generalizing s with
  | nil => simp
  | cons m l ih =>
    rw [List.foldl_cons, ih]
    by_cases h : n = m
    · subst h
      cases hc : c n <;> simp [force_event]
    · split <;> simp [force_event, h]

end

/-! ### The overrun -/

/-- The fitted lanes that use an input (R64). -/
def usedBy (s : State) (k : Nat) (n : Lane) : Bool := s.fitted n && s.usesInput n k

theorem usedBy_force (s : State) (k : Nat) (m : Lane) : (s.force m false).usedBy k = s.usedBy k := by
  funext n
  have boot : (s.force m false).boot = s.boot := (force_only s m false).part .boot (by decide)
  unfold usedBy fitted fittedCount
  rw [boot, usesInput_congr (force_regs s m false)]

/-- The forced rejects of an overrun, which do not change who uses the input. -/
theorem admitOverrun_eq (s : State) (k : Nat) : s.admitOverrun k = (s.forceWhere (s.usedBy k) allLanes).raise Kind.admitOverrun (word k) := by
  have same (l : List Lane) : ∀ v : State, v.usedBy k = s.usedBy k →
      l.foldl (fun (v : State) (n : Lane) => if v.fitted n && v.usesInput n k then v.force n false else v) v = v.forceWhere (s.usedBy k) l := by
    induction l with
    | nil => exact fun _ _ => rfl
    | cons n l ih =>
      intro v hv
      have now : (v.fitted n && v.usesInput n k) = s.usedBy k n := congrFun hv n
      rw [forceWhere, List.foldl_cons, List.foldl_cons, now]
      refine ih _ ?_
      split
      · rw [usedBy_force, hv]
      · exact hv
  rw [admitOverrun, same allLanes s rfl]

theorem mem_allLanes (n : Lane) : n ∈ allLanes := by revert n; decide

/-- A discarded pin event forces rejects on the lanes that use its input, and the message names the input (R64, R493). -/
theorem admitOverrun_spec (k : Nat) (hin : s.unitInReset 0 = false) :
    (s.admitOverrun k).rbit Reg.FLT_PEND_A 0 = true ∧
      (∀ n : Lane, ((s.admitOverrun k).rejLane n).forceOverrun = ((s.rejLane n).forceOverrun || (s.fitted n && s.usesInput n k))) ∧
      (∀ n : Lane, s.fitted n = true → s.usesInput n k = true →
        (s.admitOverrun k).rejecting n = true ∧ (s.admitOverrun k).rbit (Reg.REJ_EVT n) 3 = true) ∧
      (s.admitOverrun k).plc = s.plc ∧ (s.admitOverrun k).tmr = s.tmr ∧ (s.admitOverrun k).rej.inhibit = s.rej.inhibit ∧
      Only (.rej :: messageParts) s (s.admitOverrun k) := by
  rw [admitOverrun_eq]
  generalize hv : s.forceWhere (s.usedBy k) allLanes = v
  have forced : Only [.regs, .guards, .rej] s v := hv ▸ forceWhere_only _ _
  have told : Only messageParts v (v.raise Kind.admitOverrun (word k)) := raiseN_only 12 v _ _ none
  have rej : (v.raise Kind.admitOverrun (word k)).rej = v.rej := told.part .rej (by decide)
  have overrun (n : Lane) : (v.rejLane n).forceOverrun = ((s.rejLane n).forceOverrun || s.usedBy k n) := by
    rw [← hv, forceWhere_overrun]
    simp [mem_allLanes]
  have all : Only (.rej :: messageParts) s (v.raise Kind.admitOverrun (word k)) := (forced.mono (by decide)).trans (told.mono (by decide))
  refine ⟨raise_pends _ _ (by decide) ((unitInReset_of_only forced (by decide) 0).trans hin), fun n => ?_, fun n hf hu => ⟨?_, ?_⟩,
    all.part .plc (by decide), all.part .tmr (by decide), ?_, all⟩
  · rw [rejLane, rej]
    exact overrun n
  · have on : (v.rejLane n).forceOverrun = true := by rw [overrun]; simp [usedBy, hf, hu]
    have now : ((v.raise Kind.admitOverrun (word k)).rejLane n).forceOverrun = true := by rw [rejLane, rej]; exact on
    simp [rejecting, State.forced, now]
  · have event : ∀ n : Lane, Reg.REJ_EVT n / 0x1000 ∉ [4] := by decide
    have kept : (v.raise Kind.admitOverrun (word k)).rbit (Reg.REJ_EVT n) 3 = v.rbit (Reg.REJ_EVT n) 3 :=
      rbit_of_regsIn (raiseN_in 12 v Kind.admitOverrun (word k) none (by decide)) _ _ (event n)
    rw [kept, ← hv, forceWhere_event]
    simp [mem_allLanes, usedBy, hf, hu]
  · rw [rej, ← hv]
    exact forceWhere_inhibit _ _

/-- A pin event that finds its queue full is an overrun of its input (R64). -/
theorem pinEvent_full (h : s.ticking = true) (k : Nat) (f : State → State) : s.pinEvent k true f = s.admitOverrun k := by
  simp [pinEvent, h]

end State

/-- Settles O45: each of the pin events, its queue full, is the overrun of its input. -/
theorem fullInputForcesRejects : Obligations.FullInputForcesRejects := by
  intro s i k ticks watches event
  refine ⟨s.admitOverrun k, ?_, State.admitOverrun_spec k watches⟩
  rcases event with ⟨p, level, rfl, rfl, plain⟩ | ⟨e, level, rfl, rfl⟩ | ⟨e, level, rfl, rfl⟩ | ⟨p, level, rfl, rfl⟩ | ⟨level, rfl, rfl⟩
  case inl =>
    have queued : exec (.auxInEdge p level true) s = s.finish (s.pinEvent (12 + p.val) true fun s => s.auxChange p level) := by
      rw [exec, execAuxInEdge, plain, if_neg Bool.false_ne_true]
    rw [queued, State.pinEvent_full ticks]
    rfl
  all_goals exact congrArg s.finish (State.pinEvent_full ticks _ _)

end Sys2Proof.Machine
end

/-! ## Isolation and block resets -/

section
namespace Sys2Proof.Machine

/-- A part that an update keeps need not be allowed to change. -/
theorem Only.without {l : List Part} {p : Part} {s t : State} (h : Only (p :: l) s t) (kept : p.same s t) : Only l s t := by
  intro q hq
  by_cases e : q = p
  · rw [e]
    exact kept
  · exact h q (by simp [e, hq])

namespace State

variable {s t u : State}

/-! ### Isolation bits -/

/-- The isolation bit of a port is set alone (R61, R67). -/
theorem setIso_isolated (s : State) (p : Nat) (v : Bool) {q : Nat} (hq : q < 64) :
    (s.setIso p v).isolated q = if p = q then v else s.isolated q := by
  have own : (b2n v).testBit 0 = v := by cases v <;> rfl
  have apart : Reg.DEV_LAD_ISO_LO ≠ Reg.DEV_LAD_ISO_HI := by decide
  unfold setIso isolated
  by_cases hp : p < 32 <;> by_cases hq' : q < 32 <;> simp only [hp, hq', if_true, if_false]
  · rw [setFld_rbit _ _ _ _ _ hq']
    by_cases e : p = q
    · subst e; simp [own]
    · rw [if_neg (by omega), if_neg e]
  · rw [rbit, setFld_reg_other _ _ _ _ _ _ apart, if_neg (by omega), rbit]
  · rw [rbit, setFld_reg_other _ _ _ _ _ _ apart.symm, if_neg (by omega), rbit]
  · rw [setFld_rbit _ _ _ _ _ (by omega)]
    by_cases e : p = q
    · subst e; simp [own]
    · rw [if_neg (by omega), if_neg e]

theorem setIso_only (p : Nat) (v : Bool) : Only [.regs] u (u.setIso p v) := only_ite (setFld_only _ _ _ _) (setFld_only _ _ _ _)

/-- Isolation is a matter of the registers of block DEV that hold its bits. -/
theorem isolated_congr (h : RegsBut [Reg.DEV_LAD_STAT, Reg.DEV_LAD_WEDGES] s t) (q : Nat) : t.isolated q = s.isolated q := by
  have lo : t.reg Reg.DEV_LAD_ISO_LO = s.reg Reg.DEV_LAD_ISO_LO := h _ (by decide)
  have hi : t.reg Reg.DEV_LAD_ISO_HI = s.reg Reg.DEV_LAD_ISO_HI := h _ (by decide)
  unfold isolated rbit
  rw [lo, hi]

theorem isolated_of_regsIn {l : List Nat} (h : RegsIn l s t) (hl : 0 ∉ l) (q : Nat) : t.isolated q = s.isolated q := by
  have lo : t.reg Reg.DEV_LAD_ISO_LO = s.reg Reg.DEV_LAD_ISO_LO := h _ hl
  have hi : t.reg Reg.DEV_LAD_ISO_HI = s.reg Reg.DEV_LAD_ISO_HI := h _ hl
  unfold isolated rbit
  rw [lo, hi]

/-! ### A wedged port -/

/-- What a wedge of a port other than 0 records before its message (R61, R67). -/
def wedgeNoted (s : State) (p : Nat) : State :=
  (((s.setIso p true).bump Reg.DEV_LAD_WEDGES).setFld Reg.DEV_LAD_STAT 13 8 p).setFlag Reg.DEV_LAD_STAT 0

theorem wedge_eq {p : Nat} (hp : p ≠ 0) : s.wedge p = (s.wedgeNoted p).raise Kind.wedge (word p) := by
  rw [wedge, if_neg hp]
  rfl

theorem wedgeNoted_isolated (s : State) (p : Nat) {q : Nat} (hq : q < 64) :
    (s.wedgeNoted p).isolated q = if p = q then true else s.isolated q := by
  have noted : RegsBut [Reg.DEV_LAD_STAT, Reg.DEV_LAD_WEDGES] (s.setIso p true) (s.wedgeNoted p) := by
    intro a ha
    simp only [List.mem_cons, List.not_mem_nil, or_false, not_or] at ha
    obtain ⟨stat, wedges⟩ := ha
    rw [wedgeNoted, setFlag_reg_other _ _ _ _ (Ne.symm stat), setFld_reg_other _ _ _ _ _ _ (Ne.symm stat),
      bump_reg_other _ _ _ (Ne.symm wedges)]
  rw [isolated_congr noted, setIso_isolated _ _ _ hq]

theorem wedgeNoted_only (p : Nat) : Only [.regs, .guards] s (s.wedgeNoted p) := by
  unfold wedgeNoted
  simp (disch := decide) only [only_setFlag, only_setFld, only_bump]
  exact (setIso_only p true).mono (by decide)

/-- A wedge of a port other than 0 (R60, R61). -/
theorem wedge_spec (p : Src) (hp : p.val ≠ 0) (hin : s.unitInReset 1 = false) :
    (s.wedge p).isolated p.val = true ∧ (s.wedge p).fld Reg.DEV_LAD_STAT 13 8 = p.val ∧ (s.wedge p).rbit Reg.DEV_LAD_STAT 0 = true ∧
      (s.wedge p).rbit Reg.FLT_PEND_A 1 = true ∧ (∀ q : Src, q ≠ p → (s.wedge p).isolated q.val = s.isolated q.val) ∧
      Only messageParts s (s.wedge p) := by
  have small (q : Src) : q.val < 64 := by omega
  rw [wedge_eq hp]
  have told : RegsIn [4] (s.wedgeNoted p) ((s.wedgeNoted p).raise Kind.wedge (word p)) := raiseN_in 12 _ _ _ none (by decide)
  have noted : Only [.regs, .guards] s (s.wedgeNoted p) := wedgeNoted_only p
  refine ⟨?_, ?_, ?_, ?_, fun q hq => ?_, ?_⟩
  · rw [isolated_of_regsIn told (by decide), wedgeNoted_isolated _ _ (small p), if_pos rfl]
  · rw [fld_of_regsIn told _ _ _ (by decide), wedgeNoted, setFlag_fld _ _ (by decide) (by decide)]
    exact setFld_fld_same _ _ (by decide) (small p)
  · rw [rbit_of_regsIn told _ _ (by decide)]
    exact setFlag_rbit_same _ _ (by decide)
  · exact raise_pends Kind.wedge _ (by decide) ((unitInReset_of_only noted (by decide) 1).trans hin)
  · rw [isolated_of_regsIn told (by decide), wedgeNoted_isolated _ _ (small q), if_neg fun e => hq (Fin.ext e.symm)]
  · exact (noted.mono (by decide)).trans (raiseN_only 12 _ _ _ none)

/-! ### The start of a chip reset -/

/-- The Pantry in a power state, with `PD_ISO_EN` at its level (R140). -/
def powerMoved (s : State) (p : PowerState) : State :=
  let t := s.modPwr fun q => { q with state := p }
  if isoEn p = isoEn s.pwr.state then t else t.emit (.pin "PD_ISO_EN" (some (isoEn p)))

theorem goPwr_eq (s : State) (p : PowerState) : s.goPwr p =
    if s.coreOn then (s.powerMoved p).commit.stateItem 1 none s.pwr.state.code p.code else s.powerMoved p := by
  unfold goPwr powerMoved
  dsimp only
  split <;> rfl

theorem powerMoved_only (p : PowerState) : Only [.pwr, .out] u (u.powerMoved p) := by
  have state : Only [.pwr] u (u.modPwr fun q => { q with state := p }) :=
    .without (p := .energy) ((modPwr_only _).mono (by decide)) ⟨rfl, rfl, rfl⟩
  exact only_ite (state.mono (by decide)) ((state.mono (by decide)).trans ((emit_only _).mono (by decide)))

theorem powerMoved_pwr (s : State) (p : PowerState) : (s.powerMoved p).pwr = { s.pwr with state := p } := by
  unfold powerMoved
  dsimp only
  split <;> rfl

/-- A power state is entered with its message while the core runs (R140, R207). -/
theorem goPwr_only (u : State) (p : PowerState) : Only (.pwr :: messageParts) u (u.goPwr p) := by
  have moved : Only (.pwr :: messageParts) u (u.powerMoved p) := (powerMoved_only p).mono (by decide)
  rw [goPwr_eq]
  exact only_ite ((only_stateItem _ _ _ _ (by decide)).2 ((only_commit (by decide)).2 moved)) moved

theorem pins_only (l : List String) (v : Option Bool) : Only [.out] u (u.pins l v) := Only.foldl (fun _ _ => emit_only _) _ _

theorem copyPrior_only : Only [.regs] u u.copyPrior := Only.foldl (fun _ _ => setReg_only _ _) _ _

theorem celScramble_loft (a k : Nat) (u : State) : (u.celScramble a k).mem.loft = u.mem.loft := by
  induction k generalizing u with
  | zero => rfl
  | succ k ih => exact ih _

/-- An operation that is cut off leaves the Loft (R165). -/
theorem celCut_loft (u : State) : u.celCut.mem.loft = u.mem.loft := by
  unfold celCut
  split
  · rfl
  · exact celScramble_loft _ _ u

/-- A warm reset keeps the Loft, and records its cause (R160, R164). -/
theorem startReset_spec (h : s.coreOn = true) (cause source : Nat) :
    (s.startReset cause source).boot.phase = .reset cause source ∧ (s.startReset cause source).mem.loft = s.mem.loft := by
  generalize hv : (s.beginReset.modBoot fun b => bootReset b (.reset cause source)) = v
  have phase : v.boot.phase = .reset cause source := by rw [← hv]; rfl
  have prior : { s.copyPrior.mem with larder := [], staged := [], heldOps := [] } = { s.mem with larder := [], staged := [], heldOps := [] } :=
    copyPrior_only.part .flash (by decide)
  have loft : v.mem.loft = s.mem.loft := by
    rw [← hv]
    exact (celCut_loft s.copyPrior).trans (congrArg Mem.loft prior :)
  have tail : Only (.pwr :: messageParts) v (s.startReset cause source) := by
    have awake : Only (.pwr :: messageParts) v (if v.pwr.state = .sleep then v.goPwr .run else v) :=
      only_ite (goPwr_only v .run) (Only.refl _ v)
    rw [startReset, if_pos h, hv]
    exact awake.trans (((pins_only lowPins _).trans (pins_only openPins _)).mono (by decide))
  have boot : (s.startReset cause source).boot = v.boot := tail.part .boot (by decide)
  have flash : { (s.startReset cause source).mem with larder := [], staged := [], heldOps := [] } =
    { v.mem with larder := [], staged := [], heldOps := [] } := tail.part .flash (by decide)
  exact ⟨by rw [boot, phase], (congrArg Mem.loft flash :).trans loft⟩

end State
end Sys2Proof.Machine
end

/-! ## The end of a block reset -/

section
namespace Sys2Proof.Machine
namespace State

variable {s t u : State}

/-! ### What the end of a block reset may change -/

/-- The parts that the end of a block reset may change. -/
def doneParts : List Part := [.energy, .larder, .owed, .ses, .plc, .hed, .hlt, .rej, .hat] ++ messageParts

/-- From `s` to `t` only those parts change, and no unit enters or leaves its block reset. -/
def Mends (s t : State) : Prop := Only doneParts s t ∧ t.flt.inReset = s.flt.inReset ∧ t.flt.held = s.flt.held

theorem Mends.trans (h : Mends s t) (k : Mends t u) : Mends s u :=
  ⟨h.1.trans k.1, k.2.1.trans h.2.1, k.2.2.trans h.2.2⟩

/-- An operation whose frame leaves the collector out. -/
theorem Mends.of_only {m : List Part} (h : Only m s t) (hm : ∀ p ∈ m, p ∈ doneParts) (hf : .flt ∉ m) : Mends s t := by
  have e : { t.flt with due := [] } = { s.flt with due := [] } := h.part .flt hf
  exact ⟨h.mono hm, (congrArg Collector.inReset e :), (congrArg Collector.held e :)⟩

theorem Mends.refl (s : State) : Mends s s := .of_only (Only.refl [] s) (by decide) (by decide)

theorem Mends.ite {c : Prop} [Decidable c] (ht : Mends s t) (hu : Mends s u) : Mends s (if c then t else u) := by
  split
  · exact ht
  · exact hu

/-- A message puts no unit into block reset: the resets it selects wait (R111). -/
theorem reportSteps_mends : ReportSteps Mends where
  refl := .refl
  trans := .trans
  commit s := .of_only commit_only (by decide) (by decide)
  bin s m := by
    refine ⟨(recordBin_only m).mono (by decide), ?_⟩
    unfold recordBin
    dsimp only
    split <;> split <;> exact ⟨rfl, rfl⟩
  source s k _ := by
    refine ⟨(recordSource_only k).mono (by decide), ?_⟩
    unfold recordSource
    dsimp only
    split
    · exact ⟨rfl, rfl⟩
    · split <;> exact ⟨rfl, rfl⟩
  items w e l s := .of_only (queueItems_only w e l s) (by decide) (by decide)
  trap s := by
    refine ⟨trapPulse_only.mono (by decide), ?_⟩
    unfold trapPulse
    dsimp only
    split <;> simp [modFlt, emit]
  pin s := ⟨errPin_only.mono (by decide), rfl, rfl⟩
  resets s m b := .of_only (selectResets_only m b) (by decide) (by decide)

/-! ### Reads that fail -/

theorem voidWord_only (i : Nat) : Only [.larder] u (u.modMem fun m => m.setWord64 i none) := by
  intro p hp
  cases p with
  | larder => exact absurd (by decide) hp
  | energy => exact ⟨rfl, rfl, rfl⟩
  | owed => exact ⟨rfl, rfl⟩
  | _ => rfl

/-- What a failed read notes before its message: the word that becomes void, a count, an address and a flag (R77, R79). -/
def readNoted (s : State) : Read → State
  | .uncorr a =>
    (((s.modMem fun m => m.setWord64 (larderIdx a) none).bump Reg.MEM_LRD_UE_COUNT).setReg Reg.MEM_LRD_UE_ADDR (word a)).setFlag
      Reg.MEM_LRD_STAT 1
  | .void a => (s.setReg Reg.MEM_LRD_VOID_ADDR (word a)).setFlag Reg.MEM_LRD_STAT 2
  | _ => s

theorem readNoted_only (r : Read) : Only [.regs, .guards, .larder] u (u.readNoted r) := by
  cases r with
  | uncorr a =>
    simp (disch := decide) only [readNoted, only_setFlag, only_setReg, only_bump]
    exact (voidWord_only _).mono (by decide)
  | void a => simp (disch := decide) [readNoted]
  | _ => exact Only.refl _ _

theorem readNoted_in (r : Read) : RegsIn [15] u (u.readNoted r) := by
  cases r with
  | uncorr a => simp (disch := decide) [readNoted]
  | void a => simp (disch := decide) [readNoted]
  | _ => exact RegsIn.refl _ _

/-- A failed read notes itself and may send a message. -/
theorem noteRead_rel {R : State → State → Prop} (h : ReportSteps R) (noted : ∀ s r, R s (s.readNoted r)) (s : State) (r : Read) :
    R s (s.noteRead r) := by
  cases r with
  | uncorr a => exact h.trans (noted s (.uncorr a)) (h.raise _ _ _ (by decide))
  | void a => exact h.trans (noted s (.void a)) (h.raise _ _ _ (by decide))
  | bus a => exact h.raise _ _ _ (by decide)
  | ok v => exact h.refl s
  | error a => exact h.refl s

/-! ### The units' own ends -/

theorem celInit_mends (s : State) : Mends s s.celInit := by
  have flash (v : State) (c : Prop) [Decidable c] (b : List Byte) : Only [.out] v (if c then v.emit (.flash b) else v) :=
    only_ite (emit_only _) (Only.refl _ _)
  have sent : Only [.out] s s.celInit := by
    unfold celInit
    dsimp only
    exact only_ite ((flash s _ _).trans (emit_only _)) (Only.refl _ _)
  exact .of_only sent (by decide) (by decide)

/-- A lane in a state, with its flag (R503). -/
def laneMoved (s : State) (n : Lane) (st : LaneState) : State :=
  let t := (s.setLaneState n st).modHat fun h => { h with closeEnd := h.closeEnd.set n none }
  match st with
  | .inService => t.setFlag (Reg.HAT_LANE_EVT n) 1
  | .open_ => t.setFlag (Reg.HAT_LANE_EVT n) 2
  | _ => t

theorem toLane_eq (s : State) (n : Lane) (st : LaneState) :
    s.toLane n st = (s.laneMoved n st).commit.stateItem 2 (some n) (s.laneState n).code st.code := by
  cases st <;> rfl

theorem laneMoved_only (n : Lane) (st : LaneState) : Only [.regs, .guards, .hat] u (u.laneMoved n st) := by
  cases st <;> simp (disch := decide) [laneMoved]

theorem toLane_mends (s : State) (n : Lane) (st : LaneState) : Mends s (s.toLane n st) := by
  rw [toLane_eq]
  have moved : Only [.order, .regs, .guards, .hat] s (s.laneMoved n st).commit :=
    ((laneMoved_only n st).mono (by decide)).trans (commit_only.mono (by decide))
  exact .trans (.of_only moved (by decide) (by decide)) (reportSteps_mends.stateItem _ _ _ _ _)

theorem enterOpen_mends (s : State) (n : Lane) : Mends s (s.enterOpen n) :=
  .trans (toLane_mends s n _) (.of_only (discardDeferred_only n) (by decide) (by decide))

/-- A DRAINING lane that is tracked enters OPEN or stays. -/
theorem trackLane_draining (h : s.laneState n = .draining) : Mends s (s.trackLane n) := by
  rw [trackLane, h]
  exact .ite (enterOpen_mends s n) (.refl s)

/-- A trim frame leaves, after what a failed read of the trim table notes (R456). -/
theorem sendTrim_rel {R : State → State → Prop} (hR : ReportSteps R) (noted : ∀ s r, R s (s.readNoted r)) {h : Head}
    (flagged : ∀ s, R s (s.setFlag (Reg.HED_EVT h) 7)) (framed : ∀ s f k c, R s (s.sendFrame h f k c)) (s : State) (env : MemEnv) :
    R s (s.sendTrim h env) := by
  unfold sendTrim
  split
  · exact framed _ _ _ _
  · exact hR.trans (hR.trans (hR.trans (noteRead_rel hR noted s _) (flagged _)) (framed _ _ _ _)) (hR.commit _)

theorem sendTrim_mends (s : State) (h : Head) (env : MemEnv) : Mends s (s.sendTrim h env) :=
  sendTrim_rel reportSteps_mends (fun _ r => .of_only (readNoted_only r) (by decide) (by decide))
    (fun _ => .of_only (setFlag_only _ _) (by decide) (by decide)) (fun _ f k c => .of_only (sendFrame_only h f k c) (by decide) (by decide))
    s env

theorem resetHeadDone_mends (s : State) (h : Head) (env : MemEnv) : Mends s (s.resetHeadDone h env) := by
  unfold resetHeadDone
  split
  · exact sendTrim_mends s h env
  · exact .trans (sendTrim_mends s h env) (.of_only (hedToReady_only h) (by decide) (by decide))
  · exact .refl s

theorem refuse_mends (s : State) : Mends s (s.refuse none) := by
  have flag (v : State) : Only [.energy] v (v.modPwr fun p => { p with refused := true }) :=
    .without (p := .pwr) (modPwr_only _) rfl
  have flagged (v : State) : Only [.energy, .regs, .guards] v ((v.modPwr fun p => { p with refused := true }).setFlag Reg.PWR_EVT 2) :=
    ((flag v).mono (by decide)).trans ((setFlag_only _ _).mono (by decide))
  unfold refuse
  refine .trans (.of_only (bump_only Reg.PWR_REFUSE_OTHER) (by decide) (by decide)) (.ite ?_ (.refl _))
  exact .trans (.of_only (flagged _) (by decide) (by decide)) (reportSteps_mends.raise _ _ _ (by decide))

theorem requestWarm_mends (s : State) (h : Head) : Mends s (s.requestWarm h) := by
  have warms : Only [.energy, .hlt, .order] s (((((s.grant (.warm h) (s.reg (Reg.HLT_EWARM h)).toNat).heatGo h .warming 0).modHealth h
      fun x => { x with acc := 0, warmAt := s.tick })).startFreeze h) := by
    unfold startFreeze
    simp (disch := decide) [Only.step (heatGo_only _ _ _), Only.step (grant_only _ _)]
  exact .ite (.of_only warms (by decide) (by decide)) (refuse_mends s)

theorem heatWait_mends (s : State) (h : Head) : Mends s (s.heatWait h) := by
  have waits : Only [.energy, .hlt, .order] s ((s.heatGo h .energyWait 0).modHealth h fun x => { x with good := [] }) :=
    (only_modHealth _ _ (by decide)).2 (heatGo_only _ _ _)
  exact .trans (.of_only waits (by decide) (by decide)) (requestWarm_mends _ h)

theorem resetHealthDone_mends (s : State) (h : Head) : Mends s (s.resetHealthDone h) := by
  unfold resetHealthDone heatStart
  exact .ite (.ite (heatWait_mends s h) (.of_only (heatGo_only _ _ _) (by decide) (by decide))) (.refl s)

theorem startLive_mends (s : State) : Mends s s.startLive := by
  have live : Only [.rej, .out] s s.startLive := by
    unfold startLive
    simp (disch := decide)
  exact .of_only live (by decide) (by decide)

/-- What the end of its block reset does to a unit (R113). -/
theorem unitDone_mends (s : State) (k : Nat) (env : MemEnv) : Mends s (s.unitDone k env) := by
  unfold unitDone
  refine .ite (.trans (.of_only (emit_only _) (by decide) (by decide)) (celInit_mends _)) (.ite ?_ (.ite (resetHeadDone_mends s _ env)
    (.ite (resetHealthDone_mends s _) (.ite (startLive_mends s) (.refl s)))))
  dsimp only
  have due : Only [.rej] s (s.modRejLane (unit4 k 14) fun x => { x with spanDue := x.spanDue || s.fitted (unit4 k 14) }) := modRejLane_only _ _
  refine .trans (.of_only due (by decide) (by decide)) ?_
  split
  · exact trackLane_draining ‹_›
  · exact .refl _

/-! ### Leases -/

theorem restoreLease_mends (s : State) (r : Nat) : Mends s (s.restoreLease r) := by
  have lease (e : Lease) : Mends s (s.setLease r e) := .of_only (modHat_only _) (by decide) (by decide)
  have denied (e : Lease) : Mends s (((s.setLease r e).setFlag Reg.HAT_EVT 0).raise Kind.leaseDenied (word r)) :=
    .trans (.trans (lease e) (.of_only (setFlag_only _ _) (by decide) (by decide))) (reportSteps_mends.raise _ _ _ (by decide))
  exact .ite (.trans (lease _) (.of_only commit_only (by decide) (by decide))) (denied _)

theorem restoreAll_mends (s : State) (k : Nat) : Mends s (s.restoreAll k) :=
  reportSteps_mends.foldl (fun v r => .ite (restoreLease_mends v r) (.refl v)) _ _

/-- Restorations change registers of the collector and of HAT alone. -/
theorem restoreAll_in (k : Nat) : RegsIn [4, 14] u (u.restoreAll k) := by
  refine RegsIn.foldl (fun v r => ?_) _ _
  unfold restoreLease setLease
  dsimp only
  repeat' split
  · simp
  · simp (disch := decide) [Kind.leaseDenied]
  · exact RegsIn.refl _ _

/-! ### The end -/

/-- The end of the block reset of a unit that is not held (R61, R113, R516). -/
theorem finishBlock_spec (p : Src) (env : MemEnv) (hh : s.flt.held.contains p.val = false) :
    (s.finishBlock p env).unitInReset p = false ∧ (s.finishBlock p env).isolated p = false ∧ Only doneParts s (s.finishBlock p env) := by
  generalize hv : (s.modFlt fun f => { f with inReset := f.inReset.filter fun k => !decide (k = p.val) }) = v
  have ended : Only [.flt] s v := by
    rw [← hv]
    exact .without (p := .due) ((modFlt_only _).mono (by decide)) rfl
  have gone : v.flt.inReset.contains p.val = false := by rw [← hv]; simp [modFlt]
  have held : v.flt.held = s.flt.held := by rw [← hv]; rfl
  have eq : s.finishBlock p env = ((v.unitDone p env).setIso p false).restoreAll p := by rw [← hv]; rfl
  have unit : Mends v ((v.unitDone p env).setIso p false) :=
    .trans (unitDone_mends v p env) (.of_only (setIso_only _ _) (by decide) (by decide))
  obtain ⟨only, inReset, stillHeld⟩ := unit.trans (restoreAll_mends _ p)
  rw [eq]
  refine ⟨?_, ?_, (ended.mono (by decide)).trans only⟩
  · rw [unitInReset, inReset, stillHeld, held, gone, hh]
    rfl
  · rw [isolated_of_regsIn (restoreAll_in _) (by decide), setIso_isolated _ _ _ (by omega), if_pos rfl]

end State

/-- Settles O19: a wedge isolates its port or resets the chip, and the end of a block reset gives the port back. -/
theorem watchdogAndBlockReset : Obligations.WatchdogAndBlockReset := by
  intro s on
  refine ⟨fun p free port watches => ?_, fun free => ?_, fun p env resets released => ?_⟩
  · have run : exec (.ladderWatchdogExpiry p) s = s.finish (s.wedge p) := by
      rw [exec, execLadderWatchdogExpiry, on, free]; rfl
    exact ⟨_, run, State.wedge_spec p port watches⟩
  · have run : exec (.ladderWatchdogExpiry 0) s = s.finish (s.wedge 0) := by
      rw [exec, execLadderWatchdogExpiry, on]
      simp [free]
    exact ⟨_, run, State.startReset_spec on 7 1⟩
  · have run : exec (.blockResetComplete p env) s = s.finish (s.finishBlock p env) := by
      rw [exec, execBlockResetComplete, on, if_pos rfl, State.completeBlock, resets, released]; rfl
    exact ⟨_, run, State.finishBlock_spec p env released⟩

end Sys2Proof.Machine
end

/-! ## Power requests and wakes -/

section
namespace Sys2Proof.Machine
namespace State

variable {s t u : State}

/-! ### Head ports that park and wake -/

theorem hedPark_only (h : Head) (hold : Bool) : Only [.order, .regs, .guards, .hed, .out] u (u.hedPark h hold) :=
  only_ite (hedGo_only _ _ _ _ _) (Only.refl _ _)

/-- The transition of a head port changes registers of block HED alone. -/
theorem hedGo_in (h : Head) (st : HedState) (a b c : Bool) : RegsIn [11] u (u.hedGo h st a b c) := by
  have block : Reg.HED_EVT h / 0x1000 ∈ [11] := by revert h; decide
  have pin (v : State) (p : Prop) [Decidable p] (n : String) (x : Bool) : RegsIn [] v (if p then v else v.hedPin h n x) :=
    (only_ite (Only.refl _ _) (hedPin_only h n x)).regsIn (by decide)
  have flag (v : State) (p : Prop) [Decidable p] : RegsIn [11] v (if p then v.setFlag (Reg.HED_EVT h) 6 else v) := by
    split
    · simp [block]
    · exact RegsIn.refl _ _
  unfold hedGo
  simp (disch := simp) only [regsIn_commit, RegsIn.step (flag _ _), RegsIn.step (pin _ _ _ _), regsIn_setHead, regsIn_self]

/-- The parts that a head port's way to POWER may change. -/
def powerParts : List Part := [.hed, .larder] ++ messageParts

/-- Its registers: those of a message, of the port, and of the failed reads of the Larder. -/
def powerBlocks : List Nat := [4, 11, 15]

theorem sendTrim_only (h : Head) (env : MemEnv) : Only powerParts u (u.sendTrim h env) :=
  sendTrim_rel (.only (by decide)) (fun _ r => (readNoted_only r).mono (by decide)) (fun _ => (setFlag_only _ _).mono (by decide))
    (fun _ f k c => (sendFrame_only h f k c).mono (by decide)) u env

theorem sendTrim_in (h : Head) (env : MemEnv) : RegsIn powerBlocks u (u.sendTrim h env) := by
  have block : Reg.HED_EVT h / 0x1000 ∈ powerBlocks := by revert h; decide
  exact sendTrim_rel (.regsIn (by decide)) (fun _ r => (readNoted_in r).mono (by decide)) (fun _ => by simp [block])
    (fun _ f k c => ((sendFrame_only h f k c).regsIn (by decide)).mono (by simp)) u env

theorem logicEnd_only (h : Head) (env : MemEnv) : Only powerParts u (u.logicEnd h env) := by
  unfold logicEnd startCk
  simp (disch := decide) [Only.step (hedTimer_only _ _), Only.step (hedPin_only _ _ _), Only.step (sendTrim_only _ _)]

theorem logicEnd_in (h : Head) (env : MemEnv) : RegsIn powerBlocks u (u.logicEnd h env) := by
  unfold logicEnd startCk
  simp (disch := simp) only [regsIn_commit, regsIn_of_only (hedTimer_only _ _), regsIn_modHead, regsIn_of_only (hedPin_only _ _ _),
    RegsIn.step (sendTrim_in _ _), regsIn_self]

theorem hedPower_only (h : Head) (env : MemEnv) : Only powerParts u (u.hedPower h env) := by
  have entered : Only powerParts u ((u.hedGo h .power true false false).modHead h fun x => { x with logicOn := false }) :=
    (only_modHead _ _ (by decide)).2 ((hedGo_only _ _ _ _ _).mono (by decide))
  unfold hedPower
  exact only_ite (entered.trans (logicEnd_only h env)) (entered.trans ((hedTimer_only _ _).mono (by decide)))

theorem hedPower_in (h : Head) (env : MemEnv) : RegsIn powerBlocks u (u.hedPower h env) := by
  have entered : RegsIn powerBlocks u ((u.hedGo h .power true false false).modHead h fun x => { x with logicOn := false }) :=
    regsIn_modHead _ _ |>.2 ((hedGo_in h _ _ _ _).mono (by decide))
  unfold hedPower
  dsimp only
  split
  · exact entered.trans (logicEnd_in h env)
  · exact (regsIn_of_only (hedTimer_only _ _) (by decide)).2 entered

theorem unparkHeads_only : Only powerParts u u.unparkHeads :=
  Only.foldl (fun _ h => only_ite (hedPower_only h _) (Only.refl _ _)) _ _

theorem unparkHeads_in : RegsIn powerBlocks u u.unparkHeads :=
  RegsIn.foldl (fun v h => by
    unfold hedUnpark
    split
    · exact hedPower_in h _
    · exact RegsIn.refl _ _) _ _

/-! ### SLEEP -/

theorem goPwr_state (s : State) (p : PowerState) : (s.goPwr p).pwr.state = p := by
  have moved : (s.powerMoved p).pwr.state = p := by rw [powerMoved_pwr]
  rw [goPwr_eq]
  split
  · exact (pwrState_of_only (stateItem_only 1 none _ _) (by decide)).trans moved
  · exact moved

theorem sleepAxis_only (x : Axis) : Only [.order, .energy, .mot] u (u.sleepAxis x) := only_ite (stopAxis_only _ _ _) (Only.refl _ _)

/-- Entry to SLEEP after the state has changed, up to the count of SLOW32K ticks: axes stop, TOUT pins go low, heads park. -/
def sleepUnits (s : State) : State :=
  let s := allAxes.foldl (fun (s : State) (x : Axis) => s.sleepAxis x) s
  let s := s.modTmr fun t => { t with toutSaved := BitVec.ofNat 4 (s.fld Reg.TMR_TOUT 3 0) }
  let s := ([0, 1, 2, 3] : List Nat).foldl (fun s p => s.toutLevel p false) s
  allLanes.foldl (fun (s : State) (h : Head) => s.hedPark h false) s

theorem enterSleep_eq (s : State) : s.enterSleep = (s.goPwr .sleep).sleepUnits.modPwr fun p => { p with slowTicks := 0 } := rfl

theorem sleepUnits_only : Only [.order, .regs, .guards, .energy, .tmr, .mot, .hed, .out] u u.sleepUnits := by
  unfold sleepUnits
  dsimp only
  refine .trans ?_ ((Only.foldl (fun _ h => hedPark_only h false) _ _).mono (by decide))
  refine .trans ?_ ((Only.foldl (fun _ p => toutLevel_only p false) _ _).mono (by decide))
  exact .trans ((Only.foldl (fun _ x => sleepAxis_only x) _ _).mono (by decide)) ((modTmr_only _).mono (by decide))

theorem slowTicks_only (n : Nat) : Only [.pwr] u (u.modPwr fun p => { p with slowTicks := n }) :=
  .without (p := .energy) ((modPwr_only _).mono (by decide)) ⟨rfl, rfl, rfl⟩

/-- The entry to SLEEP (R150): the Pantry is in SLEEP, TB100 stands (R41), and the count of SLOW32K ticks starts. -/
theorem enterSleep_spec (s : State) :
    s.enterSleep.pwr.state = .sleep ∧ s.enterSleep.ticking = false ∧ s.enterSleep.pwr.slowTicks = 0 ∧
      Only ([.pwr, .energy, .tmr, .mot, .hed] ++ messageParts) s s.enterSleep := by
  have units : Only [.order, .regs, .guards, .energy, .tmr, .mot, .hed, .out] (s.goPwr .sleep) (s.goPwr .sleep).sleepUnits := sleepUnits_only
  have entered : (s.goPwr .sleep).sleepUnits.pwr.state = .sleep := (pwrState_of_only units (by decide)).trans (goPwr_state s .sleep)
  rw [enterSleep_eq]
  have asleep : ((s.goPwr .sleep).sleepUnits.modPwr fun p => { p with slowTicks := 0 }).pwr.state = .sleep := by rw [modPwr_pwr, entered]
  refine ⟨asleep, by simp [ticking, entered], by rw [modPwr_pwr], ?_⟩
  exact (((goPwr_only s .sleep).mono (by decide)).trans (units.mono (by decide))).trans ((slowTicks_only 0).mono (by decide))

/-! ### Requests -/

/-- A granted request takes effect after its commit (R142, R194). -/
theorem pwrReq_granted {o : OpCtx} {target : Nat} (ht : target ∈ [3, 4, 6])
    (hgr : s.Granted o OpEnv.quiet Reg.PWR_REQ [word (2 ^ 31 + target)]) (hs : s.pwr.state.code ≠ target) :
    ∃ v : State, s.finish (s.pwrReq o target) = .next (s.written o (v.pwrRequest target)) ∧ Only [.order, .regs] s v := by
  have go : ∀ k ∈ [3, 4, 6], word (2 ^ 31 + k) &&& w1gMask Reg.PWR_REQ = 0 ∧ bit (word (2 ^ 31 + k)) 31 = true ∧
      bits (word (2 ^ 31 + k)) 2 0 = k := by decide
  obtain ⟨flagless, asks, names⟩ := go target ht
  have live : s.moot (Reg.PWR_REQ, word (2 ^ 31 + target)) = false := by
    unfold moot
    dsimp only
    rw [if_neg (by decide), if_pos rfl, asks, names, decide_eq_false hs]
    rfl
  have placed : Only [.order, .regs] s (s.placeWords [(Reg.PWR_REQ, word (2 ^ 31 + target))]).commit :=
    (only_commit (by decide)).2 ((placeWords_only _).mono (by decide))
  refine ⟨_, (finish_own hgr (by decide) (by decide) flagless live).trans ?_, placed⟩
  generalize (s.placeWords [(Reg.PWR_REQ, word (2 ^ 31 + target))]).commit = v
  have effect : effect s OpEnv.quiet v (Reg.PWR_REQ, word (2 ^ 31 + target)) =
      linkEffect s v Reg.PWR_REQ (word (2 ^ 31 + target)) := by
    unfold State.effect
    dsimp only
    rw [if_neg (by decide), show Reg.PWR_REQ / 0x1000 = 3 by decide]
    rfl
  rw [effect, linkEffect, if_neg (by decide), if_neg (by decide), if_neg (by decide), if_neg (by decide), if_pos rfl, asks, names]
  rfl

/-- A request for a power state other than the present one (R142). -/
theorem pwrRequest_eq {target : Nat} (hs : s.pwr.state.code ≠ target) :
    s.pwrRequest target = if target = 3 then s.goPwr .service else if target = 4 then s.goPwr .run else s.enterSleep := by
  unfold pwrRequest
  rw [if_neg hs]
  split
  · rw [if_pos rfl]
  · rw [if_neg (by decide), if_pos rfl]
  · next service run => rw [if_neg service, if_neg run]

/-! ### Wakes -/

/-- What a wake makes up before the Pantry enters RUN: the tick, the lanes' windows and the timers; and its cause (R41, R150). -/
def wakeNoted (s : State) (slow cause : Nat) : State :=
  let add := slow * 390625 / 128
  let crossed := decide ((s.tick + add) / 100000 ≠ s.tick / 100000) || decide (add ≠ 0)
  let s := { s with tick := s.tick + add }
  let s := allLanes.foldl (fun (s : State) (n : Lane) => if crossed then s.modLane n fun l => { l with madeUp := true } else s) s
  let s := allTimers.foldl (fun (s : State) (t : TimerId) => s.makeUp slow t) s
  (s.setReg Reg.PWR_WAKE_CAUSE (word (2 ^ cause))).setFlag Reg.PWR_EVT 4

/-- What follows once the Pantry is in RUN: TOUT pins, LIVE, keepalives, missed timer events and heads (R150, R213, R259). -/
def wakeUnits (s : State) (saved : BitVec 4) : State :=
  let s := ([0, 1, 2, 3] : List Nat).foldl (fun s p => s.toutLevel p (saved.toNat.testBit p)) s
  let s := (s.modRej fun r => { r with liveAt := r.liveAt.map fun _ => s.tick + s.liveHalf }).restartKeepalive
  s.reportMissed.unparkHeads

theorem wake_eq (s : State) (slow cause : Nat) : s.wake slow cause =
    (((s.wakeNoted slow cause).modPwr fun p => { p with slowTicks := slow }).goPwr .run).wakeUnits (s.wakeNoted slow cause).tmr.toutSaved :=
  rfl

theorem makeUp_only (slow : Nat) (n : TimerId) : Only [.regs, .tmr] u (u.makeUp slow n) := by
  unfold makeUp
  dsimp only
  split <;> simp (disch := decide)

theorem wakeNoted_only (slow cause : Nat) :
    Only [.regs, .guards, .plc, .tmr] { s with tick := s.tick + slow * 390625 / 128 } (s.wakeNoted slow cause) := by
  unfold wakeNoted
  simp (disch := decide) only [only_setFlag, only_setReg]
  refine .trans ?_ ((Only.foldl (fun _ n => makeUp_only slow n) _ _).mono (by decide))
  exact (Only.foldl (fun _ n => only_ite (modLane_only n _) (Only.refl _ _)) _ _).mono (by decide)

theorem restartKeepalive_only : Only [.lnk] u u.restartKeepalive :=
  Only.foldl (fun _ i => only_ite (modSess_only i _) (Only.refl _ _)) _ _

theorem reportMissed_only : Only messageParts u u.reportMissed := by
  refine Only.foldl (fun v n => ?_) _ _
  refine only_ite ?_ (Only.refl _ _)
  simp (disch := decide)

theorem reportMissed_in : RegsIn [4, 5] u u.reportMissed := by
  refine RegsIn.foldl (fun v n => ?_) _ _
  split
  · simp [tmStat_block, Kind.tmrMissed]
  · exact RegsIn.refl _ _

theorem wakeUnits_only (saved : BitVec 4) : Only ([.larder, .hed, .rej] ++ messageParts) u (u.wakeUnits saved) := by
  unfold wakeUnits
  dsimp only
  refine .trans (.trans (.trans ?_ (restartKeepalive_only.mono (by decide))) (reportMissed_only.mono (by decide)))
    (unparkHeads_only.mono (by decide))
  exact .trans ((Only.foldl (fun _ p => toutLevel_only p _) _ _).mono (by decide)) ((modRej_only _).mono (by decide))

/-- None of it concerns the registers of block PWR. -/
theorem wakeUnits_in (saved : BitVec 4) : RegsIn (5 :: powerBlocks) u (u.wakeUnits saved) := by
  unfold wakeUnits
  dsimp only
  refine .trans (.trans (.trans ?_ ((restartKeepalive_only.regsIn (by decide)).mono (by simp))) (reportMissed_in.mono (by decide)))
    (unparkHeads_in.mono (by decide))
  exact .trans ((RegsIn.foldl (fun _ p => toutLevel_in p _) _ _).mono (by decide)) fun _ _ => rfl

theorem goPwr_in (p : PowerState) : RegsIn [4] u (u.goPwr p) := by
  have moved : RegsIn [4] u (u.powerMoved p) := ((powerMoved_only p).regsIn (by decide)).mono (by simp)
  rw [goPwr_eq]
  split
  · exact (regsIn_commit.2 moved).trans (stateItem_in _ _ _ _)
  · exact moved

theorem tick_only (n : Nat) : Only [.tick] s { s with tick := n } := by
  intro p hp
  cases p with
  | tick => exact absurd (by decide) hp
  | energy => exact ⟨rfl, rfl, rfl⟩
  | owed => exact ⟨rfl, rfl⟩
  | _ => rfl

/-- A wake (R41, R150). -/
theorem wake_spec (s : State) (slow cause : Nat) :
    (s.wake slow cause).pwr.state = .run ∧ (s.wake slow cause).tick = s.tick + slow * 390625 / 128 ∧
      (s.wake slow cause).reg Reg.PWR_WAKE_CAUSE = word (2 ^ cause) ∧
      Only ([.tick, .pwr, .larder, .tmr, .plc, .hed, .rej] ++ messageParts) s (s.wake slow cause) := by
  rw [wake_eq]
  generalize hv : s.wakeNoted slow cause = v
  generalize hw : (v.modPwr fun p => { p with slowTicks := slow }).goPwr .run = w
  have noted : Only [.regs, .guards, .plc, .tmr] { s with tick := s.tick + slow * 390625 / 128 } v := hv ▸ wakeNoted_only slow cause
  have entered : Only (.pwr :: messageParts) v w := by
    rw [← hw]
    exact ((slowTicks_only slow).mono (by decide)).trans (goPwr_only _ _)
  have units : Only ([.larder, .hed, .rej] ++ messageParts) w (w.wakeUnits v.tmr.toutSaved) := wakeUnits_only _
  have cause_ : v.reg Reg.PWR_WAKE_CAUSE = word (2 ^ cause) := by
    rw [← hv]
    exact (setFlag_reg_other _ _ _ _ (by decide)).trans (setReg_reg_same _ _ _)
  have kept : w.reg Reg.PWR_WAKE_CAUSE = v.reg Reg.PWR_WAKE_CAUSE := by
    rw [← hw]
    exact goPwr_in .run _ (by decide)
  refine ⟨?_, ?_, ?_, ?_⟩
  · rw [pwrState_of_only units (by decide), ← hw, goPwr_state]
  · exact ((units.part .tick (by decide) : _ = w.tick).trans (entered.part .tick (by decide) : _ = v.tick)).trans (noted.part .tick (by decide))
  · rw [wakeUnits_in _ _ (by decide), kept, cause_]
  · exact (((((tick_only _).mono (by decide)).trans (noted.mono (by decide))).trans (entered.mono (by decide))).trans (units.mono (by decide)))

/-- A wake by an enabled source (R150). -/
theorem wakeBy_spec (h : s.pwr.state = .sleep) {slow k : Nat} (hk : s.wakes k = true) (hs : slow < 2 ^ 32) : s.wakeBy slow k = s.wake slow k := by
  rw [wakeBy, if_pos ⟨h, hk⟩, Nat.min_eq_left (by omega)]

end State

/-- Settles O6: a granted request commits and then enters its power state. -/
theorem powerRequestChangesState : Obligations.PowerRequestChangesState := by
  intro s o
  have other {v : State} (h : Only [.order, .regs] s v) {p : PowerState} {target : Nat} (hp : s.pwr.state = p) (ht : p.code ≠ target) :
      v.pwr.state.code ≠ target := by
    rw [State.pwrState_of_only h (by decide), hp]
    exact ht
  refine ⟨fun hgr run => ?_, fun hgr service => ?_, fun hgr run => ?_⟩
  · obtain ⟨v, next, placed⟩ := State.pwrReq_granted (target := 3) (by decide) hgr (by rw [run]; decide)
    rw [State.pwrRequest_eq (other placed run (by decide)), if_pos rfl] at next
    exact ⟨_, next, State.goPwr_state _ _, (placed.mono (by decide)).trans (State.goPwr_only _ _)⟩
  · obtain ⟨v, next, placed⟩ := State.pwrReq_granted (target := 4) (by decide) hgr (by rw [service]; decide)
    rw [State.pwrRequest_eq (other placed service (by decide)), if_neg (by decide), if_pos rfl] at next
    exact ⟨_, next, State.goPwr_state _ _, (placed.mono (by decide)).trans (State.goPwr_only _ _)⟩
  · obtain ⟨v, next, placed⟩ := State.pwrReq_granted (target := 6) (by decide) hgr (by rw [run]; decide)
    rw [State.pwrRequest_eq (other placed run (by decide)), if_neg (by decide), if_neg (by decide)] at next
    obtain ⟨asleep, stands, count, only⟩ := State.enterSleep_spec v
    exact ⟨_, next, asleep, stands, count, (placed.mono (by decide)).trans only⟩

/-- Settles O12: each of the three commands is a wake by a source that is enabled, or needs no enabling. -/
theorem wakeMakesUpTheTick : Obligations.WakeMakesUpTheTick := by
  intro s asleep keeps
  refine ⟨fun slow cause bound enabled => ?_, fun enabled set => ?_, ?_⟩
  · have wakes : s.wakes cause.val = true := by
      have : cause.val < 5 := by omega
      simp [State.wakes, enabled, this]
    have run : exec (.wake slow cause) s = s.finish (s.wake slow cause) := congrArg s.finish (State.wakeBy_spec asleep wakes bound)
    exact ⟨_, run, State.wake_spec s slow cause⟩
  · have timed : (s.reg Reg.PWR_SLEEP_TIMER).toNat ≠ 0 := fun e => set (BitVec.eq_of_toNat_eq e)
    have wakes : s.wakes 4 = true := by simp [State.wakes, enabled]
    have run : exec .sleepTimerExpiry s = s.finish (s.wake (s.reg Reg.PWR_SLEEP_TIMER).toNat 4) := by
      rw [exec, execSleepTimerExpiry, if_neg timed, State.wakeBy_spec asleep wakes (BitVec.isLt _)]
    exact ⟨_, run, State.wake_spec s _ 4⟩
  · have run : exec .makeupLimitWake s = s.finish (s.wake 0xFFFFFFFF 6) := congrArg s.finish (State.wakeBy_spec asleep (by simp [State.wakes]) (by decide))
    exact ⟨_, run, State.wake_spec s _ 6⟩

end Sys2Proof.Machine
end

/-! ## Refused and deferred writes -/

section
namespace Sys2Proof.Machine

/-- A code that no other code precedes is the one answered (R206). -/
theorem firstCode_cons {c : Code} {l : List Code} (h : ∀ d ∈ l, c.rank ≤ d.rank) : firstCode (c :: l) = some c := by
  have member : ∀ (l : List Code) (d : Code), firstCode l = some d → d ∈ l := by
    intro l
    induction l with
    | nil => exact fun _ first => nomatch first
    | cons x l ih =>
      intro d first
      rw [firstCode] at first
      split at first
      · cases first
        exact List.mem_cons_self
      · next e rest =>
        cases first
        split
        · exact List.mem_cons_self
        · exact List.mem_cons_of_mem _ (ih e rest)
  rw [firstCode]
  split
  · rfl
  · next d rest => rw [if_pos (h d (member l d rest))]

namespace State

variable {s t u : State} {o : OpCtx} {env : OpEnv} {a : Nat} {v : Word}

theorem wordsAt_toNat (addr : Word) (ws : List Word) : wordsAt addr.toNat ws = writeList addr ws := by
  rw [wordsAt, word, BitVec.ofNat_toNat, BitVec.setWidth_eq]

/-! ### Writes of an observer -/

theorem ownerOnly_of_flag (ha : a < 0x10000) (hv : v &&& w1gMask a ≠ 0) : ownerOnly a v = true := by
  rw [ownerOnly, if_pos ha, decide_eq_true hv, Bool.or_true, Bool.true_or]

/-- The code that refuses an observer's write of what only the owner writes (R56, R206). -/
def observerCode (s : State) (l : Words) : Code :=
  if l.any (fun w => !s.writableAt w.1) then .badAddress else if l.any (fun w => readOnlyAt w.1) then .readOnly else .notOwner

theorem staticRefusal_observer {l : Words} (h : l.any (fun w => ownerOnly w.1 w.2) = true) :
    s.staticRefusal false l = some (s.observerCode l) := by
  unfold staticRefusal observerCode
  split
  · rfl
  split
  · rfl
  rw [if_pos (by simpa using h)]

theorem observerCode_rank (l : Words) : (s.observerCode l).rank ≤ 4 := by
  unfold observerCode
  split
  · decide
  split <;> decide

theorem rank_countCode {ws : List Word} : ∀ c ∈ countCode ws, 4 ≤ c.rank := by
  unfold countCode
  split <;> simp [Code.rank]

theorem rank_deferCodes {owner : Bool} {lane : Nat} {target : Pc} : ∀ c ∈ s.deferCodes owner lane target, 4 ≤ c.rank := by
  have session : ∀ c ∈ (if owner then [] else [Code.notOwner]), 4 ≤ c.rank := by
    split <;> simp [Code.rank]
  have place (n : Lane) : ∀ c ∈ (if !s.fitted n || decide (s.laneState n = .open_) then [Code.badValue]
      else if pcGe (s.lane n).hwm target then [.tooLate] else if 16 ≤ (s.lane n).deferred.length then [.busy] else []), 4 ≤ c.rank := by
    split
    · simp [Code.rank]
    split
    · simp [Code.rank]
    split <;> simp [Code.rank]
  intro c hc
  unfold deferCodes at hc
  rcases List.mem_append.1 hc with h | h
  · exact session c h
  split at h
  · rw [List.mem_singleton.1 h]
    decide
  · exact place _ c h

/-- No code of the other fields precedes the refusal of an observer (R206). -/
theorem admitWrite_observer {l : Words} {extra : List Code} (h : l.any (fun w => ownerOnly w.1 w.2) = true)
    (later : ∀ c ∈ extra, 4 ≤ c.rank) : s.admitWrite false l extra = some (s.observerCode l) := by
  rw [admitWrite, staticRefusal_observer h]
  exact firstCode_cons fun d hd => (observerCode_rank l).trans (later d hd)

theorem opWrite_observer {addr : Word} {ws : List Word} (hown : s.isOwner o.sess = false)
    (h : (writeList addr ws).any (fun w => ownerOnly w.1 w.2) = true) :
    s.opWrite o addr ws [] env = (s, refusal (s.observerCode (writeList addr ws))) := by
  have refused : s.admitWrite false (writeList addr ws) ([] ++ countCode ws) = _ := admitWrite_observer h rank_countCode
  unfold opWrite
  dsimp only
  rw [hown, refused]

theorem opDefer_observer {addr : Word} {ws : List Word} {lane : Nat} {target : Pc} (hown : s.isOwner o.sess = false)
    (h : (writeList addr ws).any (fun w => ownerOnly w.1 w.2) = true) :
    s.opDefer o addr ws lane target [] = (s, refusal (s.observerCode (writeList addr ws))) := by
  have refused : s.admitWrite false (writeList addr ws) ([] ++ countCode ws ++ s.deferCodes false lane target) = _ :=
    admitWrite_observer h fun c hc => (List.mem_append.1 hc).elim (rank_countCode c) (rank_deferCodes c)
  have early : s.observerCode (writeList addr ws) ≠ .tooLate := fun e => by
    have := observerCode_rank (s := s) (writeList addr ws)
    rw [e] at this
    exact absurd this (by decide)
  unfold opDefer
  dsimp only
  rw [hown, refused]
  dsimp only
  rw [if_neg early]

/-! ### Deferred writes -/

/-- An operation that answers later is owed its response (R204). -/
theorem runOp_later {op : Byte} {f : State → State × Answer} (h : s.Asks o) (hf : f s = (t, .later)) :
    s.runOp o op f = t.owe o.sess o.seq o.tag := by
  obtain ⟨admits, booted, bound, free⟩ := h
  unfold runOp
  simp [admits, booted, bound, free, hf]

theorem find_lane (n : Lane) : (allLanes.find? fun m => decide (m.val = n.val)) = some n := by
  revert n
  decide

/-- A deferred write joins the queue of its lane (R51). -/
def deferWrite (s : State) (n : Lane) (d : Deferred) : State := s.modLane n fun x => { x with deferred := x.deferred ++ [d] }

theorem deferWrite_only (n : Lane) (d : Deferred) : Only [.plc] s (s.deferWrite n d) := modLane_only _ _

theorem deferWrite_deferred (n : Lane) (d : Deferred) : ((s.deferWrite n d).lane n).deferred = (s.lane n).deferred ++ [d] :=
  congrArg LaneSt.deferred (modLane_lane_same s n _)

theorem deferWrite_lane_other {n m : Lane} (d : Deferred) (h : m ≠ n) : (s.deferWrite n d).lane m = s.lane m :=
  modLane_lane_other s n m _ h.symm

theorem opDefer_admitted {addr : Word} {ws : List Word} {n : Lane} {target : Pc} (hown : s.isOwner o.sess = true)
    (h : s.admitWrite true (writeList addr ws) (countCode ws ++ s.deferCodes true n.val target) = none) :
    s.opDefer o addr ws n.val target [] = ((s.deferWrite n ⟨target, o.sess, o.seq, o.tag, true, addr.toNat, ws⟩).commit, .later) := by
  unfold opDefer
  dsimp only
  rw [hown, List.nil_append, h, find_lane]
  rfl

/-- The write that came due leaves the queue of its lane (R51). -/
def dequeue (s : State) (n : Lane) (d : Deferred) : State := s.modLane n fun x => { x with deferred := x.deferred.erase d }

theorem regionOf_larder (hlo : 0x10000000 ≤ a) (hhi : a < 0x10400000) : regionOf s a = .larder := by
  unfold regionOf
  rw [if_neg (by omega), if_neg (by omega), if_pos ⟨hlo, hhi⟩]

theorem dequeue_only (n : Lane) (d : Deferred) : Only [.plc] s (s.dequeue n d) := modLane_only _ _

theorem dequeue_deferred (n : Lane) (d : Deferred) : ((s.dequeue n d).lane n).deferred = (s.lane n).deferred.erase d :=
  congrArg LaneSt.deferred (modLane_lane_same s n _)

/-- The checks of R194 pass for one aligned Larder word of a bank that the owner may write. -/
theorem staticRefusal_larder (hlo : 0x10000000 ≤ a) (hhi : a < 0x10400000) (aligned : a % 4 = 0)
    (may : s.mayWriteBank holdOwner (bankOf a) = true) : s.staticRefusal true [(a, v)] = none := by
  have place : s.writableAt a = true := by simp [writableAt, regionOf_larder hlo hhi, aligned]
  have written : readOnlyAt a = false := by
    have : ¬ a < 0x10000 := by omega
    simp [readOnlyAt, this]
  have lease : s.leaseMissing true a v = false := by simp [leaseMissing, hlo, may]
  have legal (t : State) : t.legalWord a v = true := if_pos hlo
  simp [staticRefusal, place, written, lease, legal]

/-- No state of a unit holds back the write of a Larder word. -/
theorem commitRefusal_larder {m : MemEnv} (hlo : 0x10000000 ≤ a) (hhi : a < 0x10400000) : s.commitRefusal m [(a, v)] = none := by
  have axis : axisAt a = none := by
    unfold axisAt
    rw [if_neg (by omega), if_neg (by omega), if_neg (by omega)]
  have motion : s.motionRefusal a v = none := by
    unfold motionRefusal
    rw [if_neg (by omega), axis]
  have free (t : State) : s.stateRefusal t a v = none := by
    unfold stateRefusal
    rw [if_neg (by unfold Reg.PWR_REQ; omega), if_neg (by unfold Reg.CMP_CRATE_VGO; omega), if_neg (by unfold Reg.MEM_LFT_GO; omega),
      if_neg (by omega), if_neg (by omega), if_neg (by omega)]
    split
    case h_6 => exact motion
    all_goals omega
  have selection : s.selectionCode m (a, v) = none := by
    simp [selectionCode, selectionOf, jobLane_outside (a := a) (by omega)]
  simp [commitRefusal, free, selection, firstCode]

theorem portOf_larder (hlo : 0x10000000 ≤ a) (hhi : a < 0x10400000) : portOf s a = 2 := by
  rw [portOf, regionOf_larder hlo hhi]

/-- A late write of one Larder word is made, and one commit (R51, R78). -/
theorem lateWrite_larder (hlo : 0x10000000 ≤ a) (hhi : a < 0x10400000) (aligned : a % 4 = 0)
    (may : s.mayWriteBank holdOwner (bankOf a) = true) (live : s.isolated 2 = false) (hecc : env.mem.ecc = []) :
    s.lateWrite env [(a, v)] = ((s.modMem fun m => m.writeLarder a 4 v.toNat).commit, .ok, s.order + 1) := by
  have made : s.makeWrite env [(a, v)] = _ := makeWrite_memory (by omega) (by rw [storeWords_larder hlo]; rfl)
  rw [storeWords_larder hlo] at made
  rw [lateWrite, writeWords, staticRefusal_larder hlo hhi aligned may]
  dsimp only
  rw [commitWrite, commitRefusal_larder hlo hhi]
  exact accessWrite_single hecc (by rw [portOf_larder hlo hhi]; exact live) made

/-- The due write of a lane to one Larder word (R51). -/
theorem commitDeferred_larder {n : Lane} {d : Deferred} (due : s.deferredNext n = some d) (words : d.words = [v])
    (hlo : 0x10000000 ≤ d.addr) (hhi : d.addr < 0x10400000) (aligned : d.addr % 4 = 0)
    (may : s.mayWriteBank holdOwner (bankOf d.addr) = true) (live : s.isolated 2 = false) (hecc : env.mem.ecc = []) :
    s.commitDeferred n env =
      let u := ((s.dequeue n d).modMem fun m => m.writeLarder d.addr 4 v.toNat).commit
      if d.owed = true then u.respond d.sess ⟨3, BitVec.ofNat 8 d.tag.toNat, .ok, d.seq, s.order + 1, []⟩ else u := by
  have list : (wordAddrs d.addr d.words.length).zip d.words = [(d.addr, v)] := by simp [words, wordAddrs]
  have free : s.selectionHeld [(d.addr, v)] = false := by
    simp [selectionHeld, selectsJob_none (jobLane_outside (a := d.addr) (by omega))]
  have late : (s.dequeue n d).lateWrite env [(d.addr, v)] = _ := lateWrite_larder hlo hhi aligned may live hecc
  have once (t : State) (h : t.order = s.order + 1) : oneCommit t (s.dequeue n d) = t :=
    if_neg (by rw [h]; simp [dequeue])
  unfold commitDeferred
  rw [due]
  dsimp only
  rw [list, free, if_neg (by decide)]
  rw [dequeue] at late once
  rw [late]
  dsimp only
  rw [once _ rfl]
  rfl

end State

/-- Settles O32: the refusal of an observer comes before every other code, and it leaves the state as it is. -/
theorem flagClearNeedsOwner : Obligations.FlagClearNeedsOwner := by
  intro s o addr ws w asks observer mem low flag
  rw [State.wordsAt_toNat] at mem ⊢
  have only : (State.writeList addr ws).any (fun w => State.ownerOnly w.1 w.2) = true :=
    List.any_eq_true.2 ⟨w, mem, State.ownerOnly_of_flag low flag⟩
  exact ⟨fun env => congrArg s.finish (State.runOp_asks asks (State.opWrite_observer observer only)),
    fun lane target => congrArg s.finish (State.runOp_asks asks (State.opDefer_observer observer only))⟩

/-- Settles O35: the write joins its lane's queue at a commit, and leaves it at a commit that puts the word. -/
theorem deferredWritesWaitAndCommit : Obligations.DeferredWritesWaitAndCommit := by
  intro s n
  refine ⟨fun o addr ws target asks owner admitted => ?_, fun d v env ticking due words hlo hhi aligned may live hecc => ?_⟩
  · rw [State.wordsAt_toNat] at admitted
    exact ⟨_, congrArg s.finish (State.runOp_later asks (State.opDefer_admitted owner admitted)), State.deferWrite_deferred n _,
      fun m hm => State.deferWrite_lane_other _ hm, rfl,
      (State.only_commit (by decide)).2 ((State.deferWrite_only n _).mono (by decide))⟩
  · unfold larderBase at hlo hhi
    have run : exec (.deferredCommit n env) s = s.finish (s.commitDeferred n env) := by
      rw [exec, execDeferredCommit, if_pos ticking]
    rw [State.commitDeferred_larder due words hlo hhi aligned may live hecc] at run
    exact ⟨_, run, State.dequeue_deferred n d, readLarder_writeLarder_same _ (by omega) v.isLt, rfl,
      (State.only_commit (by decide)).2 (((State.dequeue_only n d).mono (by decide)).trans ((State.writeLarder_only _ _ _).mono (by decide)))⟩

end Sys2Proof.Machine
end

/-! ## Scrubbing -/

section
namespace Sys2Proof.Machine

/-! ### The Larder under its scrubbers -/

namespace Mem

variable {env : MemEnv} {m : Mem}

/-- The Larder word that a bank's scrubber visits next (R81). -/
def scrubWord (m : Mem) (b : Nat) : Nat := 32768 * b + Tab.get (fun _ => 0) m.scrub b

/-- The memories after a bank's scrubber has visited its word: one word on, and a word found uncorrectable void (R77, R81). -/
def scrubBank (env : MemEnv) (m : Mem) (b : Nat) : Mem :=
  let visited : Mem :=
    if (m.word64 (m.scrubWord b)).isSome = true ∧ hasUe env (larderBase + 8 * m.scrubWord b) = true then
      m.setWord64 (m.scrubWord b) none
    else m
  { visited with scrub := Tab.set (fun _ => 0) m.scrub b ((Tab.get (fun _ => 0) m.scrub b + 1) % 32768) }

theorem scrubBank_scrub (b : Nat) : (m.scrubBank env b).scrub =
    Tab.set (fun _ => 0) m.scrub b ((Tab.get (fun _ => 0) m.scrub b + 1) % 32768) := rfl

theorem scrubWord_scrubBank_other {b c : Nat} (h : c ≠ b) : (m.scrubBank env b).scrubWord c = m.scrubWord c := by
  rw [scrubWord, scrubBank_scrub, Tab.get_set_other _ _ _ h, scrubWord]

theorem word64_scrubBank (b i : Nat) : (m.scrubBank env b).word64 i =
    if i = m.scrubWord b ∧ hasUe env (larderBase + 8 * i) = true then none else m.word64 i := by
  have visited : (m.scrubBank env b).word64 i =
      (if (m.word64 (m.scrubWord b)).isSome = true ∧ hasUe env (larderBase + 8 * m.scrubWord b) = true then
        m.setWord64 (m.scrubWord b) none else m).word64 i := rfl
  rw [visited]
  by_cases here : i = m.scrubWord b
  · subst here
    cases hw : m.word64 (m.scrubWord b) <;> by_cases bad : hasUe env (larderBase + 8 * m.scrubWord b) = true <;> simp [hw, bad]
  · have elsewhere : ¬ (i = m.scrubWord b ∧ hasUe env (larderBase + 8 * i) = true) := fun h => here h.1
    rw [if_neg elsewhere]
    split
    · exact word64_setWord64_other _ _ here
    · rfl

theorem scrubBank_flash (b : Nat) : (m.scrubBank env b).cellar = m.cellar ∧ (m.scrubBank env b).loft = m.loft := by
  unfold scrubBank
  dsimp only
  split <;> exact ⟨rfl, rfl⟩

/-- Each of the banks scrubbed voids the word it visits where that is uncorrectable, and every other word stays. -/
theorem word64_scrubBanks (i : Nat) {l : List Nat} (apart : l.Nodup) : (l.foldl (scrubBank env) m).word64 i =
    if (∃ b ∈ l, i = m.scrubWord b) ∧ hasUe env (larderBase + 8 * i) = true then none else m.word64 i := by
  induction l generalizing m with
  | nil => simp
  | cons b l ih =>
    obtain ⟨fresh, apart⟩ := List.nodup_cons.1 apart
    have same : (∃ c ∈ l, i = (m.scrubBank env b).scrubWord c) ↔ ∃ c ∈ l, i = m.scrubWord c :=
      exists_congr fun c => and_congr_right fun hc => by rw [scrubWord_scrubBank_other (ne_of_mem_of_not_mem hc fresh)]
    rw [List.foldl_cons, ih apart, word64_scrubBank]
    simp only [same]
    by_cases bad : hasUe env (larderBase + 8 * i) = true
    · simp only [bad, and_true, List.exists_mem_cons_iff]
      by_cases here : i = m.scrubWord b
      · simp [here]
      · simp [here]
    · simp [bad]

/-- Each of the banks scrubbed is one word on. -/
theorem scrub_scrubBanks {b : Nat} {l : List Nat} (apart : l.Nodup) (hb : b ∈ l) :
    Tab.get (fun _ => 0) (l.foldl (scrubBank env) m).scrub b = (Tab.get (fun _ => 0) m.scrub b + 1) % 32768 := by
  have others (l : List Nat) : ∀ m : Mem, b ∉ l →
      Tab.get (fun _ => 0) (l.foldl (scrubBank env) m).scrub b = Tab.get (fun _ => 0) m.scrub b := by
    induction l with
    | nil => exact fun _ _ => rfl
    | cons c l ih =>
      intro m h
      rw [List.foldl_cons, ih _ fun hl => h (List.mem_cons_of_mem _ hl), scrubBank_scrub, Tab.get_set_other _ _ _ fun e => h (by simp [e])]
  induction l generalizing m with
  | nil => cases hb
  | cons c l ih =>
    obtain ⟨fresh, apart⟩ := List.nodup_cons.1 apart
    rw [List.foldl_cons]
    by_cases e : b = c
    · subst e
      rw [others l _ fresh, scrubBank_scrub, Tab.get_set_same]
    · rw [ih apart ((List.mem_cons.1 hb).resolve_left e), scrubBank_scrub, Tab.get_set_other _ _ _ e]

theorem scrubBanks_flash (l : List Nat) :
    (l.foldl (scrubBank env) m).cellar = m.cellar ∧ (l.foldl (scrubBank env) m).loft = m.loft := by
  induction l generalizing m with
  | nil => exact ⟨rfl, rfl⟩
  | cons b l ih =>
    obtain ⟨cellar, loft⟩ := ih (m := m.scrubBank env b)
    exact ⟨cellar.trans (scrubBank_flash b).1, loft.trans (scrubBank_flash b).2⟩

end Mem

namespace State

variable {s t u : State} {env : MemEnv}

/-! ### Operations that leave the memories -/

/-- What a frame without the parts of the memories keeps of them: everything. -/
theorem mem_of_only {l : List Part} (h : Only l s t) (hl : .larder ∉ l) (hf : .flash ∉ l) (ho : .owed ∉ l) : t.mem = s.mem := by
  have larder : t.mem.larder = s.mem.larder := h.part .larder hl
  have flash : { t.mem with larder := [], staged := [], heldOps := [] } = { s.mem with larder := [], staged := [], heldOps := [] } :=
    h.part .flash hf
  obtain ⟨staged, held⟩ : t.mem.staged = s.mem.staged ∧ t.mem.heldOps = s.mem.heldOps := h.part .owed ho
  calc t.mem = { ({ t.mem with larder := [], staged := [], heldOps := [] } : Mem) with
        larder := t.mem.larder, staged := t.mem.staged, heldOps := t.mem.heldOps } := rfl
    _ = s.mem := by rw [flash, larder, staged, held]

/-- An operation on the memories has the frame of what it keeps of their parts. -/
theorem modMem_only_of {l : List Part} (f : Mem → Mem) (larder : .larder ∉ l → (f s.mem).larder = s.mem.larder)
    (flash : .flash ∉ l → { f s.mem with larder := [], staged := [], heldOps := [] } =
      { s.mem with larder := [], staged := [], heldOps := [] })
    (owed : .owed ∉ l → (f s.mem).staged = s.mem.staged ∧ (f s.mem).heldOps = s.mem.heldOps) : Only l s (s.modMem f) := by
  intro p hp
  cases p with
  | larder => exact larder hp
  | flash => exact flash hp
  | owed => exact owed hp
  | energy => exact ⟨rfl, rfl, rfl⟩
  | _ => rfl

@[simp] theorem raise_mem (s : State) (k : Kind) (a : Word) : (s.raise k a).mem = s.mem :=
  mem_of_only (raiseN_only 12 s k a none) (by decide) (by decide) (by decide)

theorem noteRead_uncorr_mem (s : State) (a : Nat) : (s.noteRead (.uncorr a)).mem = s.mem.setWord64 (larderIdx a) none := by
  simp [noteRead, modMem]

theorem noteRead_only (s : State) (r : Read) : Only (.larder :: messageParts) s (s.noteRead r) :=
  noteRead_rel (.only (by decide)) (fun _ _ => (readNoted_only _).mono (by decide)) s r

theorem noteCorrected_only (s : State) (env : MemEnv) : Only [.order, .regs, .guards] s (s.noteCorrected env) :=
  Only.foldl (fun _ _ => only_ite (by simp (disch := decide)) (Only.refl _ _)) _ _

/-! ### One scrub step -/

/-- A bank's scrubber has moved on, and bank 0 counts its passes (R81). -/
def scrubMoved (s : State) (b : Nat) : State :=
  let t := s.modMem fun m => { m with scrub := Tab.set (fun _ => 0) m.scrub b ((s.scrubAt b + 1) % 32768) }
  if b = 0 ∧ s.scrubAt b = 32767 then t.setReg Reg.MEM_LRD_SCRUB (t.reg Reg.MEM_LRD_SCRUB + 1) else t

theorem scrubBank_eq (env : MemEnv) (s : State) (b : Nat) : scrubBank env s b =
    match (s.scrubMoved b).mem.word64 (s.mem.scrubWord b) with
    | none => s.scrubMoved b
    | some _ =>
      if hasUe env (larderBase + 8 * s.mem.scrubWord b) then (s.scrubMoved b).noteRead (.uncorr (larderBase + 8 * s.mem.scrubWord b))
      else if hasCe env (larderBase + 8 * s.mem.scrubWord b) then
        (s.scrubMoved b).noteCorrected ⟨[(larderBase + 8 * s.mem.scrubWord b, .corrected)], false⟩
      else s.scrubMoved b := rfl

theorem scrubMoved_mem (s : State) (b : Nat) : (s.scrubMoved b).mem =
    { s.mem with scrub := Tab.set (fun _ => 0) s.mem.scrub b ((Tab.get (fun _ => 0) s.mem.scrub b + 1) % 32768) } := by
  unfold scrubMoved
  dsimp only
  split <;> rfl

/-- The move of a scrubber is no matter of the Larder's words. -/
theorem scrubMoved_only (s : State) (b : Nat) : Only [.regs, .flash] s (s.scrubMoved b) := by
  have moved (k : Nat) : Only [.flash] s (s.modMem fun m => { m with scrub := Tab.set (fun _ => 0) m.scrub b k }) :=
    modMem_only_of _ (fun _ => rfl) (fun h => absurd (by decide) h) fun _ => ⟨rfl, rfl⟩
  exact only_ite ((only_setReg _ _ (by decide)).2 ((moved _).mono (by decide))) ((moved _).mono (by decide))

theorem larderIdx_word (i : Nat) : larderIdx (larderBase + 8 * i) = i := by
  unfold larderIdx
  omega

theorem scrubBank_mem (env : MemEnv) (s : State) (b : Nat) : (scrubBank env s b).mem = s.mem.scrubBank env b := by
  have words : (s.scrubMoved b).mem.word64 (s.mem.scrubWord b) = s.mem.word64 (s.mem.scrubWord b) := by rw [scrubMoved_mem]; rfl
  rw [scrubBank_eq, words, Mem.scrubBank]
  cases hw : s.mem.word64 (s.mem.scrubWord b) with
  | none => simp [scrubMoved_mem]
  | some w =>
    by_cases bad : hasUe env (larderBase + 8 * s.mem.scrubWord b) = true
    · simp [bad, noteRead_uncorr_mem, larderIdx_word, scrubMoved_mem, Mem.setWord64]
    · have counted (e : MemEnv) : ((s.scrubMoved b).noteCorrected e).mem = (s.scrubMoved b).mem :=
        mem_of_only (noteCorrected_only _ e) (by decide) (by decide) (by decide)
      simp only [bad, and_false, if_false, Bool.false_eq_true]
      split <;> simp [counted, scrubMoved_mem]

theorem scrubBank_only (env : MemEnv) (s : State) (b : Nat) :
    Only (.larder :: .flash :: messageParts) s (scrubBank env s b) := by
  have moved : Only (.larder :: .flash :: messageParts) s (s.scrubMoved b) := (scrubMoved_only s b).mono (by decide)
  rw [scrubBank_eq]
  split
  · exact moved
  · exact only_ite (moved.trans ((noteRead_only _ _).mono (by decide)))
      (only_ite (moved.trans ((noteCorrected_only _ _).mono (by decide))) moved)

theorem scrubBanks_mem (l : List Nat) : (l.foldl (scrubBank env) s).mem = l.foldl (Mem.scrubBank env) s.mem := by
  induction l generalizing s with
  | nil => rfl
  | cons b l ih => rw [List.foldl_cons, ih, scrubBank_mem, List.foldl_cons]

theorem scrub_mem (s : State) (env : MemEnv) : (s.scrub env).mem = (List.range 16).foldl (Mem.scrubBank env) s.mem := by
  rw [scrub]
  exact scrubBanks_mem _

theorem scrub_only (s : State) (env : MemEnv) : Only (.larder :: .flash :: messageParts) s (s.scrub env) :=
  Only.foldl (scrubBank_only env) _ _

end State

/-- Settles O24: a scrub step scrubs each bank's word once, the banks being apart. -/
theorem scrubbersVisitOneWord : Obligations.ScrubbersVisitOneWord := by
  intro s env ticks t
  generalize hv : t.setFired Ev.scrub t.tick = v
  have fired : Only [.fired] t v := hv ▸ State.setFired_only _ _
  have mem : v.mem = t.mem := by rw [← hv]; rfl
  have run : exec (.scrubRead env) s = .next (s.after (v.scrub env)) := by
    rw [exec, execScrubRead, if_pos ticks, State.periodic_eq ticks, ← hv]
    rfl
  have apart : (List.range 16).Nodup := List.nodup_range
  have words (i : Nat) : (v.scrub env).mem.word64 i =
      if (∃ b ∈ List.range 16, i = t.mem.scrubWord b) ∧ hasUe env (larderBase + 8 * i) = true then none else t.mem.word64 i := by
    rw [State.scrub_mem, mem, Mem.word64_scrubBanks i apart]
  obtain ⟨cellar, loft⟩ : (v.scrub env).mem.cellar = t.mem.cellar ∧ (v.scrub env).mem.loft = t.mem.loft := by
    rw [State.scrub_mem, mem]
    exact Mem.scrubBanks_flash _
  refine ⟨_, run, fun b hb => ?_, fun i => ?_, fun b hb bad => ?_, cellar, loft,
    (fired.mono (by decide)).trans ((State.scrub_only v env).mono (by decide))⟩
  · rw [State.scrubAt, State.scrub_mem, mem]
    exact Mem.scrub_scrubBanks apart (List.mem_range.2 hb)
  · rw [words]
    split
    · rename_i voided
      obtain ⟨⟨b, hb, visited⟩, bad⟩ := voided
      exact .inr ⟨rfl, b, List.mem_range.1 hb, visited, bad⟩
    · exact .inl rfl
  · rw [words]
    exact if_pos ⟨⟨b, List.mem_range.2 hb, rfl⟩, bad⟩

end Sys2Proof.Machine
end

/-! ## The start of a Cellar operation -/

section
namespace Sys2Proof.Machine

/-! ### Words and their bytes -/

/-- The bytes of a number that bytes spell are those bytes. -/
theorem take_bytesLE_leBytes (l : List Byte) {n : Nat} (h : l.length ≤ n) : (bytesLE n (leBytes l)).take l.length = l := by
  induction l generalizing n with
  | nil => simp
  | cons b l ih =>
    obtain ⟨n, rfl⟩ : ∃ k, n = k + 1 := ⟨n - 1, by simp only [List.length_cons] at h; omega⟩
    have low : BitVec.ofNat 8 (b.toNat + 256 * leBytes l) = b := BitVec.eq_of_toNat_eq (by have := b.isLt; simp; omega)
    have rest : (b.toNat + 256 * leBytes l) / 256 = leBytes l := by have := b.isLt; omega
    rw [leBytes, bytesLE, low, rest, List.length_cons, List.take_succ_cons, ih (by simpa using h)]

theorem leBytes_lt (l : List Byte) : leBytes l < 256 ^ l.length := by
  induction l with
  | nil => simp [leBytes]
  | cons b l ih =>
    have := b.isLt
    rw [leBytes, List.length_cons, Nat.pow_succ]
    omega

/-- A bit of a register after a write comes from the value where it is writable, else from the register. -/
theorem bit_placed (r rw v : Word) (n : Nat) : bit ((r &&& ~~~rw) ||| (v &&& rw)) n = if bit rw n then bit v n else bit r n := by
  change ((r &&& ~~~rw) ||| (v &&& rw)).getLsbD n = if rw.getLsbD n then v.getLsbD n else r.getLsbD n
  simp only [BitVec.getLsbD_or, BitVec.getLsbD_and, BitVec.getLsbD_not]
  cases hw : rw.getLsbD n
  · cases hr : r.getLsbD n
    · simp
    · simp [BitVec.lt_of_getLsbD hr]
  · simp

/-- A field whose bits are all writable takes the value of a write. -/
theorem bits_placed (r v : Word) {rw : Word} {hi lo : Nat} (h : ∀ n ≤ hi, lo ≤ n → bit rw n = true) :
    bits ((r &&& ~~~rw) ||| (v &&& rw)) hi lo = bits v hi lo :=
  bits_congr fun n hlo hhi => by rw [bit_placed, h n hhi hlo, if_pos rfl]

/-- A register all of whose bits are writable takes the value of a write. -/
theorem placed_full (r v : Word) : (r &&& ~~~(0xFFFFFFFF : Word)) ||| (v &&& 0xFFFFFFFF) = v := by
  have full : (0xFFFFFFFF : Word) = BitVec.allOnes 32 := by decide
  rw [full, BitVec.and_allOnes, BitVec.not_allOnes, BitVec.and_zero, BitVec.zero_or]

theorem celCtrl_toNat {op len : Nat} (v d : Bool) (b : Byte) (hop : op < 8) :
    (celCtrl op len v d b).toNat = op + len % 256 * 2 ^ 8 + b2n v * 2 ^ 16 + b2n d * 2 ^ 17 + b.toNat * 2 ^ 24 := by
  have hb := b.isLt
  have hv : b2n v ≤ 1 := by cases v <;> decide
  have hd : b2n d ≤ 1 := by cases d <;> decide
  rw [celCtrl, word, BitVec.toNat_ofNat]
  omega

/-- The fields of `MEM_CEL_PCTRL` (R101). -/
theorem celCtrl_fields {op len : Nat} (v d : Bool) (b : Byte) (hop : op < 8) (hlen : len < 256) :
    bits (celCtrl op len v d b) 2 0 = op ∧ bits (celCtrl op len v d b) 15 8 = len ∧ bit (celCtrl op len v d b) 17 = d := by
  have hv : b2n v ≤ 1 := by cases v <;> decide
  have hd : b2n d = 0 ∧ d = false ∨ b2n d = 1 ∧ d = true := by cases d <;> decide
  simp only [bits, bit, celCtrl_toNat v d b hop, Nat.shiftRight_eq_div_pow, Nat.testBit_eq_decide_div_mod_eq]
  refine ⟨by omega, by omega, ?_⟩
  rcases hd with ⟨hd, rfl⟩ | ⟨hd, rfl⟩
  · exact decide_eq_false (by omega)
  · exact decide_eq_true (by omega)

namespace State

variable {s t u : State} {c : Chan}

/-! ### Frames of an operation's start -/

theorem regsIn_ite {l : List Nat} {p : Prop} [Decidable p] (ht : RegsIn l s t) (hu : RegsIn l s u) : RegsIn l s (if p then t else u) := by
  split
  · exact ht
  · exact hu

theorem verDrop_only (s : State) (k : Nat) : Only [.regs] s (s.verDrop k) := setFld_only _ _ _ _

theorem verInvalidate_only (s : State) (r : Option (Nat × Nat)) : Only [.regs, .crates] s (s.verInvalidate r) := by
  have changed (v : State) (x : Crates) : Only [.crates] v { v with crates := x } := by
    intro p hp
    cases p with
    | crates => exact absurd (by decide) hp
    | energy => exact ⟨rfl, rfl, rfl⟩
    | owed => exact ⟨rfl, rfl⟩
    | _ => rfl
  unfold verInvalidate
  dsimp only
  generalize hv : (List.range 8).foldl _ s = v
  have dropped : Only [.regs, .crates] s v :=
    hv ▸ Only.foldl (fun v k => only_ite ((verDrop_only v k).mono (by decide)) (Only.refl _ _)) _ _
  split
  · exact dropped
  · exact only_ite (dropped.trans ((changed _ _).mono (by decide))) dropped

/-- The verification entries lie in block CMP. -/
theorem verInvalidate_in (s : State) (r : Option (Nat × Nat)) : RegsIn [9] s (s.verInvalidate r) := by
  have dropped : ∀ (v : State), ∀ k ∈ List.range 8, RegsIn [9] v (v.verDrop k) := fun v k hk => by
    have := List.mem_range.1 hk
    exact (regsIn_setFld _ _ _ _ (by simp only [Reg.CMP_CRATE_VER, List.mem_singleton]; omega)).2 (RegsIn.refl _ _)
  unfold verInvalidate
  dsimp only
  generalize hv : (List.range 8).foldl _ s = v
  have folded : RegsIn [9] s v := by
    rw [← hv]
    exact RegsIn.foldl_mem _ _ fun v k hk => regsIn_ite (dropped v k hk) (RegsIn.refl _ _)
  split
  · exact folded
  · exact regsIn_ite folded folded

/-- A run of the flash changes that part of the memories alone. -/
theorem celRun_only (s : State) (r : Option CelRun) : Only [.flash] s (s.modMem fun m => { m with celRun := r }) :=
  modMem_only_of _ (fun _ => rfl) (fun h => absurd (by decide) h) fun _ => ⟨rfl, rfl⟩

/-! ### PGO -/

/-- The state at PGO of an operation that has passed its checks, once what it sends has left: BUSY, and the verification entries
that it meets dropped (R90, R389). -/
def celSent (s : State) (op a len : Nat) (noData : Bool) : State :=
  let t := (s.celResult 1).verInvalidate (if op = 4 then none else some (celRange op a len))
  (t.emit (.flash (t.celOpcode (t.fld Reg.MEM_CEL_OPCODES 7 0)))).emit (.flash (t.celSend op a len noData))

theorem celSent_only (s : State) (op a len : Nat) (d : Bool) : Only [.regs, .crates, .out] s (s.celSent op a len d) := by
  unfold celSent
  dsimp only
  simp (disch := decide) only [only_emit]
  refine Only.trans ?_ ((verInvalidate_only _ _).mono (by decide))
  simp (disch := decide) [celResult]

/-- Of block MEM only `RESULT` moves. -/
theorem celSent_reg (s : State) (op a len : Nat) (d : Bool) {b : Nat} (hb : b / 0x1000 = 15) :
    (s.celSent op a len d).reg b = (s.setFld Reg.MEM_CEL_PSTAT 7 4 1).reg b := by
  have told := verInvalidate_in (s.celResult 1) (if op = 4 then none else some (celRange op a len)) b (by simp [hb])
  rw [celSent, emit_reg, emit_reg, told]
  rfl

/-- The operation that PGO starts (R90). -/
def celStarted (s : State) (op a len : Nat) (verify : Bool) : CelRun :=
  ⟨op, a, len, s.celBuf (len + 1), verify, s.tick + s.fld Reg.MEM_CEL_POLL 15 8 * 100,
    s.tick + s.fld Reg.MEM_CEL_POLL 31 20 * 100000⟩

theorem celBuf_congr (h : ∀ k < 64, t.reg (Reg.MEM_CEL_PBUF k) = s.reg (Reg.MEM_CEL_PBUF k)) (n : Nat) : t.celBuf n = s.celBuf n := by
  have bytes : (List.range 64).flatMap (fun k => bytesLE 4 (t.reg (Reg.MEM_CEL_PBUF k)).toNat) =
      (List.range 64).flatMap fun k => bytesLE 4 (s.reg (Reg.MEM_CEL_PBUF k)).toNat :=
    List.flatMap_congr fun k hk => by rw [h k (List.mem_range.1 hk)]
  rw [celBuf, bytes, celBuf]

/-- What is sent leaves what the operation is made of. -/
theorem celStarted_congr (h : ∀ b, b / 0x1000 = 15 → b ≠ Reg.MEM_CEL_PSTAT → t.reg b = s.reg b) (tick : t.tick = s.tick)
    (op a len : Nat) (v : Bool) : t.celStarted op a len v = s.celStarted op a len v := by
  have poll : t.reg Reg.MEM_CEL_POLL = s.reg Reg.MEM_CEL_POLL := h _ (by decide) (by decide)
  have buf : t.celBuf (len + 1) = s.celBuf (len + 1) := celBuf_congr (fun k hk => h _ (by simp only [Reg.MEM_CEL_PBUF]; omega)
    (by simp only [Reg.MEM_CEL_PBUF, Reg.MEM_CEL_PSTAT]; omega)) _
  rw [celStarted, buf, fld, fld, poll, tick]
  rfl

section
variable {op a len : Nat} {noData : Bool} (idle : s.mem.celRun = none) (addr : s.fld Reg.MEM_CEL_PADDR 28 0 = a)
  (kind : bits (s.reg Reg.MEM_CEL_PCTRL) 2 0 = op) (length : bits (s.reg Reg.MEM_CEL_PCTRL) 15 8 = len)
  (bare : bit (s.reg Reg.MEM_CEL_PCTRL) 17 = noData) (range : s.celRangeOk op a len noData = true)
  (free : op ≠ 4 → s.crateInUse (celRange op a len) = false)
include idle addr kind length bare range free

/-- A PGO whose checks pass starts its operation (R90). -/
theorem celGo_passes : s.celGo =
    ((s.celSent op a len noData).modMem fun m => { m with celRun := some (s.celStarted op a len (s.rbit Reg.MEM_CEL_PCTRL 16)) }, true) := by
  have unused : ¬ (op ≠ 4 ∧ s.crateInUse (celRange op a len) = true) := fun h => by rw [free h.1] at h; exact absurd h.2 (by decide)
  have kept (v : Bool) : (s.celSent op a len noData).celStarted op a len v = s.celStarted op a len v :=
    celStarted_congr (fun b hb other => (celSent_reg s op a len noData hb).trans (setFld_reg_other _ _ _ _ _ _ (Ne.symm other)))
      ((celSent_only s op a len noData).part .tick (by decide)) _ _ _ _
  subst kind length bare addr
  rw [← kept]
  unfold celGo celSent celStarted
  dsimp only
  rw [idle, if_neg (by simp), if_neg (by simp [range]), if_neg unused]
  rfl

end

/-! ### The writes of a channel -/

/-- The registers of a Cellar operation that a Hoist channel writes before PGO (R73, R89). -/
def celRegs : List Nat := Reg.MEM_CEL_PADDR :: Reg.MEM_CEL_PCTRL :: (List.range 64).map fun (k : Nat) => Reg.MEM_CEL_PBUF k

theorem pbuf_mem_celRegs {k : Nat} (h : k < 64) : Reg.MEM_CEL_PBUF k ∈ celRegs := by
  simp only [celRegs, List.mem_cons, List.mem_map, List.mem_range]
  exact .inr (.inr ⟨k, h, rfl⟩)

theorem celRegs_block : ∀ a ∈ celRegs, a / 0x1000 = 15 := by decide

theorem pgo_not_celReg : Reg.MEM_CEL_PGO ∉ celRegs := by decide

/-- The registers of a Cellar operation are served by the port of the Cellar (R549). -/
theorem portOf_celReg {a : Nat} (h : a = Reg.MEM_CEL_PGO ∨ a ∈ celRegs) : portOf s a = 3 := by
  have served : ∀ a ∈ Reg.MEM_CEL_PGO :: celRegs, a < 0x10000 ∧ (regAt a).isSome = true ∧ regPort a = 3 := by decide
  obtain ⟨low, known, port⟩ := served a (List.mem_cons.2 h)
  rw [portOf, regionOf, if_pos low]
  dsimp only
  rw [if_pos known, port]

/-- A word placed in its register, with its commit. -/
def placed (s : State) (w : Nat × Word) : State :=
  (s.setReg w.1 ((s.reg w.1 &&& ~~~(rwMask w.1)) ||| (w.2 &&& rwMask w.1))).commit

theorem placed_only (s : State) (w : Nat × Word) : Only [.order, .regs] s (s.placed w) :=
  (only_commit (by decide)).2 ((setReg_only _ _).mono (by decide))

theorem placed_in (s : State) (w : Nat × Word) : RegsIn [w.1 / 0x1000] s (s.placed w) := regsIn_commit.2 (setReg_in _ _)

theorem placed_reg_same (s : State) (a : Nat) (v : Word) :
    (s.placed (a, v)).reg a = (s.reg a &&& ~~~(rwMask a)) ||| (v &&& rwMask a) := setReg_reg_same ..

theorem placed_reg_other (s : State) {w : Nat × Word} {a : Nat} (h : w.1 ≠ a) : (s.placed w).reg a = s.reg a :=
  setReg_reg_other _ _ _ _ h

theorem hoistReg_celReg {a : Nat} (h : a ∈ celRegs) (live : s.isolated 3 = false) (v : Word) :
    s.hoistReg a v = some (s.placed (a, v)) := by
  have other : a ≠ Reg.MEM_CEL_PGO := fun e => pgo_not_celReg (e ▸ h)
  rw [hoistReg, portOf_celReg (.inr h), live, if_neg Bool.false_ne_true, if_neg other]
  rfl

section
variable {ws : Words}

theorem placedAll_only : Only [.order, .regs] s (ws.foldl placed s) := Only.foldl placed_only _ _

theorem placedAll_in (h : ∀ w ∈ ws, w.1 ∈ celRegs) : RegsIn [15] s (ws.foldl placed s) :=
  RegsIn.foldl_mem _ _ fun v w hw => by rw [← celRegs_block _ (h w hw)]; exact placed_in v w

theorem placedAll_reg_other {a : Nat} (h : ∀ w ∈ ws, w.1 ≠ a) : (ws.foldl placed s).reg a = s.reg a := by
  induction ws generalizing s with
  | nil => rfl
  | cons w ws ih => rw [List.foldl_cons, ih fun x hx => h x (by simp [hx]), placed_reg_other _ (h w (by simp))]

/-- Each of the words written, to registers apart, stands in its register. -/
theorem placedAll_reg {a : Nat} {v : Word} (apart : (ws.map Prod.fst).Nodup) (h : (a, v) ∈ ws) :
    (ws.foldl placed s).reg a = (s.reg a &&& ~~~(rwMask a)) ||| (v &&& rwMask a) := by
  induction ws generalizing s with
  | nil => cases h
  | cons w ws ih =>
    obtain ⟨fresh, apart⟩ := List.nodup_cons.1 apart
    rw [List.foldl_cons]
    rcases List.mem_cons.1 h with rfl | h
    · rw [placedAll_reg_other, placed_reg_same]
      exact fun x hx e => fresh (List.mem_map.2 ⟨x, hx, e⟩)
    · have other : w.1 ≠ a := fun e => fresh (List.mem_map.2 ⟨(a, v), h, e.symm⟩)
      rw [ih apart h, placed_reg_other _ other]

/-- A channel's writes before PGO place their words (R89). -/
theorem celWrites_placed {rest : Words} (h : ∀ w ∈ ws, w.1 ∈ celRegs) (live : s.isolated 3 = false) :
    celWrites c (ws ++ rest) s = celWrites c rest (ws.foldl placed s) := by
  induction ws generalizing s with
  | nil => rfl
  | cons w ws ih =>
    obtain ⟨a, v⟩ := w
    have ha : a ∈ celRegs := h (a, v) (by simp)
    have block : (a, v).1 / 0x1000 = 15 := celRegs_block a ha
    have alive : (s.placed (a, v)).isolated 3 = false := by
      rw [isolated_of_regsIn (placed_in s (a, v)) (by rw [block]; decide), live]
    rw [List.cons_append, celWrites, hoistReg_celReg ha live]
    exact ih (fun x hx => h x (by simp [hx])) alive

end

/-! ### The words of an operation -/

/-- What a channel writes before PGO (R89). -/
def celWords (paddr ctrl : Word) (data : List Byte) : Words :=
  [(Reg.MEM_CEL_PADDR, paddr), (Reg.MEM_CEL_PCTRL, ctrl)] ++ celBufWrites data

variable {paddr ctrl : Word} {data : List Byte}

theorem celWords_keys : (celWords paddr ctrl data).map Prod.fst =
    Reg.MEM_CEL_PADDR :: Reg.MEM_CEL_PCTRL :: (List.range ((data.length + 3) / 4)).map fun (k : Nat) => Reg.MEM_CEL_PBUF k := by
  simp [celWords, celBufWrites]

theorem celWords_apart : ((celWords paddr ctrl data).map Prod.fst).Nodup := by
  rw [celWords_keys]
  have buffer : ((List.range ((data.length + 3) / 4)).map fun (k : Nat) => Reg.MEM_CEL_PBUF k).Nodup :=
    List.nodup_range.map fun j k h => by simp only [Reg.MEM_CEL_PBUF] at h; omega
  refine List.nodup_cons.2 ⟨?_, List.nodup_cons.2 ⟨?_, buffer⟩⟩
  · simp only [List.mem_cons, List.mem_map, Reg.MEM_CEL_PADDR, Reg.MEM_CEL_PCTRL, Reg.MEM_CEL_PBUF]
    omega
  · simp only [List.mem_map, Reg.MEM_CEL_PCTRL, Reg.MEM_CEL_PBUF]
    omega

theorem celWords_regs (h : data.length ≤ 256) : ∀ w ∈ celWords paddr ctrl data, w.1 ∈ celRegs := by
  intro w hw
  have key := List.mem_map_of_mem (f := Prod.fst) hw
  rw [celWords_keys, List.mem_cons, List.mem_cons, List.mem_map] at key
  rcases key with e | e | ⟨k, hk, e⟩
  · rw [e]; decide
  · rw [e]; decide
  · rw [← e]
    have := List.mem_range.1 hk
    exact pbuf_mem_celRegs (by omega)

theorem celWords_buffer {k : Nat} (h : k < (data.length + 3) / 4) :
    (Reg.MEM_CEL_PBUF k, word (leBytes ((data.drop (4 * k)).take 4))) ∈ celWords paddr ctrl data :=
  List.mem_append_right _ (List.mem_map.2 ⟨k, List.mem_range.2 h, rfl⟩)

/-- The masks of the registers of a Cellar operation (R101). -/
theorem celRegs_masks : rwMask Reg.MEM_CEL_PADDR = 0x1FFFFFFF ∧ rwMask Reg.MEM_CEL_PCTRL = 0xFF03FF07 ∧
    ∀ k < 64, rwMask (Reg.MEM_CEL_PBUF k) = 0xFFFFFFFF := by decide

/-- The buffer begins with the bytes whose words it holds. -/
theorem celBuf_take {n : Nat} (fits : data.length ≤ 256) (covered : data.length ≤ n)
    (held : ∀ k < (data.length + 3) / 4, s.reg (Reg.MEM_CEL_PBUF k) = word (leBytes ((data.drop (4 * k)).take 4))) :
    (s.celBuf n).take data.length = data := by
  have four : ∀ k ∈ List.range 64, (bytesLE 4 (s.reg (Reg.MEM_CEL_PBUF k)).toNat).length = 4 := fun _ _ => bytesLE_length _ _
  have size := length_flatMap_chunks (List.range 64) four
  rw [List.length_range] at size
  rw [celBuf, List.take_take, Nat.min_eq_left covered]
  refine List.ext_getElem? fun i => ?_
  by_cases hi : i < data.length
  case neg => rw [List.getElem?_eq_none (by simp only [List.length_take]; omega), List.getElem?_eq_none (by omega)]
  have chunk := chunk_flatMap (List.range 64) four (List.getElem?_range (show i / 4 < 64 by omega))
  have bytes := take_bytesLE_leBytes ((data.drop (4 * (i / 4))).take 4) (List.length_take_le 4 _)
  have small : leBytes ((data.drop (4 * (i / 4))).take 4) < 2 ^ 32 :=
    Nat.lt_of_lt_of_le (leBytes_lt _) (Nat.pow_le_pow_right (by decide) (List.length_take_le 4 _))
  rw [held _ (by omega), word, BitVec.toNat_ofNat, Nat.mod_eq_of_lt small] at chunk
  have here : 4 * (i / 4) + i % 4 = i := Nat.div_add_mod i 4
  calc (((List.range 64).flatMap fun k => bytesLE 4 (s.reg (Reg.MEM_CEL_PBUF k)).toNat).take data.length)[i]?
      = ((((List.range 64).flatMap fun k => bytesLE 4 (s.reg (Reg.MEM_CEL_PBUF k)).toNat).drop (4 * (i / 4))).take 4)[i % 4]? := by
        rw [List.getElem?_take_of_lt hi, List.getElem?_take_of_lt (Nat.mod_lt _ (by decide)), List.getElem?_drop, here]
    _ = ((bytesLE 4 (leBytes ((data.drop (4 * (i / 4))).take 4))).take ((data.drop (4 * (i / 4))).take 4).length)[i % 4]? := by
        rw [chunk, List.getElem?_take_of_lt (by simp; omega)]
    _ = data[i]? := by
        rw [bytes, List.getElem?_take_of_lt (Nat.mod_lt _ (by decide)), List.getElem?_drop, here]

/-! ### The checks -/

theorem celRangeOk_congr (h : t.reg Reg.MEM_CEL_CFG = s.reg Reg.MEM_CEL_CFG) (op a len : Nat) (d : Bool) :
    t.celRangeOk op a len d = s.celRangeOk op a len d := by
  have size : cellarSize t = cellarSize s := by rw [cellarSize, fld, h, cellarSize, fld]
  unfold celRangeOk
  rw [size]

/-- Which crates lanes use is no matter of block MEM (R90, R402). -/
theorem crateInUse_congr (only : Only [.order, .regs] s t) (regs : RegsIn [15] s t) (r : Nat × Nat) :
    t.crateInUse r = s.crateInUse r := by
  have mem : t.mem = s.mem := mem_of_only only (by decide) (by decide) (by decide)
  have lanes : t.plc = s.plc := only.part .plc (by decide)
  have renders : t.cmp = s.cmp := only.part .cmp (by decide)
  have hat : t.hat = s.hat := only.part .hat (by decide)
  have job (n : Lane) : t.reg (Reg.PLC_JOB n) = s.reg (Reg.PLC_JOB n) :=
    regs _ (by have := n.isLt; simp only [Reg.PLC_JOB, List.mem_singleton]; omega)
  have crates (n : Lane) : t.laneCrates n = s.laneCrates n := by
    unfold laneCrates lane
    rw [job, lanes, renders]
  have extent (k : Nat) : t.crateExtent k = s.crateExtent k := by rw [crateExtent, mem, crateExtent]
  unfold crateInUse laneState
  simp only [crates, extent, hat]

/-! ### The start -/

/-- The state at PGO, once the words before it are placed and PGO has committed. -/
def celReady (s : State) (paddr ctrl : Word) (data : List Byte) : State := ((celWords paddr ctrl data).foldl placed s).commit

theorem celReady_only (s : State) (paddr ctrl : Word) (data : List Byte) : Only [.order, .regs] s (s.celReady paddr ctrl data) :=
  (only_commit (by decide)).2 placedAll_only

theorem celReady_in (fits : data.length ≤ 256) : RegsIn [15] s (s.celReady paddr ctrl data) :=
  regsIn_commit.2 (placedAll_in (celWords_regs fits))

theorem celReady_reg_other (fits : data.length ≤ 256) {a : Nat} (h : a ∉ celRegs) : (s.celReady paddr ctrl data).reg a = s.reg a :=
  (commit_reg _ _).trans (placedAll_reg_other fun w hw e => h (e ▸ celWords_regs fits w hw))

/-- The fields that PGO reads are those written (R101). -/
theorem celReady_fields {op len : Nat} (v d : Bool) (b : Byte) (hop : op < 8) (hlen : len < 256) :
    (s.celReady paddr (celCtrl op len v d b) data).fld Reg.MEM_CEL_PADDR 28 0 = bits paddr 28 0 ∧
    bits ((s.celReady paddr (celCtrl op len v d b) data).reg Reg.MEM_CEL_PCTRL) 2 0 = op ∧
    bits ((s.celReady paddr (celCtrl op len v d b) data).reg Reg.MEM_CEL_PCTRL) 15 8 = len ∧
    bit ((s.celReady paddr (celCtrl op len v d b) data).reg Reg.MEM_CEL_PCTRL) 17 = d := by
  obtain ⟨maskAddr, maskCtrl, -⟩ := celRegs_masks
  obtain ⟨kind, length, bare⟩ := celCtrl_fields v d b hop hlen
  have addr : (s.celReady paddr (celCtrl op len v d b) data).reg Reg.MEM_CEL_PADDR = _ :=
    (commit_reg _ _).trans (placedAll_reg celWords_apart (v := paddr) (by simp [celWords]))
  have ctrl : (s.celReady paddr (celCtrl op len v d b) data).reg Reg.MEM_CEL_PCTRL = _ :=
    (commit_reg _ _).trans (placedAll_reg celWords_apart (v := celCtrl op len v d b) (by simp [celWords]))
  rw [fld, addr, ctrl, maskAddr, maskCtrl, bits_placed _ _ (by decide), bits_placed _ _ (by decide), bits_placed _ _ (by decide), bit_placed]
  exact ⟨rfl, kind, length, bare⟩

theorem celReady_buffer (fits : data.length ≤ 256) {k : Nat} (h : k < (data.length + 3) / 4) :
    (s.celReady paddr ctrl data).reg (Reg.MEM_CEL_PBUF k) = word (leBytes ((data.drop (4 * k)).take 4)) := by
  obtain ⟨-, -, mask⟩ := celRegs_masks
  have placed := placedAll_reg (s := s) (celWords_apart (paddr := paddr) (ctrl := ctrl)) (celWords_buffer h)
  rw [mask k (by omega), placed_full] at placed
  exact (commit_reg _ _).trans placed

/-- A channel that may execute places its words and pulls PGO (R89). -/
theorem celOp_eq (runs : s.mayExecute c = true) (live : s.isolated 3 = false) (fits : data.length ≤ 256) {u : State}
    (go : (s.celReady paddr ctrl data).celGo = (u, true)) : s.celOp c paddr ctrl data = u := by
  have alive : ((celWords paddr ctrl data).foldl placed s).isolated 3 = false := by
    rw [isolated_of_regsIn (placedAll_in (celWords_regs fits)) (by decide), live]
  have pulled : ((celWords paddr ctrl data).foldl placed s).hoistReg Reg.MEM_CEL_PGO 1 = some u := by
    rw [hoistReg, portOf_celReg (.inl rfl), alive, if_neg Bool.false_ne_true, if_pos rfl, if_pos (by decide)]
    rw [celReady] at go
    rw [go]
  have writes : s.celOp c paddr ctrl data = celWrites c (celWords paddr ctrl data ++ [(Reg.MEM_CEL_PGO, 1)]) s := if_pos runs
  rw [writes, celWrites_placed (celWords_regs fits) live, celWrites, pulled]
  rfl

/-- The start of an operation whose checks pass (R89, R90). -/
theorem celOp_starts {op len : Nat} {v d : Bool} {b : Byte} (runs : s.mayExecute c = true) (live : s.isolated 3 = false)
    (idle : s.mem.celRun = none) (hop : op < 8) (hlen : len < 256) (fits : data.length ≤ 256) (covered : data.length ≤ len + 1)
    (range : s.celRangeOk op (bits paddr 28 0) len d = true)
    (free : op ≠ 4 → s.crateInUse (celRange op (bits paddr 28 0) len) = false) :
    ∃ (u : State) (r : CelRun), s.celOp c paddr (celCtrl op len v d b) data = u ∧ u.mem.celRun = some r ∧ r.op = op ∧
      r.addr = bits paddr 28 0 ∧ r.pollAt = s.tick + s.fld Reg.MEM_CEL_POLL 15 8 * 100 ∧
      r.timeoutAt = s.tick + s.fld Reg.MEM_CEL_POLL 31 20 * 100000 ∧ r.data.take data.length = data ∧
      u.fld Reg.MEM_CEL_PSTAT 7 4 = 1 ∧ u.mem.cellar = s.mem.cellar ∧ u.mem.larder = s.mem.larder ∧
      Only (.flash :: .crates :: messageParts) s u := by
  obtain ⟨addr, kind, length, bare⟩ := celReady_fields (s := s) (paddr := paddr) (data := data) v d b hop hlen
  have ready : Only [.order, .regs] s (s.celReady paddr (celCtrl op len v d b) data) := celReady_only _ _ _ _
  have regs : RegsIn [15] s (s.celReady paddr (celCtrl op len v d b) data) := celReady_in fits
  have other {a : Nat} (h : a ∉ celRegs) : (s.celReady paddr (celCtrl op len v d b) data).reg a = s.reg a := celReady_reg_other fits h
  have buffer {k : Nat} (h : k < (data.length + 3) / 4) := celReady_buffer (s := s) (paddr := paddr) (ctrl := celCtrl op len v d b) fits h
  generalize ht : s.celReady paddr (celCtrl op len v d b) data = t at addr kind length bare ready regs other buffer
  have mem : t.mem = s.mem := mem_of_only ready (by decide) (by decide) (by decide)
  have tick : t.tick = s.tick := ready.part .tick (by decide)
  have poll (hi lo : Nat) : t.fld Reg.MEM_CEL_POLL hi lo = s.fld Reg.MEM_CEL_POLL hi lo := by rw [fld, other (by decide), fld]
  have go := celGo_passes (s := t) (by rw [mem, idle]) addr kind length bare
    (by rw [celRangeOk_congr (other (by decide)), range]) fun h => by rw [crateInUse_congr ready regs, free h]
  have sent := celSent_only t op (bits paddr 28 0) len d
  have sentMem : (t.celSent op (bits paddr 28 0) len d).mem = s.mem := (mem_of_only sent (by decide) (by decide) (by decide)).trans mem
  refine ⟨_, _, celOp_eq runs live fits ((congrArg celGo ht).trans go), rfl, rfl, rfl, ?_, ?_,
    celBuf_take fits covered fun k hk => buffer hk, ?_, (congrArg Mem.cellar sentMem :),
    (congrArg Mem.larder sentMem :), ?_⟩
  · exact congrArg₂ (fun a b => a + b * 100) tick (poll 15 8)
  · exact congrArg₂ (fun a b => a + b * 100000) tick (poll 31 20)
  · have shown : (t.setFld Reg.MEM_CEL_PSTAT 7 4 1).fld Reg.MEM_CEL_PSTAT 7 4 = 1 := setFld_fld_same _ _ (by decide) (by decide)
    rw [fld, ← celSent_reg t op (bits paddr 28 0) len d (by decide)] at shown
    exact shown
  · exact (ready.mono (by decide)).trans ((sent.mono (by decide)).trans ((celRun_only _ _).mono (by decide)))

end State

/-- Settles O21: each instruction is one operation of a channel, whose checks are those of the statement. -/
theorem cellarOperationStarts : Obligations.CellarOperationStarts := by
  intro s c runs live idle starts
  refine ⟨fun a data v nonempty fits range free => ?_, fun a v range free => ?_, fun a v range free => ?_, fun b data fits => ?_⟩
  · have size : 0 < data.length := List.length_pos_iff.2 nonempty
    have run : exec (.celProgram c a data v) s = s.finish (s.celOp c a (celCtrl 1 (data.length - 1) v false 0) data) := by
      rw [exec, execCelProgram, List.take_of_length_le fits]
    obtain ⟨u, r, started, rest⟩ := State.celOp_starts (v := v) (b := 0) runs live idle (by decide) (by omega) fits (by omega) range
      fun _ => free
    exact ⟨u, r, run.trans (congrArg s.finish started), rest⟩
  · obtain ⟨u, r, started, rest⟩ := State.celOp_starts (v := v) (b := 0) (data := []) runs live idle (by decide) (by decide) (by decide)
      (by decide) range fun _ => free
    exact ⟨u, r, congrArg s.finish started, rest⟩
  · obtain ⟨u, r, started, rest⟩ := State.celOp_starts (v := v) (b := 0) (data := []) runs live idle (by decide) (by decide) (by decide)
      (by decide) range fun _ => free
    exact ⟨u, r, congrArg s.finish started, rest⟩
  · have run : exec (.celCommand c b data) s =
        s.finish (s.celOp c 0 (celCtrl 4 (data.length - 1) false data.isEmpty b) data) := by
      rw [exec, execCelCommand, List.take_of_length_le fits]
    have range : s.celRangeOk 4 (bits 0 28 0) (data.length - 1) data.isEmpty = true := by
      have short : data.length - 1 ≤ 3 := by omega
      simp [State.celRangeOk, short]
    obtain ⟨u, r, started, rest⟩ := State.celOp_starts (paddr := 0) (v := false) (b := b) (data := data) runs live idle
      (by decide) (by omega) (by omega) (by omega)
      range fun h => absurd rfl h
    exact ⟨u, r, run.trans (congrArg s.finish started), rest⟩

end Sys2Proof.Machine
end

/-! ## Staged writes of the Loft -/

section
namespace Sys2Proof.Machine

theorem leBytes_bytesLE (n x : Nat) : leBytes (bytesLE n x) = x % 256 ^ n := by
  induction n generalizing x with
  | zero => simp [bytesLE, leBytes, Nat.mod_one]
  | succ n ih =>
    have low : (BitVec.ofNat 8 x).toNat = x % 256 := BitVec.toNat_ofNat ..
    rw [bytesLE, leBytes, ih, low, Nat.pow_succ, Nat.mul_comm (256 ^ n), Nat.mod_mul]

namespace State

variable {s t u : State} {env : OpEnv}

/-! ### Writes of block MEM -/

section
variable {ws : Words} (block : ∀ w ∈ ws, w.1 / 0x1000 = 15)
include block

theorem jobLane_blockMem {w : Nat × Word} (hw : w ∈ ws) : jobLane w.1 = none := by
  have := block w hw
  exact if_neg (by omega)

theorem touchesLatched_blockMem (n : Lane) : touchesLatched ws n = false := by
  have := n.isLt
  refine List.any_eq_false.2 fun w hw => ?_
  have := block w hw
  simp only [Bool.or_eq_true, decide_eq_true_eq, Reg.PLC_JOB, Reg.PLC_MARK_BASE, Reg.CMP_GCACHE, Reg.CAL_SHELF, Reg.CAL_DATE_OVR]
  omega

theorem touchesTable_blockMem (h : Head) : touchesTable ws h = false := by
  have := h.isLt
  refine List.any_eq_false.2 fun w hw => ?_
  have := block w hw
  have none_ : selectsJob w = false := selectsJob_none (jobLane_blockMem block hw) w.2
  simp only [none_, Bool.and_false, Bool.or_eq_true, decide_eq_true_eq, Bool.false_eq_true, or_false]
  simp only [Reg.HED_WF, Reg.HED_SCALE, waveBase]
  omega

theorem lappedBy_blockMem (t : TimerId) (u : State) : u.lappedBy t ws = 0 := by
  have untouched : ∀ c ∈ List.range 4,
      (ws.any fun w => decide (w.1 = Reg.TMR_VAL_LO t c) || decide (w.1 = Reg.TMR_VAL_HI t c)) = false := by
    intro c hc
    have := List.mem_range.1 hc
    have := t.isLt
    refine List.any_eq_false.2 fun w hw => ?_
    have := block w hw
    simp only [Bool.or_eq_true, decide_eq_true_eq, Reg.TMR_VAL_LO, Reg.TMR_VAL_HI]
    omega
  have none_ : (List.range 4).map (fun (c : Nat) =>
      if (ws.any fun w => decide (w.1 = Reg.TMR_VAL_LO t c) || decide (w.1 = Reg.TMR_VAL_HI t c)) &&
        decide (u.tmMode t c = 1) && decide (((u.timer t).count - u.tmVal t c).toNat < 2 ^ 47) then 2 ^ (12 + c) else 0) =
      (List.range 4).map fun _ => 0 :=
    List.map_congr_left fun c hc => by rw [untouched c hc]; rfl
  rw [lappedBy, none_]
  rfl

theorem setLapped_blockMem (u : State) : u.setLapped ws = u :=
  List.foldl_fixed' (fun t => by rw [lappedBy_blockMem block, if_pos rfl]) _

/-- Words of block MEM without flags are placed, and nothing else is stored. -/
theorem storeWords_blockMem (plain : ∀ w ∈ ws, w1gMask w.1 = 0) (m : MemEnv) : s.storeWords m ws = s.placeWords ws := by
  have fixed {f : State → Nat × Word → State} (hf : ∀ (v : State), ∀ w ∈ ws, f v w = v) (v : State) : ws.foldl f v = v :=
    (List.foldl_ext f (fun v _ => v) v hf).trans (List.foldl_fixed _)
  have all : (ws.filter fun w => !(jobLane w.1).isSome) = ws :=
    List.filter_eq_self.2 fun w hw => by rw [jobLane_blockMem block hw]; rfl
  unfold storeWords
  dsimp only
  refine (fixed (fun v w hw => ?_) _).trans ?_
  · have := block w hw
    rw [if_neg (by omega), if_neg (by omega), if_pos (by rw [plain w hw]; simp)]
  · rw [all, fixed fun v w hw => ?_]
    rw [jobLane_blockMem block hw]

/-- What a write of live words of block MEM makes: they are placed, one commit, and what each starts. -/
theorem makeWrite_blockMem (plain : ∀ w ∈ ws, w1gMask w.1 = 0) (live : ∀ w ∈ ws, s.moot w = false) (nonempty : ws ≠ []) :
    s.makeWrite env ws = (ws.foldl (fun u w => effect s env u w) (s.placeWords ws).commit, s.order + 1) := by
  have fresh : ∀ w ∈ ws, s.staleClear w = false := fun w hw => by simp [staleClear, plain w hw]
  have noStale : ws.filter s.staleClear = [] := List.filter_eq_nil_iff.2 fun w hw => by simp [fresh w hw]
  have allFresh : (ws.filter fun w => !s.staleClear w) = ws := List.filter_eq_self.2 fun w hw => by simp [fresh w hw]
  have allLive : (ws.filter fun w => !s.moot w) = ws := List.filter_eq_self.2 fun w hw => by simp [live w hw]
  have late (v : State) : allLanes.foldl (fun (s : State) (n : Lane) => if touchesLatched ws n then s.commitLate n else s) v = v :=
    List.foldl_fixed' (fun n => by rw [touchesLatched_blockMem block]; rfl) _
  have table (v : State) : allLanes.foldl (fun (s : State) (n : Lane) => if touchesTable ws n then s.checkTable n else s) v = v :=
    List.foldl_fixed' (fun n => by rw [touchesTable_blockMem block]; rfl) _
  have order : (s.placeWords ws).order = s.order := (placeWords_only ws).part .order (by decide)
  unfold makeWrite
  simp only [noStale, allLive, allFresh, List.foldl_nil, List.isEmpty_iff, nonempty, if_false]
  rw [storeWords_blockMem block plain, setLapped_blockMem block, startAll]
  rw [late, table, commit_order, order]

end

theorem placeWords_in {ws : Words} (block : ∀ w ∈ ws, w.1 / 0x1000 = 15) : RegsIn [15] s (s.placeWords ws) :=
  RegsIn.foldl_mem _ _ fun v w hw => regsIn_ite (RegsIn.refl _ _) ((regsIn_setReg _ _ (by simp [block w hw])).2 (RegsIn.refl _ _))

/-- What a word of block MEM starts at its commit. -/
theorem effect_blockMem {w : Nat × Word} (block : w.1 / 0x1000 = 15) (u : State) :
    effect s env u w = if w.1 = Reg.MEM_LFT_GO ∧ bit w.2 0 = true then u.lftGo env.mem else u := by
  unfold effect
  dsimp only
  rw [if_neg (by omega), block]
  rfl

/-- A word of block MEM without flags is live where it has fields or pulls a trigger. -/
theorem moot_blockMem {w : Nat × Word} (block : w.1 / 0x1000 = 15) (plain : w1gMask w.1 = 0) :
    s.moot w = if rwMask w.1 ≠ 0 then false else decide (w.2 &&& wtMask w.1 = 0) := by
  unfold moot mootCommand
  dsimp only
  rw [if_neg (by omega), if_neg (by simp only [Reg.PWR_REQ]; omega), if_neg (by simp only [Reg.FLT_RELEASE]; omega), if_neg (by omega),
    if_neg (not_not_intro plain)]
  split
  · rfl
  · rw [if_neg (by omega), if_neg (by omega), if_neg (by omega), if_neg (by omega), if_neg (by omega)]

/-! ### The registers of a staged write -/

/-- The words of the owner's staged write (R93). -/
def stagedWords (src dst len : Word) : Words :=
  [(Reg.MEM_LFT_SSRC, src), (Reg.MEM_LFT_SDST, dst), (Reg.MEM_LFT_SLEN, len), (Reg.MEM_LFT_GO, 1)]

theorem wordsAt_staged (src dst len : Word) : wordsAt Reg.MEM_LFT_SSRC [src, dst, len, 1] = stagedWords src dst len := rfl

variable {src dst len : Word}

theorem staged_block : ∀ w ∈ stagedWords src dst len, w.1 / 0x1000 = 15 := by
  simp [stagedWords, Reg.MEM_LFT_SSRC, Reg.MEM_LFT_SDST, Reg.MEM_LFT_SLEN, Reg.MEM_LFT_GO]

/-- The masks of the registers of a staged write (R101). -/
theorem staged_masks : rwMask Reg.MEM_LFT_SSRC = 0xFFFFFFFF ∧ rwMask Reg.MEM_LFT_SDST = 0x3FFFF ∧ rwMask Reg.MEM_LFT_SLEN = 0x7FFF ∧
    rwMask Reg.MEM_LFT_GO = 0 ∧ wtMask Reg.MEM_LFT_GO = 1 := by decide

theorem staged_plain : ∀ w ∈ stagedWords src dst len, w1gMask w.1 = 0 := by
  have masks : ∀ a ∈ [Reg.MEM_LFT_SSRC, Reg.MEM_LFT_SDST, Reg.MEM_LFT_SLEN, Reg.MEM_LFT_GO], w1gMask a = 0 := by decide
  intro w hw
  refine masks w.1 ?_
  simpa [stagedWords] using List.mem_map_of_mem (f := Prod.fst) hw

theorem staged_live : ∀ w ∈ stagedWords src dst len, s.moot w = false := by
  obtain ⟨rwSrc, rwDst, rwLen, rwGo, wtGo⟩ := staged_masks
  have plain := staged_plain (src := src) (dst := dst) (len := len)
  intro w hw
  rw [moot_blockMem (staged_block w hw) (plain w hw)]
  simp only [stagedWords, List.mem_cons, List.not_mem_nil, or_false] at hw
  rcases hw with rfl | rfl | rfl | rfl
  · rw [rwSrc]; rfl
  · rw [rwDst]; rfl
  · rw [rwLen]; rfl
  · rw [rwGo, wtGo]; rfl

/-- The state in which the copy of a staged write starts: its words are placed, with one commit. -/
def stagedPlaced (s : State) (src dst len : Word) : State := (s.placeWords (stagedWords src dst len)).commit

/-- The words of a staged write start the copy once they are placed (R93). -/
theorem makeWrite_staged : s.makeWrite env (stagedWords src dst len) =
    ((s.stagedPlaced src dst len).lftGo env.mem, s.order + 1) := by
  rw [makeWrite_blockMem staged_block staged_plain staged_live (List.cons_ne_nil _ _)]
  simp only [stagedWords, List.foldl_cons, List.foldl_nil]
  have own {a : Nat} (v : Word) (u : State) (h : a / 0x1000 = 15) : effect s env u (a, v) =
      if a = Reg.MEM_LFT_GO ∧ bit v 0 = true then u.lftGo env.mem else u := effect_blockMem h u
  rw [own src _ (by decide), own dst _ (by decide), own len _ (by decide), own 1 _ (by decide)]
  rfl

theorem stagedPlaced_only (s : State) (src dst len : Word) : Only [.order, .regs] s (s.stagedPlaced src dst len) := by
  rw [stagedPlaced, only_commit (by decide)]
  exact (placeWords_only _).mono (by decide)

theorem stagedPlaced_in (s : State) (src dst len : Word) : RegsIn [15] s (s.stagedPlaced src dst len) := by
  rw [stagedPlaced, regsIn_commit]
  exact placeWords_in staged_block

theorem stagedPlaced_regs (s : State) (src dst len : Word) : (s.stagedPlaced src dst len).reg Reg.MEM_LFT_SSRC = src ∧
    (s.stagedPlaced src dst len).fld Reg.MEM_LFT_SDST 17 0 = bits dst 17 0 ∧
    (s.stagedPlaced src dst len).fld Reg.MEM_LFT_SLEN 14 0 = bits len 14 0 := by
  obtain ⟨rwSrc, rwDst, rwLen, -, -⟩ := staged_masks
  have word (a : Nat) (v : Word) (u : State) (ws : Words) (ha : 0xF000 ≤ a ∧ a < 0x10000) :
      u.placeWords ((a, v) :: ws) = (u.setReg a ((u.reg a &&& ~~~(rwMask a)) ||| (v &&& rwMask a))).placeWords ws := by
    rw [placeWords, List.foldl_cons, if_neg (by dsimp only; omega)]
    rfl
  have nil (u : State) : u.placeWords [] = u := rfl
  have kept (a : Nat) : (s.stagedPlaced src dst len).reg a = (s.placeWords (stagedWords src dst len)).reg a := commit_reg _ _
  rw [fld, fld, kept, kept, kept, stagedWords]
  rw [word _ _ _ _ (by decide), word _ _ _ _ (by decide), word _ _ _ _ (by decide), word _ _ _ _ (by decide), nil]
  refine ⟨?_, ?_, ?_⟩
  · rw [setReg_reg_other _ _ _ _ (by decide), setReg_reg_other _ _ _ _ (by decide), setReg_reg_other _ _ _ _ (by decide),
      setReg_reg_same, rwSrc, placed_full]
  · rw [setReg_reg_other _ _ _ _ (by decide), setReg_reg_other _ _ _ _ (by decide), setReg_reg_same, rwDst]
    exact bits_placed _ _ (by decide)
  · rw [setReg_reg_other _ _ _ _ (by decide), setReg_reg_same, rwLen]
    exact bits_placed _ _ (by decide)

/-! ### The copy of the source -/

/-- The bytes of a Larder range (R94). -/
def sourceBytes (s : State) (src len : Nat) : List Byte :=
  (List.range (len / 8)).flatMap fun k => bytesLE 8 ((s.mem.word64 (larderIdx src + k)).getD 0).toNat

theorem sourceBytes_length (s : State) (src len : Nat) : (s.sourceBytes src len).length = 8 * (len / 8) := by
  rw [sourceBytes, length_flatMap_chunks _ fun _ _ => bytesLE_length _ _, List.length_range]

/-- The source is copied word by word. -/
theorem sourceBytes_word (s : State) (src len : Nat) {k : Nat} (hk : k < len / 8)
    (valid : (s.mem.word64 (larderIdx src + k)).isSome = true) :
    s.mem.word64 (larderIdx src + k) = some (BitVec.ofNat 64 (leBytes (((s.sourceBytes src len).drop (8 * k)).take 8))) := by
  obtain ⟨w, hw⟩ := Option.isSome_iff_exists.1 valid
  have chunk : ((s.sourceBytes src len).drop (8 * k)).take 8 = bytesLE 8 ((s.mem.word64 (larderIdx src + k)).getD 0).toNat :=
    chunk_flatMap (List.range (len / 8)) (fun _ _ => bytesLE_length _ _) (by simp [hk])
  rw [chunk, hw, Option.getD_some, leBytes_bytesLE, Nat.mod_eq_of_lt (show w.toNat < 256 ^ 8 by have := w.isLt; omega),
    BitVec.ofNat_toNat, BitVec.setWidth_eq]

/-- No word of a range fails where none is void and no error is detected (R77, R79). -/
theorem badWords_valid {m : MemEnv} (quiet : m.ecc = []) {n : Nat} : ∀ {a : Nat}, larderBase ≤ a →
    (∀ k < n, (s.mem.word64 (larderIdx a + k)).isSome = true) → s.badWords m a n = [] := by
  induction n with
  | zero => exact fun _ _ => rfl
  | succ n ih =>
    intro a ha valid
    obtain ⟨w, hw⟩ := Option.isSome_iff_exists.1 (valid 0 (Nat.succ_pos n))
    have next : larderIdx (a + 8) = larderIdx a + 1 := by unfold larderIdx; omega
    have read : readLarder s.mem m a 8 = .ok (sliceWord w (a % 8) 8) := by
      rw [Nat.add_zero] at hw
      simp [readLarder, hw, hasUe_nil quiet]
    rw [badWords, read]
    exact ih (by omega) fun k hk => by rw [next, Nat.add_assoc, Nat.add_comm 1]; exact valid (k + 1) (by omega)

/-- What a frame without the parts of the Pantry keeps of it: everything. -/
theorem pwr_of_only {l : List Part} (h : Only l s t) (hp : .pwr ∉ l) (he : .energy ∉ l) : t.pwr = s.pwr := by
  have rest : { t.pwr with live := [], spent := [], refused := false } = { s.pwr with live := [], spent := [], refused := false } :=
    h.part .pwr hp
  obtain ⟨live, spent, refused⟩ : t.pwr.live = s.pwr.live ∧ t.pwr.spent = s.pwr.spent ∧ t.pwr.refused = s.pwr.refused :=
    h.part .energy he
  calc t.pwr = { ({ t.pwr with live := [], spent := [], refused := false } : Pantry) with
        live := t.pwr.live, spent := t.pwr.spent, refused := t.pwr.refused } := rfl
    _ = s.pwr := by rw [rest, live, spent, refused]

/-- Whether energy is granted is a matter of the Pantry and of the registers of block PWR (R136). -/
theorem wouldGrant_congr {l : List Nat} (pwr : t.pwr = s.pwr) (regs : RegsIn l s t) (h : 3 ∉ l) (b : Bool) (e : Nat) :
    t.wouldGrant b e = s.wouldGrant b e := by
  have low (hi lo : Nat) : t.fld Reg.PWR_RES_LOW hi lo = s.fld Reg.PWR_RES_LOW hi lo := fld_of_regsIn regs _ _ _ h
  have cap (hi lo : Nat) : t.fld Reg.PWR_RES_CAP hi lo = s.fld Reg.PWR_RES_CAP hi lo := fld_of_regsIn regs _ _ _ h
  have park : t.reg Reg.PWR_PARK = s.reg Reg.PWR_PARK := regs _ h
  have led : t.vLed = s.vLed := by unfold vLed vLow; rw [pwr]
  have eff : t.cEff = s.cEff := by unfold cEff; rw [cap, cap]
  have used : t.held = s.held := by unfold held; rw [pwr]
  have room : t.headroom = s.headroom := by unfold headroom; rw [led, eff, used, low, park]
  rw [wouldGrant, pwr, led, room, wouldGrant]

/-- The owner's staged write of a Larder range whose checks pass: reserved, in the internal buffer, and BUSY (R93, R94). -/
def stagedBy (s : State) (src dst len : Nat) : State :=
  ((s.grant (stagedHolder .owner) (stagedEnergy (s.sourceBytes src len).length)).stage .owner dst (s.sourceBytes src len)).lftResult 1

theorem lftGo_passes {m : MemEnv} {src dst len : Nat} (hs : (s.reg Reg.MEM_LFT_SSRC).toNat = src) (hd : s.fld Reg.MEM_LFT_SDST 17 0 = dst)
    (hl : s.fld Reg.MEM_LFT_SLEN 14 0 = len) (range : stagedRangeOk src dst len = true) (lo : larderBase ≤ src)
    (hi : src + len ≤ larderBase + 0x400000) (live : s.isolated 2 = false) (good : s.badWords m src (len / 8) = [])
    (energy : s.wouldGrant false (stagedEnergy (s.sourceBytes src len).length) = true) : s.lftGo m = s.stagedBy src dst len := by
  have reserved : s.stageReserved .owner dst (s.sourceBytes src len) =
      ((s.grant (stagedHolder .owner) (stagedEnergy (s.sourceBytes src len).length)).stage .owner dst (s.sourceBytes src len), true) :=
    if_pos energy
  subst hs hd hl
  rw [lftGo, if_neg (by simp [range]), if_neg (by simp [lo, hi, live])]
  dsimp only
  rw [good]
  dsimp only
  rw [sourceBytes] at reserved
  rw [reserved]
  rfl

theorem stagedBy_only (s : State) (src dst len : Nat) : Only [.order, .regs, .energy, .owed] s (s.stagedBy src dst len) := by
  have joins (v : State) (q : Staged) : Only [.owed] v (v.modMem fun m => { m with staged := m.staged ++ [q] }) :=
    modMem_only_of _ (fun _ => rfl) (fun _ => rfl) fun h => absurd (by decide) h
  have reserved := grant_only (u := s) (stagedHolder .owner) (stagedEnergy (s.sourceBytes src len).length)
  exact (reserved.mono (by decide)).trans (((joins _ _).mono (by decide)).trans ((setFld_only _ _ _ _).mono (by decide)))

theorem stagedBy_staged (s : State) (src dst len : Nat) :
    (s.stagedBy src dst len).mem.staged = s.mem.staged ++ [⟨.owner, dst, s.sourceBytes src len⟩] := rfl

theorem stagedBy_busy (s : State) (src dst len : Nat) : (s.stagedBy src dst len).fld Reg.MEM_LFT_STAT 7 4 = 1 :=
  setFld_fld_same _ _ (by decide) (by decide)

/-- The lengths that R93 admits are whole words. -/
theorem stagedRangeOk_length {src dst len : Nat} (h : stagedRangeOk src dst len = true) : 8 * (len / 8) = len := by
  simp only [stagedRangeOk, Bool.and_eq_true, decide_eq_true_eq] at h
  omega

/-- A staged write that passes the checks of R93 and R137 is copied and answered OK. -/
theorem makeWrite_staged_passes (range : stagedRangeOk src.toNat (bits dst 17 0) (bits len 14 0) = true) (lo : larderBase ≤ src.toNat)
    (hi : src.toNat + bits len 14 0 ≤ larderBase + 0x400000) (live : s.isolated 2 = false) (quiet : env.mem.ecc = [])
    (valid : ∀ k, k < bits len 14 0 / 8 → (s.mem.word64 (larderIdx src.toNat + k)).isSome = true)
    (energy : s.wouldGrant false (stagedEnergy (bits len 14 0)) = true) :
    s.makeWrite env (stagedWords src dst len) =
      ((s.stagedPlaced src dst len).stagedBy src.toNat (bits dst 17 0) (bits len 14 0), s.order + 1) := by
  obtain ⟨regSrc, fldDst, fldLen⟩ := s.stagedPlaced_regs src dst len
  rw [makeWrite_staged]
  generalize hv : s.stagedPlaced src dst len = v at regSrc fldDst fldLen
  have placed : Only [.order, .regs] s v := hv ▸ s.stagedPlaced_only src dst len
  have regs : RegsIn [15] s v := hv ▸ s.stagedPlaced_in src dst len
  have mem : v.mem = s.mem := mem_of_only placed (by decide) (by decide) (by decide)
  have alive : v.isolated 2 = false := by rw [isolated_of_regsIn regs (by decide), live]
  have good : v.badWords env.mem src.toNat (bits len 14 0 / 8) = [] := badWords_valid quiet lo fun k hk => by rw [mem]; exact valid k hk
  have granted : v.wouldGrant false (stagedEnergy (v.sourceBytes src.toNat (bits len 14 0)).length) = true := by
    rw [sourceBytes_length, stagedRangeOk_length range,
      wouldGrant_congr (pwr_of_only placed (by decide) (by decide)) regs (by decide), energy]
  rw [lftGo_passes (congrArg BitVec.toNat regSrc) fldDst fldLen range lo hi alive good granted]

/-! ### The switch and its failure -/

theorem lftResult_only (s : State) (r : Nat) : Only [.regs, .guards] s (s.lftResult r) := by
  unfold lftResult
  dsimp only
  split
  · simp (disch := decide)
  · split <;> simp (disch := decide)

/-- A result is shown, whatever flag comes with it (R101). -/
theorem lftResult_fld (s : State) {r : Nat} (h : r < 16) : (s.lftResult r).fld Reg.MEM_LFT_STAT 7 4 = r := by
  have shown : (s.setFld Reg.MEM_LFT_STAT 7 4 r).fld Reg.MEM_LFT_STAT 7 4 = r := setFld_fld_same _ _ (by decide) h
  unfold lftResult
  dsimp only
  split
  · rw [setFlag_fld _ _ (by decide) (by decide), shown]
  · split
    · rw [setFlag_fld _ _ (by decide) (by decide), shown]
    · exact shown

theorem lftResult_done (s : State) : (s.lftResult 2).rbit Reg.MEM_LFT_STAT 0 = true := setFlag_rbit_same _ _ (by decide)

theorem lftResult_failed (s : State) : (s.lftResult 6).rbit Reg.MEM_LFT_STAT 1 = true := setFlag_rbit_same _ _ (by decide)

theorem lftResult_mem (s : State) (r : Nat) : (s.lftResult r).mem = s.mem :=
  mem_of_only (lftResult_only s r) (by decide) (by decide) (by decide)

theorem debitAll_mem (s : State) (w : ResFor) : (s.debitAll w).mem = s.mem :=
  mem_of_only (debitAll_only w) (by decide) (by decide) (by decide)

/-- The memories once the oldest staged write has switched (R94, R97). -/
def loftSwitched (m : Mem) (w : Staged) : Mem :=
  let m := m.setLoftBytes w.offset w.data
  { m with staged := m.staged.drop 1, wear := m.wear + w.data.length / 64 }

theorem setLoftBytes_rest (l : List Byte) : ∀ (m : Mem) (o : Nat), m.setLoftBytes o l = { m with loft := (m.setLoftBytes o l).loft } := by
  induction l with
  | nil => exact fun _ _ => rfl
  | cons b l ih => exact fun m o => ih (m.setLoftByte o b) (o + 1)

theorem loftSwitched_staged (m : Mem) (w : Staged) : (loftSwitched m w).staged = m.staged.drop 1 := by
  have rest := setLoftBytes_rest w.data m w.offset
  exact (congrArg (fun x : Mem => x.staged.drop 1) rest :)

theorem loftSwitched_only (s : State) (w : Staged) : Only [.flash, .owed] s (s.modMem fun m => loftSwitched m w) :=
  modMem_only_of _ (fun _ => (congrArg Mem.larder (setLoftBytes_rest w.data s.mem w.offset) :)) (fun h => absurd (by decide) h)
    fun h => absurd (by decide) h

/-- The switch before its message: the bytes, the wear, and the debit. -/
def lftDebited (s : State) (w : Staged) : State :=
  let t := s.modMem fun m => loftSwitched m w
  (t.setReg Reg.MEM_LFT_WEAR (word t.wearPermille)).debitAll (stagedHolder w.who)

theorem lftSwitch_eq (s : State) (w : Staged) : s.lftSwitch w =
    if s.wearPermille < 1000 ∧ (s.lftDebited w).wearPermille = 1000 then (s.lftDebited w).raise Kind.lftWorn 0 else s.lftDebited w := rfl

theorem lftSwitch_mem (s : State) (w : Staged) : (s.lftSwitch w).mem = loftSwitched s.mem w := by
  have debited : (s.lftDebited w).mem = loftSwitched s.mem w := debitAll_mem _ _
  rw [lftSwitch_eq]
  split
  · rw [raise_mem, debited]
  · exact debited

theorem lftSwitch_only (s : State) (w : Staged) : Only (.energy :: .flash :: .owed :: messageParts) s (s.lftSwitch w) := by
  have debited : Only (.energy :: .flash :: .owed :: messageParts) s (s.lftDebited w) :=
    ((loftSwitched_only s w).mono (by decide)).trans (((setReg_only _ _).mono (by decide)).trans ((debitAll_only _).mono (by decide)))
  rw [lftSwitch_eq]
  exact only_ite ((only_raise _ _ (by decide)).2 debited) debited

theorem dropStaged_only (s : State) : Only [.owed] s (s.modMem fun m => { m with staged := m.staged.drop 1 }) :=
  modMem_only_of _ (fun _ => rfl) (fun _ => rfl) fun h => absurd (by decide) h

theorem lftFail_mem (s : State) (w : Staged) : (s.lftFail w).mem = { s.mem with staged := s.mem.staged.drop 1 } := by
  rw [lftFail, raise_mem, debitAll_mem]
  rfl

theorem lftFail_only (s : State) (w : Staged) : Only (.energy :: .owed :: messageParts) s (s.lftFail w) :=
  (only_raise _ _ (by decide)).2 (((dropStaged_only s).mono (by decide)).trans ((debitAll_only _).mono (by decide)))

/-- The registers that a failed staged write changes are those of its message. -/
theorem lftFail_in (s : State) (w : Staged) : RegsIn [4] s (s.lftFail w) := by
  have debited : RegsIn [4] s ((s.modMem fun m => { m with staged := m.staged.drop 1 }).debitAll (stagedHolder w.who)) :=
    (regsIn_of_only (debitAll_only _) (by decide)).2 (RegsIn.refl _ s)
  exact (regsIn_raise _ _ (by decide)).2 debited

/-! ### What the requester gets -/

theorem answerKey_mem (s : State) (i : Sess) (q : BitVec 16) (t : BitVec 6) (owed : Bool) (c : Code) :
    (s.answerKey i q t owed c).mem = s.mem := by
  have answered : Only replyParts s (s.answerKey i q t owed c) := only_ite (respond_only _ _ rfl) (Only.refl _ _)
  exact mem_of_only answered (by decide) (by decide) (by decide)

theorem keyChanged_mem (s : State) (k : Nat) : (s.keyChanged k).mem = s.mem := by
  unfold keyChanged
  dsimp only
  generalize hv : (List.range 8).foldl _ s = v
  have dropped : Only [.regs] s v := hv ▸ Only.foldl (fun v e => only_ite (verDrop_only v e) (Only.refl _ _)) _ _
  have mem : v.mem = s.mem := mem_of_only dropped (by decide) (by decide) (by decide)
  split
  · exact mem
  · split
    · exact mem
    · exact mem

/-- The Loft outlives the core's power (R95, R164). -/
theorem goDark_loft (s : State) (cause : Nat) : (s.goDark cause).mem.loft = s.mem.loft := by
  have prior : s.copyPrior.mem = s.mem := mem_of_only copyPrior_only (by decide) (by decide) (by decide)
  have off : s.coreOff.mem.loft = s.copyPrior.celCut.mem.loft := by
    rw [coreOff, mem_of_only (pins_only openPins none) (by decide) (by decide) (by decide),
      mem_of_only (pins_only lowPins none) (by decide) (by decide) (by decide)]
    rfl
  have rail (v : State) (b : Bool) : (v.setRail b).mem = v.mem := by
    unfold setRail
    split <;> rfl
  have last (v : State) (f : Boot → Boot) (g : Pantry → Pantry) : ((v.modBoot f).modPwr g).mem = v.mem := rfl
  rw [goDark, last, rail, setFld_mem, off, celCut_loft, prior]

theorem switched_loft (s : State) (w : Staged) : (s.switched w).mem.loft = s.mem.loft := by
  have classes (v : State) : v.classKeys.mem = v.mem := by rw [classKeys, setReg_mem]
  unfold switched
  cases w.who with
  | owner => dsimp only; rw [commit_mem, lftResult_mem]
  | key i q t k owed => dsimp only; rw [answerKey_mem, commit_mem, classes, keyChanged_mem]
  | map h => rfl
  | fires h => rfl
  | ckpt final =>
    cases final with
    | false => rfl
    | true => exact goDark_loft _ 1

theorem unswitched_mem (s : State) (w : Staged) : (s.unswitched w).mem = { s.mem with staged := s.mem.staged.drop 1 } := by
  unfold unswitched
  cases w.who with
  | owner => dsimp only; rw [lftFail_mem, lftResult_mem]
  | key i q t k owed => dsimp only; rw [answerKey_mem, lftFail_mem]
  | map h => exact lftFail_mem s w
  | fires h => exact lftFail_mem s w
  | ckpt final => exact lftFail_mem s w

/-! ### The two outcomes of a staged write -/

section
variable {w : Staged} {rest : List Staged} (on : s.coreOn = true) (oldest : s.mem.staged = w :: rest)
include on oldest

theorem loftMapSwitch_switches : ∃ u : State, exec (.loftMapSwitch true) s = .next (s.after u) ∧
    u.mem.loftBytes w.offset w.data.length = w.data ∧
    (∀ a, (a < w.offset ∨ w.offset + w.data.length ≤ a) → u.mem.loftByte a = s.mem.loftByte a) ∧
    (w.who = .owner → u.fld Reg.MEM_LFT_STAT 7 4 = 2 ∧ u.rbit Reg.MEM_LFT_STAT 0 = true ∧ u.mem.staged = rest ∧
      Only (.energy :: .flash :: .owed :: messageParts) s u) := by
  have run : exec (.loftMapSwitch true) s = s.finish ((s.lftSwitch w).switched w) := by
    rw [exec, execLoftMapSwitch, oldest]
    dsimp only
    rw [if_pos on, if_pos rfl]
  have loft : ((s.lftSwitch w).switched w).mem.loft = (s.mem.setLoftBytes w.offset w.data).loft := by
    rw [switched_loft, lftSwitch_mem]
    rfl
  have byte (a : Nat) : ((s.lftSwitch w).switched w).mem.loftByte a = (s.mem.setLoftBytes w.offset w.data).loftByte a := by
    rw [Mem.loftByte, loft, Mem.loftByte]
  refine ⟨_, run, ?_, fun a ha => ?_, fun owner => ?_⟩
  · simp only [Mem.loftBytes, byte]
    exact Mem.loftBytes_setLoftBytes _ _ _
  · rw [byte, Mem.loftByte_setLoftBytes_other _ _ _ _ ha]
  · have result : (s.lftSwitch w).switched w = ((s.lftSwitch w).lftResult 2).commit := by rw [switched, owner]
    rw [result]
    refine ⟨lftResult_fld _ (by decide), lftResult_done _, ?_,
      (only_commit (by decide)).2 ((lftSwitch_only s w).trans ((lftResult_only _ 2).mono (by decide)))⟩
    change ((s.lftSwitch w).lftResult 2).mem.staged = rest
    rw [lftResult_mem, lftSwitch_mem, loftSwitched_staged, oldest, List.drop_one, List.tail_cons]

theorem loftMapSwitch_fails : ∃ u : State, exec (.loftMapSwitch false) s = .next (s.after u) ∧ u.mem.loft = s.mem.loft ∧
    u.mem.staged = rest ∧
    (w.who = .owner → u.fld Reg.MEM_LFT_STAT 7 4 = 6 ∧ u.rbit Reg.MEM_LFT_STAT 1 = true ∧
      Only (.energy :: .owed :: messageParts) s u) := by
  have run : exec (.loftMapSwitch false) s = s.finish (s.unswitched w) := by
    rw [exec, execLoftMapSwitch, oldest]
    dsimp only
    rw [if_pos on, if_neg Bool.false_ne_true]
  refine ⟨_, run, ?_, ?_, fun owner => ?_⟩
  · rw [unswitched_mem]
  · rw [unswitched_mem, oldest, List.drop_one, List.tail_cons]
  · have result : s.unswitched w = (s.lftResult 6).lftFail w := by rw [unswitched, owner]
    have told : RegsIn [4] (s.lftResult 6) ((s.lftResult 6).lftFail w) := lftFail_in _ w
    rw [result]
    exact ⟨(fld_of_regsIn told _ _ _ (by decide)).trans (lftResult_fld s (by decide)),
      (rbit_of_regsIn told _ _ (by decide)).trans (lftResult_failed s),
      ((lftResult_only s 6).mono (by decide)).trans (lftFail_only _ w)⟩

end

end State

/-- Settles O23: the write is its words placed and the copy they start; the switch puts the copied bytes, its failure drops them. -/
theorem stagedWriteReachesLoft : Obligations.StagedWriteReachesLoft := by
  intro s
  refine ⟨fun o src dst len env granted range lo hi live valid energy => ?_, fun w rest on oldest =>
    ⟨State.loftMapSwitch_switches on oldest, State.loftMapSwitch_fails on oldest⟩⟩
  obtain ⟨-, -, -, -, -, quiet, -⟩ := id granted
  have made := State.makeWrite_staged_passes range lo hi live quiet valid energy
  have run : exec (.stagedWrite o src dst len env) s = _ := State.finish_granted granted
  rw [State.wordsAt_staged, made] at run
  generalize hv : s.stagedPlaced src dst len = v at run
  have placed : Only [.order, .regs] s v := hv ▸ s.stagedPlaced_only src dst len
  have mem : v.mem = s.mem := State.mem_of_only placed (by decide) (by decide) (by decide)
  refine ⟨_, v.sourceBytes src.toNat (bits len 14 0), run, ?_, ?_, fun k hk => ?_, State.stagedBy_busy _ _ _ _,
    (placed.mono (by decide)).trans ((State.stagedBy_only _ _ _ _).mono (by decide))⟩
  · rw [State.stagedBy_staged, mem]
  · rw [State.sourceBytes_length, State.stagedRangeOk_length range]
  · rw [← mem]
    exact State.sourceBytes_word _ _ _ hk (by rw [mem]; exact valid k hk)

end Sys2Proof.Machine
end

/-! ## Line signals -/

section
namespace Sys2Proof.Machine
namespace State

variable {s : State}

/-! ### Reject outputs -/

/-- A lane's output at a level, which is sampled 200 ticks later (R496). -/
def takeDrive (s : State) (n : Lane) (d : Option Bool) : State :=
  (s.modRejLane n fun x => { x with drive := d, rbAt := if d.isSome then some (s.tick + 200) else none }).emit
    (.pin ("REJ" ++ toString (s.rejOut n)) d)

theorem trackRej_eq (s : State) (n : Lane) :
    s.trackRej n = if s.pwr.state = .sleep ∨ s.rejDrive n = (s.rejLane n).drive then s else s.takeDrive n (s.rejDrive n) := rfl

theorem takeDrive_rejecting (s : State) (n m : Lane) (d : Option Bool) : (s.takeDrive n d).rejecting m = s.rejecting m := by
  unfold rejecting forced takeDrive
  rw [emit_rejLane, modRejLane_rejLane]
  split
  case isTrue same => subst same; rfl
  case isFalse => rfl

theorem takeDrive_rejDrive (s : State) (n m : Lane) (d : Option Bool) : (s.takeDrive n d).rejDrive m = s.rejDrive m := by
  unfold rejDrive
  rw [takeDrive_rejecting]
  rfl

/-- What drives a lane's output does not depend on the level that is driven. -/
theorem trackRej_rejDrive (s : State) (n m : Lane) : (s.trackRej n).rejDrive m = s.rejDrive m := by
  rw [trackRej_eq]
  split
  · rfl
  · exact takeDrive_rejDrive _ _ _ _

theorem trackRej_pwr (s : State) (n : Lane) : (s.trackRej n).pwr = s.pwr := by
  rw [trackRej_eq]
  split <;> rfl

/-- Outside SLEEP the lane's output takes the level of its conditions (R488, R491). -/
theorem trackRej_drive (awake : s.pwr.state ≠ .sleep) (n : Lane) : ((s.trackRej n).rejLane n).drive = s.rejDrive n := by
  rw [trackRej_eq]
  split
  case isTrue h => exact (h.resolve_left awake).symm
  case isFalse => rw [takeDrive, emit_rejLane, modRejLane_rejLane_same]

theorem trackRej_rejLane_other {n m : Lane} (h : n ≠ m) : (s.trackRej n).rejLane m = s.rejLane m := by
  rw [trackRej_eq]
  split
  · rfl
  · rw [takeDrive, emit_rejLane, modRejLane_rejLane_other _ _ _ _ h]

/-- Once every lane of a list has been tracked, their outputs stand, and those that stood before stand still. -/
theorem foldl_trackRej_drive : ∀ (l : List Lane) (s : State), s.pwr.state ≠ .sleep →
    ∀ n, n ∈ l ∨ (s.rejLane n).drive = s.rejDrive n →
      ((l.foldl trackRej s).rejLane n).drive = (l.foldl trackRej s).rejDrive n
  | [], _, _, n, h => h.resolve_left (List.not_mem_nil)
  | k :: l, s, awake, n, h => by
    refine foldl_trackRej_drive l (s.trackRej k) (by rwa [trackRej_pwr]) n ?_
    rw [trackRej_rejDrive]
    by_cases e : k = n
    · subst e
      exact .inr (trackRej_drive awake k)
    · rw [trackRej_rejLane_other e]
      exact h.imp_left fun mem => (List.mem_cons.1 mem).resolve_left (Ne.symm e)

theorem trackRejs_pwr (s : State) : s.trackRejs.pwr.state = s.pwr.state :=
  pwrState_of_only (Only.foldl (m := [.rej, .out]) (fun _ n => trackRej_only n) allLanes s) (by decide)

theorem trackRejs_drive (awake : s.trackRejs.pwr.state ≠ .sleep) (n : Lane) :
    (s.trackRejs.rejLane n).drive = s.trackRejs.rejDrive n :=
  foldl_trackRej_drive allLanes s (by rwa [trackRejs_pwr] at awake) n (.inl (mem_allLanes n))

/-! ### READY, IRQ_OUT and ERR_OUT -/

theorem trackPin_eq (now was : Bool) (put : Rej → Rej) (ball : String) (level : Option Bool) (stands : now = was → put s.rej = s.rej) :
    ∃ out, s.trackPin now was put ball level = { s with rej := put s.rej, out := out } := by
  unfold trackPin
  split
  case isTrue h => exact ⟨s.out, by rw [stands h]⟩
  case isFalse => exact ⟨_, rfl⟩

/-- The three signals take their levels, none of which is a condition of another. -/
theorem trackLine_eq (s : State) : ∃ out, s.trackLine =
    { s with rej := { s.rej with ready := s.readyCond, irq := s.irqCond, err := s.errActive }, out := out } := by
  unfold trackLine
  dsimp only
  obtain ⟨out, ready⟩ := trackPin_eq (s := s) s.readyCond s.rej.ready (fun x => { x with ready := s.readyCond }) "READY"
    (some s.readyCond) (fun h => by rw [h])
  rw [ready]
  generalize hu : ({ s with rej := { s.rej with ready := s.readyCond }, out := out } : State) = u
  obtain ⟨out, irq⟩ := trackPin_eq (s := u) u.irqCond u.rej.irq (fun x => { x with irq := u.irqCond }) "IRQ_OUT"
    (if u.irqCond then some false else none) (fun h => by rw [h])
  rw [irq]
  generalize hv : ({ u with rej := { u.rej with irq := u.irqCond }, out := out } : State) = v
  obtain ⟨out, err⟩ := trackPin_eq (s := v) v.errActive v.rej.err (fun x => { x with err := v.errActive }) "ERR_OUT"
    (some v.errActive) (fun h => by rw [h])
  rw [err]
  subst hv hu
  exact ⟨out, rfl⟩

/-- After the signals have taken their levels the outputs stand at their conditions, where the reject outputs did so before. -/
theorem trackLine_lineTrue (rejects : s.pwr.state ≠ .sleep → ∀ n, (s.rejLane n).drive = s.rejDrive n) : s.trackLine.LineTrue := by
  obtain ⟨out, line⟩ := trackLine_eq s
  rw [line]
  exact ⟨rfl, rfl, rfl, rejects⟩

/-! ### What follows a command -/

/-- What follows a command ends with the outputs at their levels. -/
theorem settle_lineTrue (s : State) : s.settle.LineTrue := trackLine_lineTrue trackRejs_drive

theorem after_lineTrue (s t : State) : (s.after t).LineTrue := settle_lineTrue t

end State

/-- Every command ends in what follows its effect, whatever that is: the meaning of each is a `finish`. -/
theorem exec_finishes (c : Instr) (s : State) : ∃ u, exec c s = s.finish u := by
  cases c <;> exact ⟨_, rfl⟩

theorem step_finishes (s : State) : ∃ r u : State, step s = r.finish u := by
  unfold step
  split
  case h_1 => exact ⟨s, _, rfl⟩
  case h_2 c rest _ =>
    obtain ⟨u, run⟩ := exec_finishes c { s with pending := rest }
    exact ⟨_, u, run⟩

/-- Settles O3: every step ends in what follows its command's effect, and that ends with the outputs at their levels. -/
theorem lineSignalsFollowConditions : Obligations.LineSignalsFollowConditions := by
  intro s t run
  obtain ⟨r, u, finishes⟩ := step_finishes s
  rw [finishes] at run
  cases run
  exact State.after_lineTrue r u

/-- Settles O4: the levels at reset, signal by signal and lane by lane. -/
theorem lineSignalsAtReset : Obligations.LineSignalsAtReset := by
  unfold Obligations.LineSignalsAtReset State.LineTrue
  decide

end Sys2Proof.Machine
end

/-! ## A fault message, stage by stage -/

section
namespace Sys2Proof.Machine

/-- A field apart from the one that is put is as before. -/
theorem bits_putBits_other (w : Word) (v : Nat) {hi lo hi' lo' : Nat} (h' : hi' < 32) (apart : hi' < lo ∨ hi < lo') :
    bits (putBits w hi lo v) hi' lo' = bits w hi' lo' :=
  bits_congr fun n h1 h2 => by rw [bit_putBits _ _ (by omega), if_neg (by omega)]

namespace State

variable {s t u : State}

theorem setFld_fld_other (s : State) (a v : Nat) {hi lo hi' lo' : Nat} (h' : hi' < 32) (apart : hi' < lo ∨ hi < lo') :
    (s.setFld a hi lo v).fld a hi' lo' = s.fld a hi' lo' := by
  rw [fld, setFld_reg_same, bits_putBits_other _ _ h' apart, fld]

/-! ### The stages -/

/-- The message of a source without a lane that is told now: its stamp is the one that its commit gives (R105, R115). -/
def messageOf (s : State) (k : Kind) (a : Word) : FaultMsg := ⟨k.src, k.code, a, s.order + 1, none, 0⟩

/-- The message is recorded and its source enters FAULT: the stages of R111 that no reaction entry selects. -/
def recorded (s : State) (k : Kind) (a : Word) : State := (s.commit.recordBin (s.messageOf k a)).recordSource k.src

/-- The stages of a message of a unit that watches: it is recorded, then the trap and the pin follow where the source's entry
says so (R111). Between and after these only further steps of messages follow. -/
theorem raise_stages (k : Kind) (a : Word) (hin : s.unitInReset k.src = false) : ∃ v w, ∀ R, ReportSteps R →
    R (s.recorded k a) v ∧ R (if bit (s.reaction k.src 0) 1 then v.trapPulse else v) w ∧
      R (if bit (s.reaction k.src 0) 4 then w.errPin else w) (s.raise k a) := by
  unfold State.raise State.raiseN
  rw [hin, if_neg Bool.false_ne_true]
  dsimp only
  generalize hq : (if bit (s.commit.reaction k.src 0) 0 = true then _ else _) = q
  generalize hp : (if bit (s.commit.reaction k.src 0) 1 = true then _ else _) = p
  refine ⟨q.1, p.1, fun R h => ⟨?_, ?_, ?_⟩⟩
  · rw [← hq]
    split
    · exact h.items _ _ _ _
    · exact h.refl _
  · rw [← hp]
    change R (if bit (s.commit.reaction k.src 0) 1 then q.1.trapPulse else q.1) _
    split
    · exact h.items _ _ _ _
    · exact h.refl _
  · exact h.trans (h.resets _ _ _) (h.foldl (fun v i => h.raiseN 11 v _ _ none (by decide)) _ _)

namespace ReportSteps

variable {R : State → State → Prop} {k : Kind} (h : ReportSteps R) (a : Word)
include h

theorem binned : R s (s.commit.recordBin (s.messageOf k a)) := h.trans (h.commit s) (h.bin _ _)

theorem recorded (hk : k.src < 36) : R s (s.recorded k a) := h.trans (h.binned a) (h.source _ _ hk)

theorem trap_ite (v : State) (c : Bool) : R v (if c then v.trapPulse else v) := by
  split
  · exact h.trap v
  · exact h.refl v

theorem pin_ite (v : State) (c : Bool) : R v (if c then v.errPin else v) := by
  split
  · exact h.pin v
  · exact h.refl v

theorem recorded_raise (hin : s.unitInReset k.src = false) : R (s.recorded k a) (s.raise k a) := by
  obtain ⟨v, w, stages⟩ := raise_stages k a hin
  obtain ⟨items, trap, pin⟩ := stages R h
  exact h.trans items (h.trans (h.trap_ite v _) (h.trans trap (h.trans (h.pin_ite w _) pin)))

end ReportSteps

/-- The place of the trap among the steps of a message whose entry selects it (R122). -/
theorem raise_trap_stage (k : Kind) (a : Word) (hin : s.unitInReset k.src = false) (trap : bit (s.reaction k.src 0) 1 = true) :
    ∃ v, ∀ R, ReportSteps R → R (s.recorded k a) v ∧ R v.trapPulse (s.raise k a) := by
  obtain ⟨v, w, stages⟩ := raise_stages k a hin
  refine ⟨v, fun R h => ?_⟩
  obtain ⟨items, pulse, pin⟩ := stages R h
  rw [trap, if_pos rfl] at pulse
  exact ⟨items, h.trans pulse (h.trans (h.pin_ite w _) pin)⟩

/-- The place of the pin among the steps of a message whose entry selects it (R120). -/
theorem raise_pin_stage (k : Kind) (a : Word) (hin : s.unitInReset k.src = false) (errs : bit (s.reaction k.src 0) 4 = true) :
    ∃ w, ∀ R, ReportSteps R → R (s.recorded k a) w ∧ R w.errPin (s.raise k a) := by
  obtain ⟨v, w, stages⟩ := raise_stages k a hin
  refine ⟨w, fun R h => ?_⟩
  obtain ⟨items, pulse, pin⟩ := stages R h
  rw [errs, if_pos rfl] at pin
  exact ⟨h.trans items (h.trans (h.trap_ite v _) pulse), pin⟩

/-- A relation that is weaker than one that the steps of a message keep. -/
theorem ReportSteps.weaken {R Q : State → State → Prop} (h : ReportSteps R) (refl : ∀ s, Q s s)
    (trans : ∀ {s t u}, Q s t → Q t u → Q s u) (imp : ∀ {s t}, R s t → Q s t) : ReportSteps Q where
  refl := refl
  trans := trans
  commit s := imp (h.commit s)
  bin s m := imp (h.bin s m)
  source s k hk := imp (h.source s k hk)
  items w e l s := imp (h.items w e l s)
  trap s := imp (h.trap s)
  pin s := imp (h.pin s)
  resets s m b := imp (h.resets s m b)

/-! ### What each stage leaves -/

theorem flt_of_only {m : List Part} (h : Only m s t) (hf : .flt ∉ m) :
    { t.flt with due := [] } = { s.flt with due := [] } := h.part .flt hf

theorem reaction_of_only {m : List Part} (h : Only m s t) (hm : .flash ∉ m) (k i : Nat) : t.reaction k i = s.reaction k i := by
  have flash : { t.mem with larder := [], staged := [], heldOps := [] } = { s.mem with larder := [], staged := [], heldOps := [] } :=
    h.part .flash hm
  have tables : t.mem.tables = s.mem.tables := (congrArg Mem.tables flash :)
  simp only [reaction, Mem.table, tables]

theorem recordBin_reg_other (s : State) (m : FaultMsg) {a : Nat} (ha : a ∉ [Reg.FLT_BIN_STAT, Reg.FLT_PEND_A, Reg.FLT_PEND_B]) :
    (s.recordBin m).reg a = s.reg a := by
  simp only [List.mem_cons, List.not_mem_nil, or_false, not_or] at ha
  obtain ⟨stat, pendA, pendB⟩ := ha
  unfold recordBin
  dsimp only
  split <;> split <;> simp only [setFlag_reg_other _ _ _ _ (Ne.symm stat), setFlag_reg_other _ _ _ _ (Ne.symm pendA),
    setFlag_reg_other _ _ _ _ (Ne.symm pendB), modFlt_reg]

theorem recordSource_reg_other (s : State) (k : Nat) {a : Nat} (ha : Reg.FLT_SRC_STATE (k / 16) ≠ a) :
    (s.recordSource k).reg a = s.reg a := by
  unfold recordSource
  dsimp only
  split
  · rfl
  · split
    · exact (setFld_reg_other s _ _ _ _ 1 ha :)
    · rfl

theorem errPin_reg_other (s : State) {a : Nat} (ha : Reg.FLT_ERR ≠ a) : s.errPin.reg a = s.reg a := setFlag_reg_other _ _ _ _ ha

theorem recordBin_flt (s : State) (m : FaultMsg) :
    (s.recordBin m).flt = if s.rbit Reg.FLT_BIN_STAT 0 then s.flt else { s.flt with bin := some m } := by
  unfold recordBin
  dsimp only
  split <;> split <;> rfl

theorem recordSource_flt (s : State) (k : Nat) : (s.recordSource k).flt = if s.srcState k = 2 then s.flt else
    { s.flt with quietEnd := Tab.set (fun _ => none) s.flt.quietEnd k (some (s.tick + bits (s.reaction k 1) 15 0 * 100000)) } := by
  unfold recordSource
  dsimp only
  split
  · rfl
  · split <;> rfl

theorem trapPulse_flt (s : State) : s.trapPulse.flt = { s.flt with trapEnd := some (s.tick + s.fld Reg.FLT_CTRL 15 8 * 100) } := by
  unfold trapPulse
  dsimp only
  rw [bump_flt]
  split <;> rfl

theorem errPin_flt (s : State) : s.errPin.flt = { s.flt with errMinEnd := some (s.tick + s.fld Reg.FLT_CTRL 7 0 * 100000) } := rfl

/-! ### Source states -/

theorem srcState_congr {k : Nat} (h : t.reg (Reg.FLT_SRC_STATE (k / 16)) = s.reg (Reg.FLT_SRC_STATE (k / 16))) :
    t.srcState k = s.srcState k := by
  simp only [srcState, fld, h]

theorem setSrcState_srcState (s : State) {j k v : Nat} (hv : v < 4) :
    (s.setSrcState j v).srcState k = if j = k then v else s.srcState k := by
  unfold setSrcState srcState
  by_cases register : j / 16 = k / 16
  · rw [register]
    by_cases same : j = k
    · rw [if_pos same, same, setFld_fld_same _ _ (by omega) (by rw [show 2 * (k % 16) + 1 + 1 - 2 * (k % 16) = 2 by omega]; exact hv)]
    · rw [if_neg same, setFld_fld_other _ _ _ (by omega) (by omega)]
  · rw [if_neg (fun e => register (by rw [e])), fld, setFld_reg_other, fld]
    simp only [Reg.FLT_SRC_STATE]
    omega

theorem recordSource_srcState (s : State) (j k : Nat) :
    (s.recordSource j).srcState k = if j = k ∧ s.srcState k = 0 then 1 else s.srcState k := by
  unfold recordSource
  dsimp only
  by_cases same : j = k
  · subst same
    rw [if_congr (and_iff_right rfl) rfl rfl]
    split
    case isTrue retired => rw [retired]; rfl
    case isFalse =>
      split
      case isTrue => exact (setSrcState_srcState s (v := 1) (by decide)).trans (if_pos rfl)
      case isFalse => rfl
  · rw [if_neg (And.left.mt same)]
    split
    · rfl
    · split
      · exact (setSrcState_srcState s (v := 1) (by decide)).trans (if_neg same)
      · rfl

theorem recordSource_quietDue (s : State) (j k : Nat) : (s.recordSource j).quietDue k =
    if j = k ∧ s.srcState k ≠ 2 then some (s.tick + bits (s.reaction k 1) 15 0 * 100000) else s.quietDue k := by
  have ends : (s.recordSource j).flt.quietEnd = if s.srcState j = 2 then s.flt.quietEnd else
      Tab.set (fun _ => none) s.flt.quietEnd j (some (s.tick + bits (s.reaction j 1) 15 0 * 100000)) := by
    rw [recordSource_flt]
    split <;> rfl
  rw [quietDue, ends, quietDue]
  by_cases same : j = k
  · subst same
    rw [if_congr (and_iff_right rfl) rfl rfl, ite_not]
    split
    · rfl
    · exact Tab.get_set_same _ _ _ _
  · rw [if_neg (And.left.mt same)]
    split
    · rfl
    · exact Tab.get_set_other _ _ _ (Ne.symm same)

/-! ### Times and source states -/

/-- What steps of messages do to the collector's times and source states: each of TRAP_OUT's pulse, ERR_MIN and the quiet
periods is as it was or runs from now, and a source that was not NORMAL keeps its state (R117, R118, R120, R122). -/
structure Tells (s t : State) : Prop where
  tick : t.tick = s.tick
  ctrl : t.reg Reg.FLT_CTRL = s.reg Reg.FLT_CTRL
  entry : ∀ k i, t.reaction k i = s.reaction k i
  trap : t.flt.trapEnd = s.flt.trapEnd ∨ t.flt.trapEnd = some (s.tick + s.fld Reg.FLT_CTRL 15 8 * 100)
  err : t.flt.errMinEnd = s.flt.errMinEnd ∨ t.flt.errMinEnd = some (s.tick + s.fld Reg.FLT_CTRL 7 0 * 100000)
  state : ∀ k < 36, t.srcState k = s.srcState k ∨ s.srcState k = 0 ∧ t.srcState k = 1
  quiet : ∀ k < 36, t.quietDue k = s.quietDue k ∨
    s.srcState k ≠ 2 ∧ t.quietDue k = some (s.tick + bits (s.reaction k 1) 15 0 * 100000)

namespace Tells

theorem trans (h : Tells s t) (k : Tells t u) : Tells s u where
  tick := k.tick.trans h.tick
  ctrl := k.ctrl.trans h.ctrl
  entry j i := (k.entry j i).trans (h.entry j i)
  trap := by
    have := k.trap
    rw [h.tick, fld, h.ctrl] at this
    exact this.imp_left (fun e => e ▸ h.trap) |>.elim id .inr
  err := by
    have := k.err
    rw [h.tick, fld, h.ctrl] at this
    exact this.elim (fun e => e ▸ h.err) .inr
  state j hj := by
    have a := h.state j hj
    have b := k.state j hj
    omega
  quiet j hj := by
    have a := h.state j hj
    rcases k.quiet j hj with e | ⟨free, e⟩
    · rw [e]
      exact h.quiet j hj
    · rw [h.tick, h.entry] at e
      exact .inr ⟨by omega, e⟩

/-- The registers that hold the lengths and the source states. -/
def registers : List Nat := [Reg.FLT_CTRL, Reg.FLT_SRC_STATE 0, Reg.FLT_SRC_STATE 1, Reg.FLT_SRC_STATE 2]

theorem srcState_kept (h : ∀ a ∈ registers, t.reg a = s.reg a) {k : Nat} (hk : k < 36) : t.srcState k = s.srcState k := by
  refine srcState_congr (h _ ?_)
  have : k / 16 = 0 ∨ k / 16 = 1 ∨ k / 16 = 2 := by omega
  rcases this with e | e | e <;> rw [e] <;> decide

/-- A step that keeps those registers and the quiet periods. -/
theorem of_kept (only : Only messageParts s t) (regs : ∀ a ∈ registers, t.reg a = s.reg a) (quiet : t.flt.quietEnd = s.flt.quietEnd)
    (trap : t.flt.trapEnd = s.flt.trapEnd ∨ t.flt.trapEnd = some (s.tick + s.fld Reg.FLT_CTRL 15 8 * 100))
    (err : t.flt.errMinEnd = s.flt.errMinEnd ∨ t.flt.errMinEnd = some (s.tick + s.fld Reg.FLT_CTRL 7 0 * 100000)) : Tells s t where
  tick := only.part .tick (by decide)
  ctrl := regs _ (by decide)
  entry := reaction_of_only only (by decide)
  trap := trap
  err := err
  state _ hk := .inl (srcState_kept regs hk)
  quiet k _ := .inl (by rw [quietDue, quiet, quietDue])

/-- A step that touches neither registers nor the collector. -/
theorem of_only {m : List Part} (h : Only m s t) (hm : ∀ p ∈ m, p ∈ messageParts) (hr : .regs ∉ m) (hf : .flt ∉ m) : Tells s t :=
  have flt := flt_of_only h hf
  of_kept (h.mono hm) (fun a _ => h.regsIn hr a (by simp)) (congrArg Collector.quietEnd flt :)
    (.inl (congrArg Collector.trapEnd flt :)) (.inl (congrArg Collector.errMinEnd flt :))

theorem refl (s : State) : Tells s s := of_only (Only.refl [] s) (by decide) (by decide) (by decide)

theorem recordBin (s : State) (m : FaultMsg) : Tells s (s.recordBin m) := by
  have flt := recordBin_flt s m
  refine of_kept ((recordBin_only m).mono (by decide)) (fun a ha => recordBin_reg_other s m ?_) ?_ (.inl ?_) (.inl ?_)
  · revert a
    decide
  all_goals
    rw [flt]
    split <;> rfl

theorem recordSource (s : State) {k : Nat} (_ : k < 36) : Tells s (s.recordSource k) where
  tick := (recordSource_only k).part .tick (by decide)
  ctrl := recordSource_reg_other s k (by simp only [Reg.FLT_SRC_STATE, Reg.FLT_CTRL]; omega)
  entry := reaction_of_only (recordSource_only k) (by decide)
  trap := by
    rw [recordSource_flt]
    split <;> exact .inl rfl
  err := by
    rw [recordSource_flt]
    split <;> exact .inl rfl
  state j _ := by
    rw [recordSource_srcState]
    split
    case isTrue h => exact .inr ⟨h.2, rfl⟩
    case isFalse => exact .inl rfl
  quiet j _ := by
    rw [recordSource_quietDue]
    split
    case isTrue h => exact .inr ⟨h.2, rfl⟩
    case isFalse => exact .inl rfl

theorem trapPulse (s : State) : Tells s s.trapPulse := by
  have flt := trapPulse_flt s
  refine of_kept (trapPulse_only.mono (by decide)) (fun a ha => trapPulse_reg_other s ?_) (by rw [flt])
    (.inr (by rw [flt])) (.inl (by rw [flt]))
  revert a
  decide

theorem errPin (s : State) : Tells s s.errPin := by
  refine of_kept (errPin_only.mono (by decide)) (fun a ha => errPin_reg_other s ?_) rfl (.inl rfl) (.inr rfl)
  revert a
  decide

end Tells

theorem reportSteps_tells : ReportSteps Tells where
  refl := .refl
  trans := .trans
  commit s := .of_only commit_only (by decide) (by decide) (by decide)
  bin := .recordBin
  source s _ hk := .recordSource s hk
  items w e l s := .of_only (queueItems_only w e l s) (by decide) (by decide) (by decide)
  trap := .trapPulse
  pin := .errPin
  resets s m b := .of_only (selectResets_only m b) (by decide) (by decide) (by decide)

/-! ### Flags and the First Bin -/

theorem recordBin_flags (s : State) (m : FaultMsg) (a : Nat) : FlagsStay a s (s.recordBin m) := by
  have stat : FlagsStay a s (if s.rbit Reg.FLT_BIN_STAT 0 then s.setFlag Reg.FLT_BIN_STAT 1
      else (s.modFlt fun f => { f with bin := some m }).setFlag Reg.FLT_BIN_STAT 0) := by
    split
    · exact FlagsStay.set (.of_reg rfl) _ _
    · exact FlagsStay.set (t := s.modFlt fun f => { f with bin := some m }) (.of_reg rfl) _ _
  unfold recordBin
  dsimp only
  split <;> exact stat.set _ _

/-- No step of a message clears a flag of a register that holds no source states and is no counter (R115, R120). -/
theorem reportSteps_flags {a : Nat} (states : ∀ k < 36, Reg.FLT_SRC_STATE (k / 16) ≠ a) (count : Reg.FLT_TRAP_COUNT ≠ a) :
    ReportSteps (FlagsStay a) where
  refl _ := .of_reg rfl
  trans := .trans
  commit _ := .of_reg rfl
  bin s m := recordBin_flags s m a
  source s k hk := .of_reg (recordSource_reg_other s k (states k hk))
  items w e l s := .of_only (queueItems_only w e l s) (by decide)
  trap s := .of_reg (trapPulse_reg_other s count)
  pin s := FlagsStay.set (t := s.modFlt fun f => { f with errMinEnd := some (s.tick + s.fld Reg.FLT_CTRL 7 0 * 100000) })
    (.of_reg rfl) _ _
  resets s m b := .of_only (selectResets_only m b) (by decide)

theorem reportSteps_collectorFlags {a : Nat} (h : a ∈ [Reg.FLT_BIN_STAT, Reg.FLT_ERR, Reg.FLT_PEND_A, Reg.FLT_PEND_B]) :
    ReportSteps (FlagsStay a) := by
  have below : a < 0x4040 := by revert a; decide
  exact reportSteps_flags (fun k _ => by simp only [Reg.FLT_SRC_STATE]; omega) (by simp only [Reg.FLT_TRAP_COUNT]; omega)

/-- A First Bin that is full stays full and keeps its message (R115). -/
def BinStays (s t : State) : Prop := s.rbit Reg.FLT_BIN_STAT 0 = true → t.rbit Reg.FLT_BIN_STAT 0 = true ∧ t.flt.bin = s.flt.bin

theorem BinStays.of_kept (flags : FlagsStay Reg.FLT_BIN_STAT s t) (bin : t.flt.bin = s.flt.bin) : BinStays s t :=
  fun full => ⟨flags 0 (by decide) full, bin⟩

theorem BinStays.of_only {m : List Part} (h : Only m s t) (hr : .regs ∉ m) (hf : .flt ∉ m) : BinStays s t :=
  .of_kept (.of_only h hr) (congrArg Collector.bin (flt_of_only h hf) :)

theorem BinStays.trans (h : BinStays s t) (k : BinStays t u) : BinStays s u := fun full =>
  have ⟨still, bin⟩ := h full
  have ⟨always, bin'⟩ := k still
  ⟨always, bin'.trans bin⟩

theorem reportSteps_bin : ReportSteps BinStays := by
  have flags := reportSteps_collectorFlags (a := Reg.FLT_BIN_STAT) (by decide)
  exact {
    refl s := .of_kept (.of_reg rfl) rfl
    trans := .trans
    commit s := .of_kept (.of_reg rfl) rfl
    bin s m := fun full => ⟨recordBin_flags s m _ 0 (by decide) full, by rw [recordBin_flt, full]; rfl⟩
    source s k hk := .of_kept (flags.source s k hk) (by rw [recordSource_flt]; split <;> rfl)
    items w e l s := .of_only (queueItems_only w e l s) (by decide) (by decide)
    trap s := .of_kept (flags.trap s) (by rw [trapPulse_flt])
    pin s := .of_kept (flags.pin s) rfl
    resets s m b := .of_only (selectResets_only m b) (by decide) (by decide) }

/-- What recording leaves in the First Bin's flags: FULL where the bin was empty, else the overflow (R115). -/
theorem recordBin_stat (s : State) (m : FaultMsg) :
    (s.recordBin m).rbit Reg.FLT_BIN_STAT (if s.rbit Reg.FLT_BIN_STAT 0 then 1 else 0) = true := by
  unfold recordBin
  dsimp only
  have apartA : Reg.FLT_PEND_A ≠ Reg.FLT_BIN_STAT := by decide
  have apartB : Reg.FLT_PEND_B ≠ Reg.FLT_BIN_STAT := by decide
  split <;> split <;> simp only [setFlag_rbit_other _ _ apartA, setFlag_rbit_other _ _ apartB] <;> exact setFlag_rbit_same _ _ (by decide)

/-- The pending bit of a message's source (R115). -/
theorem recordBin_pend (s : State) (m : FaultMsg) (hm : m.source < 36) :
    (if m.source < 28 then (s.recordBin m).rbit Reg.FLT_PEND_A m.source
      else (s.recordBin m).rbit Reg.FLT_PEND_B (m.source - 28)) = true := by
  unfold recordBin
  dsimp only
  split
  · exact setFlag_rbit_same _ _ ‹_›
  · exact setFlag_rbit_same _ _ (by omega)

/-! ### The reactions -/

section

variable {k : Kind} (a : Word) (hk : k.src < 36) (hin : s.unitInReset k.src = false)
include hk hin

theorem raise_pending :
    (if k.src < 28 then (s.raise k a).rbit Reg.FLT_PEND_A k.src else (s.raise k a).rbit Reg.FLT_PEND_B (k.src - 28)) = true := by
  have stays {b : Nat} (h : b ∈ [Reg.FLT_BIN_STAT, Reg.FLT_ERR, Reg.FLT_PEND_A, Reg.FLT_PEND_B]) :
      FlagsStay b (s.commit.recordBin (s.messageOf k a)) (s.raise k a) :=
    ((reportSteps_collectorFlags h).source _ k.src hk).trans ((reportSteps_collectorFlags h).recorded_raise a hin)
  have pend := recordBin_pend s.commit (s.messageOf k a) hk
  by_cases low : k.src < 28
  · rw [if_pos low]
    exact stays (by decide) k.src low ((if_pos low).symm.trans pend)
  · rw [if_neg low]
    exact stays (by decide) (k.src - 28) (by omega) ((if_neg low).symm.trans pend)

theorem raise_bin_empty (empty : s.rbit Reg.FLT_BIN_STAT 0 = false) :
    (s.raise k a).rbit Reg.FLT_BIN_STAT 0 = true ∧ (s.raise k a).flt.bin = some (s.messageOf k a) := by
  have empty' : s.commit.rbit Reg.FLT_BIN_STAT 0 = false := empty
  have full := recordBin_stat s.commit (s.messageOf k a)
  rw [empty', if_neg Bool.false_ne_true] at full
  have bin : (s.commit.recordBin (s.messageOf k a)).flt.bin = some (s.messageOf k a) := by
    rw [recordBin_flt, empty']
    rfl
  obtain ⟨still, same⟩ := ((reportSteps_bin.source _ k.src hk).trans (reportSteps_bin.recorded_raise a hin)) full
  exact ⟨still, same.trans bin⟩

theorem raise_bin_full (full : s.rbit Reg.FLT_BIN_STAT 0 = true) :
    (s.raise k a).rbit Reg.FLT_BIN_STAT 1 = true ∧ (s.raise k a).flt.bin = s.flt.bin := by
  have full' : s.commit.rbit Reg.FLT_BIN_STAT 0 = true := full
  have flags := reportSteps_collectorFlags (a := Reg.FLT_BIN_STAT) (by decide)
  have overflows := recordBin_stat s.commit (s.messageOf k a)
  rw [full', if_pos rfl] at overflows
  exact ⟨(flags.trans (flags.source _ k.src hk) (flags.recorded_raise a hin)) 1 (by decide) overflows,
    (reportSteps_bin.raise s k a hk full).2⟩

theorem raise_normal (normal : s.srcState k.src = 0) : (s.raise k a).srcState k.src = 1 ∧
    (s.raise k a).quietDue k.src = some (s.tick + bits (s.reaction k.src 1) 15 0 * 100000) := by
  have binned : Tells s (s.commit.recordBin (s.messageOf k a)) := reportSteps_tells.binned a
  have before : (s.commit.recordBin (s.messageOf k a)).srcState k.src = 0 := by
    rw [Tells.srcState_kept (fun a ha => recordBin_reg_other _ _ (by revert a; decide)) hk]
    exact normal
  have fault : (s.recorded k a).srcState k.src = 1 := by rw [recorded, recordSource_srcState, if_pos ⟨rfl, before⟩]
  have runs : (s.recorded k a).quietDue k.src = some (s.tick + bits (s.reaction k.src 1) 15 0 * 100000) := by
    rw [recorded, recordSource_quietDue, if_pos ⟨rfl, by omega⟩, binned.tick, binned.entry]
  have recorded : Tells s (s.recorded k a) := binned.trans (.recordSource _ hk)
  have after : Tells (s.recorded k a) (s.raise k a) := reportSteps_tells.recorded_raise a hin
  refine ⟨?_, ?_⟩
  · have := after.state k.src hk
    omega
  · rcases after.quiet k.src hk with e | ⟨-, e⟩
    · exact e.trans runs
    · rw [e, recorded.tick, recorded.entry]

omit hin in
theorem raise_retired (retired : s.srcState k.src = 2) :
    (s.raise k a).srcState k.src = 2 ∧ (s.raise k a).quietDue k.src = s.quietDue k.src := by
  have tells : Tells s (s.raise k a) := reportSteps_tells.raise s k a hk
  refine ⟨?_, (tells.quiet k.src hk).resolve_right fun h => h.1 retired⟩
  have := tells.state k.src hk
  omega

theorem raise_trap (trap : bit (s.reaction k.src 0) 1 = true) :
    (s.raise k a).flt.trapEnd = some (s.tick + s.fld Reg.FLT_CTRL 15 8 * 100) := by
  obtain ⟨v, stages⟩ := raise_trap_stage k a hin trap
  obtain ⟨items, after⟩ := stages _ reportSteps_tells
  have before : Tells s v := (reportSteps_tells.recorded a hk).trans items
  have pulsed : Tells s v.trapPulse := before.trans (.trapPulse v)
  rcases after.trap with e | e
  · rw [e, trapPulse_flt, before.tick, fld, before.ctrl, fld]
  · rw [e, pulsed.tick, fld, pulsed.ctrl, fld]

theorem raise_errPin (errs : bit (s.reaction k.src 0) 4 = true) : (s.raise k a).rbit Reg.FLT_ERR 0 = true ∧
    (s.raise k a).flt.errMinEnd = some (s.tick + s.fld Reg.FLT_CTRL 7 0 * 100000) := by
  obtain ⟨w, stages⟩ := raise_pin_stage k a hin errs
  obtain ⟨items, after⟩ := stages _ reportSteps_tells
  have before : Tells s w := (reportSteps_tells.recorded a hk).trans items
  have pinned : Tells s w.errPin := before.trans (.errPin w)
  have flag : w.errPin.rbit Reg.FLT_ERR 0 = true := setFlag_rbit_same _ _ (by decide)
  refine ⟨(stages _ (reportSteps_collectorFlags (by decide))).2 0 (by decide) flag, ?_⟩
  rcases after.err with e | e
  · rw [e, errPin_flt, before.tick, fld, before.ctrl, fld]
  · rw [e, pinned.tick, fld, pinned.ctrl, fld]

end

end State

/-- Settles O16: each clause is what its stage of the message does, which the stages after it keep. -/
theorem faultMessageReactions : Obligations.FaultMessageReactions := by
  intro s k a hk hin
  exact ⟨State.raise_pending a hk hin, State.raise_bin_empty a hk hin, State.raise_bin_full a hk hin, State.raise_normal a hk hin,
    State.raise_retired a hk, State.raise_trap a hk hin, State.raise_errPin a hk hin⟩

end Sys2Proof.Machine
end

/-! ## The release of a fault source -/

section
namespace Sys2Proof.Machine
namespace State

variable {s : State} {k : Nat}

/-- The source states and the recovery registers are apart. -/
theorem srcState_ne_recov (j k : Nat) (hj : j < 36) : Reg.FLT_SRC_STATE (j / 16) ≠ Reg.FLT_RECOV k := by
  simp only [Reg.FLT_SRC_STATE, Reg.FLT_RECOV]
  omega

/-- A RETIRED source whose unit is not held is NORMAL after its release, its window empty and its total kept (R119). -/
theorem releaseSource_spec (hk : k < 36) (retired : s.srcState k = 2) (free : s.flt.held.contains k = false) (own : k ≠ 1) :
    (s.releaseSource k).srcState k = 0 ∧ (s.releaseSource k).fld (Reg.FLT_RECOV k) 24 16 = 0 ∧
      Only [.regs, .flt] s (s.releaseSource k) ∧
      (s.releaseSource k).fld (Reg.FLT_RECOV k) 15 0 = s.fld (Reg.FLT_RECOV k) 15 0 := by
  generalize hv : (s.setSrcState k 0).setFld (Reg.FLT_RECOV k) 24 16 0 = v
  have run : s.releaseSource k = v.modFlt fun f => { f with held := f.held.filter fun j => !decide (j = k) } := by
    have same : v.flt = s.flt := by rw [← hv]; rfl
    unfold releaseSource
    dsimp only
    rw [if_pos retired, hv, same, free, if_neg Bool.false_ne_true, if_neg own]
  have apart := srcState_ne_recov k k hk
  have regs : Only [.regs] s v := hv ▸ (setFld_only _ _ _ _).trans (setFld_only _ _ _ _)
  have held : Only [.flt] v (v.modFlt fun f => { f with held := f.held.filter fun j => !decide (j = k) }) :=
    .without (p := .due) ((modFlt_only _).mono (by decide)) rfl
  rw [run]
  refine ⟨?_, ?_, (regs.mono (by decide)).trans (held.mono (by decide)), ?_⟩
  · change v.srcState k = 0
    rw [← hv, srcState_congr (setFld_reg_other _ _ _ _ _ _ apart.symm), setSrcState_srcState _ (by decide), if_pos rfl]
  · change v.fld _ _ _ = 0
    rw [← hv, setFld_fld_same _ _ (by decide) (by decide)]
  · change v.fld _ _ _ = _
    rw [← hv, setFld_fld_other _ _ _ (by decide) (by decide), fld, setSrcState, setFld_reg_other _ _ _ _ _ _ apart, fld]

/-- A granted release of a source that is RETIRED acts on the state that its commit leaves, where the
collector and every register but that of the write are as they were (R119, R194). -/
theorem fltRelease_granted {o : OpCtx} {src : Src} (granted : s.Granted o OpEnv.quiet Reg.FLT_RELEASE [word (2 ^ 31 + src.val)])
    (retired : s.srcState src = 2) : ∃ v : State, exec (.fltRelease o src) s = .next (s.written o (v.releaseSource src)) ∧
      Only [.order, .regs] s v ∧ RegsBut [Reg.FLT_RELEASE] s v := by
  have go : ∀ src : Src, word (2 ^ 31 + src.val) &&& w1gMask Reg.FLT_RELEASE = 0 ∧ bit (word (2 ^ 31 + src.val)) 31 = true ∧
      bits (word (2 ^ 31 + src.val)) 5 0 = src := by decide
  obtain ⟨flagless, asks, names⟩ := go src
  have live : s.moot (Reg.FLT_RELEASE, word (2 ^ 31 + src.val)) = false := by
    unfold moot
    dsimp only
    rw [if_neg (by decide), if_neg (by decide), if_pos rfl, asks, names, retired]
    rfl
  refine ⟨(s.placeWords [(Reg.FLT_RELEASE, word (2 ^ 31 + src.val))]).commit,
    (finish_own granted (by decide) (by decide) flagless live).trans ?_,
    (only_commit (by decide)).2 ((placeWords_only _).mono (by decide)), fun a ha =>
      placeWords_reg_other a (List.mem_singleton.not.1 ha)⟩
  generalize (s.placeWords [(Reg.FLT_RELEASE, word (2 ^ 31 + src.val))]).commit = v
  have effect : effect s OpEnv.quiet v (Reg.FLT_RELEASE, word (2 ^ 31 + src.val)) =
      linkEffect s v Reg.FLT_RELEASE (word (2 ^ 31 + src.val)) := by
    unfold State.effect
    dsimp only
    rw [if_neg (by decide), show Reg.FLT_RELEASE / 0x1000 = 4 by decide]
    rfl
  rw [effect, linkEffect, if_neg (by decide), if_neg (by decide), if_neg (by decide), if_neg (by decide), if_neg (by decide),
    if_pos rfl, asks, names, if_pos rfl]

end State

/-- Settles O18: the release of the source in the state that the write's commit leaves. -/
theorem sourceIsReleased : Obligations.SourceIsReleased := by
  intro s o src granted retired free own
  obtain ⟨v, run, only, regs⟩ := State.fltRelease_granted granted retired
  have flt : { v.flt with due := [] } = { s.flt with due := [] } := State.flt_of_only only (by decide)
  have held : v.flt.held = s.flt.held := (congrArg Collector.held flt :)
  have apart : Reg.FLT_SRC_STATE (src / 16) ∉ [Reg.FLT_RELEASE] := by
    simp only [List.mem_singleton, Reg.FLT_SRC_STATE, Reg.FLT_RELEASE]
    omega
  have recov : Reg.FLT_RECOV src ∉ [Reg.FLT_RELEASE] := by
    simp only [List.mem_singleton, Reg.FLT_RECOV, Reg.FLT_RELEASE]
    omega
  obtain ⟨normal, empty, touched, total⟩ := State.releaseSource_spec (s := v) src.isLt
    ((State.srcState_congr (regs _ apart)).trans retired) (by rw [held, free]) own
  refine ⟨_, run, normal, empty, (only.mono (by decide)).trans (touched.mono (by decide)), ?_⟩
  rw [total, State.fld, regs _ recov, State.fld]

end Sys2Proof.Machine
end

/-! ## A source that stays RETIRED -/

section
namespace Sys2Proof.Machine
namespace State

variable {s t u : State} {k : Nat}

/-- A source that is RETIRED stays so, with its quiet period as it was. -/
def StaysRetired (k : Nat) (s t : State) : Prop := s.srcState k = 2 → t.srcState k = 2 ∧ t.quietDue k = s.quietDue k

namespace StaysRetired

theorem trans (h : StaysRetired k s t) (j : StaysRetired k t u) : StaysRetired k s u := fun retired =>
  have ⟨still, quiet⟩ := h retired
  have ⟨always, quiet'⟩ := j still
  ⟨always, quiet'.trans quiet⟩

/-- An operation that leaves the collector and the register of the source's state. -/
theorem of_reg {m : List Part} (h : Only m s t) (hf : .flt ∉ m)
    (reg : t.reg (Reg.FLT_SRC_STATE (k / 16)) = s.reg (Reg.FLT_SRC_STATE (k / 16))) : StaysRetired k s t := fun retired =>
  have quiet : t.flt.quietEnd = s.flt.quietEnd := (congrArg Collector.quietEnd (flt_of_only h hf) :)
  ⟨(srcState_congr reg).trans retired, by rw [quietDue, quiet, quietDue]⟩

theorem of_only {m : List Part} (h : Only m s t) (hf : .flt ∉ m) (hr : .regs ∉ m) : StaysRetired k s t :=
  of_reg h hf (h.regsIn hr _ (by simp))

theorem refl (s : State) : StaysRetired k s s := of_only (Only.refl [] s) (by decide) (by decide)

theorem ite {c : Prop} [Decidable c] (ht : StaysRetired k s t) (hu : StaysRetired k s u) : StaysRetired k s (if c then t else u) := by
  split
  · exact ht
  · exact hu

end StaysRetired

/-- No message moves a source out of RETIRED (R117). -/
theorem reportSteps_retired (hk : k < 36) : ReportSteps (StaysRetired k) :=
  reportSteps_tells.weaken .refl .trans fun {s t} tells retired =>
    ⟨by have := tells.state k hk; omega, (tells.quiet k hk).resolve_right fun h => h.1 retired⟩

theorem StaysRetired.foldl {α : Type} {f : State → α → State} (h : ∀ s a, StaysRetired k s (f s a)) :
    ∀ (l : List α) (s : State), StaysRetired k s (l.foldl f s)
  | [], s => .refl s
  | a :: l, s => (h s a).trans (StaysRetired.foldl h l (f s a))

section

variable (hk : k < 36)
include hk

/-- An operation that leaves the collector, and changes registers of other blocks alone. -/
theorem StaysRetired.of_regsIn {m : List Part} {l : List Nat} (h : Only m s t) (hf : .flt ∉ m) (regs : RegsIn l s t) (hl : 4 ∉ l) :
    StaysRetired k s t := by
  have block : Reg.FLT_SRC_STATE (k / 16) / 0x1000 = 4 := by
    simp only [Reg.FLT_SRC_STATE]
    omega
  exact .of_reg h hf (regs _ (block.symm ▸ hl))

theorem setReg_retired (s : State) {a : Nat} (v : Word) (ha : a / 0x1000 ≠ 4) : StaysRetired k s (s.setReg a v) :=
  .of_regsIn hk (setReg_only a v) (by decide) (setReg_in a v) (by simpa using Ne.symm ha)

/-! ### What is sent -/

theorem transmit_retired (s : State) (p : Nat) (full : Bool) (b : List Byte) : StaysRetired k s (s.transmit p full b) := by
  have sent : Reg.LNK_TX p ≠ Reg.FLT_SRC_STATE (k / 16) := by
    simp only [Reg.LNK_TX, Reg.FLT_SRC_STATE]
    omega
  have dropped : Reg.LNK_FWD_DROP ≠ Reg.FLT_SRC_STATE (k / 16) := by
    simp only [Reg.LNK_FWD_DROP, Reg.FLT_SRC_STATE]
    omega
  refine .of_reg (transmit_only p full b) (by decide) ?_
  unfold transmit
  split
  · rfl
  · split
    · exact bump_reg_other _ _ _ dropped
    · exact bump_reg_other _ _ _ sent

theorem sendFrameI_retired (s : State) (b : List Byte) : StaysRetired k s (s.sendFrameI b) :=
  .foldl (fun v p => transmit_retired hk v p false b) _ _

theorem sendTo_retired (s : State) (p : Peer) (r : Route) (m : List Byte) : StaysRetired k s (s.sendTo p r m) := by
  unfold sendTo
  cases p with
  | lp => exact .of_only (modSes_only _) (by decide) (by decide)
  | ether => exact sendFrameI_retired hk _ _
  | udp => exact .trans (.of_only (modLnk_only _) (by decide) (by decide)) (sendFrameI_retired hk _ _)

theorem sendSess_retired (s : State) (i : Sess) (a b c : Nat) (m : List Byte) : StaysRetired k s (s.sendSess i a b c m) :=
  have sent := sendTo_retired hk s (s.sess i).peer (s.sess i).route (s.sessMsg i a b c m)
  .ite sent (sent.trans (.of_only (modSess_only _ _) (by decide) (by decide)))

/-- A response that does not end its session. -/
theorem respond_retired (s : State) (i : Sess) (r : Resp) (h : closes r = false) : StaysRetired k s (s.respond i r) := by
  have owed (v : State) : StaysRetired k v (if r.code = .tagInUse then v else v.owe i r.reqSeq (BitVec.ofNat 6 r.tag.toNat)) :=
    .ite (.refl v) (.of_only (owe_only _ _ _) (by decide) (by decide))
  have noted (v : State) : StaysRetired k v (v.noteSent i r) := .of_only (noteSent_only i r) (by decide) (by decide)
  have sends (v : State) : v.sendResps i [r] = (v.noteSent i r).sendSess i 2 1 0 ([r].flatMap respBytes) := by
    unfold sendResps
    simp [h]
  have one : StaysRetired k s (s.answerOne i [r]) := by
    unfold answerOne
    rw [sends]
    exact .ite ((owed s).trans (.of_only (holdBack_only _) (by decide) (by decide))) ((noted s).trans (sendSess_retired hk _ _ _ _ _ _))
  rw [respond_eq]
  exact .ite one (.refl s)

/-! ### Revocations -/

theorem shareTasks_retired (s : State) : StaysRetired k s s.shareTasks := by
  refine .of_regsIn (l := [9]) hk shareTasks_only (by decide) ?_ (by decide)
  unfold shareTasks
  dsimp only
  repeat' split
  all_goals simp (disch := decide)

theorem closeRec_retired (s : State) (n : Lane) (r : Rec) : StaysRetired k s (s.closeRec n r) :=
  .of_regsIn hk (closeRec_only n r) (by decide) (closeRec_in n r) (by decide)

theorem endRecords_retired (s : State) (n : Lane) (c : Nat) : StaysRetired k s (s.endRecords n c) := by
  refine .foldl (fun v r => ?_) _ _
  cases r.state with
  | final => exact .refl v
  | printing => exact closeRec_retired hk _ _ _
  | created => exact closeRec_retired hk _ _ _
  | latched => exact closeRec_retired hk _ _ _

theorem endRenders_retired (s : State) (n : Lane) : StaysRetired k s (s.endRenders n) := by
  refine .foldl (fun v q => ?_) _ _
  split
  · exact closeRec_retired hk _ _ _
  · exact .trans (.of_only (modCmp_only _) (by decide) (by decide)) (shareTasks_retired hk _)

theorem disableChan_retired (s : State) (c : Chan) : StaysRetired k s (s.disableChan c) := by
  have residue : Reg.HST_RESIDUE c / 0x1000 ≠ 4 := by revert c; decide
  have requests : Reg.HST_REQ c / 0x1000 ≠ 4 := by revert c; decide
  have shaft (v : State) : StaysRetired k v (v.dropShaft c) := .ite (.of_only (modHst_only _) (by decide) (by decide)) (.refl v)
  have regs (v : State) : StaysRetired k v ((v.setReg (Reg.HST_RESIDUE c) 0xFFFFFFFF).setFld (Reg.HST_REQ c) 7 0 0) :=
    (setReg_retired hk v _ residue).trans (setReg_retired hk _ _ requests)
  refine .ite (.refl s) (.trans (.trans ((shaft s).trans (regs _)) (.of_only (modChan_only _ _) (by decide) (by decide)))
    (.of_only commit_only (by decide) (by decide)))

omit hk in
theorem drawFree_retired (s : State) : StaysRetired k s s.drawFree.2 := fun retired => ⟨retired, rfl⟩

theorem revokeChan_retired (s : State) (c : Chan) : StaysRetired k s (s.revokeChan c) := by
  have residue : Reg.HST_RESIDUE c / 0x1000 ≠ 4 := by revert c; decide
  exact ((disableChan_retired hk s c).trans (drawFree_retired _)).trans (setReg_retired hk _ _ residue)

omit hk in
theorem stopAxis_retired (s : State) (x : Axis) (b : Bool) (st : AxisState) : StaysRetired k s (s.stopAxis x b st) :=
  .of_only (stopAxis_only x b st) (by decide) (by decide)

theorem revokeEffect_retired (s : State) (r : Nat) : StaysRetired k s (s.revokeEffect r) := by
  unfold revokeEffect
  split
  · exact .of_only (modMem_only _) (by decide) (by decide)
  · split
    · exact revokeChan_retired hk _ _
    · refine .ite (.foldl (fun v n => .ite (endRenders_retired hk v n) (.refl v)) _ _) ?_
      split
      · exact .ite (stopAxis_retired _ _ _ _) (.refl s)
      · exact .refl s

omit hk in
theorem setLease_retired (s : State) (r : Nat) (e : Lease) : StaysRetired k s (s.setLease r e) :=
  .of_only (modHat_only _) (by decide) (by decide)

omit hk in
theorem commit_retired (s : State) : StaysRetired k s s.commit := .of_only commit_only (by decide) (by decide)

theorem revokeLease_retired (j : Nat) (s : State) (r : Nat) : StaysRetired k s (revokeLease j s r) :=
  .trans ((revokeEffect_retired hk s r).trans (setLease_retired _ _ _)) (.ite (commit_retired _) (.refl _))

omit hk in
theorem rerecord_retired (j : Nat) (s : State) (e : Nat × Byte) : StaysRetired k s (rerecord j s e) :=
  .foldl (fun v _ => .ite ((setLease_retired v _ _).trans (commit_retired _)) (.refl v)) _ _

omit hk in
theorem revokeEnergy_retired (s : State) (j : Nat) : StaysRetired k s (s.revokeEnergy j) := by
  have returned (v : State) (r : Reservation) : StaysRetired k v (v.release r.holder).commit :=
    .trans (.of_only (release_only r.holder) (by decide) (by decide)) (commit_retired _)
  unfold revokeEnergy
  exact .foldl returned _ _

theorem revokeAll_retired (s : State) (j : Nat) : StaysRetired k s (s.revokeAll j) := by
  unfold revokeAll
  dsimp only
  refine .trans (.trans (.foldl (revokeLease_retired hk j) _ _) (.ite ?_ (.refl _))) (revokeEnergy_retired _ _)
  exact .foldl (rerecord_retired j) _ _

/-! ### The units' own resets -/

omit hk in
theorem celScramble_retired (a : Nat) : ∀ (n : Nat) (s : State), StaysRetired k s (s.celScramble a n)
  | 0, s => .refl s
  | n + 1, s => by
    have bytes (v : State) (f : Mem → Mem) : StaysRetired k v (v.modMem f) := .of_only (modMem_only f) (by decide) (by decide)
    exact ((drawFree_retired s).trans (bytes _ _)).trans (celScramble_retired a n _)

omit hk in
theorem celCut_retired (s : State) : StaysRetired k s s.celCut := by
  unfold celCut
  split
  · exact .refl s
  · exact (celScramble_retired _ _ s).trans (.of_only (modMem_only _) (by decide) (by decide))

theorem celResult_retired (s : State) (r : Nat) : StaysRetired k s (s.celResult r) := by
  have flag (v : State) (n : Nat) : StaysRetired k v (v.setFlag Reg.MEM_CEL_PSTAT n) :=
    .of_regsIn hk (setFlag_only _ _) (by decide) (setFlags_in _ _) (by decide)
  have result : StaysRetired k s (s.setFld Reg.MEM_CEL_PSTAT 7 4 r) := setReg_retired hk s _ (by decide)
  exact result.trans (.ite (flag _ 0) (.ite (flag _ 1) (.refl _)))

theorem resetCel_retired (s : State) : StaysRetired k s s.resetCel := by
  have invalid (v : State) (r : Option (Nat × Nat)) : StaysRetired k v (v.verInvalidate r) :=
    .of_regsIn hk (verInvalidate_only v r) (by decide) (verInvalidate_in v r) (by decide)
  have emitted (v : State) (e : Emit) : StaysRetired k v (v.emit e) := .of_only (emit_only e) (by decide) (by decide)
  unfold resetCel
  dsimp only
  split
  · exact (((invalid s _).trans (celCut_retired _)).trans (celResult_retired hk _ _)).trans (emitted _ _)
  · exact emitted s _

omit hk in
theorem resetWsl_retired (s : State) : StaysRetired k s s.resetWsl := by
  refine .trans (.of_only (modSes_only _) (by decide) (by decide)) (.foldl (fun v i => ?_) _ _)
  exact .trans (.of_only (disown_only i) (by decide) (by decide)) (.of_only (modSess_only _ _) (by decide) (by decide))

theorem answerClaim_retired (s : State) (i : Sess) (q : BitVec 16) (x : BitVec 6) (c : Code) :
    StaysRetired k s (s.answerClaim i q x c) := by
  unfold answerClaim
  split
  · exact .refl s
  · exact respond_retired hk s i _ rfl

theorem closeElection_retired (s : State) : StaysRetired k s (s.closeElection none) := by
  have session (v : State) (i : Sess) (f : Session → Session) : StaysRetired k v (v.modSess i f) :=
    .of_only (modSess_only i f) (by decide) (by decide)
  unfold closeElection
  dsimp only
  refine .trans (.trans (.trans (.foldl (fun v i => session v i _) _ _) (.of_only (modSes_only _) (by decide) (by decide)))
    (commit_retired _)) (.foldl (fun v e => ?_) _ _)
  exact answerClaim_retired hk v _ _ _ _

theorem resetSes_retired (s : State) : StaysRetired k s s.resetSes := by
  have session (v : State) (i : Sess) (f : Session → Session) : StaysRetired k v (v.modSess i f) :=
    .of_only (modSess_only i f) (by decide) (by decide)
  have queues (v : State) (f : Ses → Ses) : StaysRetired k v (v.modSes f) := .of_only (modSes_only f) (by decide) (by decide)
  have closed : StaysRetired k s (if s.ses.electEnd.isSome then s.closeElection none else s) :=
    .ite (closeElection_retired hk s) (.refl s)
  unfold resetSes
  dsimp only
  refine .trans (closed.trans (.foldl (fun v i => ?_) _ _)) (queues _ _)
  exact session v i _

theorem resetTimers_retired (s : State) : StaysRetired k s s.resetTimers := by
  have stopped (v : State) (x : TimerId) : StaysRetired k v (v.tmStop x) :=
    setReg_retired hk v _ (by rw [tmCfg_block]; decide)
  have missed (x : TimerId) : Reg.TMR_MISS x / 0x1000 ≠ 4 := by revert x; decide
  have level (v : State) (p : Nat) (b : Bool) : StaysRetired k v (v.toutLevel p b) :=
    .of_regsIn hk (toutLevel_only p b) (by decide) (toutLevel_in p b) (by decide)
  unfold resetTimers
  dsimp only
  refine .trans (.trans (.foldl (fun v x => ?_) _ _) (setReg_retired hk _ _ (by decide))) (.foldl (fun v p => level v p _) _ _)
  exact .trans (.trans ((stopped v x).trans (.of_only (modTimer_only _ _) (by decide) (by decide)))
    (setReg_retired hk _ _ (by rw [tmStat_block]; decide))) (setReg_retired hk _ _ (missed x))

theorem resetHst_retired (s : State) : StaysRetired k s s.resetHst := by
  have config (c : Chan) : ∀ a ∈ chanConfig c, a / 0x1000 = 8 := by revert c; decide
  refine .foldl (fun v c => .trans (disableChan_retired hk v c) ?_) _ _
  have only (v : State) : Only [.regs] v ((chanConfig c).foldl (fun (s : State) (a : Nat) => s.setReg a (regReset a)) v) :=
    Only.foldl (fun v a => setReg_only a _) _ _
  have regs (v : State) : RegsIn [8] v ((chanConfig c).foldl (fun (s : State) (a : Nat) => s.setReg a (regReset a)) v) :=
    RegsIn.foldl_mem _ _ fun v a ha => (setReg_in a _).mono (by simp [config c a ha])
  exact .of_regsIn hk (only _) (by decide) (regs _) (by decide)

omit hk in
theorem resetAxis_retired (s : State) (x : Axis) : StaysRetired k s (s.resetAxis x) := by
  have axis (v : State) (f : AxisSt → AxisSt) : StaysRetired k v (v.modAxis x f) := .of_only (modAxis_only x f) (by decide) (by decide)
  exact (((StaysRetired.ite (stopAxis_retired s x _ _) (.refl s)).trans (axis _ _)).trans (axis _ _)).trans (axis _ _)

omit hk in
theorem resetHealth_retired (s : State) (h : Head) : StaysRetired k s (s.resetHealth h) :=
  .trans (.of_only ((release_only (.warm h)).trans (release_only (.spit h))) (by decide) (by decide))
    (.of_only (modHealth_only _ _) (by decide) (by decide))

theorem enterOpen_retired (s : State) (n : Lane) : StaysRetired k s (s.enterOpen n) := by
  have lane : Reg.HAT_LANE_EVT n / 0x1000 = 14 := by revert n; decide
  have lateness : Reg.DEV_DEFER n / 0x1000 = 0 := by revert n; decide
  have moved : StaysRetired k s (s.laneMoved n .open_) :=
    .of_regsIn (l := [14]) hk (laneMoved_only n _) (by decide) (regsIn_setFlag _ _ (by simp [lane]) |>.2 (RegsIn.refl _ _)) (by decide)
  have told : StaysRetired k s (s.toLane n .open_) := by
    rw [toLane_eq]
    exact (moved.trans (commit_retired _)).trans ((reportSteps_retired hk).stateItem _ _ _ _ _)
  have counted (v : State) : StaysRetired k v (v.bumpFld (Reg.DEV_DEFER n) 23 16) :=
    .of_regsIn hk (bumpFld_only _ _ _) (by decide) (bumpFld_in _ _ _) (by simp [lateness])
  unfold enterOpen discardDeferred
  dsimp only
  refine told.trans (.trans (.of_only (modLane_only _ _) (by decide) (by decide)) (.foldl (fun v d => ?_) _ _))
  exact (counted v).trans (.ite (respond_retired hk _ _ _ rfl) (.refl _))

theorem resetHat_retired (s : State) : StaysRetired k s s.resetHat := by
  have check (n : Lane) : Reg.HAT_CHECK n / 0x1000 ≠ 4 := by revert n; decide
  exact .foldl (fun v n => .trans (.ite (enterOpen_retired hk v n) (.refl v)) (setReg_retired hk _ _ (check n))) _ _

theorem resetUnit_retired (s : State) (j : Nat) : StaysRetired k s (s.resetUnit j) := by
  have port (p : Fin 2) : StaysRetired k s (s.resetPort p) := .of_only (modLnk_only _) (by decide) (by decide)
  have records (n : Lane) : StaysRetired k s (s.discardRecs n) := .of_only (discardRecs_only n) (by decide) (by decide)
  have head (h : Head) : StaysRetired k s (s.resetHead h) := .of_only (modHead_only _ _) (by decide) (by decide)
  have rejects : StaysRetired k s s.resetRej := .foldl (fun v n => .of_only (modRejLane_only _ _) (by decide) (by decide)) _ _
  unfold resetUnit
  exact .ite (resetCel_retired hk s) (.ite (port 0) (.ite (port 1) (.ite (resetWsl_retired s) (.ite (resetSes_retired hk s)
    (.ite (resetTimers_retired hk s) (.ite (resetHst_retired hk s) (.ite (records _) (.ite (head _) (.ite (resetHealth_retired s _)
    (.ite (resetAxis_retired s _) (.ite rejects (.ite (resetHat_retired hk s) (.refl s)))))))))))))

/-! ### The start of a block reset -/

/-- No block reset moves a source out of RETIRED (R112, R117). -/
theorem startBlock_retired (s : State) (j : Nat) : StaysRetired k s (s.startBlock j) := by
  have unit (v : State) : StaysRetired k v ((v.revokeAll j).resetUnit j) := (revokeAll_retired hk v j).trans (resetUnit_retired hk _ j)
  have begun (v : State) : StaysRetired k v (v.modFlt fun f => { f with inReset := j :: f.inReset }) := fun retired => ⟨retired, rfl⟩
  unfold startBlock
  dsimp only
  refine .ite (.refl s) (.trans (.trans ?_ (unit _)) (begun _))
  exact .ite (endRecords_retired hk s _ _) (.refl s)

theorem holdRetired_retired (s : State) (j : Nat) : StaysRetired k s (s.holdRetired j) := by
  have held (v : State) : StaysRetired k v (v.modFlt fun f => { f with held := j :: f.held }) := fun retired => ⟨retired, rfl⟩
  exact .ite ((startBlock_retired hk s j).trans (held _)) (.refl s)

end

end State
end Sys2Proof.Machine
end

/-! ## The ends of the collector's times -/

section
namespace Sys2Proof.Machine
namespace State

variable {s : State} {k : Nat}

/-- A change of the collector that leaves the resets that wait. -/
theorem modFlt_only_flt (f : Collector → Collector) (h : (f s.flt).due = s.flt.due) : Only [.flt] s (s.modFlt f) :=
  .without (p := .due) ((modFlt_only f).mono (by decide)) h

/-! ### Recoveries -/

/-- The window and the counts of a recovery (R118). -/
def countRecovery (s : State) (k : Nat) : State :=
  (((if s.winNext k = 1 then s.winRestart k else s).bumpFld (Reg.FLT_RECOV k) 15 0).bump Reg.FLT_RECOV_GLOBAL).setFld (Reg.FLT_RECOV k)
    24 16 (s.winNext k)

/-- No quiet period of the source runs. -/
def endQuiet (s : State) (k : Nat) : State := s.modFlt fun f => { f with quietEnd := Tab.set (fun _ => none) f.quietEnd k none }

theorem endQuiet_quietDue (s : State) (k : Nat) : (s.endQuiet k).quietDue k = none := by
  rw [quietDue, endQuiet, modFlt_flt, Tab.get_set_same]

theorem endQuiet_fld (s : State) (k a hi lo : Nat) : (s.endQuiet k).fld a hi lo = s.fld a hi lo := rfl

theorem endQuiet_only (s : State) (k : Nat) : Only [.flt] s (s.endQuiet k) := modFlt_only_flt _ rfl

theorem countRecovery_only (s : State) (k : Nat) : Only [.regs, .flt] s (s.countRecovery k) := by
  have window : Only [.flt] s (if s.winNext k = 1 then s.winRestart k else s) :=
    only_ite (modFlt_only_flt _ rfl) (Only.refl _ _)
  unfold countRecovery
  simp (disch := decide) only [only_setFld, only_bump, only_bumpFld]
  exact window.mono (by decide)

theorem countRecovery_count (h : s.winNext k < 512) : (s.countRecovery k).fld (Reg.FLT_RECOV k) 24 16 = s.winNext k := by
  unfold countRecovery
  exact setFld_fld_same _ _ (by decide) h

/-- A source changes its state, with the flags of `FLT_EVT` that tell it: one commit (R117, R118). -/
def moveSource (s : State) (k v : Nat) (m : Word) : State := ((s.setSrcState k v).setFlags Reg.FLT_EVT m).commit

theorem moveSource_only (s : State) (k v : Nat) (m : Word) : Only [.order, .regs, .guards] s (s.moveSource k v m) := by
  unfold moveSource setSrcState
  simp (disch := decide)

theorem moveSource_quietDue (s : State) (k v : Nat) (m : Word) : (s.moveSource k v m).quietDue k = s.quietDue k := rfl

theorem moveSource_srcState (s : State) (k : Nat) {v : Nat} (m : Word) (hv : v < 4) : (s.moveSource k v m).srcState k = v := by
  have apart : Reg.FLT_EVT ≠ Reg.FLT_SRC_STATE (k / 16) := by
    simp only [Reg.FLT_EVT, Reg.FLT_SRC_STATE]
    omega
  change ((s.setSrcState k v).setFlags Reg.FLT_EVT m).srcState k = v
  rw [srcState_congr (setFlags_reg_other _ _ _ _ apart), setSrcState_srcState _ hv, if_pos rfl]

theorem moveSource_recov (s : State) (v : Nat) (m : Word) (hi lo : Nat) (hk : k < 36) :
    (s.moveSource k v m).fld (Reg.FLT_RECOV k) hi lo = s.fld (Reg.FLT_RECOV k) hi lo := by
  have flags : Reg.FLT_EVT ≠ Reg.FLT_RECOV k := by
    simp only [Reg.FLT_EVT, Reg.FLT_RECOV]
    omega
  change ((s.setSrcState k v).setFlags Reg.FLT_EVT m).fld (Reg.FLT_RECOV k) hi lo = _
  rw [fld, setFlags_reg_other _ _ _ _ flags, setSrcState, setFld_reg_other _ _ _ _ _ _ (srcState_ne_recov k k hk), fld]

/-- After its window and counts have gone on and its quiet period is over, the source becomes RETIRED or NORMAL (R118). -/
theorem recover_eq (s : State) (k : Nat) : s.recover k =
    if s.winNext k > bits (s.reaction k 2) 7 0 then (((s.countRecovery k).endQuiet k).moveSource k 2 3).holdRetired k
    else ((s.countRecovery k).endQuiet k).moveSource k 0 1 := by
  have kept : Only [.regs, .flt] s ((s.countRecovery k).endQuiet k) :=
    (countRecovery_only s k).trans ((endQuiet_only _ k).mono (by decide))
  rw [← reaction_of_only kept (by decide) k 2]
  rfl

section

variable (hk : k < 36)
include hk

/-- A recovery within the limit makes the source NORMAL, with its count in the window (R118). -/
theorem recover_normal (within : s.winNext k ≤ bits (s.reaction k 2) 7 0) :
    (s.recover k).srcState k = 0 ∧ (s.recover k).quietDue k = none ∧ (s.recover k).fld (Reg.FLT_RECOV k) 24 16 = s.winNext k ∧
      Only [.order, .regs, .guards, .flt] s (s.recover k) := by
  have limit : bits (s.reaction k 2) 7 0 < 256 := Nat.mod_lt _ (by decide)
  have counted : Only [.regs, .flt] s ((s.countRecovery k).endQuiet k) :=
    (countRecovery_only s k).trans ((endQuiet_only _ k).mono (by decide))
  rw [recover_eq, if_neg (by omega)]
  refine ⟨moveSource_srcState _ k _ (by decide), ?_, ?_, (counted.mono (by decide)).trans ((moveSource_only _ _ _ _).mono (by decide))⟩
  · rw [moveSource_quietDue, endQuiet_quietDue]
  · rw [moveSource_recov _ _ _ _ _ hk, endQuiet_fld, countRecovery_count (by omega)]

/-- A recovery above the limit makes the source RETIRED, which the block reset that may hold its unit keeps (R117, R118). -/
theorem recover_retired (above : bits (s.reaction k 2) 7 0 < s.winNext k) :
    (s.recover k).srcState k = 2 ∧ (s.recover k).quietDue k = none := by
  rw [recover_eq, if_pos above]
  obtain ⟨retired, kept⟩ := holdRetired_retired hk (((s.countRecovery k).endQuiet k).moveSource k 2 3) k
    (moveSource_srcState _ k _ (by decide))
  exact ⟨retired, by rw [kept, moveSource_quietDue, endQuiet_quietDue]⟩

end

end State

/-- Settles O17: each command advances to its time and does what the collector does at its end. -/
theorem faultTimesEnd : Obligations.FaultTimesEnd := by
  intro s d ticks
  have tick : (s.advanceTo d).tick = max s.tick d := State.advanceTo_tick ticks d
  refine ⟨fun due => ?_, fun due => ?_, fun src due => ?_⟩
  · have run : exec .errMinEnd s = s.finish ((s.advanceTo d).modFlt fun f => { f with errMinEnd := none }) := by
      rw [exec, execErrMinEnd, due, State.timed_some ticks]
    exact ⟨_, run, rfl, tick, State.modFlt_only_flt _ rfl⟩
  · have run : exec .trapPulseEnd s =
        s.finish (((s.advanceTo d).modFlt fun f => { f with trapEnd := none }).emit (.pin "TRAP_OUT" (some false))) := by
      rw [exec, execTrapPulseEnd, due, State.timed_some ticks]
    exact ⟨_, run, rfl, tick, ((State.modFlt_only_flt _ rfl).mono (by decide)).trans ((State.emit_only _).mono (by decide)), rfl⟩
  · have run : exec (.quietPeriodEnd src) s = s.finish ((s.advanceTo d).recover src) := by
      rw [exec, execQuietPeriodEnd, due, State.timed_some ticks]
    generalize s.advanceTo d = t at *
    refine ⟨_, run, ?_⟩
    by_cases above : bits (t.reaction src 2) 7 0 < t.winNext src
    · obtain ⟨retired, quiet⟩ := State.recover_retired src.isLt above
      exact ⟨quiet, by rw [retired, if_pos above], fun within => by omega⟩
    · obtain ⟨normal, quiet, count, only⟩ := State.recover_normal src.isLt (Nat.le_of_not_lt above)
      exact ⟨quiet, by rw [normal, if_neg above], fun _ => ⟨count, (only.part .tick (by decide)).trans tick, only⟩⟩

end Sys2Proof.Machine
end

/-! ## Power arrives, the rails, and requested resets -/

section
namespace Sys2Proof.Machine
namespace State

variable {s t u : State}

/-! ### Power states -/

/-- A change of the Pantry that leaves its ledger. -/
theorem modPwr_only_pwr (f : Pantry → Pantry) (ledger : Part.energy.same s (s.modPwr f)) : Only [.pwr] s (s.modPwr f) :=
  .without (p := .energy) ((modPwr_only f).mono (by decide)) ledger

/-- The entry to a power state leaves the rest of the Pantry. -/
theorem goPwr_pwr (s : State) (p : PowerState) : (s.goPwr p).pwr = { s.pwr with state := p } := by
  rw [goPwr_eq]
  split
  · exact (pwr_of_only (stateItem_only 1 none _ _) (by decide) (by decide)).trans (powerMoved_pwr s p)
  · exact powerMoved_pwr s p

theorem sampleStraps_only (conv : List (List Nat)) : Only [.boot] s (s.sampleStraps conv) := modBoot_only _

theorem sampleStraps_straps (s : State) (conv : List (List Nat)) (i : Fin 4) :
    (s.sampleStraps conv).boot.straps[i] = decodeStrap (conv.getD i.val []) := by
  simp [sampleStraps]

/-- The entry to CHARGE (R130, R140): the class offered is granted where it has been read, else class 10. -/
theorem enterCharge_spec (s : State) :
    s.enterCharge.pwr.state = .charge ∧ s.enterCharge.pwr.pgood = s.pwr.pgood ∧
      s.enterCharge.pwr.granted = (if s.pwr.classRead then s.offered else 10) ∧ Only (.pwr :: messageParts) s s.enterCharge := by
  generalize hg : (if s.pwr.classRead then s.offered else 10) = g
  generalize hv : ((s.setFld Reg.PWR_INPUT 15 0 (classPower g)).modPwr fun p =>
    { p with granted := g, chargeK := 0, fullStop := false, duty := 0 }) = v
  have entered : s.enterCharge = v.goPwr .charge := by rw [← hv, ← hg]; rfl
  have prepared : Only [.regs, .pwr] s v := by
    rw [← hv]
    exact ((setFld_only _ _ _ _).mono (by decide)).trans ((modPwr_only_pwr _ ⟨rfl, rfl, rfl⟩).mono (by decide))
  rw [entered, goPwr_pwr]
  exact ⟨rfl, by rw [← hv]; rfl, by rw [← hv]; rfl, (prepared.mono (by decide)).trans (goPwr_only v .charge)⟩

/-! ### The rails -/

theorem setRail_pwr (s : State) (v : Bool) : (s.setRail v).pwr = { s.pwr with railEn := v } := by
  unfold setRail
  split
  case isTrue stands => rw [← stands]
  case isFalse => rfl

theorem setRail_only (v : Bool) : Only [.pwr, .out] s (s.setRail v) :=
  only_ite (Only.refl _ _) (((modPwr_only_pwr _ ⟨rfl, rfl, rfl⟩).mono (by decide)).trans ((emit_only _).mono (by decide)))

/-- A bring-up attempt that fails (R149): RAIL_EN is dropped, and a retry waits. -/
theorem railFail_spec (rail : s.pwr.railEn = true) (off : s.boot.phase = .off) :
    s.railFail.pwr.railEn = false ∧ s.railFail.pwr.retry = true ∧ s.railFail.pwr.state = s.pwr.state ∧
      Only [.regs, .pwr, .out] s s.railFail := by
  have dropped : s.railFail = ((s.setRail false).bumpFld Reg.PWR_COUNTS 31 16).modPwr fun p => { p with retry := true } := by
    unfold railFail
    rw [rail, off]
    rfl
  rw [dropped, modPwr_pwr, bumpFld_pwr, setRail_pwr]
  exact ⟨rfl, rfl, rfl, (((setRail_only false).mono (by decide)).trans ((bumpFld_only _ _ _).mono (by decide))).trans
    ((modPwr_only_pwr _ ⟨rfl, rfl, rfl⟩).mono (by decide))⟩

/-- The next attempt in CHARGE (R149). -/
theorem railRetry_spec (waits : s.pwr.retry = true) (charge : s.pwr.state = .charge) :
    s.railRetry.pwr.railEn = true ∧ s.railRetry.pwr.retry = false ∧ Only [.pwr, .out] s s.railRetry := by
  have raised : s.railRetry = (s.modPwr fun p => { p with retry := false }).setRail true := by
    unfold railRetry
    rw [waits, charge]
    rfl
  rw [raised, setRail_pwr]
  exact ⟨rfl, rfl, ((modPwr_only_pwr _ ⟨rfl, rfl, rfl⟩).mono (by decide)).trans (setRail_only true)⟩

/-! ### The core turned off -/

theorem celScramble_boot (a k : Nat) (u : State) : (u.celScramble a k).boot = u.boot := by
  induction k generalizing u with
  | zero => rfl
  | succ k ih => exact ih _

theorem celCut_boot (u : State) : u.celCut.boot = u.boot := by
  unfold celCut
  split
  · rfl
  · exact celScramble_boot _ _ u

/-- A core that is off keeps the Loft and the straps as sampled (R144, R152). -/
theorem coreOff_spec (s : State) :
    s.coreOff.boot.phase = .off ∧ s.coreOff.boot.straps = s.boot.straps ∧ s.coreOff.mem.loft = s.mem.loft := by
  generalize hv : (s.beginReset.modBoot fun b => bootReset b .off).modMem (fun m => { m with staged := [] }) = v
  have undriven : Only [.out] v s.coreOff := by
    rw [← hv]
    exact (pins_only lowPins _).trans (pins_only openPins _)
  have boot : s.coreOff.boot = bootReset s.copyPrior.celCut.boot .off := by
    rw [undriven.part .boot (by decide), ← hv]
    rfl
  have mem : s.coreOff.mem.loft = s.copyPrior.celCut.mem.loft := by
    rw [mem_of_only undriven (by decide) (by decide) (by decide), ← hv]
    rfl
  have cut : s.copyPrior.celCut.boot = s.boot := (celCut_boot _).trans (copyPrior_only.part .boot (by decide))
  have prior : s.copyPrior.mem = s.mem := mem_of_only copyPrior_only (by decide) (by decide) (by decide)
  exact ⟨by rw [boot]; rfl, by rw [boot, cut]; rfl, by rw [mem, celCut_loft, prior]⟩

/-- The VAON power-on reset (R140, R151) keeps the Loft alone, and every register is at its reset value. -/
theorem powerOnReset_spec (s : State) : s.powerOnReset.pwr.state = .off ∧ s.powerOnReset.boot.phase = .off ∧
    s.powerOnReset.mem.loft = s.mem.loft ∧ ∀ a, s.powerOnReset.reg a = regReset a := by
  obtain ⟨off, -, loft⟩ := coreOff_spec s
  have rail (v : State) : Only [.pwr, .out] v (v.setRail false) := setRail_only false
  refine ⟨rfl, ?_, ?_, fun a => ?_⟩
  · exact (congrArg Boot.phase ((rail _).part .boot (by decide)) :).trans off
  · exact (congrArg Mem.loft (mem_of_only (rail _) (by decide) (by decide) (by decide)) :).trans loft
  · exact (congrArg (fun r => Tab.get regReset r a) ((rail _).part .regs (by decide)) :)

/-! ### A requested reset -/

/-- A granted reset request commits, and the reset is scheduled (R162, R194). -/
theorem devResetReq_granted {o : OpCtx} (granted : s.Granted o OpEnv.quiet Reg.DEV_RESET_REQ [0x44800001]) :
    ∃ v : State, exec (.devResetReq o) s = .next (s.written o (v.modBoot fun b => { b with reqAt := some (v.tick + 100000) })) ∧
      Only [.order, .regs] s v ∧ RegsBut [] s v := by
  have live : s.moot (Reg.DEV_RESET_REQ, 0x44800001) = false := by
    unfold moot
    dsimp only
    rw [if_neg (by decide), if_neg (by decide), if_neg (by decide), if_neg (by decide), if_neg (by decide), if_neg (by decide), mootCommand,
      if_neg (by decide), if_neg (by decide), if_neg (by decide), if_neg (by decide), if_neg (by decide)]
    decide
  refine ⟨(s.placeWords [(Reg.DEV_RESET_REQ, 0x44800001)]).commit,
    (finish_own granted (by decide) (by decide) (by decide) live).trans ?_,
    (only_commit (by decide)).2 ((placeWords_only _).mono (by decide)), fun a _ => placeWords_reg_trigger (by decide) a⟩
  generalize (s.placeWords [(Reg.DEV_RESET_REQ, 0x44800001)]).commit = v
  have effect : effect s OpEnv.quiet v (Reg.DEV_RESET_REQ, 0x44800001) = linkEffect s v Reg.DEV_RESET_REQ 0x44800001 := by
    unfold State.effect
    dsimp only
    rw [if_neg (by decide), show Reg.DEV_RESET_REQ / 0x1000 = 0 by decide]
    rfl
  rw [effect, linkEffect, if_pos rfl, if_pos (by decide)]

end State

/-- Settles O7: each command enters its power state, which leaves what was read of class and straps. -/
theorem powerArrives : Obligations.PowerArrives := by
  intro s conv
  refine ⟨fun off => ?_, fun low => ?_, fun classify => ?_, fun dark => ?_⟩
  · have run : exec (.vaonRelease conv) s = s.finish ((s.sampleStraps conv).goPwr .classify) := by
      rw [exec, execVaonRelease, if_pos off]
    have entered := State.goPwr_only (s.sampleStraps conv) .classify
    refine ⟨_, run, State.goPwr_state _ _, ((State.sampleStraps_only conv).mono (by decide)).trans (entered.mono (by decide)), fun i => ?_⟩
    rw [entered.part .boot (by decide)]
    exact State.sampleStraps_straps s conv i
  · have run : exec .sccpClassRead s = s.finish (s.modPwr fun p => { p with classRead := true }) := by
      rw [exec, execSccpClassRead, low]
      rfl
    exact ⟨_, run, rfl, State.modPwr_only _, rfl⟩
  · have run : exec (.pgoodHigh conv) s = s.finish (s.modPwr fun p => { p with pgood := true }).enterCharge := by
      rw [exec, execPgoodHigh, State.pgoodHigh, State.modPwr_pwr, classify]
    obtain ⟨charge, good, granted, only⟩ := State.enterCharge_spec (s.modPwr fun p => { p with pgood := true })
    exact ⟨_, run, charge, good, granted, ((State.modPwr_only_pwr _ ⟨rfl, rfl, rfl⟩).mono (by decide)).trans only⟩
  · have run : exec (.pgoodHigh conv) s = s.finish ((s.modPwr fun p => { p with pgood := true }).sampleStraps conv).enterCharge := by
      rw [exec, execPgoodHigh, State.pgoodHigh, State.modPwr_pwr, dark]
    obtain ⟨charge, good, -, only⟩ := State.enterCharge_spec ((s.modPwr fun p => { p with pgood := true }).sampleStraps conv)
    refine ⟨_, run, charge, good, ?_, fun i => ?_⟩
    · exact (((State.modPwr_only_pwr _ ⟨rfl, rfl, rfl⟩).mono (by decide)).trans ((State.sampleStraps_only conv).mono (by decide))).trans
        (only.mono (by decide))
    · rw [only.part .boot (by decide)]
      exact State.sampleStraps_straps _ conv i

/-- Settles O10: both timeouts are the failed attempt, and the retry is the next one. -/
theorem railBringUpRetries : Obligations.RailBringUpRetries := fun _ =>
  ⟨fun rail off => ⟨⟨_, rfl, State.railFail_spec rail off⟩, ⟨_, rfl, State.railFail_spec rail off⟩⟩,
    fun waits charge => ⟨_, rfl, State.railRetry_spec waits charge⟩⟩

/-- Settles O14: what the write's effect, the release, the power-on reset and the loss of VIO set, clause by clause. -/
theorem resetRequestAndRelease : Obligations.ResetRequestAndRelease := by
  intro s
  refine ⟨fun o granted => ?_, fun on low => ?_, ?_, ?_⟩
  · obtain ⟨v, run, only, regs⟩ := State.devResetReq_granted granted
    have tick : v.tick = s.tick := only.part .tick (by decide)
    have boot : v.boot = s.boot := only.part .boot (by decide)
    exact ⟨_, run, by rw [State.modBoot_boot, tick], by rw [State.modBoot_boot, boot], regs,
      (only.mono (by decide)).trans ((State.modBoot_only _).mono (by decide))⟩
  · have run : exec .resetOutRelease s = s.finish
        (((s.advanceTo 100000).modBoot fun b => { b with resetOut := true }).emit (.pin "RESET_OUT_N" (some true))) := by
      rw [exec, execResetOutRelease, State.releaseOut, on, low]
      rfl
    have boot : (s.advanceTo 100000).boot = s.boot := (State.advanceTo_only _).part .boot (by decide)
    exact ⟨_, run, rfl, fun ticks => State.advanceTo_tick ticks _, (congrArg Boot.phase boot :),
      ((State.modBoot_only _).mono (by decide)).trans ((State.emit_only _).mono (by decide))⟩
  · exact ⟨_, rfl, State.powerOnReset_spec s⟩
  · refine ⟨s.modBoot fun b => { b with vioOk := false }, rfl, ?_, State.modBoot_only _, fun n => ?_⟩
    · simp [State.pinsDriven]
    · simp [State.rejDrive, State.pinsDriven]

end Sys2Proof.Machine
end

/-! ## Samples of the Pantry, HOLD and DARK -/

section
namespace Sys2Proof.Machine
namespace State

variable {s t u : State}

/-! ### A sample -/

/-- From `s` to `t` what a sample has recorded stands: charger, capacitance and their registers alone have changed, and neither the
power state nor the threshold of the input. -/
structure Charged (s t : State) : Prop where
  only : Only [.order, .regs, .guards, .pwr] s t
  state : t.pwr.state = s.pwr.state
  vNow : t.pwr.vNow = s.pwr.vNow
  bNow : t.pwr.bNow = s.pwr.bNow
  pgood : t.pwr.pgood = s.pwr.pgood
  samples : t.pwr.samples = s.pwr.samples
  bus : t.reg Reg.PWR_BUS = s.reg Reg.PWR_BUS

namespace Charged

theorem refl (s : State) : Charged s s := ⟨Only.refl _ _, rfl, rfl, rfl, rfl, rfl, rfl⟩

theorem trans (h : Charged s t) (k : Charged t u) : Charged s u :=
  ⟨h.only.trans k.only, k.state.trans h.state, k.vNow.trans h.vNow, k.bNow.trans h.bNow, k.pgood.trans h.pgood,
    k.samples.trans h.samples, k.bus.trans h.bus⟩

theorem ite {c : Prop} [Decidable c] (ht : Charged s t) (hu : Charged s u) : Charged s (if c then t else u) := by
  split
  · exact ht
  · exact hu

/-- A step that leaves the Pantry and the threshold's register. -/
theorem of_only {m : List Part} (only : Only m s t) (hm : ∀ p ∈ m, p ∈ [Part.order, .regs, .guards])
    (bus : t.reg Reg.PWR_BUS = s.reg Reg.PWR_BUS) : Charged s t := by
  have pwr : t.pwr = s.pwr := pwr_of_only only (fun h => absurd (hm _ h) (by decide)) (fun h => absurd (hm _ h) (by decide))
  exact ⟨only.mono fun p hp => List.mem_append_left [Part.pwr] (hm p hp), by rw [pwr], by rw [pwr], by rw [pwr], by rw [pwr], by rw [pwr], bus⟩

/-- A change of what the charger and the measurement hold in the Pantry. -/
theorem modPwr (f : Pantry → Pantry) (only : Only [.pwr] s (s.modPwr f)) (state : (f s.pwr).state = s.pwr.state)
    (sampled : ((f s.pwr).vNow, (f s.pwr).bNow, (f s.pwr).pgood, (f s.pwr).samples) = (s.pwr.vNow, s.pwr.bNow, s.pwr.pgood, s.pwr.samples)) :
    Charged s (s.modPwr f) := by
  obtain ⟨vNow, bNow, pgood, samples⟩ := Prod.mk.inj sampled |>.imp_right fun h => Prod.mk.inj h |>.imp_right Prod.mk.inj
  exact ⟨only.mono (by decide), state, vNow, bNow, pgood, samples, rfl⟩

theorem setCapQ (s : State) (q : Option (BitVec 64)) (armed : Bool) : Charged s (s.modPwr fun p => { p with capQ := q, capArmed := armed }) :=
  modPwr _ (modPwr_only_pwr _ ⟨rfl, rfl, rfl⟩) rfl rfl

theorem setDuty (s : State) (duty : Nat) (stop : Bool) : Charged s (s.modPwr fun p => { p with duty := duty, fullStop := stop }) :=
  modPwr _ (modPwr_only_pwr _ ⟨rfl, rfl, rfl⟩) rfl rfl

theorem countCharge (s : State) : Charged s (s.modPwr fun p => { p with chargeK := p.chargeK + 1 }) :=
  modPwr _ (modPwr_only_pwr _ ⟨rfl, rfl, rfl⟩) rfl rfl

theorem chargeStep (s : State) (v : Nat) : Charged s (s.chargeStep v).1 := by
  unfold State.chargeStep
  split
  · dsimp only
    generalize (s.modPwr fun p => { p with chargeK := p.chargeK + 1 }).chargeSet v = set
    exact (countCharge s).trans (setDuty _ _ _)
  · exact setDuty s 0 false

theorem measure (s : State) (q : BitVec 64) : Charged s (s.measure q) := by
  have shown (c : Nat) : Charged s (s.setFld Reg.PWR_RES_CAP 31 16 c) :=
    .of_only (setFld_only _ _ _ _) (by decide) (setFld_reg_other _ _ _ _ _ _ (by decide))
  have low (v : State) : Charged v (v.setFlag Reg.PWR_EVT 3).commit :=
    .of_only ((only_commit (l := [.order, .regs, .guards]) (by decide)).2 ((setFlag_only _ _).mono (by decide))) (by decide)
      (setFlag_reg_other v Reg.PWR_EVT 3 Reg.PWR_BUS (by decide))
  unfold State.measure
  dsimp only
  exact ((shown _).trans (setCapQ _ _ _)).trans (ite (low _) (refl _))

theorem capStep (s : State) (v : Nat) (i : BitVec 16) (on : Bool) : Charged s (s.capStep v i on) := by
  unfold State.capStep
  split
  · exact setCapQ _ _ _
  · split
    · split
      · exact setCapQ _ _ _
      · split
        · exact measure _ _
        · exact setCapQ _ _ s.pwr.capArmed
    · split
      · split
        · exact measure _ _
        · exact setCapQ _ _ _
      · exact refl _

end Charged

/-- A sample recorded, with what the charger and the capacitance measurement make of it (R131-R134). -/
def sampleTaken (s : State) (v i b : BitVec 12) (pgood : Bool) : State :=
  let (vm, im, bm) := s.convert v i b
  let (t, on) := (s.recordSample vm im bm pgood).chargeStep vm
  t.capStep vm im on

theorem sample_eq (s : State) (v i b : BitVec 12) (pgood : Bool) : s.sample v i b pgood = (s.sampleTaken v i b pgood).sampleState := rfl

/-- What is recorded of a sample stands until the power state is decided. -/
theorem sampleTaken_charged (s : State) (v i b : BitVec 12) (pgood : Bool) :
    Charged (s.recordSample (s.convert v i b).1 (s.convert v i b).2.1 (s.convert v i b).2.2 pgood) (s.sampleTaken v i b pgood) :=
  (Charged.chargeStep _ _).trans (Charged.capStep _ _ _ _)

/-- In RUN a sample keeps RUN or enters HOLD (R140, R141). -/
theorem sampleState_run (run : s.pwr.state = .run) : s.sampleState = (if s.inputLost then s.enterHold else s, false) := by
  unfold sampleState
  rw [run]

/-! ### The entry to HOLD -/

theorem endBurst_only (h : Head) : Only [.order, .energy, .hlt] s (s.endBurst h) := by
  unfold endBurst
  split
  · simp (disch := decide) [Only.step (debitAll_only _)]
  · exact Only.refl _ _

/-- The parts that the entry to HOLD changes after the Pantry's own state. -/
def holdParts : List Part := [.energy, .hlt] ++ messageParts

/-- The entry to HOLD (R140, R143) keeps what the latest sample has recorded. -/
theorem enterHold_spec (run : s.pwr.state = .run) :
    s.enterHold.pwr.state = .hold ∧ s.enterHold.pwr.holdFrom = .run ∧ s.enterHold.pwr.vNow = s.pwr.vNow ∧
      s.enterHold.pwr.pgood = s.pwr.pgood ∧ s.enterHold.pwr.samples = s.pwr.samples ∧ Only (.pwr :: holdParts) s s.enterHold := by
  generalize hv : (s.bumpFld Reg.PWR_COUNTS 15 0).modPwr (fun p =>
    { p with holdFrom := .run, backCount := 0, parked := false, duty := 0 }) = v
  have counted : Only [.regs, .pwr] s v := by
    rw [← hv]
    exact ((bumpFld_only _ _ _).mono (by decide)).trans ((modPwr_only_pwr _ ⟨rfl, rfl, rfl⟩).mono (by decide))
  have pwr : (v.goPwr .hold).pwr = { s.pwr with state := .hold, holdFrom := .run, backCount := 0, parked := false, duty := 0 } := by
    rw [goPwr_pwr, ← hv, modPwr_pwr, bumpFld_pwr]
  have stops (w : State) : Only holdParts w (if w.coreOn then
      allLanes.foldl (fun (s : State) (h : Head) => s.endBurst h) ((w.setFlag Reg.PWR_EVT 0).raise Kind.pwrInputLost (word w.vLow))
      else w) := by
    refine only_ite (.trans ?_ ((Only.foldl (fun _ h => endBurst_only h) _ _).mono (by decide))) (Only.refl _ _)
    simp (disch := decide)
  have entered : s.enterHold = (if (v.goPwr .hold).coreOn then
      allLanes.foldl (fun (s : State) (h : Head) => s.endBurst h)
        (((v.goPwr .hold).setFlag Reg.PWR_EVT 0).raise Kind.pwrInputLost (word ((v.goPwr .hold).setFlag Reg.PWR_EVT 0).vLow))
      else v.goPwr .hold) := by
    unfold enterHold
    rw [run, ← hv]
    rfl
  have rest : Only holdParts (v.goPwr .hold) s.enterHold := entered ▸ stops _
  have kept : { s.enterHold.pwr with live := [], spent := [], refused := false } =
      { (v.goPwr .hold).pwr with live := [], spent := [], refused := false } := rest.part .pwr (by decide)
  rw [pwr] at kept
  exact ⟨(congrArg Pantry.state kept :), (congrArg Pantry.holdFrom kept :), (congrArg Pantry.vNow kept :), (congrArg Pantry.pgood kept :),
    (congrArg Pantry.samples kept :), ((counted.mono (by decide)).trans ((goPwr_only _ _).mono (by decide))).trans (rest.mono (by decide))⟩

/-- What a sample leaves in RUN, once recorded at `t` (R131, R132, R140, R141). -/
theorem sample_run (ticks : s.ticking = true) (run : s.pwr.state = .run) (v i b : BitVec 12) (pgood : Bool) :
    (s.sample v i b pgood).2 = false ∧
    (s.sample v i b pgood).1.pwr.vNow = v.toNat * s.fld Reg.PWR_SENSE 15 0 / 4096 ∧
    (s.sample v i b pgood).1.pwr.pgood = pgood ∧
    (s.sample v i b pgood).1.pwr.samples = ((s.sample v i b pgood).1.pwr.vNow :: s.pwr.samples).take 4 ∧
    (pgood = false → (s.sample v i b pgood).1.pwr.state = .hold ∧ (s.sample v i b pgood).1.pwr.holdFrom = .run) ∧
    (pgood = true → s.fld Reg.PWR_BUS 15 0 ≤ b.toNat * s.fld Reg.PWR_SENSE 15 0 / 4096 → (s.sample v i b pgood).1.pwr.state = .run) ∧
    Only (.pwr :: holdParts) s (s.sample v i b pgood).1 := by
  generalize hw : s.recordSample (s.convert v i b).1 (s.convert v i b).2.1 (s.convert v i b).2.2 pgood = w
  generalize hc : s.sampleTaken v i b pgood = c
  have charged : Charged w c := hw ▸ hc ▸ sampleTaken_charged s v i b pgood
  have recorded : Only [.pwr, .energy] s w := hw ▸ modPwr_only _
  have state : c.pwr.state = .run := charged.state.trans (by rw [← hw]; exact run)
  have vNow : c.pwr.vNow = v.toNat * s.fld Reg.PWR_SENSE 15 0 / 4096 := charged.vNow.trans (by rw [← hw]; rfl)
  have good : c.pwr.pgood = pgood := charged.pgood.trans (by rw [← hw]; rfl)
  have samples : c.pwr.samples = (c.pwr.vNow :: s.pwr.samples).take 4 := by
    rw [charged.samples, charged.vNow, ← hw, recordSample, modPwr_pwr]
    simp [ticks]
  have lost : c.inputLost = (!pgood || decide (b.toNat * s.fld Reg.PWR_SENSE 15 0 / 4096 < s.fld Reg.PWR_BUS 15 0)) := by
    rw [inputLost, good, charged.bNow, fld, charged.bus, ← hw]
    rfl
  have before : Only (.pwr :: holdParts) s c := (recorded.mono (by decide)).trans (charged.only.mono (by decide))
  obtain ⟨hold, from_, vHold, goodHold, samplesHold, holdOnly⟩ := enterHold_spec state
  rw [sample_eq, hc, sampleState_run state, lost]
  cases pgood with
  | false => exact ⟨rfl, vHold.trans vNow, goodHold.trans good, by rw [Bool.not_false, Bool.true_or, if_pos rfl, samplesHold, vHold, samples],
      fun _ => ⟨hold, from_⟩, nofun, before.trans holdOnly⟩
  | true =>
    by_cases low : b.toNat * s.fld Reg.PWR_SENSE 15 0 / 4096 < s.fld Reg.PWR_BUS 15 0
    · rw [decide_eq_true low, Bool.or_true, if_pos rfl]
      exact ⟨rfl, vHold.trans vNow, goodHold.trans good, by rw [samplesHold, vHold, samples], nofun, fun _ enough => by omega,
        before.trans holdOnly⟩
    · rw [decide_eq_false low, Bool.not_true, Bool.or_false, if_neg (by decide)]
      exact ⟨rfl, vNow, good, samples, nofun, fun _ _ => state, before⟩

end State

/-- Settles O8: the sample in time, whose tick leaves the registers of block PWR. -/
theorem pantrySampleIsRecorded : Obligations.PantrySampleIsRecorded := by
  intro s v i b pgood ticks run
  generalize ht : s.advanceTo (s.dueAt Ev.sample 0 10000) = t
  have time : Only (.tick :: clockParts) s t := ht ▸ State.advanceTo_only _
  have regs : RegsIn State.clockBlocks s t := ht ▸ State.advanceTo_in _
  have rest : { t.pwr with live := [], spent := [], refused := false } = { s.pwr with live := [], spent := [], refused := false } :=
    time.part .pwr (by decide)
  have state : t.pwr.state = .run := (congrArg Pantry.state rest :).trans run
  have samples : t.pwr.samples = s.pwr.samples := (congrArg Pantry.samples rest :)
  have sense : t.fld Reg.PWR_SENSE 15 0 = s.fld Reg.PWR_SENSE 15 0 := State.fld_of_regsIn regs _ _ _ (by decide)
  have bus : t.fld Reg.PWR_BUS 15 0 = s.fld Reg.PWR_BUS 15 0 := State.fld_of_regsIn regs _ _ _ (by decide)
  have awake : (t.setFired Ev.sample t.tick).ticking = true :=
    (State.ticking_of_only (State.setFired_only _ _) (by decide) (by decide)).trans
      ((State.ticking_of_only time (by decide) (by decide)).trans ticks)
  obtain ⟨stays, vNow, good, recorded, lost, keeps, only⟩ := State.sample_run (s := t.setFired Ev.sample t.tick) awake state v i b pgood
  have exec_eq : exec (.pantrySample v i b pgood) s = s.finish ((t.setFired Ev.sample t.tick).sample v i b pgood).1 := by
    rw [exec, execPantrySample, if_neg (by rw [run]; decide), State.sampleTime, if_pos ticks, State.periodic_eq ticks, ht]
    dsimp only [id]
    rw [stays]
    rfl
  refine ⟨_, exec_eq, ((State.setFired_only _ _).mono (by decide)).trans (only.mono (by decide)), ?_, good, ?_, lost, fun high enough => ?_⟩
  · rw [vNow, ← sense]
    rfl
  · rw [recorded, ← samples]
    rfl
  · rw [← sense, ← bus] at enough
    exact keeps high enough

end Sys2Proof.Machine
end

/-! ## Parking and DARK -/

section
namespace Sys2Proof.Machine
namespace State

variable {s t u : State}

/-! ### DARK -/

/-- The entry to DARK with a cause (R140, R144, R149). -/
theorem goDark_spec (s : State) {cause : Nat} (h : cause < 16) :
    (s.goDark cause).pwr.state = .dark ∧ (s.goDark cause).boot.phase = .off ∧ (s.goDark cause).fld Reg.PWR_CAUSE 3 0 = cause ∧
      (s.goDark cause).mem.loft = s.mem.loft ∧ (s.goDark cause).boot.straps = s.boot.straps := by
  obtain ⟨off, straps, -⟩ := coreOff_spec s
  have rail := setRail_only (s := s.coreOff.setFld Reg.PWR_CAUSE 3 0 cause) false
  have boot : ((s.coreOff.setFld Reg.PWR_CAUSE 3 0 cause).setRail false).boot = s.coreOff.boot := rail.part .boot (by decide)
  have shown : ((s.coreOff.setFld Reg.PWR_CAUSE 3 0 cause).setRail false).fld Reg.PWR_CAUSE 3 0 = cause :=
    (fld_of_regsIn (rail.regsIn (by decide)) _ _ _ (by simp)).trans (setFld_fld_same _ _ (by decide) h)
  exact ⟨rfl, (congrArg Boot.phase boot).trans off, shown, goDark_loft s cause, (congrArg Boot.straps boot).trans straps⟩

/-! ### A rail that leaves its window -/

/-- The message of a rail, whose own reset waits on nothing but its trap (R149). -/
def railNoted (s : State) (rail : Nat) : State :=
  ((s.setFld Reg.PWR_RAIL_STAT rail rail 0).raise Kind.pwrRail (word rail)).modFlt fun f =>
    { f with due := f.due.filter fun d => !decide (d = (5, true)) }

theorem railNoted_only (rail : Nat) : Only messageParts s (s.railNoted rail) := by
  unfold railNoted
  simp (disch := decide)

theorem railOut_eq (on : s.coreOn = true) (rail : Nat) : s.railOut rail =
    if bit (s.reaction 5 0) 1 then (s.railNoted rail).modFlt fun f => { f with resetPending := some ⟨5, true, s.tick + 200000⟩ }
    else (s.railNoted rail).goDark 2 := by
  have noted : Only messageParts s (s.railNoted rail) := railNoted_only rail
  rw [← reaction_of_only noted (by decide), ← (noted.part .tick (by decide) : (s.railNoted rail).tick = s.tick), railOut, if_pos on]
  rfl

/-! ### A step that concerns one axis -/

/-- The parts that parking changes of axes. -/
def parkParts : List Part := [.order, .regs, .guards, .fired, .energy, .mot]

/-- From `s` to `t` axis `x` may park or stop: the other axes and every axis's configuration stand. -/
structure AxisAlone (x : Axis) (s t : State) : Prop where
  only : Only parkParts s t
  others : ∀ y, x ≠ y → t.axis y = s.axis y
  config : ∀ y : Axis, t.reg (Reg.MOT_CFG y) = s.reg (Reg.MOT_CFG y)

namespace AxisAlone

variable {x : Axis}

theorem trans (h : AxisAlone x s t) (k : AxisAlone x t u) : AxisAlone x s u :=
  ⟨h.only.trans k.only, fun y hy => (k.others y hy).trans (h.others y hy), fun y => (k.config y).trans (h.config y)⟩

/-- A step that leaves the axes and the registers. -/
theorem of_only {m : List Part} (h : Only m s t) (hm : ∀ p ∈ m, p ∈ [Part.order, .fired, .energy]) : AxisAlone x s t := by
  have mot : t.mot = s.mot := h.part .mot fun k => absurd (hm _ k) (by decide)
  have regs : t.regs = s.regs := h.part .regs fun k => absurd (hm _ k) (by decide)
  exact ⟨h.mono fun p hp => (by decide : ∀ p ∈ [Part.order, .fired, .energy], p ∈ parkParts) p (hm p hp),
    fun y _ => congrArg (fun m : Mot => m.axes[y]) mot, fun y => congrArg (fun r => Tab.get regReset r _) regs⟩

theorem refl (s : State) : AxisAlone x s s := .of_only (Only.refl [] s) (by decide)

theorem modAxis (s : State) (f : AxisSt → AxisSt) : AxisAlone x s (s.modAxis x f) :=
  ⟨(modAxis_only _ _).mono (by decide), fun y hy => modAxis_axis_other _ _ _ _ hy, fun _ => rfl⟩

theorem setFlag (s : State) {a : Nat} (n : Nat) (ha : ∀ y : Axis, a ≠ Reg.MOT_CFG y) : AxisAlone x s (s.setFlag a n) :=
  ⟨(setFlag_only _ _).mono (by decide), fun _ _ => rfl, fun y => setFlag_reg_other _ _ _ _ (ha y)⟩

theorem commit (s : State) : AxisAlone x s s.commit := .of_only commit_only (by decide)

theorem debitAll (s : State) (w : ResFor) : AxisAlone x s (s.debitAll w) := .of_only (debitAll_only w) (by decide)

theorem ite {c : Prop} [Decidable c] (ht : AxisAlone x s t) (hu : AxisAlone x s u) : AxisAlone x s (if c then t else u) := by
  split
  · exact ht
  · exact hu

theorem retarget (s : State) : AxisAlone x s (s.retarget x) := by
  unfold State.retarget
  exact modAxis _ _

theorem startRamp (s : State) (lose : Bool) : AxisAlone x s (s.startRamp x lose) := by
  have event : ∀ x y : Axis, Reg.MOT_DRV_EVT x ≠ Reg.MOT_CFG y := by decide
  unfold State.startRamp
  exact (((modAxis _ _).trans (ite ((modAxis _ _).trans (setFlag _ _ (event x))) (refl _))).trans (retarget _)).trans (commit _)

theorem reenergise (s : State) : AxisAlone x s (s.reenergise x) := by
  unfold State.reenergise
  split
  · split
    · exact startRamp _ _
    · exact startRamp _ _
    · exact ((modAxis _ _).trans (retarget _)).trans (commit _)
  · exact refl _

theorem endMove (s : State) (flag : Nat) : AxisAlone x s (s.endMove x flag) := by
  have event : ∀ x y : Axis, Reg.MOT_EVT x ≠ Reg.MOT_CFG y := by decide
  exact ((((debitAll _ _).trans (modAxis _ _)).trans (setFlag _ _ (event x))).trans (modAxis _ _)).trans (commit _)

theorem startPark (s : State) : AxisAlone x s (s.startPark x) := by
  have profile (v : State) (d : Int) (m : Nat) : AxisAlone x v (v.startProfile x d m) := by
    unfold startProfile
    exact modAxis _ _
  have next (v : State) : AxisAlone x v (v.fromNext x) := .of_only (setFired_only _ _) (by decide)
  exact (((modAxis _ _).trans (profile _ _ _)).trans ((next _).trans (commit _))).trans (ite (endMove _ _) (reenergise _))

theorem stopAxis (s : State) (sure : Bool) (dst : AxisState) : AxisAlone x s (s.stopAxis x sure dst) :=
  ((debitAll _ _).trans (modAxis _ _)).trans (commit _)

theorem axDisable (s : State) : AxisAlone x s (s.axDisable x) :=
  ite (refl _) (ite ((stopAxis _ _ _).trans (modAxis _ _)) (((modAxis _ _).trans (modAxis _ _)).trans (commit _)))

theorem parkAxis (s : State) : AxisAlone x s (s.parkAxis x) := by
  unfold State.parkAxis
  refine ite (axDisable _) ?_
  split
  · exact ite (modAxis _ _) (startPark _)
  · exact startPark _
  · exact refl _

end AxisAlone

theorem axDisable_state (s : State) (x : Axis) : ((s.axDisable x).axis x).state = .disabled := by
  have off (v : State) : ((v.toDisabled x).axis x).state = .disabled := by rw [toDisabled, modAxis_axis_same]
  unfold axDisable
  split
  case isTrue disabled => exact disabled
  case isFalse =>
    split
    · exact off _
    · rw [commit_axis, off]

/-- A carriage that is disabled does not park. -/
theorem parkAxis_disabled {x : Axis} (h : (s.axis x).state = .disabled) : s.parkAxis x = s := by
  unfold parkAxis
  dsimp only
  rw [h, axDisable, if_pos h, ite_self]

theorem parkAxis_stopped {x : Axis} (h : (s.axis x).suspect = true ∨ (s.axis x).state = .halt) :
    ((s.parkAxis x).axis x).state = .disabled := by
  rw [parkAxis, if_pos h, axDisable_state]

/-! ### Parking -/

/-- What HOLD does to an axis: a flying carriage parks (R143). -/
def parkCarriage (s : State) (x : Axis) : State := if s.rbit (Reg.MOT_CFG x) 12 then s.parkAxis x else s

/-- What HOLD does to the units, once parking has started. -/
def parkUnits (s : State) : State :=
  allLanes.foldl (fun (s : State) (h : Head) => s.hedPark h true) (allAxes.foldl parkCarriage s)

theorem park_eq (hold : s.pwr.state = .hold) (on : s.coreOn = true) (free : s.markLive = false) (first : s.pwr.parked = false) :
    s.park = (s.modPwr fun p => { p with parked := true }).parkUnits := by
  unfold park
  rw [if_pos ⟨hold, on, free, first⟩]
  rfl

theorem parkCarriage_alone (s : State) (x : Axis) : AxisAlone x s (s.parkCarriage x) := .ite (.parkAxis s) (.refl s)

theorem parkCarriage_bit (s : State) (x y : Axis) : (s.parkCarriage x).rbit (Reg.MOT_CFG y) 12 = s.rbit (Reg.MOT_CFG y) 12 := by
  rw [rbit, (parkCarriage_alone s x).config, rbit]

/-- An axis that carries no lane is as before. -/
theorem foldl_parkCarriage_other {y : Axis} : ∀ (l : List Axis) (s : State), s.rbit (Reg.MOT_CFG y) 12 = false →
    (l.foldl parkCarriage s).axis y = s.axis y
  | [], _, _ => rfl
  | x :: l, s, other => by
    have own : (s.parkCarriage x).axis y = s.axis y := by
      by_cases e : x = y
      · subst e
        rw [parkCarriage, other]
        rfl
      · exact (parkCarriage_alone s x).others y e
    exact (foldl_parkCarriage_other l (s.parkCarriage x) ((parkCarriage_bit s x y).trans other)).trans own

/-- A flying carriage that is suspect or halted is disabled, and one that is disabled stays so. -/
theorem foldl_parkCarriage_disabled {y : Axis} : ∀ (l : List Axis) (s : State), (s.axis y).state = .disabled ∨
      y ∈ l ∧ s.rbit (Reg.MOT_CFG y) 12 = true ∧ ((s.axis y).suspect = true ∨ (s.axis y).state = .halt) →
    ((l.foldl parkCarriage s).axis y).state = .disabled
  | [], _, h => h.resolve_right fun k => List.not_mem_nil k.1
  | x :: l, s, h => by
    refine foldl_parkCarriage_disabled l (s.parkCarriage x) ?_
    by_cases e : x = y
    · subst e
      refine .inl ?_
      rcases h with disabled | ⟨-, carries, stopped⟩
      · rw [parkCarriage, parkAxis_disabled disabled, ite_self, disabled]
      · rw [parkCarriage, if_pos carries, parkAxis_stopped stopped]
    · rw [(parkCarriage_alone s x).others y e, parkCarriage_bit]
      exact h.imp_right fun k => ⟨(List.mem_cons.1 k.1).resolve_left (Ne.symm e), k.2⟩

theorem foldl_parkCarriage_only (l : List Axis) (s : State) : Only parkParts s (l.foldl parkCarriage s) :=
  Only.foldl (fun v x => (parkCarriage_alone v x).only) l s

/-- A head port that HOLD has parked: HV_EN released, the head still on (R143). -/
def HeadParked (x : HedSt) : Prop := x.state = .parked ∧ x.hvEn = false ∧ x.headEn = true

/-- The transition of a head port: its state and its pins, and no other port's. -/
theorem hedGo_head (s : State) (h : Head) (st : HedState) (a b c : Bool) :
    (((s.hedGo h st a b c).head h).state = st ∧ ((s.hedGo h st a b c).head h).hvEn = b ∧ ((s.hedGo h st a b c).head h).headEn = a) ∧
      ∀ j, h ≠ j → (s.hedGo h st a b c).head j = s.head j := by
  have pin (v : State) (p : Prop) [Decidable p] (n : String) (x : Bool) (j : Head) : (if p then v else v.hedPin h n x).head j = v.head j := by
    split <;> rfl
  have flag (v : State) (p : Prop) [Decidable p] (j : Head) : (if p then v.setFlag (Reg.HED_EVT h) 6 else v).head j = v.head j := by
    split <;> rfl
  unfold hedGo
  simp only [commit_head, flag, pin, setHead_head_same, true_and]
  exact fun j hj => setHead_head_other _ _ _ _ hj

theorem hedPark_idle {h : Head} (hold : Bool) (idle : (s.head h).state ≠ .ready) : s.hedPark h hold = s := if_neg idle

theorem hedPark_head_other {h j : Head} (hold : Bool) (e : h ≠ j) : (s.hedPark h hold).head j = s.head j := by
  unfold hedPark
  split
  · exact (hedGo_head ..).2 j e
  · rfl

theorem foldl_hedPark_other {j : Head} : ∀ (l : List Head) (s : State), (s.head j).state ≠ .ready →
    (l.foldl (fun (s : State) (h : Head) => s.hedPark h true) s).head j = s.head j
  | [], _, _ => rfl
  | h :: l, s, idle => by
    have own : (s.hedPark h true).head j = s.head j := by
      by_cases e : h = j
      · subst e
        rw [hedPark_idle true idle]
      · exact hedPark_head_other true e
    exact (foldl_hedPark_other l (s.hedPark h true) (by rwa [own])).trans own

theorem foldl_hedPark_parked {j : Head} : ∀ (l : List Head) (s : State), HeadParked (s.head j) ∨ j ∈ l ∧ (s.head j).state = .ready →
    HeadParked ((l.foldl (fun (s : State) (h : Head) => s.hedPark h true) s).head j)
  | [], _, h => h.resolve_right fun k => List.not_mem_nil k.1
  | h :: l, s, parks => by
    refine foldl_hedPark_parked l (s.hedPark h true) ?_
    by_cases e : h = j
    · subst e
      refine .inl ?_
      rcases parks with parked | ⟨-, ready⟩
      · rwa [hedPark_idle true (by rw [parked.1]; decide)]
      · rw [hedPark, if_pos ready]
        exact (hedGo_head ..).1
    · rw [hedPark_head_other true e]
      exact parks.imp_right fun k => ⟨(List.mem_cons.1 k.1).resolve_left (Ne.symm e), k.2⟩

theorem foldl_hedPark_only (l : List Head) (s : State) :
    Only [.order, .regs, .guards, .hed, .out] s (l.foldl (fun (s : State) (h : Head) => s.hedPark h true) s) :=
  Only.foldl (fun _ h => hedPark_only h true) l s

/-- Parking (R143): heads and axes, and what it leaves. -/
theorem parkUnits_spec (s : State) :
    (∀ h : Head, (s.head h).state = .ready → HeadParked (s.parkUnits.head h)) ∧
    (∀ h : Head, (s.head h).state ≠ .ready → s.parkUnits.head h = s.head h) ∧
    (∀ x : Axis, s.rbit (Reg.MOT_CFG x) 12 = true → (s.axis x).suspect = true ∨ (s.axis x).state = .halt →
      (s.parkUnits.axis x).state = .disabled) ∧
    (∀ x : Axis, s.rbit (Reg.MOT_CFG x) 12 = false → s.parkUnits.axis x = s.axis x) ∧
    Only ([.hed, .out] ++ parkParts) s s.parkUnits := by
  have axes : Only parkParts s (allAxes.foldl parkCarriage s) := foldl_parkCarriage_only allAxes s
  have heads : Only [.order, .regs, .guards, .hed, .out] (allAxes.foldl parkCarriage s) s.parkUnits := foldl_hedPark_only allLanes _
  have head (h : Head) : (allAxes.foldl parkCarriage s).head h = s.head h :=
    congrArg (fun v : Vector HedSt 4 => v[h]) (axes.part .hed (by decide))
  have axis (x : Axis) : s.parkUnits.axis x = (allAxes.foldl parkCarriage s).axis x :=
    congrArg (fun m : Mot => m.axes[x]) (heads.part .mot (by decide))
  have every : ∀ x : Axis, x ∈ allAxes := by decide
  refine ⟨fun h ready => ?_, fun h idle => ?_, fun x carries stopped => ?_, fun x free => ?_, ?_⟩
  · exact foldl_hedPark_parked allLanes _ (.inr ⟨mem_allLanes h, by rwa [head]⟩)
  · exact (foldl_hedPark_other allLanes _ (by rwa [head])).trans (head h)
  · rw [axis]
    exact foldl_parkCarriage_disabled allAxes s (.inr ⟨every x, carries, stopped⟩)
  · rw [axis, foldl_parkCarriage_other allAxes s free]
  · exact (axes.mono (by decide)).trans (heads.mono (by decide))

end State

/-- Settles O9: parking is that of heads and carriages, and each way to DARK is an entry to it from a state that keeps Loft and straps. -/
theorem powerLossEntersDark : Obligations.PowerLossEntersDark := by
  intro s
  refine ⟨fun hold on free first => ?_, fun d ticks due => ?_, fun rail on quiet => ?_, fun rail on trap => ?_⟩
  · generalize hv : (s.modPwr fun p => { p with parked := true }) = v
    have run : exec .parkingStart s = s.finish v.parkUnits := by
      rw [exec, execParkingStart, State.park_eq hold on free first, hv]
    have started : Only [.pwr] s v := hv ▸ State.modPwr_only_pwr _ ⟨rfl, rfl, rfl⟩
    obtain ⟨ready, idle, stopped, other, only⟩ := State.parkUnits_spec v
    have rest : { v.parkUnits.pwr with live := [], spent := [], refused := false } =
        { v.pwr with live := [], spent := [], refused := false } := only.part .pwr (by decide)
    have whole := (started.mono (by decide)).trans (only.mono (by decide) :
      Only [.order, .regs, .guards, .fired, .pwr, .energy, .mot, .hed, .out] v v.parkUnits)
    generalize v.parkUnits = w at *
    have parked : w.pwr.parked = true := (congrArg Pantry.parked rest :).trans (by rw [← hv]; rfl)
    have state : w.pwr.state = .hold := (congrArg Pantry.state rest :).trans (by rw [← hv]; exact hold)
    subst hv
    exact ⟨w, run, parked, state, whole.part .tick (by decide), ready, idle,
      stopped, other, whole⟩
  · have run : exec .finalCheckpointTimeout s = s.finish ((s.advanceTo d).goDark 1) := by
      rw [exec, execFinalCheckpointTimeout, due, State.timed_some ticks]
    have time : Only (.tick :: clockParts) s (s.advanceTo d) := State.advanceTo_only d
    have flash : { (s.advanceTo d).mem with larder := [], staged := [], heldOps := [] } =
        { s.mem with larder := [], staged := [], heldOps := [] } := time.part .flash (by decide)
    obtain ⟨dark, off, cause, loft, straps⟩ := State.goDark_spec (s.advanceTo d) (cause := 1) (by decide)
    exact ⟨_, run, dark, off, cause, loft.trans (congrArg Mem.loft flash :),
      straps.trans (congrArg Boot.straps (time.part .boot (by decide)))⟩
  · have run : exec (.railOut rail) s = s.finish ((s.railNoted rail).goDark 2) := by
      rw [exec, execRailOut, State.railOut_eq on, quiet]
      rfl
    have noted : Only messageParts s (s.railNoted rail) := State.railNoted_only _
    obtain ⟨dark, off, cause, loft, straps⟩ := State.goDark_spec (s.railNoted rail) (cause := 2) (by decide)
    exact ⟨_, run, dark, off, cause,
      loft.trans (congrArg Mem.loft (State.mem_of_only noted (by decide) (by decide) (by decide))),
      straps.trans (congrArg Boot.straps (noted.part .boot (by decide)))⟩
  · have run : exec (.railOut rail) s = s.finish
        ((s.railNoted rail).modFlt fun f => { f with resetPending := some ⟨5, true, s.tick + 200000⟩ }) := by
      rw [exec, execRailOut, State.railOut_eq on, if_pos trap]
    exact ⟨_, run, rfl, (State.railNoted_only _).trans ((State.modFlt_only_flt _ rfl).mono (by decide))⟩

end Sys2Proof.Machine
end

/-! ## Column emissions -/

section
namespace Sys2Proof.Machine
namespace State

variable {s t u : State} {n : Lane} {r q : Rec} {env : MemEnv}

/-! ### Records of a lane -/

theorem lane_of_only {l : List Part} (h : Only l s t) (hl : .plc ∉ l) (m : Lane) : t.lane m = s.lane m :=
  congrArg (fun p : Plc => p.lanes[m]) (h.part .plc hl)

theorem head_of_only {l : List Part} (h : Only l s t) (hl : .hed ∉ l) (m : Head) : t.head m = s.head m :=
  congrArg (fun v : Vector HedSt 4 => v[m]) (h.part .hed hl)

theorem findRec_congr (h : t.lane n = s.lane n) (serial : Word) : t.findRec n serial = s.findRec n serial := by
  rw [findRec, h, findRec]

/-- The earliest of a list of records is one of them. -/
theorem earliest_mem {sel : Rec → Bool} {pos : Rec → Pc} : ∀ {l : List Rec}, earliest sel pos l = some r → r ∈ l
  | [], found => nomatch found
  | a :: l, found => by
    unfold earliest at found
    split at found
    · split at found
      · cases found
        exact List.mem_cons_self
      · cases found
    case h_2 b rest =>
      split at found <;> cases found
      · exact List.mem_cons_self
      · exact List.mem_cons_of_mem _ (earliest_mem rest)

/-- The record whose column is due is found by its serial number. -/
theorem findRec_of_columnNext (next : s.columnNext n = some r) : (s.findRec n r.serial).isSome = true := by
  rw [findRec, List.find?_isSome]
  exact ⟨r, earliest_mem next, decide_eq_true rfl⟩

/-- A record put among those of its lane is found there. -/
theorem find_replaced : ∀ {l : List Rec}, (∃ q ∈ l, q.serial = r.serial) →
    (l.map fun q => if q.serial = r.serial then r else q).find? (fun q => decide (q.serial = r.serial)) = some r
  | [], ⟨_, mem, _⟩ => nomatch mem
  | a :: l, ⟨q, mem, same⟩ => by
    by_cases own : a.serial = r.serial
    · simp [own]
    · have mem : q ∈ l := (List.mem_cons.1 mem).resolve_left fun e => own (e ▸ same)
      simpa [own] using find_replaced ⟨q, mem, same⟩

theorem putRec_findRec (held : (s.findRec n r.serial).isSome = true) : (s.putRec n r).findRec n r.serial = some r := by
  rw [findRec, List.find?_isSome] at held
  obtain ⟨q, mem, same⟩ := held
  rw [putRec, findRec, modLane_lane_same]
  exact find_replaced ⟨q, mem, of_decide_eq_true same⟩

theorem putRec_lane_other {m : Lane} (hm : m ≠ n) : (s.putRec n r).lane m = s.lane m := modLane_lane_other _ _ _ _ (Ne.symm hm)

theorem copySlot_lane (s : State) (n m : Lane) (r : Rec) : (s.copySlot n r).lane m = s.lane m :=
  lane_of_only (copySlot_only n r) (by decide) m

/-- Whether a slot may be written is a matter of isolation and of leases (R75). -/
theorem slotWritable_congr {l : List Nat} (regs : RegsIn l s t) (h : 0 ∉ l) (hat : t.hat = s.hat) (a : Nat) :
    t.slotWritable n a = s.slotWritable n a := by
  have holder (k : Nat) : t.holder k = s.holder k := by rw [State.holder, lease, hat, State.holder, lease]
  have above (w : Byte) : t.holderOf w = s.holderOf w := by simp only [holderOf, holder]
  have chain (w : Byte) : t.chain w = s.chain w := by simp only [State.chain, above]
  have bank (w : Byte) (b : Nat) : t.mayWriteBank w b = s.mayWriteBank w b := by simp only [mayWriteBank, holds, chain, holder]
  rw [slotWritable, isolated_of_regsIn regs h, bank, slotWritable]

theorem slotAddr_congr {l : List Nat} (regs : RegsIn l s t) (h : 6 ∉ l) (r : Rec) : t.slotAddr n r = s.slotAddr n r := by
  have block : Reg.PLC_REC_BASE n / 0x1000 = 6 := by revert n; decide
  rw [slotAddr, regs _ (by rwa [block]), slotAddr]

/-- A change of a record whose slot may be written. -/
theorem storeRec_writable (writable : s.slotWritable n (s.slotAddr n r) = true) : s.storeRec n r = (s.putRec n r).copySlot n r := by
  unfold storeRec
  exact if_pos writable

theorem storeRec_spec (writable : s.slotWritable n (s.slotAddr n r) = true) (held : (s.findRec n r.serial).isSome = true) :
    (s.storeRec n r).findRec n r.serial = some r ∧ (∀ m : Lane, m ≠ n → (s.storeRec n r).lane m = s.lane m) ∧
      Only [.plc, .larder] s (s.storeRec n r) := by
  rw [storeRec_writable writable]
  refine ⟨?_, fun m hm => ?_, ((putRec_only n r).mono (by decide)).trans ((copySlot_only n r).mono (by decide))⟩
  · rw [findRec_congr (copySlot_lane _ _ _ _), putRec_findRec held]
  · rw [copySlot_lane, putRec_lane_other hm]

/-- A record as it becomes final (R273, R274). -/
def closed (r : Rec) : Rec :=
  { r with state := .final, verdict := if r.verdict = .pending then .marked else r.verdict, counted := true }

theorem closeRec_eq (s : State) (n : Lane) (r : Rec) : ∃ e : Rec,
    s.closeRec n r = (((s.endsOf n e).putRec n (closed r)).copySlot n (closed r)).commit := ⟨_, rfl⟩

theorem closeRec_findRec (held : (s.findRec n r.serial).isSome = true) : (s.closeRec n r).findRec n r.serial = some (closed r) := by
  obtain ⟨e, stages⟩ := closeRec_eq s n r
  have ends : (s.endsOf n e).findRec n r.serial = s.findRec n r.serial :=
    findRec_congr (lane_of_only (endsOf_only n e) (by decide) n) r.serial
  rw [stages, findRec_congr (commit_lane _ _), findRec_congr (copySlot_lane _ _ _ _)]
  exact putRec_findRec (r := closed r) (by rw [← held, ← ends]; rfl)

theorem closeRec_lane_other {m : Lane} (hm : m ≠ n) : (s.closeRec n r).lane m = s.lane m := by
  obtain ⟨e, stages⟩ := closeRec_eq s n r
  rw [stages, commit_lane, copySlot_lane, putRec_lane_other hm, lane_of_only (endsOf_only n e) (by decide)]

/-! ### A render that is late -/

/-- A render that is not done at column 0 is late (R414). -/
theorem renderCommit_late (s : State) (n : Lane) (r : Rec) (env : MemEnv) : s.renderCommit n r false env = s.renderLate n r := by
  unfold renderCommit
  split <;> rfl

theorem renderLate_spec (held : (s.findRec n r.serial).isSome = true) :
    (s.renderLate n r).findRec n r.serial = some (closed (r.propose .unmarked Cause.content)) ∧
      Only (recordParts ++ messageParts) s (s.renderLate n r) := by
  generalize hv : ((s.setFlag (Reg.CMP_EVT n) 0).bump (Reg.CMP_LATE n)).raiseLane Kind.cmpLate (BitVec.setWidth 32 r.trigger) n = v
  have told : Only messageParts s v := by
    rw [← hv]
    simp (disch := decide)
  have late : s.renderLate n r = v.closeRec n (r.propose .unmarked Cause.content) := by rw [← hv]; rfl
  rw [late]
  exact ⟨closeRec_findRec (r := r.propose .unmarked Cause.content)
    (by rw [← held, findRec_congr (lane_of_only told (by decide) n)]; rfl), (told.mono (by decide)).trans ((closeRec_only _ _).mono (by decide))⟩

/-! ### The emission in the record -/

/-- A record with an emission stamped into it (R275). -/
def stamped (s : State) (n : Lane) (r : Rec) : Rec := { r with state := .printing, col := r.col + 1, last := (s.lane n).pc }

/-- The parts that stamping an emission changes. -/
def stampParts : List Part := [.order, .energy, .hlt, .plc, .larder]

theorem stampColumn_spec (writable : s.slotWritable n (s.slotAddr n r) = true) (held : (s.findRec n r.serial).isSome = true) :
    (s.stampColumn n r r.col).findRec n r.serial = some (s.stamped n r) ∧
    (∀ m : Lane, m ≠ n → (s.stampColumn n r r.col).lane m = s.lane m) ∧ (s.stampColumn n r r.col).order = s.order + 1 ∧
      Only stampParts s (s.stampColumn n r r.col) := by
  generalize hv : ((s.debitColumn n r r.col).commit).emitted n = v
  have debited : Only [.energy] s (s.debitColumn n r r.col) := debit_only _ _
  have made : Only [.order, .energy, .hlt] s v := by
    rw [← hv]
    exact ((debited.mono (by decide)).trans (commit_only.mono (by decide))).trans ((modHealth_only _ _).mono (by decide))
  have order : v.order = s.order + 1 := by
    rw [← hv, ← (debited.part .order (by decide) : _ = s.order)]
    rfl
  have stamp : s.stampColumn n r r.col = v.storeRec n (s.stamped n r) := by rw [← hv]; rfl
  have lane (m : Lane) : v.lane m = s.lane m := lane_of_only made (by decide) m
  have regs : RegsIn [] s v := made.regsIn (by decide)
  obtain ⟨found, others, only⟩ := storeRec_spec (s := v) (n := n) (r := s.stamped n r)
    (by rw [slotWritable_congr regs (by simp) (made.part .hat (by decide)), slotAddr_congr regs (by simp)]; exact writable)
    (by rw [findRec_congr (lane n)]; exact held)
  rw [stamp]
  exact ⟨found, fun m hm => (others m hm).trans (lane m), (only.part .order (by decide)).trans order,
    (made.mono (by decide)).trans (only.mono (by decide))⟩

/-- The mark ends with its last column (R273, R274), and else goes on. -/
theorem finishMark_spec (found : s.findRec n r.serial = some q) (serial : q.serial = r.serial) (printing : q.state = .printing)
    (pending : q.verdict = .pending) (k : Nat) : ∃ e : Rec, (s.finishMark n r.serial k).findRec n r.serial = some e ∧
      e.col = q.col ∧ e.last = q.last ∧ e.skips = q.skips ∧ (k + 1 = q.columns → e.state = .final ∧ e.verdict = .marked) ∧
      (k + 1 ≠ q.columns → e.state = .printing ∧ e.verdict = .pending ∧ s.finishMark n r.serial k = s) ∧
      (∀ m : Lane, m ≠ n → (s.finishMark n r.serial k).lane m = s.lane m) ∧ Only recordParts s (s.finishMark n r.serial k) := by
  have ends : s.finishMark n r.serial k = if k + 1 = q.columns then s.closeRec n q else s := by
    unfold finishMark
    rw [found]
    simp only [printing, true_and]
  rw [ends]
  split
  case isTrue last =>
    have final : (s.closeRec n q).findRec n r.serial = some (closed q) := by
      rw [← serial]
      exact closeRec_findRec (by rw [serial, found]; rfl)
    exact ⟨closed q, final, rfl, rfl, rfl, fun _ => ⟨rfl, if_pos pending⟩, fun more => absurd last more,
      fun m hm => closeRec_lane_other hm, closeRec_only n q⟩
  case isFalse more =>
    exact ⟨q, found, rfl, rfl, rfl, fun last => absurd last more, fun _ => ⟨printing, pending, rfl⟩, fun _ _ => rfl, Only.refl _ _⟩

/-! ### What the head port decides -/

theorem copyDelay_only (h : Head) (ring k : Nat) : Only [.larder] u (u.copyDelay h ring k env) := by
  unfold copyDelay
  dsimp only
  split
  · split
    · exact larderBytes_only _ _
    · exact Only.refl _ _
  · exact Only.refl _ _

/-- The state in which the head port decides an emission: stamped, and copied to the delay store (R451). -/
def emitting (s : State) (n : Lane) (r : Rec) (ring : Nat) (env : MemEnv) : State :=
  (s.stampColumn n r r.col).copyDelay n ring r.col env

/-- The sample boundary of an emission is a matter of the tick, of the port, and of its registers and waveforms (R452). -/
theorem planFire_congr (h : Only stampParts s t) (n : Head) : t.planFire n = s.planFire n := by
  have flash : { t.mem with larder := [], staged := [], heldOps := [] } = { s.mem with larder := [], staged := [], heldOps := [] } :=
    h.part .flash (by decide)
  have tables : t.mem.tables = s.mem.tables := (congrArg Mem.tables flash :)
  have tick : t.tick = s.tick := h.part .tick (by decide)
  have regs : t.regs = s.regs := h.part .regs (by decide)
  have reg (a : Nat) : t.reg a = s.reg a := congrArg (fun r => Tab.get regReset r a) regs
  have table (a : Nat) : t.mem.table a = s.mem.table a := congrArg (fun r => Tab.get tableReset r a) tables
  have head : t.head n = s.head n := head_of_only h (by decide) n
  have length (w k : Nat) : t.wfLength n w k = s.wfLength n w k := by simp only [wfLength, wfSegments, wfWord, table]
  have field (a hi lo : Nat) : t.fld a hi lo = s.fld a hi lo := by rw [fld, reg, fld]
  have source : t.wfSrc n = s.wfSrc n := by rw [wfSrc, rbit, reg, wfSrc, rbit]
  have divider : t.hedCdiv n = s.hedCdiv n := field _ _ _
  have wave : t.waveMax n = s.waveMax n := by simp only [waveMax, wfFire, wfSpit, tScale, source, field, length]
  have interval : t.tEff n = s.tEff n := by simp only [tEff, wave, nozzles, hedRows, hedNpr, divider, field]
  have boundary (a : Nat) : t.boundaryAt n a = s.boundaryAt n a := by rw [boundaryAt, divider, head, boundaryAt]
  simp only [planFire, tick, head, interval, boundary]

/-- What stands in the state in which the head port decides. -/
theorem emitting_spec (writable : s.slotWritable n (s.slotAddr n r) = true) (held : (s.findRec n r.serial).isSome = true) (ring : Nat) :
    (s.emitting n r ring env).findRec n r.serial = some (s.stamped n r) ∧
    (∀ m : Lane, m ≠ n → (s.emitting n r ring env).lane m = s.lane m) ∧ (s.emitting n r ring env).order = s.order + 1 ∧
      Only stampParts s (s.emitting n r ring env) := by
  obtain ⟨found, others, order, only⟩ := stampColumn_spec writable held
  have copied : Only [.larder] (s.stampColumn n r r.col) (s.emitting n r ring env) := copyDelay_only _ _ _
  exact ⟨(findRec_congr (lane_of_only copied (by decide) n) _).trans found,
    fun m hm => (lane_of_only copied (by decide) m).trans (others m hm), (copied.part .order (by decide)).trans order,
    only.trans (copied.mono (by decide))⟩

/-- An emission within the gap limit whose data can be read decides a firing at the planned sample boundary (R449, R452). -/
theorem emitColumn_fired {start a : Nat} {col : Nat → List Byte} {w : State} (k : Nat) (ring : q.ring = some start)
    (address : s.columnAddr n start k = a) (copied : s.copyDelay n a k env = w)
    (near : (w.planFire n).2 - (w.planFire n).1 ≤ w.fld (Reg.HED_PACE n) 31 16) (joined : w.isolated (18 + n.val) = false)
    (runs : w.unitInReset (18 + n.val) = false) (data : w.columnData n a k env = .ok col) : s.emitColumn n q k false env =
      w.pushFiring n (w.planFire n).2 (.column q.serial k) (w.productCodes n (w.colBytes n) col k) := by
  have decided : s.decideColumn n q k a env =
      (w.pushFiring n (w.planFire n).2 (.column q.serial k) (w.productCodes n (w.colBytes n) col k), .fired) := by
    unfold decideColumn
    dsimp only
    rw [copied, if_neg (Nat.not_lt.2 near), joined, runs, Bool.or_false, if_neg (by decide), data]
  rw [emitColumn, if_neg (by decide), ring]
  dsimp only
  rw [address, decided]

/-- A firing joins those of its port, at the scales in force (R452, R458). -/
theorem pushFiring_head (s : State) (n : Head) (f : Nat) (use : FireFor) (codes : List Nat) :
    ((s.pushFiring n f use codes).head n).firings = (s.head n).firings ++ [⟨f, use, codes, s.ampScale n, s.tScale n⟩] ∧
      ((s.pushFiring n f use codes).head n).fLast = some f ∧ ∀ m, m ≠ n → (s.pushFiring n f use codes).head m = s.head m := by
  rw [pushFiring, modHead_head_same]
  exact ⟨rfl, rfl, fun m hm => modHead_head_other _ _ _ _ (Ne.symm hm)⟩

/-- An emission beyond the gap limit is skipped (R452, R453). -/
theorem emitColumn_skipped {start a : Nat} {w : State} {e : Rec} (k : Nat) (ring : q.ring = some start)
    (address : s.columnAddr n start k = a) (copied : s.copyDelay n a k env = w)
    (far : w.fld (Reg.HED_PACE n) 31 16 < (w.planFire n).2 - (w.planFire n).1) (found : w.findRec n q.serial = some e) :
    s.emitColumn n q k false env = w.skipColumn n e := by
  have decided : s.decideColumn n q k a env = (w, .skipped) := by
    unfold decideColumn
    dsimp only
    rw [copied, if_pos far]
  rw [emitColumn, if_neg (by decide), ring]
  dsimp only
  rw [address, decided]
  dsimp only
  rw [found]

/-- A skip that does not cross `SKIP_LIMIT` is counted, in the register and in the record (R453). -/
theorem skipColumn_counted (within : r.skips < s.fld (Reg.HED_SKIP n) 11 0 ∨ s.fld (Reg.HED_SKIP n) 11 0 < r.skips) :
    s.skipColumn n r = (s.bump (Reg.HED_SKIPS n)).storeRec n { r with skips := r.skips + 1 } := by
  unfold skipColumn
  exact if_neg (by dsimp only; omega)

theorem skipColumn_spec (within : r.skips < s.fld (Reg.HED_SKIP n) 11 0 ∨ s.fld (Reg.HED_SKIP n) 11 0 < r.skips)
    (writable : s.slotWritable n (s.slotAddr n r) = true) (held : (s.findRec n r.serial).isSome = true) :
    (s.skipColumn n r).findRec n r.serial = some { r with skips := r.skips + 1 } ∧
      (s.skipColumn n r).reg (Reg.HED_SKIPS n) = s.oneMore (Reg.HED_SKIPS n) ∧ RegsBut [Reg.HED_SKIPS n] s (s.skipColumn n r) ∧
      Only [.regs, .plc, .larder] s (s.skipColumn n r) := by
  have block : Reg.HED_SKIPS n / 0x1000 = 11 := (by decide : ∀ n : Lane, Reg.HED_SKIPS n / 0x1000 = 11) n
  have counted : RegsIn [11] s (s.bump (Reg.HED_SKIPS n)) := block ▸ bump_in _
  have bumped : Only [.regs] s (s.bump (Reg.HED_SKIPS n)) := bump_only _
  obtain ⟨found, -, only⟩ := storeRec_spec (s := s.bump (Reg.HED_SKIPS n)) (n := n) (r := { r with skips := r.skips + 1 })
    (by rw [slotWritable_congr counted (by decide) (bumped.part .hat (by decide)), slotAddr_congr counted (by decide)]; exact writable)
    (by rw [findRec_congr (lane_of_only bumped (by decide) n)]; exact held)
  rw [skipColumn_counted within]
  have regs : RegsIn [] (s.bump (Reg.HED_SKIPS n)) ((s.bump (Reg.HED_SKIPS n)).storeRec n { r with skips := r.skips + 1 }) :=
    only.regsIn (by decide)
  refine ⟨found, (regs _ (by simp)).trans (bump_reg_same s _), fun a ha => (regs _ (by simp)).trans (bump_reg_other s _ a ?_),
    (bumped.mono (by decide)).trans (only.mono (by decide))⟩
  exact fun e => ha (List.mem_singleton.2 e.symm)

/-- An emission of a record that prints is stamped, decided, and ends the mark where its column is the last. -/
theorem columnDue_printing (next : s.columnNext n = some r) (printing : r.state = .printing)
    (found : (s.stampColumn n r r.col).findRec n r.serial = some (s.stamped n r)) (done : Bool) : s.columnDue n done false env =
      ((s.stampColumn n r r.col).emitColumn n (s.stamped n r) r.col false env).finishMark n r.serial r.col := by
  unfold columnDue
  rw [next]
  dsimp only
  rw [printing]
  dsimp only
  rw [printColumn, found]
  exact if_pos rfl

/-- A record whose render is not done at column 0 ends there (R414). -/
theorem columnDue_latched (next : s.columnNext n = some r) (latched : r.state = .latched) :
    s.columnDue n false false env = s.renderLate n r := by
  have final := (renderLate_spec (findRec_of_columnNext next)).1
  unfold columnDue
  rw [next]
  dsimp only
  rw [latched]
  dsimp only
  rw [renderCommit_late, final]
  exact if_neg (nofun : (closed (r.propose .unmarked Cause.content)).state ≠ .latched)

/-- Stamping an emission leaves where its column lies. -/
theorem stampColumn_columnAddr (writable : s.slotWritable n (s.slotAddr n r) = true) (held : (s.findRec n r.serial).isSome = true)
    (start : Nat) : (s.stampColumn n r r.col).columnAddr n start r.col = s.columnAddr n start r.col := by
  obtain ⟨-, -, -, only⟩ := stampColumn_spec writable held
  have reg (a : Nat) : (s.stampColumn n r r.col).reg a = s.reg a := only.regsIn (by decide) a (by simp)
  simp only [columnAddr, colBytes, ringCols, fld, reg]

/-! ### The emission of a record that prints -/

section

variable {start : Nat} (next : s.columnNext n = some r) (ring : r.ring = some start) (printing : r.state = .printing)
  (pending : r.verdict = .pending) (writable : s.slotWritable n (s.slotAddr n r) = true)
include next ring printing pending writable

/-- A column within the gap limit whose data can be read (R449-R452). -/
theorem columnDue_fired (done : Bool) {col : Nat → List Byte} {w : State} (decides : s.emitting n r (s.columnAddr n start r.col) env = w)
    (near : (s.planFire n).2 - (s.planFire n).1 ≤ s.fld (Reg.HED_PACE n) 31 16) (joined : s.isolated (18 + n.val) = false)
    (runs : s.unitInReset (18 + n.val) = false) (data : w.columnData n (s.columnAddr n start r.col) r.col env = .ok col) :
    ∃ (u : State) (q : Rec), s.columnDue n done false env = u ∧ (u.head n).firings = (s.head n).firings ++
        [⟨(s.planFire n).2, .column r.serial r.col, w.productCodes n (s.colBytes n) col r.col, s.ampScale n, s.tScale n⟩] ∧
      (u.head n).fLast = some (s.planFire n).2 ∧ u.findRec n r.serial = some q ∧ q.col = r.col + 1 ∧ q.last = (s.lane n).pc ∧
      q.skips = r.skips ∧ (r.col + 1 = r.columns → q.state = .final ∧ q.verdict = .marked) ∧
      (r.col + 1 ≠ r.columns → q.state = .printing ∧ q.verdict = .pending ∧ u.order = s.order + 1) ∧
      (∀ m : Lane, m ≠ n → u.lane m = s.lane m ∧ u.head m = s.head m) ∧ Only ([.hed, .hlt] ++ recordParts) s u := by
  have held := findRec_of_columnNext next
  obtain ⟨found, others, order, only⟩ := emitting_spec (env := env) writable held (s.columnAddr n start r.col)
  rw [decides] at found others order only
  have regs : RegsIn [] s w := only.regsIn (by decide)
  have field (a hi lo : Nat) : w.fld a hi lo = s.fld a hi lo := fld_of_regsIn regs _ _ _ (by simp)
  have plan : w.planFire n = s.planFire n := planFire_congr only n
  have bytes : w.colBytes n = s.colBytes n := by rw [colBytes, field, colBytes]
  have fired := emitColumn_fired (q := s.stamped n r) r.col ring (stampColumn_columnAddr writable held start) decides
    (by rw [plan, field]; exact near) (by rw [isolated_of_regsIn regs (by simp)]; exact joined)
    ((unitInReset_of_only only (by decide) _).trans runs) data
  rw [plan, bytes] at fired
  obtain ⟨firings, last, heads⟩ := pushFiring_head w n (s.planFire n).2 (.column r.serial r.col) (w.productCodes n (s.colBytes n) col r.col)
  have pushed : Only [.hed] w ((s.stampColumn n r r.col).emitColumn n (s.stamped n r) r.col false env) :=
    fired ▸ pushFiring_only _ _ _ _
  rw [← show _ = w.pushFiring n (s.planFire n).2 (.column r.serial r.col) (w.productCodes n (s.colBytes n) col r.col) from fired]
    at firings last heads
  rw [columnDue_printing next printing (stampColumn_spec writable held).1]
  generalize (s.stampColumn n r r.col).emitColumn n (s.stamped n r) r.col false env = p at *
  obtain ⟨q, final, column, stamp, skips, ends, goes, lanes, finished⟩ :=
    finishMark_spec (s := p) ((findRec_congr (lane_of_only pushed (by decide) n) _).trans found) rfl rfl pending r.col
  have after (m : Head) : (p.finishMark n r.serial r.col).head m = p.head m := head_of_only finished (by decide) m
  have before (m : Head) : w.head m = s.head m := head_of_only only (by decide) m
  refine ⟨_, q, rfl, ?_, by rw [after, last], final, column, stamp, skips, ends, fun more => ?_, fun m hm => ⟨?_, ?_⟩, ?_⟩
  · rw [after, firings, before, ampScale, tScale, field, field, ampScale, tScale]
  · obtain ⟨prints, waits, same⟩ := goes more
    exact ⟨prints, waits, by rw [same]; exact (pushed.part .order (by decide)).trans order⟩
  · exact (lanes m hm).trans ((lane_of_only pushed (by decide) m).trans (others m hm))
  · rw [after, heads m hm, before]
  · exact ((only.mono (by decide)).trans (pushed.mono (by decide))).trans (finished.mono (by decide))

/-- A column beyond the gap limit that is not the last, where its skip does not cross the limit of skips (R452, R453). -/
theorem columnDue_skipped (done : Bool) (far : s.fld (Reg.HED_PACE n) 31 16 < (s.planFire n).2 - (s.planFire n).1)
    (more : r.col + 1 ≠ r.columns) (within : r.skips < s.fld (Reg.HED_SKIP n) 11 0 ∨ s.fld (Reg.HED_SKIP n) 11 0 < r.skips) :
    ∃ (u : State) (q : Rec), s.columnDue n done false env = u ∧ u.hed = s.hed ∧
      u.reg (Reg.HED_SKIPS n) = s.oneMore (Reg.HED_SKIPS n) ∧ u.findRec n r.serial = some q ∧ q.skips = r.skips + 1 ∧
      q.col = r.col + 1 ∧ q.verdict = .pending ∧ RegsBut [Reg.HED_SKIPS n] s u ∧ Only ([.hlt] ++ recordParts) s u := by
  have held := findRec_of_columnNext next
  obtain ⟨found, -, -, only⟩ := emitting_spec (env := env) writable held (s.columnAddr n start r.col)
  generalize hw : s.emitting n r (s.columnAddr n start r.col) env = w at found only
  have regs : RegsIn [] s w := only.regsIn (by decide)
  have field (a hi lo : Nat) : w.fld a hi lo = s.fld a hi lo := fld_of_regsIn regs _ _ _ (by simp)
  have skipped := emitColumn_skipped (q := s.stamped n r) r.col ring (stampColumn_columnAddr writable held start) hw
    (by rw [planFire_congr only, field]; exact far) found
  obtain ⟨again, count, rest, stored⟩ := skipColumn_spec (s := w) (n := n) (r := s.stamped n r) (by rw [field]; exact within)
    (by rw [slotWritable_congr regs (by simp) (only.part .hat (by decide)), slotAddr_congr regs (by simp)]; exact writable)
    (by rw [show (s.stamped n r).serial = r.serial from rfl, found]; rfl)
  obtain ⟨q, final, column, -, skips, -, goes, -, -⟩ := finishMark_spec again rfl rfl pending r.col
  obtain ⟨-, waits, same⟩ := goes more
  have before : w.reg (Reg.HED_SKIPS n) = s.reg (Reg.HED_SKIPS n) := regs _ (by simp)
  rw [columnDue_printing next printing (stampColumn_spec writable held).1, skipped, show r.serial = (s.stamped n r).serial from rfl, same]
  rw [same] at final
  refine ⟨_, q, rfl, ?_, ?_, final, skips, column, waits, fun a ha => (rest a ha).trans (regs a (by simp)),
    (only.mono (by decide)).trans (stored.mono (by decide))⟩
  · rw [stored.part .hed (by decide), only.part .hed (by decide)]
  · rw [count, oneMore, before, oneMore]

end

end State

/-- Settles O47: a late render ends the record; else the emission is stamped, fired or skipped, and may end the mark. -/
theorem columnsAreEmitted : Obligations.ColumnsAreEmitted := by
  intro s n env r start ticks next pending ring writable
  have run (done : Bool) : exec (.columnEmission n done false env) s = s.finish (s.columnDue n done false env) := by
    rw [exec, execColumnEmission, if_pos ticks]
  refine ⟨fun latched => ?_, fun printing => ⟨fun done col near joined runs data => ?_, fun done far more within => ?_⟩⟩
  · obtain ⟨final, only⟩ := State.renderLate_spec (State.findRec_of_columnNext next)
    rw [run, State.columnDue_latched next latched]
    exact ⟨_, _, rfl, final, rfl, by simp [State.closed, Rec.propose, pending], rfl, only⟩
  · obtain ⟨u, q, due, fired⟩ := State.columnDue_fired next ring printing pending writable done rfl near joined runs data
    exact ⟨u, q, by rw [run, due]; rfl, fired⟩
  · obtain ⟨u, q, due, skipped⟩ := State.columnDue_skipped (env := env) next ring printing pending writable done far more within
    exact ⟨u, q, by rw [run, due]; rfl, skipped⟩

end Sys2Proof.Machine
end

/-! ## The completion of a chip reset -/

section
namespace Sys2Proof.Machine
namespace State

variable {s t u : State}

/-- The levels at the balls are accepted by the units that watch them (R550). -/
theorem takeLevels_only (l : Levels) : Only [.tmr, .plc, .mot, .hed, .rej] u (u.takeLevels l) := by
  have heads (v : State) : Only [.hed] v (allLanes.foldl (fun (s : State) (h : Head) => s.modHead h fun x => { x with level := l.present[h] }) v) :=
    Only.foldl (fun _ _ => modHead_only _ _) _ _
  unfold takeLevels
  refine Only.trans ?_ ((Only.foldl (m := [.mot]) (fun _ _ => modAxis_only _ _) _ _).mono (by decide))
  refine (Only.step (heads _) (by decide)).2 ?_
  simp (disch := decide)

/-- The core as chip reset leaves it, at tick 0 and order stamp 0 of its bring-up (R164). -/
def bringupCore (s : State) (cause : Nat) : State :=
  { s.freshCore with tick := 0, order := 0 }.modBoot fun b =>
    { bootReset b .bringup with resetPin := false, vioOk := b.vioOk || decide (cause ≤ 2) }

/-- What completes a chip reset after its cause has been recorded: the count of resets, the wear, the levels and the pins. -/
theorem completeReset_tail (s : State) (cause source : Nat) (l : Levels) :
    let v := (s.bringupCore cause).setReg Reg.DEV_RESET_CAUSE (word (cause + 0x100 * source))
    (s.completeReset cause source l).reg Reg.DEV_RESET_CAUSE = v.reg Reg.DEV_RESET_CAUSE ∧
      Only [.regs, .tmr, .plc, .mot, .hed, .rej, .out] v (s.completeReset cause source l) := by
  intro v
  generalize hc : (if cause ≤ 2 then v.bumpFld Reg.DEV_RESET_COUNT 15 0 else v.bumpFld Reg.DEV_RESET_COUNT 31 16) = c
  have counted : c.reg Reg.DEV_RESET_CAUSE = v.reg Reg.DEV_RESET_CAUSE ∧ Only [.regs] v c := by
    rw [← hc]
    split <;> exact ⟨bumpFld_reg_other _ _ _ _ _ (by decide), bumpFld_only _ _ _⟩
  generalize hw : c.setReg Reg.MEM_LFT_WEAR (word c.wearPermille) = w
  have worn : w.reg Reg.DEV_RESET_CAUSE = v.reg Reg.DEV_RESET_CAUSE := by
    rw [← hw, setReg_reg_other _ _ _ _ (by decide), counted.1]
  have levels : Only [.tmr, .plc, .mot, .hed, .rej, .out] w ((w.takeLevels l).pins bringupPins (some false)) :=
    ((takeLevels_only l).mono (by decide)).trans ((pins_only _ _).mono (by decide))
  have eq : s.completeReset cause source l = (w.takeLevels l).pins bringupPins (some false) := by
    subst hw hc
    rfl
  rw [eq]
  refine ⟨(levels.regsIn (by decide) _ (by decide)).trans worn, Only.trans ?_ (levels.mono (by decide))⟩
  rw [← hw]
  exact (only_setReg _ _ (by decide)).2 (counted.2.mono (by decide))

/-- Chip reset completes (R164): bring-up starts at tick 0 and order stamp 0, the Larder is void, the cause is recorded, and what
keeps its content has kept it. -/
theorem completeReset_spec (s : State) (cause source : Nat) (l : Levels) :
    let u := s.completeReset cause source l
    u.boot.phase = .bringup ∧ u.tick = 0 ∧ u.order = 0 ∧ (∀ i, u.mem.word64 i = none) ∧
      u.reg Reg.DEV_RESET_CAUSE = word (cause + 0x100 * source) ∧
      u.mem.loft = s.mem.loft ∧ u.mem.cellar = s.mem.cellar ∧ u.boot.straps = s.boot.straps := by
  intro u
  obtain ⟨shown, only⟩ := completeReset_tail s cause source l
  have boot : u.boot = (s.bringupCore cause).boot := only.part .boot (by decide)
  have mem : u.mem = keptMem s.mem := mem_of_only only (by decide) (by decide) (by decide)
  refine ⟨by rw [boot]; rfl, only.part .tick (by decide), only.part .order (by decide), fun i => by rw [mem]; rfl,
    shown.trans (setReg_reg_same _ _ _), by rw [mem]; rfl, by rw [mem]; rfl, by rw [boot]; rfl⟩

/-- A reset completes once its causes have ended and no staged write runs (R161, R163, R164). -/
theorem releaseReset_complete {cause source : Nat} {l : Levels} (high : l.resetN = true) (free : s.boot.scanHeld = false)
    (done : s.mem.staged = []) (held : s.boot.phase = .reset cause source) :
    s.releaseReset l = s.completeReset cause source l := by
  unfold releaseReset
  rw [held]
  simp only [high, free, done, List.isEmpty_nil, Bool.not_false, Bool.and_self, if_true]

end State

/-- Settles O11: the lock of TB100 starts the reset of the recorded cold cause, and either reset completes in the same way. -/
theorem chipResetCompletes : Obligations.ChipResetCompletes := by
  intro s lv high free done
  refine ⟨fun rail off => ?_, fun cause source held => ?_⟩
  · generalize hv : (s.modBoot fun b => { b with phase := .reset b.coldCause 0, resetPin := !lv.resetN }) = v
    have run : exec (.tb100Lock lv) s = s.finish (v.completeReset s.boot.coldCause 0 lv) := by
      rw [exec, execTb100Lock, State.tb100Lock, rail, off, hv,
        State.releaseReset_complete (s := v) high (by rw [← hv]; exact free) (by rw [← hv]; exact done) (by rw [← hv]; rfl)]
      rfl
    have spec := State.completeReset_spec v s.boot.coldCause 0 lv
    subst hv
    exact ⟨_, run, spec⟩
  · have run : exec (.chipResetComplete lv) s = s.finish (s.completeReset cause source lv) := by
      rw [exec, execChipResetComplete, State.releaseReset_complete high free done held]
    exact ⟨_, run, State.completeReset_spec s cause source lv⟩

end Sys2Proof.Machine
end

/-! ## Bring-up ends, and standalone running begins -/

section
namespace Sys2Proof.Machine

/-! ### Checks that give values -/

/-- Where the checks pass, what they give has a property. -/
def Gives {ε α : Type} (P : α → Prop) (m : Except ε α) : Prop := ∀ a, m = .ok a → P a

namespace Gives

variable {ε α β : Type} {P : β → Prop}

theorem bind {Q : α → Prop} {m : Except ε α} {f : α → Except ε β} (hm : Gives Q m) (hf : ∀ a, Q a → Gives P (f a)) : Gives P (m >>= f) := by
  cases m with
  | error e => exact fun _ h => nomatch h
  | ok a => exact hf a (hm a rfl)

/-- A check whose own result does not matter. -/
theorem next {m : Except ε α} {f : α → Except ε β} (hf : ∀ a, Gives P (f a)) : Gives P (m >>= f) :=
  bind (Q := fun _ => True) (fun _ _ => trivial) fun a _ => hf a

theorem pure {b : β} (h : P b) : Gives P (Except.ok b : Except ε β) := fun _ e => Except.ok.inj e ▸ h

theorem error (e : ε) : Gives P (Except.error e) := fun _ h => nomatch h

theorem ite {c : Prop} [Decidable c] {m k : Except ε β} (hm : Gives P m) (hk : Gives P k) : Gives P (if c then m else k) := by
  split
  · exact hm
  · exact hk

end Gives

/-! ### The values of a job -/

/-- Every value is one of a field value register, none of which lies below block CMP (R386, R401, R423). -/
def FieldValues (l : List (Nat × Word)) : Prop := ∀ e ∈ l, 0x9000 ≤ e.1

theorem readValues_fields {form : Nat → Option Nat} (fields : ∀ a b, form a = some b → 0x9000 ≤ b) (okv : Nat → Nat → Bool)
    (bad : Nat → Nat → CrateFail) : ∀ (k off : Nat) (l : List Byte), Gives FieldValues (readValues off form okv bad k l)
  | 0, _, _ => .pure fun e he => absurd he List.not_mem_nil
  | k + 1, off, l => by
    unfold readValues
    split
    · exact .error _
    case h_2 a named =>
      refine .ite ?_ (.error _)
      split
      case h_1 rest more =>
        refine .pure fun e he => ?_
        rcases List.mem_cons.1 he with rfl | later
        · exact fields _ _ named
        · exact readValues_fields fields okv bad k (off + 8) (l.drop 8) rest more e later
      · exact .error _

theorem fieldReg_block (n a b : Nat) (h : fieldReg n a = some b) : 0x9000 ≤ b := by
  unfold fieldReg at h
  split at h
  · have := Option.some.inj h; omega
  · split at h
    · have := Option.some.inj h; omega
    · cases h

theorem readDefaults_fields (n off : Nat) (b : List Byte) : Gives FieldValues (readDefaults n off b) :=
  .next fun _ => .next fun _ => readValues_fields (fieldReg_block n) _ _ _ _ _

theorem standingValues_fields (n : Nat) (b : List Byte) (nval : Nat) : Gives FieldValues (standingValues n b nval) := by
  refine readValues_fields (fun a c h => ?_) _ _ _ _ _
  split at h
  · have := Option.some.inj h; omega
  · split at h
    · have := Option.some.inj h; omega
    · cases h

namespace State

variable {s t u : State}

theorem checkSections_fields (s : State) (n : Lane) (c : CrateSrc) (h : Header) (j : JobRec) (e : Envelope) :
    Gives (fun x => FieldValues x.values) (s.checkSections n c h j e) := by
  unfold checkSections
  have loads (values : List (Nat × Word)) (fields : FieldValues values) (p : Bool) (k : Nat) (x : Selection) (hx : x.values = values) :
      Gives (fun x => FieldValues x.values) (need p Why.job k >>= fun _ => Except.ok x) :=
    .next fun _ => .pure (hx ▸ fields)
  refine .next fun _ => .next fun _ => .next fun _ => .next fun _ => .next fun _ => .next fun dflt => .ite ?_ ?_ <;>
    refine .next fun calib => .ite ?_ ?_
  · exact .bind (Q := FieldValues) (.pure fun e he => absurd he List.not_mem_nil) fun values fields => loads values fields _ _ _ rfl
  · exact .bind (readDefaults_fields _ _ _) fun values fields => loads values fields _ _ _ rfl
  · exact .bind (Q := FieldValues) (.pure fun e he => absurd he List.not_mem_nil) fun values fields => loads values fields _ _ _ rfl
  · exact .bind (readDefaults_fields _ _ _) fun values fields => loads values fields _ _ _ rfl

theorem checkSelection_fields (s : State) (n : Lane) (crate job : Nat) (answers : Bool) :
    Gives (fun x => FieldValues x.values) (s.checkSelection n crate job answers) := by
  unfold checkSelection
  refine .next fun h => .next fun _ => ?_
  split
  · exact .error _
  · exact .next fun _ => .next fun _ => .next fun _ => .next fun _ => .bind (checkSections_fields s n _ _ _ _) fun _ fields =>
      .next fun _ => .pure fields

theorem checkStandingJob_fields (s : State) (n : Lane) (b : List Byte) (j : Standing) (answers : Bool) :
    Gives (fun r => FieldValues r.1.values ∧ FieldValues r.2) (s.checkStandingJob n b j answers) :=
  .next fun _ => .next fun _ => .bind (checkSelection_fields s n _ _ _) fun _ defaults =>
    .bind (standingValues_fields _ _ _) fun _ own => .pure ⟨defaults, own⟩

/-! ### What a selection of a standing job may change -/

/-- The parts that a selection of a standing job may change. -/
def standingParts : List Part := [.flash, .plc, .crates, .hed] ++ messageParts

/-- From `s` to `t` only those parts change, and `DEV_STATUS` stands. -/
def Selects (s t : State) : Prop := Only standingParts s t ∧ t.reg Reg.DEV_STATUS = s.reg Reg.DEV_STATUS

namespace Selects

theorem trans (h : Selects s t) (k : Selects t u) : Selects s u := ⟨h.1.trans k.1, k.2.trans h.2⟩

/-- An operation on registers of other blocks than DEV. -/
theorem of_regsIn {m : List Part} {l : List Nat} (h : Only m s t) (hm : ∀ p ∈ m, p ∈ standingParts) (regs : RegsIn l s t)
    (hl : 0 ∉ l) : Selects s t := ⟨h.mono hm, regs _ hl⟩

theorem of_only {m : List Part} (h : Only m s t) (hm : ∀ p ∈ m, p ∈ standingParts) (hr : .regs ∉ m) : Selects s t :=
  of_regsIn h hm (h.regsIn hr) (by decide)

theorem refl (s : State) : Selects s s := of_only (Only.refl [] s) (by decide) (by decide)

theorem ite {c : Prop} [Decidable c] (ht : Selects s t) (hu : Selects s u) : Selects s (if c then t else u) := by
  split
  · exact ht
  · exact hu

theorem foldl {α : Type} {f : State → α → State} : ∀ (l : List α) (s : State), (∀ s, ∀ a ∈ l, Selects s (f s a)) → Selects s (l.foldl f s)
  | [], s, _ => refl s
  | a :: l, s, h => (h s a (by simp)).trans (foldl l (f s a) fun v b hb => h v b (by simp [hb]))

theorem setReg (s : State) {a : Nat} (v : Word) (ha : a ≠ Reg.DEV_STATUS) : Selects s (s.setReg a v) :=
  ⟨(setReg_only a v).mono (by decide), setReg_reg_other _ _ _ _ ha⟩

theorem setFlag (s : State) {a : Nat} (n : Nat) (ha : a ≠ Reg.DEV_STATUS) : Selects s (s.setFlag a n) :=
  ⟨(setFlag_only a n).mono (by decide), setFlag_reg_other _ _ _ _ ha⟩

theorem commit (s : State) : Selects s s.commit := of_only commit_only (by decide) (by decide)

theorem raise (s : State) {k : Kind} (a : Word) (hk : k.src < 36) : Selects s (s.raise k a) :=
  of_regsIn (raiseN_only 12 s k a none) (by decide) (raiseN_in 12 s k a none hk) (by decide)

/-- Words of the table windows. -/
theorem setTableWords (s : State) (a : Nat) (l : List Word) : Selects s (s.modMem fun m => m.setTableWords a l) := by
  have rest : ∀ (l : List Word) (m : Mem) (a : Nat), m.setTableWords a l = { m with tables := (m.setTableWords a l).tables } := fun l => by
    induction l with
    | nil => exact fun _ _ => rfl
    | cons w l ih => exact fun m a => ih (m.setTable a w) (a + 4)
  refine of_only (m := [.flash]) (modMem_only_of _ (fun _ => ?_) (absurd (by decide)) fun _ => ?_) (by decide) (by decide) <;> rw [rest]
  exact ⟨rfl, rfl⟩

/-- The values of a job are placed. -/
theorem values {l : List (Nat × Word)} (fields : FieldValues l) (s : State) :
    Selects s (l.foldl (fun (s : State) (e : Nat × Word) => s.setReg e.1 e.2) s) :=
  foldl l s fun v e he => setReg v e.2 fun status => by have := fields e he; simp only [status, Reg.DEV_STATUS] at this; omega

end Selects

/-! ### The selection of a standing job -/

theorem ne_devStatus_of_le {a : Nat} (h : 0x9000 ≤ a) : a ≠ Reg.DEV_STATUS := by
  simp only [Reg.DEV_STATUS]
  omega

theorem standingFail_selects (s : State) (n : Lane) (reason off : Nat) : Selects s (s.standingFail n reason off) :=
  ((Selects.setReg s _ (ne_devStatus_of_le (by simp only [Reg.CMP_CRATE_REFUSE]; omega))).trans
    (.setReg _ _ (ne_devStatus_of_le (by simp only [Reg.CMP_CRATE_ROFF]; omega)))).trans (.raise _ _ (by decide))

theorem crateBus_selects (s : State) (crate : Nat) (answers : Bool) (e : CrateFail) : Selects s (s.crateBus crate answers e) :=
  .ite (.raise _ _ (by decide)) (.refl s)

/-- The result of a verification is shown with its flag (R388). -/
theorem verResult_selects (s : State) (reason result flag : Nat) :
    Selects s (((s.setFld Reg.CMP_CRATE_VSTAT 15 8 reason).setFld Reg.CMP_CRATE_VSTAT 7 4 result).setFlag Reg.CMP_CRATE_VSTAT flag) :=
  have vstat : Reg.CMP_CRATE_VSTAT ≠ Reg.DEV_STATUS := by decide
  ((Selects.setReg s _ vstat).trans (.setReg _ _ vstat)).trans (.setFlag _ _ vstat)

theorem verFail_selects (s : State) (reason : Nat) (off : Word) : Selects s (s.verFail reason off) :=
  ((verResult_selects s reason 3 1).trans (.setReg _ (a := Reg.CMP_CRATE_VOFF) _ (by decide))).trans (.commit _)

theorem verWrite_selects (s : State) (crate : Nat) (h : Header) : Selects s (s.verWrite crate h) := by
  have entries (v : State) (c : Crates) : Selects v { v with crates := c } :=
    .of_only (m := [.crates]) (fun p hp => by
      cases p with
      | crates => exact absurd (by decide) hp
      | energy => exact ⟨rfl, rfl, rfl⟩
      | owed => exact ⟨rfl, rfl⟩
      | _ => rfl) (by decide) (by decide)
  exact ((Selects.setReg s _ (ne_devStatus_of_le (by simp only [Reg.CMP_CRATE_VER]; omega))).trans
    (.setReg _ _ (ne_devStatus_of_le (by simp only [Reg.CMP_CRATE_VHCRC]; omega)))).trans (entries _ _)

theorem verPass_selects (s : State) (crate : Nat) (h : Header) : Selects s (s.verPass crate h) :=
  ((verResult_selects s 0 2 0).trans (verWrite_selects _ _ _)).trans (.commit _)

theorem verRun_selects (s : State) (crate : Nat) (answers : Bool) : Selects s (s.verRun crate answers).1 := by
  unfold verRun
  split
  · exact verPass_selects _ _ _
  · exact (crateBus_selects _ _ _ _).trans (verFail_selects _ _ _)

theorem loadCalib_selects (s : State) (n : Lane) (k : Calib) : Selects s (s.loadCalib n k) := by
  unfold loadCalib
  split
  · exact .refl s
  case h_2 x carried =>
    have sine : Selects s (match k.sine with | some l => s.modMem fun m => m.setTableWords (sineBase x) l | none => s) := by
      split
      · exact .setTableWords _ _ _
      · exact .refl s
    have gear : Reg.MOT_GEAR x ≠ Reg.DEV_STATUS := by simp only [Reg.MOT_GEAR, Reg.DEV_STATUS]; omega
    exact .ite sine ((sine.trans (.setTableWords _ _ _)).trans (.setReg _ _ gear))

theorem applySelection_selects (s : State) (n : Lane) (w : Word) {x : Selection} (fields : FieldValues x.values) :
    Selects s (s.applySelection n w x) := by
  generalize hv : ((((s.setReg (Reg.PLC_JOB n) w).setReg (Reg.DEV_ENV_RATE n) (word x.env.maxRate)).setReg (Reg.DEV_ENV_COUNT n) 0).setReg
    (Reg.PWR_MARK n) (word x.job.eFix)).setReg (Reg.PWR_MARKCOL n) (word x.job.eCol) = v
  have shown : Selects s v := by
    rw [← hv]
    refine ((((Selects.setReg s _ ?_).trans (.setReg _ _ ?_)).trans (.setReg _ _ ?_)).trans (.setReg _ _ ?_)).trans (.setReg _ _ ?_) <;>
      simp only [Reg.PLC_JOB, Reg.DEV_ENV_RATE, Reg.DEV_ENV_COUNT, Reg.PWR_MARK, Reg.PWR_MARKCOL, Reg.DEV_STATUS] <;> omega
  generalize hw : (((v.modLane n fun l => { l with cols := x.job.columns }).modMem fun m =>
    m.setTableWords (waveBase n) x.waveform).modMem fun m => m.setTableWords (fontBase n) x.font) = c
  have tables : Selects v c := hw ▸ ((Selects.of_only (modLane_only _ _) (by decide) (by decide)).trans (.setTableWords _ _ _)).trans
    (.setTableWords _ _ _)
  have calib : Selects c (match x.calib with | some k => c.loadCalib n k | none => c) := by
    split
    · exact loadCalib_selects _ _ _
    · exact .refl c
  subst hw hv
  exact ((shown.trans tables).trans calib).trans (.values fields _)

theorem checkTable_selects (s : State) (h : Head) : Selects s (s.checkTable h) := by
  have teff : Reg.HED_TEFF h ≠ Reg.DEV_STATUS := ne_devStatus_of_le (by simp only [Reg.HED_TEFF]; omega)
  have evt : ∀ h : Head, Reg.HED_EVT h / 0x1000 ∈ [4, 11] := by decide
  have told (v : State) (a : Word) : Selects v (v.hedRaise h 5 (Kind.waveform h.val) a) := by
    refine .of_regsIn (hedRaise_only _ _ _ _) (by decide) (l := [4, 11]) ?_ (by decide)
    unfold hedRaise
    split
    · exact .refl _ _
    · rw [regsIn_raiseLane _ _ _ ⟨by simp only [Kind.waveform]; omega, by decide⟩, regsIn_setFlag _ _ (evt h)]
      exact .refl _ _
  have bad (v : State) (b : Bool) : Selects v (v.modHead h fun x => { x with wfBad := b }) :=
    .of_only (modHead_only _ _) (by decide) (by decide)
  unfold checkTable
  dsimp only
  generalize hv : s.setFld (Reg.HED_TEFF h) 19 0 _ = v
  have shown : Selects s v := hv ▸ .setReg s _ teff
  split
  · exact (shown.trans (bad _ _)).trans (told _ _)
  · exact shown.trans (bad _ _)

/-- A standing job is selected, or its failure is recorded and told (R171, R396). -/
theorem selectStanding_selects (s : State) (n : Lane) (answers : Bool) : Selects s (s.selectStanding n answers) := by
  unfold selectStanding
  split
  · exact standingFail_selects _ _ _ _
  case h_2 j stands =>
    have verified := verRun_selects s j.crate answers
    generalize s.verRun j.crate answers = r at verified
    obtain ⟨v, _ | e⟩ := r
    · refine verified.trans ?_
      dsimp only
      split
      · exact (crateBus_selects _ _ _ _).trans (standingFail_selects _ _ _ _)
      case h_2 x l chosen =>
        obtain ⟨defaults, own⟩ := checkStandingJob_fields _ _ _ _ _ _ chosen
        exact (((applySelection_selects _ _ _ defaults).trans (.values own _)).trans (.commit _)).trans (checkTable_selects _ _)
    · exact verified.trans (standingFail_selects _ _ _ _)

/-- Standalone running begins (R170, R171): it is shown, and the standing jobs are selected. -/
theorem enterStandalone_spec (s : State) (answers : Bool) :
    (s.enterStandalone answers).rbit Reg.DEV_STATUS 1 = true ∧ Only standingParts s (s.enterStandalone answers) := by
  generalize hv : (s.setFld Reg.DEV_STATUS 1 1 1).commit = v
  have shown : v.rbit Reg.DEV_STATUS 1 = true := by
    rw [← hv, commit_rbit, setFld_rbit _ _ _ _ _ (by decide)]
    rfl
  have entered : Only standingParts s v := by
    rw [← hv]
    exact (only_commit (by decide)).2 ((setFld_only _ _ _ _).mono (by decide))
  have told : Selects v (v.stateItem 4 none 0 1) := .of_regsIn (stateItem_only _ _ _ _) (by decide) (stateItem_in _ _ _ _) (by decide)
  obtain ⟨only, status⟩ := told.trans (Selects.foldl (allLanes.filter fun n => (v.stateItem 4 none 0 1).fitted n) _
    fun w n _ => selectStanding_selects w n answers)
  have eq : s.enterStandalone answers = (allLanes.filter fun n => (v.stateItem 4 none 0 1).fitted n).foldl
      (fun (s : State) (n : Lane) => s.selectStanding n answers) (v.stateItem 4 none 0 1) := by
    subst hv
    rfl
  rw [eq]
  exact ⟨by rw [rbit, status]; exact shown, entered.trans only⟩

/-! ### The end of bring-up -/

theorem startLive_only : Only [.rej, .out] u u.startLive := by
  unfold startLive
  simp (disch := decide)

theorem startWait_phase (s : State) : s.startWait.boot.phase = s.boot.phase := by
  unfold startWait
  dsimp only
  split <;> rfl

/-- Bring-up completes (R167): what follows `BOOT_DONE` leaves the machine running. -/
theorem finishBoot_running (bringup : s.boot.phase = .bringup) (answers : Bool) : (s.finishBoot answers).boot.phase = .running := by
  generalize hd : (((s.releaseOut.bringUp answers).serveLanes).idleTout.modBoot fun b =>
    { b with phase := .running, doneAt := ((s.releaseOut.bringUp answers).serveLanes).idleTout.tick }) = d
  have running : d.boot.phase = .running := by rw [← hd]; rfl
  have phase {m : List Part} {v w : State} (h : Only m v w) (hm : .boot ∉ m) : w.boot.phase = v.boot.phase := congrArg Boot.phase (h.part .boot hm)
  generalize hl : d.startLive.commit = live
  have lives : live.boot.phase = .running := by
    rw [← hl, commit_boot, phase startLive_only (by decide), running]
  generalize hw : (if live.pwr.granted ≠ live.offered then live.raise Kind.pwrClass (word live.pwr.granted) else live).startWait = w
  have waits : w.boot.phase = .running := by
    rw [← hw, startWait_phase, ← lives]
    exact phase (only_ite (raiseN_only 12 live _ _ none) (Only.refl _ _)) (by decide)
  have eq : s.finishBoot answers = if w.strapMode = 1 then w.enterStandalone answers else w := by
    subst hw hl hd
    rw [finishBoot, if_pos bringup]
  rw [eq, ← waits]
  exact phase (only_ite (enterStandalone_spec w answers).2 (Only.refl _ _)) (by decide)

end State

/-- Settles O15: what follows `BOOT_DONE` keeps the machine running, and the end of the wait is the entry to standalone running. -/
theorem bringUpCompletes : Obligations.BringUpCompletes := by
  refine fun s => ⟨fun answers bringup => ?_, fun t ticks due => ?_⟩
  · have running := State.finishBoot_running bringup answers
    exact ⟨s.finishBoot answers, rfl, running, decide_eq_true running⟩
  · generalize hw : ((s.advanceTo t).modBoot fun b => { b with claimWaitEnd := none }) = w
    have run : exec .claimWaitEnd s = s.finish (w.enterStandalone true) := by
      rw [exec, execClaimWaitEnd, State.endWait, due, ← hw]
    obtain ⟨alone, only⟩ := State.enterStandalone_spec w true
    have boot : (w.enterStandalone true).boot = w.boot := only.part .boot (by decide)
    have time : (s.advanceTo t).boot = s.boot := (State.advanceTo_only t).part .boot (by decide)
    have ended : Only [.boot] (s.advanceTo t) w := hw ▸ State.modBoot_only _
    refine ⟨_, run, by rw [boot, ← hw]; rfl, alone, ?_, (ended.mono (by decide)).trans (only.mono (by decide))⟩
    rw [boot, ← time, ← hw]
    rfl

end Sys2Proof.Machine
end

/-! ## Reject windows, readback, LIVE and the release of a forced reject -/

section
namespace Sys2Proof.Machine
namespace State

variable {s t u : State} {n : Lane} {r : Rec}

/-! ### Gate actions -/

theorem bump_oneMore (s : State) (a : Nat) : (s.bump a).reg a = s.oneMore a := bump_reg_same s a

/-- A register of a record that is freed (R273). -/
theorem freeRec_reg (s : State) (n : Lane) (r : Rec) (a : Nat) : (s.freeRec n r).reg a = s.reg a :=
  (freeRec_only n r).regsIn (by decide) a List.not_mem_nil

/-- A freed record leaves its lane's records, and the lane where it is (R273). -/
theorem freeRec_lane (s : State) (n : Lane) (r : Rec) :
    ((s.freeRec n r).lane n).recs = (s.lane n).recs.filter (fun q => !decide (q.serial = r.serial)) ∧
      ((s.freeRec n r).lane n).pc = (s.lane n).pc := by
  rw [freeRec, modLane_lane_same, lane_of_only (freeSlot_only n r) (by decide)]
  unfold leaveCol
  split <;> exact ⟨rfl, rfl⟩

theorem gateAction_final (next : s.atGate n = some r) (final : r.state = .final) : s.gateAction n = s.passGate n r := by
  rw [gateAction, next]
  exact if_pos final

/-- A record that the gate passes is counted and freed; it counts as covered where the output rejects (R489). -/
theorem passGate_passes (passes : gatePasses r.verdict = true) :
    let u := s.passGate n r
    u.reg (Reg.REJ_CNT_PASS n) = s.oneMore (Reg.REJ_CNT_PASS n) ∧
      u.reg (Reg.REJ_CNT_COVERED n) = (if s.rejecting n = true then s.oneMore (Reg.REJ_CNT_COVERED n) else s.reg (Reg.REJ_CNT_COVERED n)) ∧
      (u.lane n).recs = (s.lane n).recs.filter (fun q => !decide (q.serial = r.serial)) ∧ u.order = s.order + 1 ∧
      RegsBut [Reg.REJ_CNT_PASS n, Reg.REJ_CNT_COVERED n] s u ∧ Only [.order, .regs, .larder, .plc] s u := by
  intro u
  have apart : Reg.REJ_CNT_PASS n ≠ Reg.REJ_CNT_COVERED n := by simp only [Reg.REJ_CNT_PASS, Reg.REJ_CNT_COVERED]; omega
  generalize hc : (if s.rejecting n then s.bump (Reg.REJ_CNT_COVERED n) else s) = c
  have eq : u = ((c.bump (Reg.REJ_CNT_PASS n)).freeRec n r).commit := by
    subst hc
    exact if_pos passes
  have covered : c.reg (Reg.REJ_CNT_COVERED n) =
      if s.rejecting n = true then s.oneMore (Reg.REJ_CNT_COVERED n) else s.reg (Reg.REJ_CNT_COVERED n) := by
    rw [← hc]
    split
    · exact bump_oneMore s _
    · rfl
  have others : RegsBut [Reg.REJ_CNT_COVERED n] s c := fun a ha => by
    rw [← hc]
    split
    · exact bump_reg_other _ _ _ fun e => ha (by simp [e])
    · rfl
  have counted : Only [.regs] s c := hc ▸ only_ite (bump_only _) (Only.refl _ _)
  have reg (a : Nat) : u.reg a = (c.bump (Reg.REJ_CNT_PASS n)).reg a := by rw [eq]; exact freeRec_reg _ _ _ a
  have freed : Only [.regs, .larder, .plc] s ((c.bump (Reg.REJ_CNT_PASS n)).freeRec n r) :=
    (((counted.trans (bump_only _)).mono (by decide))).trans ((freeRec_only n r).mono (by decide))
  refine ⟨?_, ?_, ?_, ?_, fun a ha => ?_, ?_⟩
  · rw [reg, bump_oneMore, oneMore, others _ (by simp), oneMore]
  · rw [reg, bump_reg_other _ _ _ apart, covered]
  · rw [eq, commit_lane, (freeRec_lane _ n r).1, bump_lane, lane_of_only counted (by decide)]
  · rw [eq, commit_order, (freed.part .order (by decide) : _ = s.order)]
  · simp only [List.mem_cons, List.not_mem_nil, or_false, not_or] at ha
    rw [reg, bump_reg_other _ _ _ (Ne.symm ha.1), others a (by simpa using ha.2)]
  · rw [eq]
    exact (only_commit (by decide)).2 (freed.mono (by decide))

/-- Where a window that starts now ends, and whether it merges, follow the lane's width and gap, its latest end and its place (R490). -/
theorem window_congr (cfg : t.reg (Reg.REJ_CFG n) = s.reg (Reg.REJ_CFG n)) (width : t.reg (Reg.REJ_WIDTH n) = s.reg (Reg.REJ_WIDTH n))
    (rej : t.rej = s.rej) (tick : t.tick = s.tick) (pc : (t.lane n).pc = (s.lane n).pc) :
    t.windowEnd n = s.windowEnd n ∧ t.merges n = s.merges n := by
  have time : t.rejTime n = s.rejTime n := by rw [rejTime, rbit, cfg, rejTime, rbit]
  have size : t.rejWidth n = s.rejWidth n := by rw [rejWidth, fld, width, rejWidth, fld]
  have gap : t.rejGap n = s.rejGap n := by rw [rejGap, fld, width, rejGap, fld]
  have lane : t.rejLane n = s.rejLane n := by rw [rejLane, rej, rejLane]
  exact ⟨by rw [windowEnd, time, size, tick, pc, windowEnd], by rw [merges, time, lane, gap, tick, pc, merges]⟩

/-- A window that does not merge starts without a message (R490). -/
theorem startWindow_apart (apart : s.merges n = false) :
    s.startWindow n = (s.modRejLane n fun x => { x with window := some (s.windowEnd n), lastEnd := some (s.windowEnd n) }).commit := by
  unfold startWindow
  dsimp only
  rw [apart]
  rfl

/-- A record that the gate rejects is counted and freed, and starts a window of the lane (R489, R490). -/
theorem passGate_rejects (rejects : gatePasses r.verdict = false) (apart : s.merges n = false) :
    let u := s.passGate n r
    u.reg (Reg.REJ_CNT_REJ n) = s.oneMore (Reg.REJ_CNT_REJ n) ∧ (u.rejLane n).window = some (s.windowEnd n) ∧
      (u.lane n).recs = (s.lane n).recs.filter (fun q => !decide (q.serial = r.serial)) ∧ u.order = s.order + 1 ∧
      (∀ m : Lane, m ≠ n → u.rejLane m = s.rejLane m) ∧ RegsBut [Reg.REJ_CNT_REJ n] s u ∧
      Only [.order, .regs, .larder, .plc, .rej] s u := by
  intro u
  generalize hv : (s.bump (Reg.REJ_CNT_REJ n)).freeRec n r = v
  have freed : Only [.regs, .larder, .plc] s v :=
    hv ▸ ((bump_only _).mono (by decide)).trans ((freeRec_only n r).mono (by decide))
  have reg (a : Nat) : v.reg a = (s.bump (Reg.REJ_CNT_REJ n)).reg a := hv ▸ freeRec_reg _ _ _ a
  have others (a : Nat) (ha : Reg.REJ_CNT_REJ n ≠ a) : v.reg a = s.reg a := (reg a).trans (bump_reg_other _ _ _ ha)
  have rej : v.rej = s.rej := freed.part .rej (by decide)
  obtain ⟨recs, pc⟩ := freeRec_lane (s.bump (Reg.REJ_CNT_REJ n)) n r
  rw [hv, bump_lane] at recs pc
  obtain ⟨ends, merges⟩ := window_congr (s := s) (t := v) (n := n)
    (others _ (by simp only [Reg.REJ_CNT_REJ, Reg.REJ_CFG]; omega)) (others _ (by simp only [Reg.REJ_CNT_REJ, Reg.REJ_WIDTH]; omega))
    rej (freed.part .tick (by decide)) pc
  have eq : u = (v.modRejLane n fun x => { x with window := some (s.windowEnd n), lastEnd := some (s.windowEnd n) }).commit := by
    rw [← ends, ← startWindow_apart (merges.trans apart), ← hv]
    exact if_neg (by simp [rejects])
  rw [eq]
  refine ⟨(reg _).trans (bump_oneMore s _), ?_, recs, congrArg (· + 1) (freed.part .order (by decide) : v.order = s.order), fun m hm => ?_,
    fun a ha => others a fun e => ha (by simp [e]), ?_⟩
  · rw [commit_rejLane, modRejLane_rejLane_same]
  · rw [commit_rejLane, modRejLane_rejLane_other _ _ _ _ (Ne.symm hm), rejLane, rej, rejLane]
  · exact (only_commit (by decide)).2 ((only_modRejLane _ _ (by decide)).2 (freed.mono (by decide)))

/-! ### Windows and spans that end -/

/-- The end of a window has come (R490). -/
def windowOver (s : State) (n : Lane) : WinEnd → Bool
  | .time d => decide (d ≤ s.tick)
  | .pos p => pcGe (s.lane n).hwm p

theorem endWindow_over {e : WinEnd} (runs : (s.rejLane n).window = some e) (reached : s.windowOver n e = true) :
    s.endWindow n = (s.modRejLane n fun x => { x with window := none }).commit := by
  unfold endWindow
  rw [runs]
  cases e <;> exact if_pos reached

theorem windowDue_pos {p : Pc} (runs : (s.rejLane n).window = some (.pos p)) : s.windowDue n = none := by rw [windowDue, runs]

theorem windowDue_time {d : Nat} (runs : (s.rejLane n).window = some (.time d)) : s.windowDue n = some d := by rw [windowDue, runs]

theorem endSpan_over {p : Pc} (runs : (s.rejLane n).span = some p) (reached : pcGe (s.lane n).pc p = true) :
    s.endSpan n = (s.modRejLane n fun x => { x with span := none }).commit := by
  rw [endSpan, runs]
  exact if_pos reached

/-- A commit that concerns one reject lane. -/
theorem rejCommit_only (f : RejLane → RejLane) : Only [.order, .rej] u (u.modRejLane n f).commit :=
  (only_commit (by decide)).2 ((modRejLane_only n f).mono (by decide))

/-! ### Readback -/

/-- A sample that is taken of the lane's ball (R496); `d` is the level driven. -/
def sampled (s : State) (n : Lane) (level d : Bool) : State :=
  ((s.setFired (Ev.readback n) s.tick).modRej fun r =>
    { r with pins := BitVec.ofNat 4 ((r.pins.toNat &&& (15 - 2 ^ s.rejOut n)) + (if level then 2 ^ s.rejOut n else 0)) }).modRejLane n
      fun x => { x with rbAt := none, rbDiffers := level != d }

theorem readbackSample_eq {d : Bool} (drives : (s.rejLane n).drive = some d) (level : Bool) :
    s.readbackSample n level = if level != d && !(s.rejLane n).rbDiffers then
      ((s.sampled n level d).setFlag (Reg.REJ_EVT n) 0).raise Kind.readback (word (s.rejOut n)) else s.sampled n level d := by
  unfold readbackSample
  rw [drives]
  rfl

/-- The level of one ball among the pins of the reject outputs. -/
theorem pins_getLsbD : ∀ (p : BitVec 4) (o : Fin 4) (v : Bool),
    (BitVec.ofNat 4 ((p.toNat &&& (15 - 2 ^ o.val)) + (if v then 2 ^ o.val else 0))).getLsbD o.val = v := by decide

theorem sampled_spec (s : State) (n : Lane) (level d : Bool) :
    (s.sampled n level d).rej.pins.getLsbD (s.rejOut n) = level ∧ ((s.sampled n level d).rejLane n).rbAt = none ∧
      ((s.sampled n level d).rejLane n).rbDiffers = (level != d) ∧ Only [.fired, .rej] s (s.sampled n level d) := by
  have out : s.rejOut n < 4 := Nat.mod_lt _ (by decide)
  refine ⟨pins_getLsbD s.rej.pins ⟨s.rejOut n, out⟩ level, ?_, ?_, ?_⟩
  · rw [sampled, modRejLane_rejLane_same]
  · rw [sampled, modRejLane_rejLane_same]
  · unfold sampled
    simp (disch := decide)

/-- A sample that finds the level driven (R496). -/
theorem readbackSample_agrees {v : Bool} (drives : (s.rejLane n).drive = some v) : s.readbackSample n v = s.sampled n v v := by
  rw [readbackSample_eq drives, bne_self_eq_false]
  rfl

/-- The first sample that differs from the level driven raises READBACK (R496). -/
theorem readbackSample_differs {v : Bool} (drives : (s.rejLane n).drive = some v) (agreed : (s.rejLane n).rbDiffers = false)
    (watches : s.unitInReset 34 = false) :
    let u := s.readbackSample n (!v)
    u.rej.pins.getLsbD (s.rejOut n) = !v ∧ (u.rejLane n).rbDiffers = true ∧ u.rbit (Reg.REJ_EVT n) 0 = true ∧
      u.rbit Reg.FLT_PEND_B 6 = true ∧ Only ([.fired, .rej] ++ messageParts) s u := by
  intro u
  obtain ⟨pins, -, differs, only⟩ := sampled_spec s n (!v) v
  generalize hw : (s.sampled n (!v) v).setFlag (Reg.REJ_EVT n) 0 = w
  have eq : u = w.raise Kind.readback (word (s.rejOut n)) := by
    have new : ((!v) != v) = true := by cases v <;> rfl
    rw [← hw]
    exact (readbackSample_eq drives (!v)).trans (by rw [new, agreed]; rfl)
  have flagged : Only [.regs, .guards, .fired, .rej] s w := hw ▸ (only.mono (by decide)).trans ((setFlag_only _ _).mono (by decide))
  have told : Only messageParts w u := eq ▸ raiseN_only 12 w _ _ none
  have rej : u.rej = (s.sampled n (!v) v).rej := (told.part .rej (by decide)).trans (hw ▸ rfl)
  have event : ∀ n : Lane, Reg.REJ_EVT n / 0x1000 ∉ [4] := by decide
  refine ⟨by rw [rej, pins], by rw [rejLane, rej]; exact differs.trans (by cases v <;> rfl), ?_, ?_, ?_⟩
  · have kept : u.rbit (Reg.REJ_EVT n) 0 = w.rbit (Reg.REJ_EVT n) 0 :=
      eq ▸ rbit_of_regsIn (raiseN_in 12 w Kind.readback (word (s.rejOut n)) none (by decide)) _ _ (event n)
    rw [kept, ← hw]
    exact setFlag_rbit_same _ _ (by decide)
  · rw [eq]
    exact raise_pending (k := Kind.readback) (word (s.rejOut n)) (by decide) ((unitInReset_of_only flagged (by decide) 34).trans watches)
  · exact (flagged.mono (by decide)).trans (told.mono (by decide))

/-! ### LIVE -/

/-- The next LIVE edge is due half a period after one that was due at `d` (R497). -/
def liveNext (s : State) (d : Nat) : State := s.modRej fun r => { r with liveAt := some (d + s.liveHalf) }

theorem liveEdge_emitted {d : Nat} (due : s.rej.liveAt = some d) : s.liveEdge false =
    (((s.liveNext d).modRej fun r => { r with live := !s.rej.live }).emit (.pin "LIVE" (some !s.rej.live))).commit := by
  rw [liveEdge, due]
  rfl

theorem liveEdge_dropped {d : Nat} (due : s.rej.liveAt = some d) : s.liveEdge true = (s.liveNext d).bump Reg.REJ_LIVE_DROP := by
  rw [liveEdge, due]
  rfl

/-! ### The release of a forced reject -/

/-- Fields that a write keeps, beside a field without RW bits, are placed as they are. -/
theorem keeping_placed {a hi lo x : Nat} (held : s.readReg a = s.reg a) (apart : ∀ k, lo ≤ k → k ≤ hi → bit (rwMask a) k = false) :
    (s.reg a &&& ~~~(rwMask a)) ||| (s.keeping a hi lo x &&& rwMask a) = s.reg a := by
  refine BitVec.eq_of_getLsbD_eq fun k hk => ?_
  change bit _ k = bit _ k
  rw [bit_placed]
  split
  case isTrue mask =>
    have outside : ¬ (lo ≤ k ∧ k ≤ hi) := fun h => by rw [apart k h.1 h.2] at mask; cases mask
    rw [keeping, held, bit_putBits _ _ hk, if_neg outside]
    change (s.reg a &&& rwMask a).getLsbD k = (s.reg a).getLsbD k
    rw [BitVec.getLsbD_and, show (rwMask a).getLsbD k = true from mask, Bool.and_true]
  case isFalse => rfl

/-- The control register of a reject lane holds its fields and the release bit 31 (R502). -/
theorem rejCtrl_masks : ∀ n : Lane, rwMask (Reg.REJ_CTRL n) = 3 ∧ w1gMask (Reg.REJ_CTRL n) = 0 ∧
    (regAt (Reg.REJ_CTRL n)).isSome = true ∧ ownAction (Reg.REJ_CTRL n) = true ∧ inst4 (Reg.REJ_CTRL n) 0xD000 0x40 = n := by decide

theorem rejCtrl_readReg (s : State) (n : Lane) : s.readReg (Reg.REJ_CTRL n) = s.reg (Reg.REJ_CTRL n) := by
  obtain ⟨-, -, mapped, -⟩ := rejCtrl_masks n
  have block : Reg.REJ_CTRL n / 0x1000 = 13 := by simp only [Reg.REJ_CTRL]; omega
  have plain : s.derived (Reg.REJ_CTRL n) = none := by
    unfold derived
    rw [block]
    dsimp only [viewRejReg]
    simp only [Reg.REJ_CTRL, Reg.REJ_LINE_STAT, Reg.REJ_IRQ_SRC]
    rw [if_neg (by omega), if_neg (by omega), if_neg (by omega), if_neg (by omega), if_neg (by omega)]
  rw [readReg, if_pos mapped, plain]

/-- A write that holds a setting of a reject lane has its effect even where it changes nothing (R194). -/
theorem moot_rejSetting {a : Nat} {w : Word} (large : 0xD000 ≤ a) (small : a < 0xD100) (fields : rwMask a ≠ 0) : s.moot (a, w) = false := by
  unfold moot
  dsimp only
  rw [if_neg (by omega), if_neg (by simp only [Reg.PWR_REQ]; omega), if_neg (by simp only [Reg.FLT_RELEASE]; omega), if_neg (by omega),
    if_pos fields]

/-- What a write to a reject lane's registers does is the line block's (R494). -/
theorem effect_rejLane {a : Nat} {w : Word} (env : OpEnv) (v : State) (large : 0xD000 ≤ a) (small : a < 0xD100) :
    effect s env v (a, w) = v.lineEffect a w := by
  unfold State.effect
  dsimp only
  rw [if_neg (by omega), show a / 0x1000 = 13 by omega]
  rfl

/-- The release bit in a lane's control register ends its forced reject (R494). -/
theorem lineEffect_release {a : Nat} {w : Word} (v : State) (large : 0xD000 ≤ a) (small : a < 0xD100) (place : a % 0x40 = 0xC)
    (releases : bit w 31 = true) : v.lineEffect a w = v.releaseForce (inst4 a 0xD000 0x40) := by
  rw [lineEffect, if_pos ⟨large, small⟩, if_pos ⟨place, releases⟩]

/-- Every register reads as before where the one word placed holds its fields as they are. -/
theorem placeWords_kept {a : Nat} {w : Word} (kept : (s.reg a &&& ~~~(rwMask a)) ||| (w &&& rwMask a) = s.reg a) (b : Nat) :
    (s.placeWords [(a, w)]).reg b = s.reg b := by
  by_cases own : b = a
  · subst own
    simp only [placeWords, List.foldl_cons, List.foldl_nil]
    split
    · rfl
    · rw [setReg_reg_same, kept]
  · exact placeWords_reg_other b own

/-- The word of a release: bit 31 set, and the fields as they are (R494). -/
theorem rejRelease_word (s : State) (n : Lane) :
    bit (s.keeping (Reg.REJ_CTRL n) 31 31 1) 31 = true ∧
      (s.reg (Reg.REJ_CTRL n) &&& ~~~(rwMask (Reg.REJ_CTRL n))) ||| (s.keeping (Reg.REJ_CTRL n) 31 31 1 &&& rwMask (Reg.REJ_CTRL n)) =
        s.reg (Reg.REJ_CTRL n) := by
  obtain ⟨fields, -⟩ := rejCtrl_masks n
  refine ⟨?_, keeping_placed (rejCtrl_readReg s n) fun k h1 h2 => ?_⟩
  · rw [keeping, bit_putBits _ _ (by decide)]
    rfl
  · rw [fields, show k = 31 by omega]
    decide

/-- A granted release acts on the state that its commit leaves, where every register reads as before (R194, R494). -/
theorem rejRelease_granted {o : OpCtx}
    (granted : s.Granted o OpEnv.quiet (Reg.REJ_CTRL n) [s.keeping (Reg.REJ_CTRL n) 31 31 1]) :
    ∃ v : State, exec (.rejRelease o n) s = .next (s.written o (v.releaseForce n)) ∧ Only [.order, .regs] s v ∧ RegsBut [] s v := by
  have run : exec (.rejRelease o n) s =
      s.finish (s.ownerWrites o OpEnv.quiet (Reg.REJ_CTRL n) [s.keeping (Reg.REJ_CTRL n) 31 31 1]) := rfl
  obtain ⟨fields, flagless, -, own, lane⟩ := rejCtrl_masks n
  obtain ⟨releases, kept⟩ := rejRelease_word s n
  have place : 0xD000 ≤ Reg.REJ_CTRL n ∧ Reg.REJ_CTRL n < 0xD100 ∧ Reg.REJ_CTRL n % 0x40 = 0xC := by simp only [Reg.REJ_CTRL]; omega
  rw [run]
  clear run
  generalize s.keeping (Reg.REJ_CTRL n) 31 31 1 = w at *
  generalize Reg.REJ_CTRL n = a at *
  obtain ⟨large, small, place⟩ := place
  have settings : rwMask a ≠ 0 := by rw [fields]; decide
  have bare : w &&& w1gMask a = 0 := by rw [flagless]; exact BitVec.and_zero
  refine ⟨(s.placeWords [(a, w)]).commit, ?_, (only_commit (by decide)).2 ((placeWords_only _).mono (by decide)),
    fun b _ => placeWords_kept kept b⟩
  rw [finish_own granted (by omega) own bare (moot_rejSetting large small settings), effect_rejLane _ _ large small,
    lineEffect_release _ large small place releases, lane]

/-- The release of a forced reject (R494): an unrecorded span runs, or waits for the lane's job (R169). -/
theorem releaseForce_spec (forced : s.forced n = true) :
    let x := (s.releaseForce n).rejLane n
    x.forceOverrun = false ∧ x.forceFull = false ∧
      (if s.maxRate n = 0 then x.spanDue = true else x.span.isSome = true ∧ x.spanDue = false) ∧
      x.window = (s.rejLane n).window ∧ (∀ m : Lane, m ≠ n → (s.releaseForce n).rejLane m = s.rejLane m) ∧
      Only [.rej] s (s.releaseForce n) := by
  generalize hv : (s.modRejLane n fun x => { x with forceOverrun := false, forceFull := false }) = v
  have eq : s.releaseForce n = v.startSpan n := by
    rw [← hv]
    exact if_pos forced
  have rate : v.maxRate n = s.maxRate n := by rw [← hv]; rfl
  have freed : v.rejLane n = { s.rejLane n with forceOverrun := false, forceFull := false } := by
    rw [← hv, modRejLane_rejLane_same]
  have others (f : RejLane → RejLane) (m : Lane) (hm : m ≠ n) : (v.modRejLane n f).rejLane m = s.rejLane m := by
    rw [modRejLane_rejLane_other _ _ _ _ (Ne.symm hm), ← hv, modRejLane_rejLane_other _ _ _ _ (Ne.symm hm)]
  have only (f : RejLane → RejLane) : Only [.rej] s (v.modRejLane n f) := (hv ▸ modRejLane_only n _).trans (modRejLane_only n f)
  rw [eq, startSpan, rate]
  split
  · simp only [modRejLane_rejLane_same, freed]
    exact ⟨trivial, trivial, trivial, trivial, others _, only _⟩
  · simp only [modRejLane_rejLane_same, freed]
    refine ⟨trivial, trivial, ⟨?_, trivial⟩, trivial, others _, only _⟩
    split <;> rfl

end State

/-- Settles O48: what each command does to its lane or to LIVE, at the time to which it advances. -/
theorem rejectsAndLineRun : Obligations.RejectsAndLineRun := by
  intro s n ticks
  have rej (d : Nat) : (s.advanceTo d).rej = s.rej := (State.advanceTo_only d).part .rej (by decide)
  have lane (d : Nat) : (s.advanceTo d).rejLane n = s.rejLane n := by rw [State.rejLane, rej, State.rejLane]
  have now (d : Nat) : (s.advanceTo d).tick = max s.tick d := State.advanceTo_tick ticks d
  refine ⟨fun r next final => ?_, fun p runs reached => ?_, fun d runs => ?_, fun p runs reached => ?_, fun d v due drives => ?_,
    fun d due => ?_, fun o granted forced => ?_⟩
  · have run : exec (.gateAction n) s = s.finish (s.passGate n r) := by
      rw [exec, execGateAction, if_pos ticks, State.gateAction_final next final]
    exact ⟨fun passes => ⟨_, run, State.passGate_passes passes⟩, fun rejects apart => ⟨_, run, State.passGate_rejects rejects apart⟩⟩
  · have run : exec (.rejWindowEnd n) s = s.finish (s.modRejLane n fun x => { x with window := none }).commit := by
      rw [exec, execRejWindowEnd, if_pos ticks, State.windowDue_pos runs]
      exact congrArg s.finish (State.endWindow_over runs reached)
    exact ⟨_, run, by rw [State.commit_rejLane, State.modRejLane_rejLane_same], rfl,
      by rw [State.commit_rejLane, State.modRejLane_rejLane_same], State.rejCommit_only _⟩
  · have runs' : ((s.advanceTo d).rejLane n).window = some (.time d) := by rw [lane]; exact runs
    have reached : (s.advanceTo d).windowOver n (.time d) = true := decide_eq_true (now d ▸ Nat.le_max_right _ _)
    have run : exec (.rejWindowEnd n) s = s.finish ((s.advanceTo d).modRejLane n fun x => { x with window := none }).commit := by
      rw [exec, execRejWindowEnd, if_pos ticks, State.windowDue_time runs]
      exact congrArg s.finish (State.endWindow_over runs' reached)
    exact ⟨_, run, by rw [State.commit_rejLane, State.modRejLane_rejLane_same], now d, State.rejCommit_only _⟩
  · have run : exec (.spanEnd n) s = s.finish (s.modRejLane n fun x => { x with span := none }).commit := by
      rw [exec, execSpanEnd, if_pos ticks, State.endSpan_over runs reached]
    exact ⟨_, run, by rw [State.commit_rejLane, State.modRejLane_rejLane_same], rfl, State.rejCommit_only _⟩
  · have run (level : Bool) : exec (.readbackSample n level) s = s.finish ((s.advanceTo d).readbackSample n level) := by
      rw [exec, execReadbackSample, due, State.timed_some ticks]
    rw [← lane d] at drives
    refine ⟨?_, fun agreed watches => ⟨_, run _, State.readbackSample_differs drives ((lane d).symm ▸ agreed) watches⟩⟩
    obtain ⟨pins, taken, differs, only⟩ := State.sampled_spec (s.advanceTo d) n v v
    have agrees := run v
    rw [State.readbackSample_agrees drives] at agrees
    exact ⟨_, agrees, pins, taken, differs.trans (bne_self_eq_false v),
      (only.part .tick (by decide) : _ = (s.advanceTo d).tick).trans (now d), only⟩
  · have due' : (s.advanceTo d).rej.liveAt = some d := by rw [rej]; exact due
    have run (late : Bool) : exec (.liveEdge late) s = s.finish ((s.advanceTo d).liveEdge late) := by
      rw [exec, execLiveEdge, if_pos ticks, due, State.timed_some ticks]
    have emitted := run false
    have dropped := run true
    rw [State.liveEdge_emitted due', rej] at emitted
    rw [State.liveEdge_dropped due'] at dropped
    have half : Only [.rej] (s.advanceTo d) ((s.advanceTo d).liveNext d) := State.modRej_only _
    refine ⟨⟨_, emitted, rfl, rfl, rfl, rfl, ?_⟩, ⟨_, dropped, ?_, ?_, ?_, ?_, ?_⟩⟩
    · exact (State.only_commit (by decide)).2 ((State.only_emit _ (by decide)).2 ((State.only_modRej _ (by decide)).2 (half.mono (by decide))))
    · rw [State.bump_rej, ← rej d]
      rfl
    · rw [State.bump_rej]
      rfl
    · exact State.bump_oneMore _ _
    · exact fun a ha => State.bump_reg_other _ _ _ fun e => ha (by simp [e])
    · exact (State.only_bump _ (by decide)).2 (half.mono (by decide))
  · obtain ⟨v, run, only, regs⟩ := State.rejRelease_granted granted
    have same : v.rej = s.rej := only.part .rej (by decide)
    have lanes (m : Lane) : v.rejLane m = s.rejLane m := by rw [State.rejLane, same, State.rejLane]
    have rate : v.maxRate n = s.maxRate n := by rw [State.maxRate, State.fld, regs _ List.not_mem_nil, State.maxRate, State.fld]
    obtain ⟨overrun, full, span, window, others, released⟩ := State.releaseForce_spec (s := v) (n := n)
      (by rw [State.forced, lanes]; exact forced)
    rw [rate] at span
    exact ⟨_, run, overrun, full, span, by rw [window, lanes], fun m hm => (others m hm).trans (lanes m),
      fun a ha => (released.regsIn (by decide) a List.not_mem_nil).trans (regs a ha),
      (only.mono (by decide)).trans (released.mono (by decide))⟩

end Sys2Proof.Machine
end

/-! ## A message read back from its octets -/

section
namespace Sys2Proof.Machine

/-! ### Items -/

/-- An item is as long as its own length field says, and that is a length that R191 allows. -/
def Sized (x : List Byte) : Prop := 8 ≤ x.length ∧ x.length % 4 = 0 ∧ u16 x 2 = x.length

theorem u16_append {x : List Byte} {i : Nat} (y : List Byte) (h : i + 2 ≤ x.length) : u16 (x ++ y) i = u16 x i := by
  have inside : 2 ≤ (x.drop i).length := by rw [List.length_drop]; omega
  rw [u16, List.drop_append_of_le_length (by omega), List.take_append_of_le_length inside, u16]

/-- Items laid end to end are split where they were joined. -/
theorem splitItems_flatten : ∀ items : List (List Byte), (∀ x ∈ items, Sized x) → splitItems items.length items.flatten = some items
  | [], _ => rfl
  | x :: items, sized => by
    obtain ⟨long, aligned, len⟩ := sized x (by simp)
    have field : u16 (x ++ items.flatten) 2 = x.length := by rw [u16_append _ (by omega), len]
    have total : (x ++ items.flatten).length = x.length + items.flatten.length := List.length_append
    rw [List.length_cons, List.flatten_cons, splitItems, field, if_neg (by omega), List.drop_left, List.take_left,
      splitItems_flatten items fun y hy => sized y (by simp [hy])]

theorem flatten_aligned : ∀ items : List (List Byte), (∀ x ∈ items, Sized x) → items.flatten.length % 4 = 0
  | [], _ => rfl
  | x :: items, sized => by
    obtain ⟨-, aligned, -⟩ := sized x (by simp)
    have rest := flatten_aligned items fun y hy => sized y (by simp [hy])
    rw [List.flatten_cons, List.length_append]
    omega

/-! ### The header -/

section

variable (type session count seq id ack : Nat) (body pad : List Byte)

theorem message_version : u8 (message type session count seq id ack body ++ pad) 0 = 1 := rfl

theorem message_type : u8 (message type session count seq id ack body ++ pad) 1 = type % 256 := BitVec.toNat_ofNat ..

theorem message_session : u8 (message type session count seq id ack body ++ pad) 2 = session % 256 := BitVec.toNat_ofNat ..

theorem message_count : u8 (message type session count seq id ack body ++ pad) 3 = count % 256 := BitVec.toNat_ofNat ..

theorem message_seq : u16 (message type session count seq id ack body ++ pad) 4 = seq % 65536 := leBytes_bytesLE 2 seq

theorem message_len : u16 (message type session count seq id ack body ++ pad) 6 = (16 + body.length) % 65536 :=
  leBytes_bytesLE 2 (16 + body.length)

theorem message_id : u32 (message type session count seq id ack body ++ pad) 8 = id % 2 ^ 32 := leBytes_bytesLE 4 id

theorem message_ack : u16 (message type session count seq id ack body ++ pad) 12 = ack % 65536 := leBytes_bytesLE 2 ack

theorem message_length : (message type session count seq id ack body).length = 16 + body.length := by
  change body.length + 16 = _
  omega

/-- What follows the header, without what follows the message. -/
theorem message_body : ((message type session count seq id ack body ++ pad).take (16 + body.length)).drop 16 = body := by
  rw [← message_length type session count seq id ack body, List.take_left]
  rfl

end

/-- A REQUEST or a KEEPALIVE of items that fit is well formed, and holds those items (R189, R190). -/
theorem parseMessage_message {type : Nat} (session seq id ack : Nat) {items : List (List Byte)} (pad : List Byte)
    (known : type = 1 ∨ type = 5) (few : items.length ≤ 32) (sized : ∀ x ∈ items, Sized x) (fits : items.flatten.length ≤ 1456) :
    parseMessage (message type session items.length seq id ack items.flatten ++ pad) = some items := by
  have aligned := flatten_aligned items sized
  have len : u16 (message type session items.length seq id ack items.flatten ++ pad) 6 = 16 + items.flatten.length := by
    rw [message_len, Nat.mod_eq_of_lt (by omega)]
  have count : u8 (message type session items.length seq id ack items.flatten ++ pad) 3 = items.length := by
    rw [message_count, Nat.mod_eq_of_lt (by omega)]
  have covered : (message type session items.length seq id ack items.flatten ++ pad).length =
      16 + items.flatten.length + pad.length := by
    rw [List.length_append, message_length]
  rw [parseMessage, len, count, message_version, message_type, covered, message_body, splitItems_flatten items sized]
  exact if_neg (by omega)

/-- Settles O28: the header's fields read back as they were put, and the items are split where they were joined. -/
theorem messageReadsBack : Obligations.MessageReadsBack := by
  intro type session seq id ack items pad known session_lt seq_lt id_lt ack_lt few sized fits
  refine ⟨parseMessage_message session seq id ack pad known few sized fits, ?_, ?_, ?_, ?_, ?_⟩
  · rw [message_type, Nat.mod_eq_of_lt (by omega)]
  · rw [message_session, Nat.mod_eq_of_lt session_lt]
  · rw [message_seq, Nat.mod_eq_of_lt seq_lt]
  · rw [message_id, Nat.mod_eq_of_lt id_lt]
  · rw [message_ack, Nat.mod_eq_of_lt ack_lt]

end Sys2Proof.Machine
end

/-! ## Frames through the switch -/

section
namespace Sys2Proof.Machine
namespace State

variable {s t u : State}

/-! ### What the switch leaves of the registers -/

/-- The registers of the blocks DEV and SES, and those of block LNK below its counters, read as before (R214). -/
def SettingsKept (s t : State) : Prop := ∀ a < 0x2040, t.reg a = s.reg a

theorem SettingsKept.trans (h : SettingsKept s t) (k : SettingsKept t u) : SettingsKept s u := fun a ha => (k a ha).trans (h a ha)

theorem SettingsKept.of_only {l : List Part} (h : Only l s t) (hl : .regs ∉ l) : SettingsKept s t := fun a _ => h.regsIn hl a (by simp)

theorem SettingsKept.portOn (h : SettingsKept s t) (p : Nat) : t.portOn p = s.portOn p := by
  rw [State.portOn, rbit, h Reg.LNK_PORTB_CFG (by decide), State.portOn, rbit]

theorem SettingsKept.stationMac (h : SettingsKept s t) (boot : t.boot = s.boot) : t.stationMac = s.stationMac := by
  unfold State.stationMac addrLow fld
  rw [h Reg.LNK_MAC_LO (by decide), h Reg.LNK_MAC_HI (by decide), boot]

/-- Which frames port I takes depends on the station address and the EtherType alone (R181). -/
theorem SettingsKept.takesFrame (h : SettingsKept s t) (boot : t.boot = s.boot) (f : Frame) : t.takesFrame f = s.takesFrame f := by
  unfold State.takesFrame takesBroadcast fld
  rw [h.stationMac boot, h Reg.LNK_ETYPE (by decide)]

theorem bump_settings {a : Nat} (ha : 0x2040 ≤ a) : SettingsKept u (u.bump a) := fun _ hb => bump_reg_other _ _ _ (by omega)

theorem transmit_settings (p : Nat) (full : Bool) (b : List Byte) : SettingsKept u (u.transmit p full b) := by
  unfold transmit
  split
  · exact fun _ _ => rfl
  · split
    · exact bump_settings (by decide)
    · exact bump_settings (u := u) (by simp only [Reg.LNK_TX]; omega)

/-! ### Frames that leave several ports -/

theorem transmits_settings (full : Bool) (b : List Byte) : ∀ (l : List Nat) (u : State),
    SettingsKept u (l.foldl (fun s q => s.transmit q full b) u)
  | [], _ => fun _ _ => rfl
  | q :: l, u => (transmit_settings q full b).trans (transmits_settings full b l (u.transmit q full b))

theorem transmits_only (full : Bool) (b : List Byte) (l : List Nat) :
    Only [.regs, .out] u (l.foldl (fun s q => s.transmit q full b) u) := Only.foldl (fun _ q => transmit_only q full b) l u

theorem transmit_out (p : Nat) (full : Bool) (b : List Byte) :
    (u.transmit p full b).out = (if full = true ∨ u.portOn p = false then [] else [Emit.frame p b]) ++ u.out := by
  unfold transmit
  cases u.portOn p <;> cases full <;> simp [emit]

/-- A frame leaves each enabled port of those named, the last named first in the record of what has left; none where the
queues are full (R180). -/
theorem transmits_out (full : Bool) (b : List Byte) : ∀ (l : List Nat) (u : State),
    (l.foldl (fun s q => s.transmit q full b) u).out =
      (if full = true then [] else ((l.filter fun q => u.portOn q).map fun q => Emit.frame q b).reverse) ++ u.out
  | [], u => by cases full <;> rfl
  | q :: l, u => by
    have ports : (fun k => (u.transmit q full b).portOn k) = fun k => u.portOn k := funext (transmit_settings q full b).portOn
    rw [List.foldl_cons, transmits_out full b l, ports, transmit_out]
    cases full
    · cases on : u.portOn q <;> simp [on]
    · simp

theorem mem_transmits_out {b : List Byte} {l : List Nat} {q : Nat} (hq : q ∈ l) (on : u.portOn q = true) :
    Emit.frame q b ∈ (l.foldl (fun s q => s.transmit q false b) u).out := by
  rw [transmits_out]
  simp [hq, on]

/-- A frame received on a port leaves at most one other port (R180). -/
theorem egress_port {p : Nat} (hp : p ≠ 2) (d : BitVec 48) : s.egress p d = [] ∨ ∃ q, s.egress p d = [q] := by
  unfold egress
  rw [if_neg hp]
  split
  · exact .inr ⟨_, rfl⟩
  · split
    · split
      · exact .inl rfl
      · exact .inr ⟨_, rfl⟩
    · exact .inr ⟨_, rfl⟩

theorem egress_congr (h : t.lnk = s.lnk) (p : Nat) (d : BitVec 48) : t.egress p d = s.egress p d := by
  unfold egress learned
  rw [h]

/-! ### Learning and forwarding -/

theorem learn_only (m : BitVec 48) (p : Nat) : Only [.lnk] u (u.learn m p) := modLnk_only _

/-- The entries that stay beside an address that is learned: those of other addresses, without the oldest where the table is
full (R180). -/
def otherEntries (s : State) (m : BitVec 48) : List SwEntry :=
  let rest := s.lnk.table.filter fun q => !decide (q.mac = m)
  if rest.length < 32 then rest
  else match oldestEntry rest with
    | some o => rest.filter fun q => !decide (q.mac = o.mac)
    | none => rest

theorem learn_eq (s : State) (m : BitVec 48) (p : Nat) :
    s.learn m p = s.modLnk fun l => { l with table := s.otherEntries m ++ [⟨m, p, s.tick⟩] } := rfl

theorem otherEntries_mac (s : State) {m : BitVec 48} {q : SwEntry} (hq : q ∈ s.otherEntries m) : q.mac ≠ m := by
  have filtered : q ∈ s.lnk.table.filter fun q => !decide (q.mac = m) := by
    unfold otherEntries at hq
    dsimp only at hq
    split at hq
    · exact hq
    · split at hq
      · exact List.mem_of_mem_filter hq
      · exact hq
  simpa using (List.mem_filter.1 filtered).2

/-- An address is learned at the port of its latest frame (R180). -/
theorem learn_learned (s : State) (m : BitVec 48) (p : Nat) : (s.learn m p).learned m = some p := by
  have absent : (s.otherEntries m).find? (fun e => decide (e.mac = m)) = none :=
    List.find?_eq_none.2 fun q hq => by simpa using s.otherEntries_mac hq
  rw [learn_eq, learned, modLnk_lnk, List.find?_append, absent]
  simp

/-- A good frame as the switch leaves it: counted, its source learned, forwarded (R180). -/
def relayed (s : State) (p : Fin 2) (full : Bool) (b : List Byte) : State :=
  ((s.bump (Reg.LNK_RXGOOD p.val)).learn (readFrame b).src p.val).forward p full (readFrame b).dst b

theorem frameArrives_good {p : Fin 2} {b : List Byte} (rxFull full : Bool) (env : OpEnv) (runs : s.linkRuns p = true)
    (size : frameSize b = true) : s.frameArrives p b rxFull full env =
      if (s.relayed p full b).takesFrame (readFrame b) = true then
        (if rxFull = true then (s.relayed p full b).overrun p else (s.relayed p full b).frameIn p (readFrame b) env)
      else s.relayed p full b := by
  unfold frameArrives
  rw [runs, size]
  rfl

theorem counted_lnk (s : State) (a : Nat) (m : BitVec 48) (p : Nat) : ((s.bump a).learn m p).lnk = (s.learn m p).lnk := by
  unfold learn
  dsimp only [modLnk]
  rw [bump_lnk, bump_tick]

theorem counted_settings (s : State) (p : Fin 2) (m : BitVec 48) : SettingsKept s ((s.bump (Reg.LNK_RXGOOD p.val)).learn m p.val) :=
  (bump_settings (by simp only [Reg.LNK_RXGOOD]; omega)).trans (.of_only (learn_only m p.val) (by decide))

theorem forward_only (p : Fin 2) (full : Bool) (d : BitVec 48) (b : List Byte) : Only [.regs, .out] u (u.forward p full d b) :=
  only_ite (Only.refl _ _) (transmits_only full b _)

theorem relayed_only (s : State) (p : Fin 2) (full : Bool) (b : List Byte) : Only [.regs, .lnk, .out] s (s.relayed p full b) :=
  .trans (.trans ((bump_only _).mono (by decide)) ((learn_only _ _).mono (by decide))) ((forward_only p full _ b).mono (by decide))

theorem forward_settings (p : Fin 2) (full : Bool) (d : BitVec 48) (b : List Byte) : SettingsKept u (u.forward p full d b) := by
  unfold forward
  split
  · exact fun _ _ => rfl
  · exact transmits_settings full b _ _

theorem relayed_settings (s : State) (p : Fin 2) (full : Bool) (b : List Byte) : SettingsKept s (s.relayed p full b) :=
  (counted_settings s p _).trans (forward_settings p full _ b)

theorem relayed_takesFrame (s : State) (p : Fin 2) (full : Bool) (b : List Byte) (f : Frame) :
    (s.relayed p full b).takesFrame f = s.takesFrame f :=
  (relayed_settings s p full b).takesFrame ((relayed_only s p full b).part .boot (by decide)) f

theorem relayed_learned (s : State) (p : Fin 2) (full : Bool) (b : List Byte) :
    (s.relayed p full b).learned (readFrame b).src = some p.val := by
  have lnk : (s.relayed p full b).lnk = (s.learn (readFrame b).src p.val).lnk :=
    ((forward_only p full _ b).part .lnk (by decide) : _ = _).trans (counted_lnk s _ _ _)
  rw [learned, lnk]
  exact learn_learned s _ _

/-- What leaves for a frame that is not for the station alone (R180). -/
theorem relayed_out (p : Fin 2) (full : Bool) {b : List Byte} (away : (readFrame b).dst ≠ s.stationMac) :
    (s.relayed p full b).out = (if full = true then [] else
      (((s.learn (readFrame b).src p.val).egress p.val (readFrame b).dst).filter fun q => s.portOn q).map fun q => Emit.frame q b) ++
        s.out := by
  unfold relayed
  generalize hv : (s.bump (Reg.LNK_RXGOOD p.val)).learn (readFrame b).src p.val = v
  have kept : SettingsKept s v := hv ▸ counted_settings s p _
  have lnk : v.lnk = (s.learn (readFrame b).src p.val).lnk := hv ▸ counted_lnk s _ _ _
  have only : Only [.regs, .lnk] s v := hv ▸ .trans ((bump_only _).mono (by decide)) ((learn_only _ _).mono (by decide))
  have out : v.out = s.out := only.part .out (by decide)
  have ports : (fun k => v.portOn k) = fun k => s.portOn k := funext kept.portOn
  rw [forward, kept.stationMac (only.part .boot (by decide)), if_neg away, transmits_out, ports, out, egress_congr lnk]
  rcases egress_port (s := s.learn (readFrame b).src p.val) (p := p.val) (by omega) (readFrame b).dst with e | ⟨q, e⟩
  · rw [e]
    rfl
  · rw [e]
    cases on : s.portOn q <;> simp [on]

/-- Port I's receive queue is full (R181): the frame is counted and the port's source reports. -/
theorem overrun_spec {p : Fin 2} (watches : u.unitInReset (6 + p.val) = false) :
    (u.overrun p).rbit Reg.FLT_PEND_A (6 + p.val) = true ∧ Only messageParts u (u.overrun p) := by
  have counted : Only [.regs] u (u.bump (Reg.LNK_RXOVR p.val)) := bump_only _
  refine ⟨raise_pends (Kind.rxOverrun p.val) 0 (by simp only [Kind.rxOverrun]; omega) ?_, ?_⟩
  · rw [unitInReset_of_only counted (by decide)]
    exact watches
  · exact (only_raise _ _ fun _ h => h).2 (counted.mono (by decide))

/-- A port that runs watches its conditions (R183). -/
theorem watches_of_linkRuns {p : Fin 2} (runs : s.linkRuns p = true) : s.unitInReset (6 + p.val) = false := by
  simp only [linkRuns, Bool.and_eq_true, Bool.not_eq_true'] at runs
  exact runs.2

end State

/-- Settles O25: a good frame leaves the switch as `relayed` says, and port I takes what it took before; a bad one is counted. -/
theorem framesAreSwitched : Obligations.FramesAreSwitched := by
  intro s p b rxFull full env runs f
  refine ⟨fun size passes => ⟨s.relayed p full b, ?_, State.relayed_learned s p full b, State.relayed_out p full ?_,
    State.relayed_only s p full b⟩, fun size takes queueFull => ⟨(s.relayed p full b).overrun p, ?_, ?_, ?_⟩,
    fun size => ⟨s.bump (Reg.LNK_RXERR p.val), ?_, State.bump_only _, fun a ha => State.bump_reg_other _ _ _ ?_, ?_⟩⟩
  · refine congrArg s.finish ((State.frameArrives_good rxFull full env runs size).trans ?_)
    rw [State.relayed_takesFrame, passes, if_neg Bool.false_ne_true]
  · intro own
    have : s.takesFrame f = true := by rw [State.takesFrame, decide_eq_true own, Bool.true_or]
    rw [passes] at this
    cases this
  · refine congrArg s.finish ((State.frameArrives_good rxFull full env runs size).trans ?_)
    rw [State.relayed_takesFrame, takes, if_pos rfl, if_pos queueFull]
  · refine (State.overrun_spec ?_).1
    rw [State.unitInReset_of_only (State.relayed_only s p full b) (by decide)]
    exact State.watches_of_linkRuns runs
  · refine ((State.relayed_only s p full b).mono (by decide)).trans (State.overrun_spec ?_).2
    rw [State.unitInReset_of_only (State.relayed_only s p full b) (by decide)]
    exact State.watches_of_linkRuns runs
  · refine congrArg s.finish ?_
    rw [State.frameArrives, runs, size]
    rfl
  · exact fun e => ha (by simp [e])
  · rw [State.bump_reg_same]
    split
    · assumption
    · rfl

end Sys2Proof.Machine
end

/-! ## Links that come and go -/

section
namespace Sys2Proof.Machine
namespace State

variable {s t u : State}

/-! ### What a message leaves of the link -/

/-- From `s` to `t` the link ports stay, the same sessions are bound, and what has left stays on record. -/
structure LinkKept (s t : State) : Prop where
  ports : t.lnk.ports = s.lnk.ports
  bound : ∀ i, (t.sess i).bound = (s.sess i).bound
  sent : ∀ e ∈ s.out, e ∈ t.out

namespace LinkKept

theorem refl (s : State) : LinkKept s s := ⟨rfl, fun _ => rfl, fun _ h => h⟩

theorem trans (h : LinkKept s t) (k : LinkKept t u) : LinkKept s u :=
  ⟨k.ports.trans h.ports, fun i => (k.bound i).trans (h.bound i), fun e he => k.sent e (h.sent e he)⟩

theorem of_only {l : List Part} (h : Only l s t) (hl : .lnk ∉ l) (ho : .out ∉ l) : LinkKept s t := by
  have lnk : t.lnk = s.lnk := h.part .lnk hl
  have out : t.out = s.out := h.part .out ho
  exact ⟨by rw [lnk], fun i => by rw [sess, lnk, sess], fun e he => out ▸ he⟩

/-- A slot that stays bound or free. -/
theorem setSess {i : Sess} {x : Session} (hx : x.bound = (s.sess i).bound) : LinkKept s (s.setSess i x) := by
  refine ⟨rfl, fun j => ?_, fun _ h => h⟩
  rw [setSess_sess]
  split
  case isTrue same => rw [hx, same]
  case isFalse => rfl

theorem queueItem (s : State) (i : Sess) (e : EventItem) : LinkKept s (s.queueItem i e).1 := by
  unfold State.queueItem
  dsimp only
  split <;> exact setSess rfl

theorem queueItems (want : Session → Sess → Bool) (e : EventItem) : ∀ (l : List Sess) (s : State),
    LinkKept s (queueItems want e l s).1
  | [], s => .refl s
  | i :: l, s => by
    unfold State.queueItems
    split
    · exact (queueItem s i e).trans (queueItems want e l _)
    · exact queueItems want e l s

theorem trapPulse (s : State) : LinkKept s s.trapPulse := by
  unfold State.trapPulse
  dsimp only
  refine .trans ?_ (.of_only (bump_only _) (by decide) (by decide))
  split
  · exact ⟨rfl, fun _ => rfl, fun _ h => List.mem_cons_of_mem _ h⟩
  · exact ⟨rfl, fun _ => rfl, fun _ h => h⟩

end LinkKept

/-- A message queues event items and may pulse TRAP_OUT; it changes nothing else of the link (R111). -/
theorem reportSteps_link : ReportSteps LinkKept where
  refl := .refl
  trans := .trans
  commit _ := .of_only commit_only (by decide) (by decide)
  bin _ m := .of_only (recordBin_only m) (by decide) (by decide)
  source _ k _ := .of_only (recordSource_only k) (by decide) (by decide)
  items := .queueItems
  trap := .trapPulse
  pin _ := .of_only errPin_only (by decide) (by decide)
  resets _ m b := .of_only (selectResets_only m b) (by decide) (by decide)

/-! ### One port's link -/

theorem dropLink_only (p : Nat) : Only [.lnk] u (u.dropLink p) := modLnk_only _

theorem dropLink_same (s : State) (p : Fin 2) : (s.dropLink p.val).lnk.ports[p].up = false := by
  have : (s.dropLink p.val).lnk.ports[p] = ⟨false, false⟩ := Vector.getElem_setIfInBounds_self ..
  rw [this]

theorem dropLink_other (s : State) {p q : Fin 2} (h : q ≠ p) : (s.dropLink p.val).lnk.ports[q] = s.lnk.ports[q] :=
  Vector.getElem_setIfInBounds_ne q.isLt fun e => h (Fin.ext e.symm)

/-- A link that is lost while its port runs drops and reports (R182). -/
theorem linkLost_runs {p : Fin 2} (runs : s.linkRuns p = true) (up : s.lnk.ports[p].up = true) :
    s.linkLost p = (s.dropLink p.val).raise (Kind.linkDown p.val) 0 := by
  rw [linkLost, if_pos up, if_pos runs]

/-- The register that configures a port (R179). -/
def portCfg (p : Fin 2) : Nat := if p.val = 0 then Reg.LNK_PORTA_CFG else Reg.LNK_PORTB_CFG

theorem portCfg_masks (p : Fin 2) : rwMask (portCfg p) ≠ 0 ∧ w1gMask (portCfg p) = 0 ∧ portCfg p < 0x5000 := by
  revert p
  decide

/-- A write of a port's configuration places its fields, and its link drops (R179). -/
theorem linkEffect_portCfg (v : State) (p : Fin 2) (w : Word) : effect s OpEnv.quiet v (portCfg p, w) = v.dropLink p.val := by
  fin_cases p <;> rfl

theorem moot_portCfg (p : Fin 2) (w : Word) : s.moot (portCfg p, w) = false := by
  obtain ⟨fields, -, low⟩ := portCfg_masks p
  have request : portCfg p ≠ Reg.PWR_REQ ∧ portCfg p ≠ Reg.FLT_RELEASE := by revert p; decide
  unfold moot
  dsimp only
  rw [if_neg (by omega), if_neg request.1, if_neg request.2, if_neg (by omega), if_pos fields]

/-- A granted write of a port's configuration (R179, R194). -/
theorem linkRestart_granted {o : OpCtx} {p : Fin 2} {cfg : Word} (granted : s.Granted o OpEnv.quiet (portCfg p) [cfg]) :
    exec (.linkRestart o p cfg) s = .next (s.written o ((s.placeWords [(portCfg p, cfg)]).commit.dropLink p.val)) := by
  obtain ⟨-, flagless, low⟩ := portCfg_masks p
  have bare : cfg &&& w1gMask (portCfg p) = 0 := by rw [flagless]; exact BitVec.and_zero
  have run : exec (.linkRestart o p cfg) s = s.finish (s.ownerWrites o OpEnv.quiet (portCfg p) [cfg]) := rfl
  rw [run, finish_own granted (by omega) (ownAction_low low) bare (moot_portCfg p cfg), linkEffect_portCfg]

end State

/-- Settles O26: each command sets or drops the link of its own port; a loss reports, which leaves the ports. -/
theorem linksComeAndGo : Obligations.LinksComeAndGo := by
  intro s p q apart
  refine ⟨fun amp24 runs => ?_, fun runs up => ?_, fun o cfg => ?_⟩
  · exact ⟨s.modLnk fun l => { l with ports := l.ports.set p ⟨true, s.linkMode p amp24⟩ }, congrArg s.finish (if_pos runs),
      Vector.getElem_set_self .., Vector.getElem_set_ne p.isLt q.isLt fun e => apart (Fin.ext e.symm), State.modLnk_only _⟩
  · have source : (Kind.linkDown p.val).src < 28 := by simp only [Kind.linkDown]; omega
    have kept := (State.reportSteps_link.raise (s.dropLink p.val) (Kind.linkDown p.val) 0 (by omega)).ports
    have watches : (s.dropLink p.val).unitInReset (6 + p.val) = false :=
      (State.unitInReset_of_only (State.dropLink_only p.val) (by decide) _).trans (State.watches_of_linkRuns runs)
    refine ⟨_, congrArg s.finish (State.linkLost_runs runs up), ?_, ?_, State.raise_pends _ 0 source watches,
      (State.only_raise _ _ fun _ h => h).2 ((State.dropLink_only p.val).mono (by decide))⟩
    · rw [kept]
      exact State.dropLink_same s p
    · rw [kept]
      exact State.dropLink_other s apart
  · intro a granted
    have placed : Only [.order, .regs] s (s.placeWords [(a, cfg)]).commit :=
      (State.only_commit (by decide)).2 ((State.placeWords_only _).mono (by decide))
    have links : (s.placeWords [(a, cfg)]).commit.lnk = s.lnk := placed.part .lnk (by decide)
    refine ⟨_, State.linkRestart_granted granted, State.dropLink_same _ p, ?_, State.placeWords_reg_same (State.portCfg_masks p).2.2,
      fun b hb => State.placeWords_reg_other b (List.ne_of_not_mem_cons hb),
      (placed.mono (by decide)).trans ((State.dropLink_only p.val).mono (by decide))⟩
    rw [← links]
    exact State.dropLink_other _ apart

end Sys2Proof.Machine
end

/-! ## Frames of port I, and addresses that age out -/

section
namespace Sys2Proof.Machine

/-! ### Big-endian numbers and addresses -/

theorem reverse_beN (n x : Nat) : (beN n x).reverse = bytesLE n x := by
  induction n generalizing x with
  | zero => rfl
  | succ n ih => rw [beN, List.reverse_append, ih, bytesLE]; rfl

theorem beBytes_beN (n x : Nat) : beBytes (beN n x) = x % 256 ^ n := by rw [beBytes, reverse_beN, leBytes_bytesLE]

theorem beN_length (n x : Nat) : (beN n x).length = n := by rw [← List.length_reverse, reverse_beN, bytesLE_length]

theorem readFrame_dst (b : List Byte) : (readFrame b).dst = BitVec.ofNat 48 (beAt b 0 6) := by
  unfold readFrame
  dsimp only
  split <;> rfl

/-- The destination of a frame that is built reads back (R178, R185). -/
theorem readFrame_buildFrame_dst (dst src : BitVec 48) (tag : Option (BitVec 12 × BitVec 3)) (etype : Nat) (payload : List Byte) :
    (readFrame (buildFrame dst src tag etype payload)).dst = dst := by
  obtain ⟨rest, first⟩ : ∃ rest, buildFrame dst src tag etype payload = macBytes dst ++ rest := by
    simp only [buildFrame, List.append_assoc]
    exact ⟨_, rfl⟩
  have octets : beAt (macBytes dst ++ rest) 0 6 = dst.toNat := by
    rw [beAt, List.drop_zero, macBytes, List.take_left' (beN_length 6 _), beBytes_beN]
    exact Nat.mod_eq_of_lt dst.isLt
  rw [readFrame_dst, first, octets, BitVec.ofNat_toNat, BitVec.setWidth_eq]

namespace State

variable {s : State}

/-! ### What leaves port I -/

/-- A frame of port I leaves every enabled port that its destination calls for (R180). -/
theorem sendFrameI_sent {b : List Byte} {d : BitVec 48} (dst : (readFrame b).dst = d) {q : Nat} (hq : q ∈ s.egress 2 d)
    (on : s.portOn q = true) : Emit.frame q b ∈ (s.sendFrameI b).out := mem_transmits_out (by rw [dst]; exact hq) on

/-- A datagram of port I leaves in a frame to the address of its route (R186). -/
theorem sendIp_sent (r : Route) (proto : Nat) (dst : BitVec 32) (body : List Byte) {q : Nat} (hq : q ∈ s.egress 2 r.mac)
    (on : s.portOn q = true) :
    Emit.frame q (buildFrame r.mac s.stationMac r.tag 0x0800 (s.ipHeader proto body.length dst ++ body)) ∈
      (s.sendIp r proto dst body).out :=
  sendFrameI_sent (s := s.modLnk fun l => { l with ipId := l.ipId + 1 }) (readFrame_buildFrame_dst _ _ _ _ _) hq on

theorem sendIp_ipId (r : Route) (proto : Nat) (dst : BitVec 32) (body : List Byte) :
    (s.sendIp r proto dst body).lnk.ipId = s.lnk.ipId + 1 :=
  congrArg Link.ipId ((sendFrameI_only _).part .lnk (by decide) : _ = (s.modLnk fun l => { l with ipId := l.ipId + 1 }).lnk)

/-! ### Requests that the station answers -/

/-- The answer to an ARP request for the station address (R186). -/
def arpReply (s : State) (f : Frame) : List Byte :=
  buildFrame f.src s.stationMac f.tag 0x0806
    ([0, 1, 8, 0, 6, 4, 0, 2] ++ macBytes s.stationMac ++ beN 4 s.stationIp.toNat ++ (f.payload.drop 8).take 10)

theorem arpArrives_request {p : Fin 2} {b : List Byte} (runs : s.linkRuns p = true) (takes : s.takesFrame (readFrame b) = true)
    (vlan : s.vlanOk (readFrame b) = true) (ip : s.stationIp ≠ 0) (etype : (readFrame b).etype = 0x0806)
    (asked : s.arpOk (readFrame b).payload = true) : s.arpArrives p b = s.sendFrameI (s.arpReply (readFrame b)) := by
  unfold arpArrives
  dsimp only
  rw [runs, takes, vlan, decide_eq_true etype]
  simp only [Bool.and_self, if_true]
  rw [arpIn, if_neg ip, if_pos asked, arpReply]

/-- The answer to an ICMP echo request (R186). -/
def echoReply (m : List Byte) : List Byte := [0, 0] ++ beN 2 (checksum ([0, 0, 0, 0] ++ m.drop 4)) ++ m.drop 4

theorem echoReply_length {m : List Byte} (long : 8 ≤ m.length) : (echoReply m).length = m.length := by
  simp only [echoReply, List.length_append, beN_length, List.length_drop, List.length_cons, List.length_nil]
  omega

theorem echoArrives_request {p : Fin 2} {b m : List Byte} {src : BitVec 32} (runs : s.linkRuns p = true)
    (takes : s.takesFrame (readFrame b) = true) (vlan : s.vlanOk (readFrame b) = true) (ip : s.stationIp ≠ 0)
    (etype : (readFrame b).etype = 0x0800) (packet : parseIp (readFrame b).payload = some (src, s.stationIp, 1, m))
    (long : 8 ≤ m.length) (type : u8 m 0 = 8) (code : u8 m 1 = 0) (sum : fold16 (wordSum m) = 0xFFFF) :
    s.echoArrives p b = s.sendIp (replyRoute p (readFrame b)) 1 src (echoReply m) := by
  unfold echoArrives
  dsimp only
  rw [packet, runs, takes, vlan, decide_eq_true etype]
  refine (if_pos (decide_eq_true ⟨ip, rfl⟩)).trans ?_
  rw [icmpIn, if_pos ⟨long, type, code, sum⟩, echoReply]

/-! ### Ageing -/

/-- The table without an address holds no entry of it, and the other entries as they were (R180). -/
theorem ageOut_learned {e : SwEntry} (oldest : oldestEntry s.lnk.table = some e) :
    s.ageOut.learned e.mac = none ∧ (∀ m, m ≠ e.mac → s.ageOut.learned m = s.learned m) ∧ Only [.lnk] s s.ageOut := by
  have eq : s.ageOut = s.modLnk fun l => { l with table := l.table.filter fun q => !decide (q.mac = e.mac) } := by
    rw [ageOut, oldest]
  refine ⟨?_, fun m other => ?_, ?_⟩
  · rw [eq, learned, modLnk_lnk, List.find?_eq_none.2 fun q hq => by simpa using (List.mem_filter.1 hq).2]
    rfl
  · rw [eq, learned, modLnk_lnk, learned, List.find?_filter]
    congr 3
    funext q
    by_cases same : q.mac = m
    · simp [same, other]
    · simp [same]
  · rw [eq]
    exact modLnk_only _

end State

/-- Settles O27: either answer is a frame of port I to the sender, and ageing takes one address from the table. -/
theorem stationAnswersAndForgets : Obligations.StationAnswersAndForgets := by
  intro s
  refine ⟨fun p b => ?_, fun d e ticks due oldest => ?_⟩
  · intro f runs takes vlan ip
    refine ⟨fun etype asked => ?_, fun src m etype packet long type code sum => ?_⟩
    · exact ⟨_, congrArg s.finish (State.arpArrives_request runs takes vlan ip etype asked), State.sendFrameI_only _,
        fun q hq on => State.sendFrameI_sent (readFrame_buildFrame_dst _ _ _ _ _) hq on⟩
    · refine ⟨_, congrArg s.finish (State.echoArrives_request runs takes vlan ip etype packet long type code sum),
        State.sendIp_ipId _ _ _ _, State.sendIp_only _ _ _ _, fun q hq on => ?_⟩
      have sent := State.sendIp_sent (State.replyRoute p f) 1 src (State.echoReply m) hq on
      rw [State.echoReply_length long] at sent
      exact sent
  · have run : exec .addressAgeing s = s.finish (s.advanceTo d).ageOut := by
      rw [exec, execAddressAgeing, due, State.timed_some ticks]
    exact ⟨_, run, State.ageOut_learned oldest⟩

end Sys2Proof.Machine
end

/-! ## Sessions that open and close -/

section
namespace Sys2Proof.Machine
namespace State

variable {s u : State}

/-! ### A change of the owner -/

/-- `OWNER` of `SES_OWNER`: the session's number, 15 for none (R240). -/
def ownerField : Option Sess → Nat
  | some i => i.val
  | none => 15

/-- What the change of the owner sets before it is reported (R215, R235). -/
def ownerNoted (s : State) (new : Option Sess) (prio : Nat) : State :=
  let s := (s.setFld Reg.SES_OWNER 3 0 (ownerField new)).setFld Reg.SES_OWNER 10 8 (if new.isSome then prio else 0)
  ((s.bumpFld Reg.SES_OWNER 31 16).setFlag Reg.SES_EVT 0).fillGuards.commit

theorem changeOwner_eq (s : State) (new : Option Sess) (prio : Nat) : s.changeOwner new prio =
    if new.isSome then ((s.ownerNoted new prio).stateItem 3 none (ownerCode s.owner) (ownerCode new)).leaveStandalone
    else (s.ownerNoted new prio).stateItem 3 none (ownerCode s.owner) (ownerCode new) := rfl

theorem ownerNoted_only (new : Option Sess) (prio : Nat) : Only [.order, .regs, .guards] u (u.ownerNoted new prio) := by
  unfold ownerNoted
  simp (disch := decide) [Only.step fillGuards_only]

theorem bumpFld_fld_other (s : State) (a : Nat) {hi lo hi' lo' : Nat} (h' : hi' < 32) (apart : hi' < lo ∨ hi < lo') :
    (s.bumpFld a hi lo).fld a hi' lo' = s.fld a hi' lo' := by
  unfold bumpFld
  split
  · rfl
  · exact setFld_fld_other s a _ h' apart

theorem ownerNoted_fld (s : State) (new : Option Sess) (prio : Nat) :
    (s.ownerNoted new prio).fld Reg.SES_OWNER 3 0 = ownerField new := by
  have small : ownerField new < 2 ^ (3 + 1 - 0) := by
    cases new with
    | none => decide
    | some i => exact Nat.lt_trans i.isLt (by decide)
  have guards (v : State) : v.fillGuards.commit.fld Reg.SES_OWNER 3 0 = v.fld Reg.SES_OWNER 3 0 := by
    have filled : Only [.order, .guards] v v.fillGuards.commit := (only_commit (by decide)).2 (fillGuards_only.mono (by decide))
    exact fld_of_regsIn (filled.regsIn (by decide)) _ _ _ List.not_mem_nil
  have event (v : State) : (v.setFlag Reg.SES_EVT 0).fld Reg.SES_OWNER 3 0 = v.fld Reg.SES_OWNER 3 0 := by
    rw [fld, setFlag_reg_other _ _ _ _ (by decide), fld]
  rw [ownerNoted, guards, event, bumpFld_fld_other _ _ (by decide) (by decide), setFld_fld_other _ _ _ (by decide) (by decide),
    setFld_fld_same _ _ (by decide) small]

theorem owner_of_fld {new : Option Sess} (h : s.fld Reg.SES_OWNER 3 0 = ownerField new) : s.owner = new := by
  unfold owner
  rw [h]
  cases new with
  | none => rfl
  | some i => exact dif_pos i.isLt

theorem owner_congr {t : State} (h : t.reg Reg.SES_OWNER = s.reg Reg.SES_OWNER) : t.owner = s.owner := by
  unfold owner fld
  rw [h]

theorem SettingsKept.owner {t : State} (h : SettingsKept s t) : t.owner = s.owner := owner_congr (h _ (by decide))

theorem stateItem_owner (s : State) (k : Nat) (o : Option Lane) (a b : Nat) : (s.stateItem k o a b).owner = s.owner :=
  owner_congr (stateItem_in k o a b _ (by decide))

theorem leaveStandalone_owner (s : State) : s.leaveStandalone.owner = s.owner := by
  unfold leaveStandalone
  split
  · rw [stateItem_owner]
    exact owner_congr (setFld_reg_other _ _ _ _ _ _ (by decide))
  · rfl

/-- The owner after a change is the new one (R215). -/
theorem changeOwner_owner (s : State) (new : Option Sess) (prio : Nat) : (s.changeOwner new prio).owner = new := by
  have noted := owner_of_fld (ownerNoted_fld s new prio)
  rw [changeOwner_eq]
  split
  · rw [leaveStandalone_owner, stateItem_owner, noted]
  · rw [stateItem_owner, noted]

/-- What the steps of a message keep, and changes of registers do, the change of the owner does. -/
theorem changeOwner_rel {R : State → State → Prop} (h : ReportSteps R) (regs : ∀ {s t : State}, Only [.order, .regs, .guards] s t → R s t)
    (s : State) (new : Option Sess) (prio : Nat) : R s (s.changeOwner new prio) := by
  have told (v : State) (k a b : Nat) : R v (v.stateItem k none a b) := h.stateItem v k none a b
  have left (v : State) : R v v.leaveStandalone := by
    unfold leaveStandalone
    split
    · exact h.trans (regs ((setFld_only _ _ _ _).mono (by decide))) (told _ _ _ _)
    · exact h.refl v
  have noted := h.trans (regs (ownerNoted_only new prio)) (told (s.ownerNoted new prio) 3 (ownerCode s.owner) (ownerCode new))
  rw [changeOwner_eq]
  split
  · exact h.trans noted (left _)
  · exact noted

theorem changeOwner_only (new : Option Sess) (prio : Nat) : Only messageParts u (u.changeOwner new prio) :=
  changeOwner_rel (.only fun _ h => h) (fun h => h.mono (by decide)) u new prio

theorem changeOwner_link (s : State) (new : Option Sess) (prio : Nat) : LinkKept s (s.changeOwner new prio) :=
  changeOwner_rel reportSteps_link (fun h => .of_only h (by decide) (by decide)) s new prio

/-! ### What is sent -/

theorem transmits_link (full : Bool) (b : List Byte) (l : List Nat) (u : State) :
    LinkKept u (l.foldl (fun s q => s.transmit q full b) u) := by
  have lnk : (l.foldl (fun s q => s.transmit q full b) u).lnk = u.lnk := (transmits_only full b l).part .lnk (by decide)
  refine ⟨by rw [lnk], fun i => by rw [sess, lnk, sess], fun e he => ?_⟩
  rw [transmits_out]
  exact List.mem_append_right _ he

theorem sendTo_link (s : State) (p : Peer) (r : Route) (m : List Byte) : LinkKept s (s.sendTo p r m) := by
  have numbered : LinkKept s (s.modLnk fun l => { l with ipId := l.ipId + 1 }) := ⟨rfl, fun _ => rfl, fun _ h => h⟩
  cases p with
  | lp => exact .of_only (modSes_only _) (by decide) (by decide)
  | ether => exact transmits_link _ _ _ s
  | udp => exact numbered.trans (transmits_link _ _ _ _)

theorem sendTo_settings (s : State) (p : Peer) (r : Route) (m : List Byte) : SettingsKept s (s.sendTo p r m) := by
  cases p with
  | lp => exact .of_only (modSes_only _) (by decide)
  | ether => exact transmits_settings _ _ _ s
  | udp => exact .trans (.of_only (modLnk_only _) (by decide)) (transmits_settings _ _ _ _)

theorem sendSess_link (s : State) (i : Sess) (a b c : Nat) (m : List Byte) : LinkKept s (s.sendSess i a b c m) := by
  unfold sendSess
  dsimp only
  split
  · exact sendTo_link _ _ _ _
  · exact (sendTo_link _ _ _ _).trans (.setSess rfl)

theorem sendSess_settings (s : State) (i : Sess) (a b c : Nat) (m : List Byte) : SettingsKept s (s.sendSess i a b c m) := by
  unfold sendSess
  dsimp only
  split
  · exact sendTo_settings _ _ _ _
  · exact (sendTo_settings _ _ _ _).trans (.of_only (modSess_only _ _) (by decide))

theorem noteSent_sent (s : State) (i : Sess) (r : Resp) : Emit.resp i r ∈ (s.noteSent i r).out := List.mem_cons_self

/-! ### The end of a session -/

theorem freeSlotOf_free (s : State) (i : Sess) : ((s.freeSlotOf i).sess i).bound = false := by
  have free : (((s.disown i).modSess i fun x => { sess0 with binds := x.binds }).sess i).bound = false := by
    rw [modSess_sess_same]
    rfl
  unfold freeSlotOf
  dsimp only
  split <;> exact free

theorem vacate_only (i : Sess) : Only messageParts u (u.vacate i) := only_ite (changeOwner_only _ _) (Only.refl _ _)

theorem vacate_link (s : State) (i : Sess) : LinkKept s (s.vacate i) := by
  unfold vacate
  split
  · exact changeOwner_link _ _ _
  · exact .refl s

theorem vacate_owner (s : State) (i : Sess) : (s.vacate i).owner = if s.owner = some i then none else s.owner := by
  unfold vacate
  split
  · exact changeOwner_owner _ _ _
  · rfl

/-- A closed session is free, and nobody owns the GL4480 where it was owner (R200, R236). -/
theorem endClosed_spec (s : State) (i : Sess) :
    ((s.endClosed i).sess i).bound = false ∧ (∀ e ∈ s.out, e ∈ (s.endClosed i).out) ∧
      (s.endClosed i).owner = (if s.owner = some i then none else s.owner) ∧ Only (.due :: leaveParts) s (s.endClosed i) := by
  have freed : Only [.owed, .plc, .lnk, .ses] s (s.freeSlotOf i) := freeSlotOf_only i
  have out : (s.freeSlotOf i).out = s.out := freed.part .out (by decide)
  have owner : (s.freeSlotOf i).owner = s.owner := (SettingsKept.of_only freed (by decide)).owner
  have link := vacate_link (s.freeSlotOf i) i
  refine ⟨(link.bound i).trans (freeSlotOf_free s i), fun e he => link.sent e (out.symm ▸ he), ?_,
    (freed.mono (by decide)).trans ((vacate_only i).mono (by decide))⟩
  rw [endClosed, vacate_owner, owner]

/-! ### CLOSE -/

/-- The response to a CLOSE leaves, and its session ends (R200). -/
theorem respond_closes {i : Sess} {r : Resp} (bound : (s.sess i).bound = true) (net : i ≠ 0) (ends : closes r = true) :
    s.respond i r = ((s.noteSent i r).sendSess i 2 1 0 ([r].flatMap respBytes)).endClosed i := by
  have here : s.mustHold i = false := by
    have number : ¬ i.val = 0 := fun e => net (Fin.ext e)
    rw [mustHold, decide_eq_false number, Bool.false_and]
  rw [respond_eq, if_pos bound, answerOne, here, if_neg Bool.false_ne_true, sendResps]
  simp only [List.any_cons, ends, Bool.true_or, if_true]
  rfl

/-- CLOSE of a network session (R200). -/
theorem close_spec {o : OpCtx} (asks : s.Asks o) (net : o.sess ≠ 0) :
    ∃ u : State, exec (.close o) s = .next (s.after u) ∧ (u.sess o.sess).bound = false ∧
      Emit.resp o.sess (respOf 9 (BitVec.ofNat 8 o.tag.toNat) o.seq .ok (s.order + 1) []) ∈ u.out ∧
      u.owner = (if s.owner = some o.sess then none else s.owner) ∧ Only (.due :: leaveParts) s u := by
  have run : exec (.close o) s = s.finish (s.runOp o 9 fun s => s.opClose) := rfl
  have closed : s.opClose = (s.commit, .now .ok (s.order + 1) []) := rfl
  rw [run, runOp_asks asks closed]
  obtain ⟨-, -, bound, -⟩ := asks
  generalize hr : respOf 9 (BitVec.ofNat 8 o.tag.toNat) o.seq .ok (s.order + 1) [] = r
  have ends : closes r = true := by rw [← hr]; rfl
  rw [respond_closes (s := s.commit) bound net ends]
  generalize hv : s.commit.noteSent o.sess r = v
  have noted : Only [.order, .lnk, .out] s v := by
    rw [← hv]
    exact (commit_only.mono (by decide)).trans ((noteSent_only _ _).mono (by decide))
  have told : Emit.resp o.sess r ∈ v.out := hv ▸ noteSent_sent s.commit o.sess r
  have owner : (v.sendSess o.sess 2 1 0 ([r].flatMap respBytes)).owner = s.owner :=
    ((SettingsKept.of_only noted (by decide)).trans (sendSess_settings _ _ _ _ _ _)).owner
  obtain ⟨free, sent, vacant, only⟩ := endClosed_spec (v.sendSess o.sess 2 1 0 ([r].flatMap respBytes)) o.sess
  rw [owner] at vacant
  exact ⟨_, rfl, free, sent _ ((sendSess_link _ _ _ _ _ _).sent _ told), vacant,
    ((noted.mono (by decide)).trans ((sendSess_only _ _ _ _ _).mono (by decide))).trans only⟩

/-! ### OPEN, SUBSCRIBE and DISCOVER -/

/-- An OPEN that finds a free slot binds it, and is answered in its session (R199). -/
theorem opOpen_binds {p : Peer} {r : Route} {seq : BitVec 16} {tag : Byte} {ka : Nat} {i : Sess} (low : 100 ≤ ka) (high : ka ≤ 60000)
    (fresh : s.sessOf p = none) (slot : s.freeSlotFor p = some i) : s.opOpen p r seq tag ka =
      (s.bindSession i p r seq ka).respond i ⟨8, tag, .ok, seq, s.order + 1, (s.bindSession i p r seq ka).openData i⟩ := by
  rw [opOpen, if_neg (by omega), fresh]
  dsimp only
  rw [slot]
  rfl

theorem bindSession_sess_same (s : State) (i : Sess) (p : Peer) (r : Route) (seq : BitVec 16) (ka : Nat) :
    (s.bindSession i p r seq ka).sess i =
      { sess0 with bound := true, peer := p, route := r, kaMs := ka, binds := (s.sess i).binds + 1, nextSeq := seq + 1, evtSeq := 1,
                   refreshed := s.tick, sentAt := s.tick, evtSentAt := s.tick } := setSess_sess_same s i _

theorem bindSession_only (i : Sess) (p : Peer) (r : Route) (seq : BitVec 16) (ka : Nat) :
    Only [.order, .lnk] u (u.bindSession i p r seq ka) := (only_commit (by decide)).2 ((setSess_only i _).mono (by decide))

theorem opSubscribe_replaces {i : Sess} {c lo hi : Word} (classes : c &&& 0xFFFFFFFC = 0) (sources : hi &&& 0xFFFFFFF0 = 0) :
    s.opSubscribe i c lo hi =
      ((s.modSess i fun x => { x with classes := c, srcLo := lo, srcHi := hi }).commit, .now .ok (s.order + 1) []) :=
  if_neg fun h => h.elim (· classes) (· sources)

/-- A message of no session to an Ethernet peer leaves at once (R198). -/
theorem sendFree_ether (m : BitVec 48) (r : Route) (x : Resp) : s.sendFree (.ether m) r [x] =
    s.sendFrameI (buildFrame r.mac s.stationMac r.tag (s.fld Reg.LNK_ETYPE 15 0) (message 2 0xFF 1 0 0 0 (respBytes x))) := by
  have body : [x].flatMap respBytes = respBytes x := List.append_nil _
  rw [sendFree, body, sendRaw, if_neg (by simp)]
  rfl

end State

/-- Settles O36: OPEN binds its slot, SUBSCRIBE sets one session's choice, DISCOVER sends one frame, and CLOSE ends its session. -/
theorem sessionsOpenAndClose : Obligations.SessionsOpenAndClose := by
  intro s
  refine ⟨fun p r seq tag ka i admits booted low high fresh slot => ?_, fun o c lo hi asks classes sources => ?_,
    fun m r seq tag admits booted => ?_, fun o asks net => ?_⟩
  · have run : exec (.open_ p r seq tag ka) s = s.finish (s.opOpen p r seq (BitVec.ofNat 8 tag.toNat) ka) := by
      rw [exec, execOpen, admits, booted]
      rfl
    have bound := s.bindSession_sess_same i p r seq ka
    refine ⟨s.bindSession i p r seq ka, run.trans (congrArg s.finish (State.opOpen_binds low high fresh slot)), ?_, ?_, ?_, ?_, ?_, ?_,
      rfl, fun j other => State.setSess_sess_other s i j _ other.symm, State.bindSession_only _ _ _ _ _⟩
    case refine_6 => rw [State.sessionId, bound]
    case refine_5 => exact congrArg Session.classes bound
    all_goals rw [bound]
  · refine ⟨_, congrArg s.finish (State.runOp_asks asks (State.opSubscribe_replaces classes sources)), ?_, ?_, ?_, fun j other => ?_,
      (State.only_commit (by decide)).2 ((State.modSess_only _ _).mono (by decide))⟩
    case refine_4 => rw [State.commit_sess, State.modSess_sess_other _ _ _ _ other.symm]
    all_goals rw [State.commit_sess, State.modSess_sess_same]
  · have run : exec (.discover (.ether m) r seq tag) s =
        s.finish (s.sendFree (.ether m) r [State.respOf 0x11 (BitVec.ofNat 8 tag.toNat) seq .ok s.order s.identity]) := by
      rw [exec, execDiscover, admits, booted]
      rfl
    rw [State.sendFree_ether] at run
    exact ⟨_, run, State.sendFrameI_only _, fun q hq on => State.sendFrameI_sent (readFrame_buildFrame_dst _ _ _ _ _) hq on⟩
  · obtain ⟨u, run, free, told, owner, only⟩ := State.close_spec asks net
    exact ⟨u, run, free, told, fun own => by rw [owner, if_pos own], fun own => by rw [owner, if_neg own], only⟩

end Sys2Proof.Machine
end

/-! ## GRANT and RESIGN -/

section
namespace Sys2Proof.Machine

theorem bits_lt (w : Word) (hi lo : Nat) : bits w hi lo < 2 ^ (hi + 1 - lo) := Nat.mod_lt _ (Nat.two_pow_pos _)

/-- A slot of the session table is found by its number. -/
theorem find_sess_val (k : Sess) : (allSess.find? fun j => decide (j.val = k.val)) = some k := by revert k; decide

/-- No slot has a number beyond 8. -/
theorem find_sess_beyond {n : Nat} (h : 8 < n) : (allSess.find? fun j => decide (j.val = n)) = none :=
  List.find?_eq_none.2 fun j _ => by simp only [decide_eq_true_eq]; omega

namespace State

variable {s : State}

/-! ### The registers of a change of the owner -/

theorem ownerNoted_reg (s : State) (new : Option Sess) (prio : Nat) {a : Nat} (event : Reg.SES_EVT ≠ a) :
    (s.ownerNoted new prio).reg a = (((s.setFld Reg.SES_OWNER 3 0 (ownerField new)).setFld Reg.SES_OWNER 10 8
      (if new.isSome then prio else 0)).bumpFld Reg.SES_OWNER 31 16).reg a := by
  have guards (v : State) : v.fillGuards.commit.reg a = v.reg a := by
    have filled : Only [.order, .guards] v v.fillGuards.commit := (only_commit (by decide)).2 (fillGuards_only.mono (by decide))
    exact filled.regsIn (by decide) a List.not_mem_nil
  rw [ownerNoted, guards, setFlag_reg_other _ _ _ _ event]

/-- What follows the change itself, its STATE items and the end of standalone running, changes `DEV_STATUS` and block FLT. -/
theorem changeOwner_reg (s : State) (new : Option Sess) (prio : Nat) {a : Nat} (block : a / 0x1000 ≠ 4) (status : Reg.DEV_STATUS ≠ a) :
    (s.changeOwner new prio).reg a = (s.ownerNoted new prio).reg a := by
  have told (v : State) (k x y : Nat) : (v.stateItem k none x y).reg a = v.reg a := stateItem_in k none x y a (by simpa using block)
  have left (v : State) : v.leaveStandalone.reg a = v.reg a := by
    unfold leaveStandalone
    split
    · rw [told, setFld_reg_other _ _ _ _ _ _ status]
    · rfl
  rw [changeOwner_eq]
  split
  · rw [left, told]
  · rw [told]

/-- A change of the owner changes the owner's register, its event, `DEV_STATUS` and block FLT (R215, R232). -/
theorem changeOwner_reg_other (s : State) (new : Option Sess) (prio : Nat) {a : Nat} (block : a / 0x1000 ≠ 4)
    (apart : a ∉ [Reg.SES_OWNER, Reg.SES_EVT, Reg.DEV_STATUS]) : (s.changeOwner new prio).reg a = s.reg a := by
  simp only [List.mem_cons, List.not_mem_nil, or_false, not_or] at apart
  obtain ⟨owner, event, status⟩ := apart
  rw [changeOwner_reg _ _ _ block (Ne.symm status), ownerNoted_reg _ _ _ (Ne.symm event), bumpFld_reg_other _ _ _ _ _ (Ne.symm owner),
    setFld_reg_other _ _ _ _ _ _ (Ne.symm owner), setFld_reg_other _ _ _ _ _ _ (Ne.symm owner)]

/-- `OWNER_PRIO` after ownership has gone to a session (R215, R233). -/
theorem changeOwner_prio (s : State) (k : Sess) {prio : Nat} (small : prio < 8) :
    (s.changeOwner (some k) prio).fld Reg.SES_OWNER 10 8 = prio := by
  rw [fld, changeOwner_reg _ _ _ (by decide) (by decide), ownerNoted_reg _ _ _ (by decide)]
  exact (bumpFld_fld_other _ _ (by decide) (by decide)).trans (setFld_fld_same _ _ (by decide) small)

/-! ### GRANT and RESIGN -/

/-- Only the owner may GRANT or RESIGN (R233). -/
theorem opGrant_observer {i : Sess} (other : s.isOwner i = false) (dst : Nat) : s.opGrant i dst = (s, refusal .notOwner) := by
  rw [opGrant, other]
  rfl

theorem opResign_observer {i : Sess} (other : s.isOwner i = false) : s.opResign i = (s, refusal .notOwner) := by
  rw [opResign, other]
  rfl

theorem opResign_owner {i : Sess} (own : s.isOwner i = true) : s.opResign i = (s.changeOwner none 0, .now .ok (s.order + 1) []) :=
  if_pos own

/-- What the owner's GRANT does is a matter of the slot that it names (R233). -/
theorem opGrant_owner {i : Sess} (own : s.isOwner i = true) (k : Sess) : s.opGrant i k.val =
    if (s.sess k).bound = false then (s, refusal .badValue)
    else if k = i then (s, .now .ok 0 [])
    else (s.changeOwner (some k) (s.fld Reg.SES_OWNER 10 8), .now .ok (s.order + 1) []) := by
  rw [opGrant, own, find_sess_val]
  simp

theorem opGrant_beyond {i : Sess} (own : s.isOwner i = true) {dst : Nat} (beyond : 8 < dst) :
    s.opGrant i dst = (s, refusal .badValue) := by
  rw [opGrant, own, find_sess_beyond beyond]
  rfl

end State

/-- Settles O39: each answer is the operation's own, by the owner and the slot named; a change of the owner keeps the priority. -/
theorem grantAndResign : Obligations.GrantAndResign := by
  intro s o asks
  have grants (dst : Nat) {t : State} {c : Code} {k : Nat} (op : s.opGrant o.sess dst = (t, .now c k [])) :
      exec (.grant o dst) s = .next (s.after (t.respond o.sess (State.respOf 0x0C (BitVec.ofNat 8 o.tag.toNat) o.seq c k []))) :=
    congrArg s.finish (State.runOp_asks (f := fun s => s.opGrant o.sess dst) asks op)
  have resigns {t : State} {c : Code} {k : Nat} (op : s.opResign o.sess = (t, .now c k [])) :
      exec (.resign o) s = .next (s.after (t.respond o.sess (State.respOf 0x0D (BitVec.ofNat 8 o.tag.toNat) o.seq c k []))) :=
    congrArg s.finish (State.runOp_asks (f := fun s => s.opResign o.sess) asks op)
  refine ⟨fun own => ⟨fun k bound other => ?_, ?_, fun dst wrong => ?_, ?_⟩, fun other => ⟨fun dst => ?_, ?_⟩⟩
  · have op := State.opGrant_owner own k
    rw [bound, if_neg (by decide), if_neg other] at op
    exact ⟨_, grants _ op, State.changeOwner_owner s _ _, State.changeOwner_prio s k (bits_lt _ _ _), State.changeOwner_only _ _⟩
  · obtain ⟨-, -, bound, -⟩ := id asks
    have op := State.opGrant_owner own o.sess
    rw [bound, if_neg (by decide), if_pos rfl] at op
    exact grants _ op
  · obtain beyond | ⟨k, rfl, free⟩ := wrong
    · exact grants _ (State.opGrant_beyond own beyond)
    · exact grants _ ((State.opGrant_owner own k).trans (if_pos free))
  · exact ⟨_, resigns (State.opResign_owner own), State.changeOwner_owner s _ _, State.changeOwner_only _ _⟩
  · exact grants _ (State.opGrant_observer other dst)
  · exact resigns (State.opResign_observer other)

end Sys2Proof.Machine
end

/-! ## Nonces and claims -/

section
namespace Sys2Proof.Machine
namespace State

variable {s t u : State}

/-! ### What leaves the sessions' nonces -/

/-- Every session holds the nonce that it held. -/
def NoncesKept (s t : State) : Prop := ∀ i, (t.sess i).nonce = (s.sess i).nonce

theorem NoncesKept.trans (h : NoncesKept s t) (k : NoncesKept t u) : NoncesKept s u := fun i => (k i).trans (h i)

theorem NoncesKept.of_only {l : List Part} (h : Only l s t) (hl : .lnk ∉ l) : NoncesKept s t := fun i => by
  have lnk : t.lnk = s.lnk := h.part .lnk hl
  rw [sess, lnk, sess]

theorem NoncesKept.setSess {i : Sess} {x : Session} (hx : x.nonce = (s.sess i).nonce) : NoncesKept s (s.setSess i x) := fun j => by
  rw [setSess_sess]
  split
  case isTrue same => rw [hx, same]
  case isFalse => rfl

theorem queueItems_nonces (want : Session → Sess → Bool) (e : EventItem) : ∀ (l : List Sess) (s : State),
    NoncesKept s (queueItems want e l s).1
  | [], _ => fun _ => rfl
  | i :: l, s => by
    have queued : NoncesKept s (s.queueItem i e).1 := by
      unfold queueItem
      dsimp only
      split <;> exact .setSess rfl
    unfold queueItems
    split
    · exact queued.trans (queueItems_nonces want e l _)
    · exact queueItems_nonces want e l s

/-- A message takes no session's nonce (R226). -/
theorem reportSteps_nonces : ReportSteps NoncesKept where
  refl _ := fun _ => rfl
  trans := .trans
  commit _ := .of_only commit_only (by decide)
  bin _ m := .of_only (recordBin_only m) (by decide)
  source _ k _ := .of_only (recordSource_only k) (by decide)
  items := queueItems_nonces
  trap _ := .of_only trapPulse_only (by decide)
  pin _ := .of_only errPin_only (by decide)
  resets _ m b := .of_only (selectResets_only m b) (by decide)

/-! ### What a response leaves of the claims -/

/-- What claims depend on stays: the settings with the owner, the election, and the nonces. -/
structure ClaimsKept (s t : State) : Prop where
  settings : SettingsKept s t
  election : t.ses.electEnd = s.ses.electEnd
  nonces : NoncesKept s t

namespace ClaimsKept

theorem refl (s : State) : ClaimsKept s s := ⟨fun _ _ => rfl, rfl, fun _ => rfl⟩

theorem trans (h : ClaimsKept s t) (k : ClaimsKept t u) : ClaimsKept s u :=
  ⟨h.settings.trans k.settings, k.election.trans h.election, h.nonces.trans k.nonces⟩

/-- A frame of the sessions alone that keeps their nonces. -/
theorem of_nonces {l : List Part} (h : Only l s t) (hr : .regs ∉ l) (hs : .ses ∉ l) (nonces : NoncesKept s t) : ClaimsKept s t :=
  ⟨.of_only h hr, congrArg Ses.electEnd (h.part .ses hs : t.ses = s.ses), nonces⟩

theorem modSess (i : Sess) {f : Session → Session} (hf : (f (s.sess i)).nonce = (s.sess i).nonce) : ClaimsKept s (s.modSess i f) :=
  of_nonces (modSess_only i f) (by decide) (by decide) (.setSess hf)

theorem modSes {f : Ses → Ses} (hf : (f s.ses).electEnd = s.ses.electEnd) : ClaimsKept s (s.modSes f) :=
  ⟨.of_only (modSes_only f) (by decide), hf, fun _ => rfl⟩

theorem owe (s : State) (i : Sess) (q : BitVec 16) (x : BitVec 6) : ClaimsKept s (s.owe i q x) := by
  unfold State.owe
  split
  · exact refl s
  · exact modSess i rfl

theorem noteSent (s : State) (i : Sess) (r : Resp) : ClaimsKept s (s.noteSent i r) := by
  refine .trans ?_ (of_nonces (emit_only _) (by decide) (by decide) fun _ => rfl)
  exact modSess i rfl

theorem sendTo (s : State) (p : Peer) (r : Route) (m : List Byte) : ClaimsKept s (s.sendTo p r m) := by
  have frames (v : State) (b : List Byte) : ClaimsKept v (v.sendFrameI b) :=
    ⟨transmits_settings _ _ _ v, congrArg Ses.electEnd ((sendFrameI_only b).part .ses (by decide) : _ = v.ses),
      .of_only (sendFrameI_only b) (by decide)⟩
  cases p with
  | lp => exact modSes (f := fun x => { x with lpOut := x.lpOut ++ [m] }) rfl
  | ether => exact frames s _
  | udp => exact (of_nonces (modLnk_only _) (by decide) (by decide) fun _ => rfl).trans (frames _ _)

theorem sendSess (s : State) (i : Sess) (a b c : Nat) (m : List Byte) : ClaimsKept s (s.sendSess i a b c m) := by
  unfold State.sendSess
  dsimp only
  split
  · exact sendTo _ _ _ _
  · exact (sendTo _ _ _ _).trans (modSess i rfl)

/-- A response that does not end its session. -/
theorem respond (s : State) (i : Sess) (r : Resp) (h : closes r = false) : ClaimsKept s (s.respond i r) := by
  have owed : ClaimsKept s (if r.code = .tagInUse then s else s.owe i r.reqSeq (BitVec.ofNat 6 r.tag.toNat)) := by
    split
    · exact refl s
    · exact owe _ _ _ _
  have sends : s.sendResps i [r] = (s.noteSent i r).sendSess i 2 1 0 ([r].flatMap respBytes) := by
    unfold sendResps
    simp [h]
  rw [respond_eq]
  split
  · unfold answerOne
    split
    · exact owed.trans (modSes rfl)
    · rw [sends]
      exact (noteSent _ _ _).trans (sendSess _ _ _ _ _ _)
  · exact refl s

end ClaimsKept

/-! ### NONCE -/

/-- A draw gives the session the next nonce: one commit (R226). -/
def nonceDrawn (s : State) (i : Sess) (b : List Byte) : State :=
  (((s.modSes fun x => { x with entropyBad := false }).setReg Reg.SES_NONCE_ID (s.reg Reg.SES_NONCE_ID + 1)).modSess i
    fun x => { x with nonce := some (s.reg Reg.SES_NONCE_ID + 1, b) }).commit

theorem opNonce_draws (s : State) (i : Sess) (b : List Byte) : s.opNonce i (some b) =
    (s.nonceDrawn i b, .now .ok (s.order + 1) (bytesLE 4 (s.reg Reg.SES_NONCE_ID + 1).toNat ++ b)) := rfl

theorem nonceDrawn_nonce (s : State) (i : Sess) (b : List Byte) :
    ((s.nonceDrawn i b).sess i).nonce = some (s.reg Reg.SES_NONCE_ID + 1, b) := by
  rw [nonceDrawn, commit_sess, modSess_sess_same]

theorem nonceDrawn_sess_other (s : State) {i j : Sess} (b : List Byte) (other : j ≠ i) : (s.nonceDrawn i b).sess j = s.sess j := by
  rw [nonceDrawn, commit_sess, modSess_sess_other _ _ _ _ other.symm]
  rfl

theorem nonceDrawn_id (s : State) (i : Sess) (b : List Byte) :
    (s.nonceDrawn i b).reg Reg.SES_NONCE_ID = s.reg Reg.SES_NONCE_ID + 1 := setReg_reg_same _ _ _

theorem nonceDrawn_only (s : State) (i : Sess) (b : List Byte) : Only [.order, .regs, .lnk, .ses] s (s.nonceDrawn i b) := by
  unfold nonceDrawn
  simp (disch := decide)

/-- A failed health test is kept, and reported once; it draws no nonce (R226). -/
theorem entropyFails_spec (s : State) : s.entropyFails.ses.entropyBad = true ∧
    s.entropyFails.reg Reg.SES_NONCE_ID = s.reg Reg.SES_NONCE_ID ∧ Only (.ses :: messageParts) s s.entropyFails := by
  have noted : Only (.ses :: messageParts) s (s.modSes fun x => { x with entropyBad := true }) := (modSes_only _).mono (by decide)
  unfold entropyFails
  dsimp only
  split
  · exact ⟨rfl, rfl, noted⟩
  · have told := (only_raise (u := s.modSes fun x => { x with entropyBad := true }) Kind.entropy 0 fun _ h => h).2 (Only.refl _ _)
    have ses : _ = (s.modSes fun x => { x with entropyBad := true }).ses := told.part .ses (by decide)
    exact ⟨congrArg Ses.entropyBad ses, raiseN_in 12 _ Kind.entropy 0 none (by decide) _ (by decide),
      noted.trans (told.mono (by decide))⟩

/-! ### CLAIM -/

/-- The session's nonce has been used (R226). -/
def nonceUsed (s : State) (i : Sess) : State := s.modSess i fun x => { x with nonce := none }

theorem nonceUsed_nonce (s : State) (i : Sess) : ((s.nonceUsed i).sess i).nonce = none := by rw [nonceUsed, modSess_sess_same]

theorem nonceUsed_only (s : State) (i : Sess) : Only [.lnk] s (s.nonceUsed i) := modSess_only _ _

theorem useNonce_names {i : Sess} {id : Word} {b : List Byte} (nonce : (s.sess i).nonce = some (id, b)) :
    s.useNonce i id = (s.nonceUsed i, some b) := by
  rw [useNonce, nonce]
  exact if_pos rfl

/-- A CLAIM that names the session's nonce and a priority with a key uses up the nonce, and its HMAC decides (R227, R228). -/
theorem opClaim_keyed {o : OpCtx} {prio : Nat} {id : Word} {b mac key : List Byte} (low : prio ≤ 7)
    (nonce : (s.sess o.sess).nonce = some (id, b)) (known : s.claimKey o.sess prio = some key) :
    s.opClaim o prio id mac = if hmacSha256 key (s.claimText o.sess b id prio) = mac then (s.nonceUsed o.sess).validClaim o prio
      else ((s.nonceUsed o.sess).authFail o.sess, refusal .authFail) := by
  rw [opClaim, if_neg (by omega), useNonce_names nonce, known]

/-- The owner's claim sets its priority anew (R229). -/
def claimRenewed (s : State) (prio : Nat) : State := ((s.setFld Reg.SES_OWNER 10 8 prio).commit).claimAccepted

theorem validClaim_owner {o : OpCtx} {prio : Nat} (own : s.owner = some o.sess) :
    s.validClaim o prio = (s.claimRenewed prio, .now .ok (s.order + 1) []) := by
  rw [validClaim, if_pos own]
  rfl

theorem claimRenewed_owner (s : State) (prio : Nat) : (s.claimRenewed prio).owner = s.owner := by
  have field : (s.claimRenewed prio).fld Reg.SES_OWNER 3 0 = s.fld Reg.SES_OWNER 3 0 :=
    setFld_fld_other s Reg.SES_OWNER prio (hi := 10) (lo := 8) (by decide) (by decide)
  unfold owner
  rw [field]

theorem claimRenewed_prio (s : State) {prio : Nat} (low : prio ≤ 7) : (s.claimRenewed prio).fld Reg.SES_OWNER 10 8 = prio :=
  setFld_fld_same s _ (by decide) (by omega)

theorem claimRenewed_only (s : State) (prio : Nat) : Only [.order, .regs, .boot] s (s.claimRenewed prio) := by
  unfold claimRenewed claimAccepted
  simp (disch := decide)

/-- An earlier claim of the session in the open election is answered `CLAIM_LOST` (R229). -/
def claimReplaced (s : State) (i : Sess) : State :=
  match (s.sess i).cand with
  | some (_, q, x) => s.answerClaim i q x .claimLost
  | none => s

theorem claimReplaced_spec (s : State) (i : Sess) : ClaimsKept s (s.claimReplaced i) ∧ Only replyParts s (s.claimReplaced i) ∧
    ((s.sess i).cand = none → s.claimReplaced i = s) := by
  unfold claimReplaced
  cases (s.sess i).cand with
  | none => exact ⟨.refl s, Only.refl _ s, fun _ => rfl⟩
  | some c =>
    refine ⟨?_, ?_, fun h => by cases h⟩
    · dsimp only [answerClaim]
      split
      · exact .refl s
      · exact .respond s i _ rfl
    · exact only_ite (Only.refl _ s) (respond_only i _ rfl)

/-- An election is open: it closes `ELECT_MS` after the valid claim that opened it (R229). -/
def electionRuns (s : State) : State :=
  if s.ses.electEnd.isSome then s else s.modSes fun x => { x with electEnd := some (s.tick + s.fld Reg.SES_CTRL 9 0 * 100000) }

/-- A session is a candidate of the election with its claim (R229). -/
def candidateJoined (s : State) (o : OpCtx) (prio : Nat) : State :=
  ((s.electionRuns.modSess o.sess fun x => { x with cand := some (prio, o.seq, o.tag) }).commit).claimAccepted

theorem joinElection_eq (s : State) (o : OpCtx) (prio : Nat) :
    s.joinElection o prio = ((s.claimReplaced o.sess).candidateJoined o prio, .later) := rfl

/-- A valid claim where nobody owns the GL4480 joins the election, but for session 0 under local precedence (R229, R231). -/
theorem validClaim_joins {o : OpCtx} {prio : Nat} (vacant : s.owner = none) (elects : ¬ (o.sess = 0 ∧ s.localPrec = true)) :
    s.validClaim o prio = ((s.claimReplaced o.sess).candidateJoined o prio, .later) := by
  have plain : ¬ (o.sess.val = 0 ∧ s.localPrec = true) := fun ⟨i, p⟩ => elects ⟨Fin.ext i, p⟩
  rw [validClaim, vacant, if_neg (by simp), if_neg plain, if_neg (by simp), joinElection_eq]

theorem electionRuns_only (s : State) : Only [.ses] s s.electionRuns := only_ite (Only.refl _ s) (modSes_only _)

theorem candidateJoined_only (s : State) (o : OpCtx) (prio : Nat) : Only [.order, .lnk, .ses, .boot] s (s.candidateJoined o prio) := by
  unfold candidateJoined claimAccepted
  simp (disch := decide) [Only.step s.electionRuns_only]

theorem candidateJoined_sess (s : State) (o : OpCtx) (prio : Nat) :
    (s.candidateJoined o prio).sess o.sess = { s.sess o.sess with cand := some (prio, o.seq, o.tag) } := by
  have sessions : s.electionRuns.lnk = s.lnk := s.electionRuns_only.part .lnk (by decide)
  have joined : (s.candidateJoined o prio).sess o.sess = { s.electionRuns.sess o.sess with cand := some (prio, o.seq, o.tag) } :=
    modSess_sess_same s.electionRuns o.sess fun x => { x with cand := some (prio, o.seq, o.tag) }
  rw [joined, sess, sessions, sess]

theorem candidateJoined_opens (s : State) (o : OpCtx) (prio : Nat) (quiet : s.ses.electEnd = none) :
    (s.candidateJoined o prio).ses.electEnd = some (s.tick + s.fld Reg.SES_CTRL 9 0 * 100000) := by
  change s.electionRuns.ses.electEnd = _
  rw [electionRuns, quiet]
  rfl

/-- What a valid claim that opens an election comes to, with its nonce used (R226, R229). -/
def claimElects (s : State) (o : OpCtx) (prio : Nat) : State := ((s.nonceUsed o.sess).claimReplaced o.sess).candidateJoined o prio

theorem claimElects_spec (s : State) (o : OpCtx) (prio : Nat) (quiet : s.ses.electEnd = none) :
    ((s.claimElects o prio).sess o.sess).cand = some (prio, o.seq, o.tag) ∧ ((s.claimElects o prio).sess o.sess).nonce = none ∧
      (s.claimElects o prio).ses.electEnd = some (s.tick + s.fld Reg.SES_CTRL 9 0 * 100000) ∧
      (s.claimElects o prio).owner = s.owner ∧
      ((s.sess o.sess).cand = none → Only [.order, .lnk, .ses, .boot] s (s.claimElects o prio)) := by
  have used := s.nonceUsed_only o.sess
  have spent := s.nonceUsed_nonce o.sess
  obtain ⟨kept, replied, alone⟩ := (s.nonceUsed o.sess).claimReplaced_spec o.sess
  unfold claimElects
  generalize (s.nonceUsed o.sess).claimReplaced o.sess = v at kept replied alone
  have joined := v.candidateJoined_only o prio
  have settings : SettingsKept s v := .trans (.of_only used (by decide)) kept.settings
  have tick : v.tick = s.tick := replied.part .tick (by decide)
  have period : v.fld Reg.SES_CTRL 9 0 = s.fld Reg.SES_CTRL 9 0 := by rw [fld, settings _ (by decide), fld]
  refine ⟨?_, ?_, ?_, (settings.trans (.of_only joined (by decide))).owner, fun first => ?_⟩
  · rw [candidateJoined_sess]
  · rw [candidateJoined_sess]
    exact (kept.nonces o.sess).trans spent
  · rw [candidateJoined_opens _ _ _ (kept.election.trans quiet), tick, period]
  · have same : v = s.nonceUsed o.sess := alone ((congrArg Session.cand (modSess_sess_same _ _ _)).trans first)
    exact (used.mono (by decide)).trans (same ▸ joined)

/-- A claim that fails authentication (R228). -/
theorem authFail_spec (i : Sess) (watches : s.unitInReset 9 = false) :
    (s.authFail i).rbit Reg.FLT_PEND_A 9 = true ∧ (s.authFail i).rbit Reg.SES_EVT 2 = true ∧ (s.authFail i).owner = s.owner ∧
      NoncesKept s (s.authFail i) ∧ Only messageParts s (s.authFail i) := by
  have noted : Only [.regs, .guards] s ((s.bump Reg.SES_CLAIM_FAILS).setFlag Reg.SES_EVT 2) :=
    ((bump_only _).mono (by decide)).trans (setFlag_only _ _)
  have owner : ((s.bump Reg.SES_CLAIM_FAILS).setFlag Reg.SES_EVT 2).reg Reg.SES_OWNER = s.reg Reg.SES_OWNER := by
    rw [setFlag_reg_other _ _ _ _ (by decide), bump_reg_other _ _ _ (by decide)]
  have event : ((s.bump Reg.SES_CLAIM_FAILS).setFlag Reg.SES_EVT 2).rbit Reg.SES_EVT 2 = true := setFlag_rbit_same _ _ (by decide)
  rw [authFail]
  generalize (s.bump Reg.SES_CLAIM_FAILS).setFlag Reg.SES_EVT 2 = v at noted owner event
  have told : RegsIn [4] v (v.raise Kind.claimFail (word i.val)) := raiseN_in 12 v Kind.claimFail _ none (by decide)
  exact ⟨raise_pends Kind.claimFail _ (by decide) ((unitInReset_of_only noted (by decide) 9).trans watches),
    (rbit_of_regsIn told _ _ (by decide)).trans event, owner_congr ((told _ (by decide)).trans owner),
    (NoncesKept.of_only noted (by decide)).trans (reportSteps_nonces.raise v _ _ (by decide)),
    (only_raise _ _ fun _ h => h).2 (noted.mono (by decide))⟩

end State

/-- Settles O37: a draw replaces the session's nonce; a claim takes the nonce, and its HMAC decides between renewal or election and
the message of its failure. -/
theorem claimsAreChecked : Obligations.ClaimsAreChecked := by
  intro s o asks
  refine ⟨fun b => ?_, ?_, fun prio id b mac key low nonce known => ?_⟩
  · exact ⟨_, congrArg s.finish (State.runOp_asks asks (s.opNonce_draws o.sess b)), s.nonceDrawn_nonce o.sess b,
      s.nonceDrawn_id o.sess b, fun j other => s.nonceDrawn_sess_other b other, s.nonceDrawn_only o.sess b⟩
  · have failed : s.opNonce o.sess none = (s.entropyFails, refusal .busy) := rfl
    exact ⟨_, congrArg s.finish (State.runOp_asks asks failed), s.entropyFails_spec⟩
  · have op := State.opClaim_keyed (mac := mac) low nonce known
    have answers {t : State} {c : Code} {k : Nat} (h : s.opClaim o prio id mac = (t, .now c k [])) : exec (.claim o prio id mac) s =
        .next (s.after (t.respond o.sess (State.respOf 0x0B (BitVec.ofNat 8 o.tag.toNat) o.seq c k []))) :=
      congrArg s.finish (State.runOp_asks (f := fun s => s.opClaim o prio id mac) asks h)
    have used := s.nonceUsed_only o.sess
    have spent := s.nonceUsed_nonce o.sess
    have owner : (s.nonceUsed o.sess).owner = s.owner := (State.SettingsKept.of_only used (by decide)).owner
    refine ⟨fun good => ⟨fun vacant quiet elects => ?_, fun own => ?_⟩, fun bad watches => ?_⟩
    · rw [if_pos good, State.validClaim_joins (owner.trans vacant) elects] at op
      obtain ⟨candidate, nonceless, closes, same, only⟩ := s.claimElects_spec o prio quiet
      exact ⟨s.claimElects o prio, congrArg s.finish (State.runOp_later (f := fun s => s.opClaim o prio id mac) asks op), candidate,
        nonceless, closes, rfl, same.trans vacant, only⟩
    · rw [if_pos good, State.validClaim_owner (owner.trans own)] at op
      have renewed := (s.nonceUsed o.sess).claimRenewed_only prio
      have lnk : ((s.nonceUsed o.sess).claimRenewed prio).lnk = (s.nonceUsed o.sess).lnk := renewed.part .lnk (by decide)
      refine ⟨_, answers op,
        (State.claimRenewed_owner _ prio).trans (owner.trans own), State.claimRenewed_prio _ low, ?_,
        (used.mono (by decide)).trans (renewed.mono (by decide))⟩
      rw [State.sess, lnk]
      exact spent
    · rw [if_neg bad] at op
      obtain ⟨pending, event, same, nonces, only⟩ :=
        State.authFail_spec o.sess ((State.unitInReset_of_only used (by decide) 9).trans watches)
      exact ⟨_, answers op, (nonces o.sess).trans spent, pending,
        event, same.trans owner, (used.mono (by decide)).trans only⟩

end Sys2Proof.Machine
end

/-! ## Key installation -/

section
namespace Sys2Proof.Machine

/-- SHA-256 gives 32 bytes (R227). -/
theorem sha256_length (m : List Byte) : (sha256 m).length = 32 := by
  simp only [sha256, List.length_append, beN_length]

theorem hmacSha256_length (key m : List Byte) : (hmacSha256 key m).length = 32 := sha256_length _

/-- A key of 32 bytes, wrapped or unwrapped (R238). -/
theorem xor_hmac_length {b : List Byte} (long : b.length = 32) (key m : List Byte) :
    (List.zipWith (fun a b => a ^^^ b) b (hmacSha256 key m)).length = 32 := by
  rw [List.length_zipWith, long, hmacSha256_length, Nat.min_self]

namespace State

variable {s : State}

/-- A slot of the claim-key region is one block of the Loft, with a key or erased (R224). -/
theorem keyData_length (slot : Byte) {key : List Byte} (long : key.length = 32) : (keyData slot key).length = 64 := by
  unfold keyData
  split
  · exact List.length_replicate
  · simp only [keyBytes, List.length_append, bytesLE_length, List.length_replicate, long]

/-- A staged write whose energy is granted: reserved, and in the internal buffer (R94, R136). -/
def reservedStaged (s : State) (who : StagedFor) (offset : Nat) (data : List Byte) : State :=
  (s.grant (stagedHolder who) (stagedEnergy data.length)).stage who offset data

theorem stageReserved_granted (who : StagedFor) (offset : Nat) {data : List Byte}
    (energy : s.wouldGrant false (stagedEnergy data.length) = true) :
    s.stageReserved who offset data = (s.reservedStaged who offset data, true) := if_pos energy

theorem reservedStaged_only (s : State) (who : StagedFor) (offset : Nat) (data : List Byte) :
    Only [.energy, .order, .owed] s (s.reservedStaged who offset data) := by
  have joins (v : State) (w : Staged) : Only [.owed] v (v.modMem fun m => { m with staged := m.staged ++ [w] }) :=
    modMem_only_of _ (fun _ => rfl) (fun _ => rfl) fun h => absurd (by decide) h
  exact ((grant_only _ _).mono (by decide)).trans ((joins _ _).mono (by decide))

/-- The staged write of a key installation (R239). -/
def keyStaged (o : OpCtx) (slot : Byte) (key : List Byte) : Staged :=
  ⟨.key o.sess o.seq o.tag (slot.toNat % 8) true, 0x8000 + 0x40 * (slot.toNat % 8), keyData slot key⟩

/-- The state once a key installation has been staged (R239). -/
def keyReserved (s : State) (o : OpCtx) (slot : Byte) (key : List Byte) : State :=
  s.reservedStaged (keyStaged o slot key).who (keyStaged o slot key).offset (keyStaged o slot key).data

theorem keyReserved_staged (s : State) (o : OpCtx) (slot : Byte) (key : List Byte) :
    (s.keyReserved o slot key).mem.staged = s.mem.staged ++ [keyStaged o slot key] := rfl

/-- An installation with its key, whose energy is granted, is staged, and is answered at its switch (R239). -/
theorem stageKey_granted {o : OpCtx} {slot : Byte} {key : List Byte} (long : key.length = 32)
    (energy : s.wouldGrant false (stagedEnergy 64) = true) : s.stageKey o slot key = (s.keyReserved o slot key, .later) := by
  rw [← keyData_length slot long] at energy
  rw [stageKey]
  dsimp only
  rw [stageReserved_granted _ _ energy]
  rfl

/-- An installation that authenticates, and that does not install the key of zeros, is staged (R238, R239). -/
theorem checkKey_passes {o : OpCtx} {slot : Byte} {key text wrapped mac new : List Byte}
    (unwraps : List.zipWith (fun a b => a ^^^ b) wrapped (hmacSha256 key ([0x47, 0x4C, 0x4B, 0x57] ++ text)) = new)
    (authentic : hmacSha256 key ([0x47, 0x4C, 0x4B, 0x49] ++ text ++ wrapped) = mac)
    (used : slot.toNat.testBit 7 = true ∨ new ≠ List.replicate 32 0) :
    s.checkKey o slot key text wrapped mac = s.stageKey o slot new := by
  have live : ¬ (slot.toNat.testBit 7 = false ∧ new = List.replicate 32 0) := fun ⟨installs, zero⟩ =>
    used.elim (fun erases => by simp [installs] at erases) (· zero)
  unfold checkKey
  dsimp only
  rw [unwraps, if_neg live, if_pos authentic]

/-- The owner's installation with its nonce and a key comes to the checks of R238, with the nonce used. -/
theorem opKeyInstall_keyed {o : OpCtx} {slot : Byte} {id : Word} {b key wrapped mac : List Byte} (own : s.isOwner o.sess = true)
    (good : s.badSlot slot = false) (nonce : (s.sess o.sess).nonce = some (id, b))
    (known : s.claimKey o.sess (s.fld Reg.SES_OWNER 10 8) = some key) :
    s.opKeyInstall o slot id wrapped mac = (s.nonceUsed o.sess).checkKey o slot key (s.keyText o.sess b id slot) wrapped mac := by
  have slotted : (s.nonceUsed o.sess).badSlot slot = false := good
  rw [opKeyInstall, own, useNonce_names nonce, known]
  dsimp only
  rw [slotted]
  rfl

end State

/-- Settles O38: the nonce is used, the checks pass, and the key's block joins the staged writes with its reservation. -/
theorem keyInstallIsStaged : Obligations.KeyInstallIsStaged := by
  intro s o slot id wrapped b mac key asks own good nonce known energy long text new authentic used
  have fresh := s.nonceUsed_only o.sess
  have op := (State.opKeyInstall_keyed own good nonce known).trans ((State.checkKey_passes rfl authentic used).trans
    (State.stageKey_granted (xor_hmac_length long key _) energy))
  have reserved : Only [.energy, .order, .owed] (s.nonceUsed o.sess) ((s.nonceUsed o.sess).keyReserved o slot new) :=
    State.reservedStaged_only _ _ _ _
  have sessions : ((s.nonceUsed o.sess).keyReserved o slot new).lnk = (s.nonceUsed o.sess).lnk := reserved.part .lnk (by decide)
  refine ⟨_, congrArg s.finish (State.runOp_later (f := fun s => s.opKeyInstall o slot id wrapped mac) asks op), rfl, ?_,
    (State.SettingsKept.trans (.of_only fresh (by decide)) (.of_only reserved (by decide))).owner,
    (fresh.mono (by decide)).trans (reserved.mono (by decide))⟩
  rw [State.sess, sessions]
  exact s.nonceUsed_nonce o.sess

end Sys2Proof.Machine
end

/-! ## The local port -/

section
namespace Sys2Proof.Machine
namespace State

variable {s : State}

/-! ### Transactions -/

theorem localPort_awake {mosi : List Byte} {env : OpEnv} (on : s.coreOn = true) (enabled : s.lpOn = true)
    (runs : s.unitInReset 9 = false) (awake : s.pwr.state ≠ .sleep) : s.localPort mosi env = s.lpAwake mosi env := by
  rw [localPort, on, enabled, runs, if_neg (by simp), if_neg awake]

theorem lpHeader_length (s : State) : s.lpHeader.length = 8 := by
  simp only [lpHeader, List.length_append, bytesLE_length, List.length_cons, List.length_nil]

/-- A fetch returns the header and the pending message with its CRC (R217, R218). -/
theorem lpReturns_fetch {m : List Byte} {rest : List (List Byte)} {n : Nat} (awake : s.pwr.state ≠ .sleep)
    (pending : s.ses.lpOut = m :: rest) (room : 12 + m.length ≤ n) :
    s.lpReturns true n = s.lpHeader ++ m ++ bytesLE 4 (crc32c (s.lpHeader ++ m)) ++ List.replicate (n - (12 + m.length)) 0 := by
  have body : s.lpReturns true n =
      (s.lpHeader ++ m ++ bytesLE 4 (crc32c (s.lpHeader ++ m)) ++ List.replicate n 0).take n := by
    unfold lpReturns
    dsimp only
    rw [pending]
    simp [awake]
  have length : (s.lpHeader ++ m ++ bytesLE 4 (crc32c (s.lpHeader ++ m))).length = 12 + m.length := by
    simp only [List.length_append, lpHeader_length, bytesLE_length]
    omega
  rw [body, List.take_append, length, List.take_of_length_le (by omega), List.take_replicate, Nat.min_eq_left (by omega)]

theorem lpAck_delivered (delivered : s.ses.lpDelivered = true) :
    s.lpAck = s.modSes fun x => { x with lpOut := x.lpOut.drop 1, lpDelivered := false } := if_pos delivered

section
variable {mosi : List Byte} {env : OpEnv} (booted : s.booted = true) (long : 8 ≤ mosi.length) (valid : lpVoid mosi = false)
include booted long valid

/-- A transaction that only fetches: the answer, and the delivery of what is pending (R218, R220). -/
theorem lpAwake_fetch (cmd : u8 mosi 0 = 2) :
    s.lpAwake mosi env = (s.emit (.local_ (s.lpReturns true mosi.length))).lpDeliver mosi.length := by
  have drives : (s.emit (.local_ (s.lpReturns true mosi.length))).lpDrives = true := booted
  unfold lpAwake
  simp [cmd, valid, Nat.not_lt.2 long, show s.lpDrives = true from booted, drives]

/-- A transaction that only acknowledges a delivered message: the message leaves the queue before the answer (R220). -/
theorem lpAwake_ack (cmd : u8 mosi 0 = 4) (delivered : s.ses.lpDelivered = true) :
    s.lpAwake mosi env = s.lpAck.emit (.local_ (s.lpAck.lpReturns false mosi.length)) := by
  have drives : s.lpAck.lpDrives = true := by
    rw [lpAck_delivered delivered]
    exact booted
  unfold lpAwake
  simp [cmd, valid, Nat.not_lt.2 long, drives]

/-- A transaction that only sends: the answer, and the SEND as good or bad (R219). -/
theorem lpAwake_send (cmd : u8 mosi 0 = 1) : s.lpAwake mosi env =
    if s.lpGood mosi then (s.emit (.local_ (s.lpReturns false mosi.length))).lpSend mosi env
    else (s.emit (.local_ (s.lpReturns false mosi.length))).lpBad true := by
  unfold lpAwake
  simp [cmd, valid, Nat.not_lt.2 long, show s.lpDrives = true from booted]

end

theorem lpDeliver_pending {m : List Byte} {rest : List (List Byte)} {n : Nat} (pending : s.ses.lpOut = m :: rest)
    (room : 12 + m.length ≤ n) : s.lpDeliver n = (s.modSes fun x => { x with lpDelivered := true }).modSess 0
      fun x => if x.bound then { x with sentAt := s.tick } else x := by
  rw [lpDeliver, pending]
  exact if_pos room

/-- The message of a good SEND joins the inbound queue, and the SEND is counted (R219). -/
def lpAdmitted (s : State) (mosi : List Byte) (env : OpEnv) : State :=
  (s.bump Reg.SES_LP_GOOD).modSes fun x =>
    { x with lastGood := true, lastBad := false, lpIn := x.lpIn ++ [((mosi.drop 8).take (u16 mosi 2), env)] }

theorem lpSend_eq (s : State) (mosi : List Byte) (env : OpEnv) : s.lpSend mosi env = takeLp 2 (s.lpAdmitted mosi env) := rfl

theorem lpAdmitted_ses (s : State) (mosi : List Byte) (env : OpEnv) : (s.lpAdmitted mosi env).ses =
    { s.ses with lastGood := true, lastBad := false, lpIn := s.ses.lpIn ++ [((mosi.drop 8).take (u16 mosi 2), env)] } := by
  rw [lpAdmitted, modSes_ses, bump_ses]

theorem lpAdmitted_only (s : State) (mosi : List Byte) (env : OpEnv) : Only [.regs, .ses] s (s.lpAdmitted mosi env) := by
  unfold lpAdmitted
  simp (disch := decide)

/-- A bad SEND is noted and counted at a commit of its own (R219, R240). -/
theorem lpBad_spec (s : State) : (s.lpBad true).ses = { s.ses with lastGood := false, lastBad := true } ∧
    (s.lpBad true).rbit Reg.SES_EVT 3 = true ∧ (s.lpBad true).order = s.order + 1 ∧
    Only [.order, .regs, .guards, .ses] s (s.lpBad true) := by
  have counted : s.lpBad true =
      (((s.modSes fun x => { x with lastGood := false, lastBad := true }).bump Reg.SES_LP_BAD).setFlag Reg.SES_EVT 3).commit := rfl
  rw [counted]
  refine ⟨by simp, ?_, by simp, by simp (disch := decide)⟩
  rw [commit_rbit, setFlag_rbit_same _ _ (by decide)]

/-! ### The end of session 0 with the port -/

/-- Session 0 ends with what waits for the port discarded; nobody owns the GL4480 where it was owner (R220, R222, R236). -/
theorem endSession_local (bound : (s.sess 0).bound = true) :
    ((s.endSession 0).sess 0).bound = false ∧ (s.endSession 0).ses.lpOut = [] ∧
      (s.endSession 0).owner = (if s.owner = some 0 then none else s.owner) ∧
      (s.endSession 0).reg Reg.SES_CTRL = s.reg Reg.SES_CTRL ∧ Only (.due :: leaveParts) s (s.endSession 0) := by
  have eq : s.endSession 0 =
      (((s.freeSlotOf 0).modSes fun x => { x with lpOut := [], lpDelivered := false }).commit).vacate 0 := by
    unfold endSession
    exact if_pos bound
  have free := freeSlotOf_free s 0
  have freed := freeSlotOf_only (u := s) 0
  generalize s.freeSlotOf 0 = v at eq free freed
  have emptied : Only [.order, .ses] v (v.modSes fun x => { x with lpOut := [], lpDelivered := false }).commit := by
    simp (disch := decide)
  have empty : (v.modSes fun x => { x with lpOut := [], lpDelivered := false }).commit.ses.lpOut = [] := rfl
  have still : ((v.modSes fun x => { x with lpOut := [], lpDelivered := false }).commit.sess 0).bound = false := free
  rw [eq]
  generalize (v.modSes fun x => { x with lpOut := [], lpDelivered := false }).commit = w at emptied empty still
  have settings : SettingsKept s w := .trans (.of_only freed (by decide)) (.of_only emptied (by decide))
  have ses : (w.vacate 0).ses = w.ses := (vacate_only 0).part .ses (by decide)
  refine ⟨((vacate_link w 0).bound 0).trans still, by rw [ses, empty], by rw [vacate_owner, settings.owner], ?_,
    ((freed.mono (by decide)).trans (emptied.mono (by decide))).trans ((vacate_only 0).mono (by decide))⟩
  have ctrl : (w.vacate 0).reg Reg.SES_CTRL = w.reg Reg.SES_CTRL := by
    unfold vacate
    split
    · exact changeOwner_reg_other _ _ _ (by decide) (by decide)
    · rfl
  rw [ctrl, settings _ (by decide)]

/-- A granted write that clears `LP_EN` places the field, and session 0 ends (R194, R222). -/
theorem lpEnClear_granted {o : OpCtx} (granted : s.Granted o OpEnv.quiet Reg.SES_CTRL [s.keeping Reg.SES_CTRL 16 16 0])
    (enabled : s.rbit Reg.SES_CTRL 16 = true) (bound : (s.sess 0).bound = true) :
    ∃ v : State, exec (.lpEnClear o) s = .next (s.written o (v.endSession 0)) ∧ v.lpOn = false ∧ Only [.order, .regs] s v ∧
      RegsBut [Reg.SES_CTRL] s v := by
  have off : bit (s.keeping Reg.SES_CTRL 16 16 0) 16 = false := by
    rw [keeping, bit_putBits _ _ (by decide)]
    rfl
  generalize hw : s.keeping Reg.SES_CTRL 16 16 0 = w at granted off
  have live : s.moot (Reg.SES_CTRL, w) = false := by
    unfold moot
    dsimp only
    rw [if_neg (by decide), if_neg (by decide), if_neg (by decide), if_neg (by decide), if_pos (by decide)]
  have run : exec (.lpEnClear o) s = s.finish (s.ownerWrites o OpEnv.quiet Reg.SES_CTRL [w]) := by
    rw [← hw]
    rfl
  have bare : w &&& w1gMask Reg.SES_CTRL = 0 := BitVec.and_zero
  have placed : Only [.order, .regs] s (s.placeWords [(Reg.SES_CTRL, w)]).commit :=
    (only_commit (by decide)).2 ((placeWords_only _).mono (by decide))
  have cleared : (s.placeWords [(Reg.SES_CTRL, w)]).commit.lpOn = false := by
    change bit ((s.placeWords [(Reg.SES_CTRL, w)]).reg Reg.SES_CTRL) 16 = false
    rw [placeWords_reg_same (by decide), bit_placed, if_pos (by decide), off]
  refine ⟨_, run.trans ((finish_own granted (by decide) (by decide) bare live).trans ?_), cleared, placed,
    fun a ha => placeWords_reg_other a (List.mem_singleton.not.1 ha)⟩
  generalize hv : (s.placeWords [(Reg.SES_CTRL, w)]).commit = v at placed
  have sessions : v.lnk = s.lnk := placed.part .lnk (by decide)
  have bound' : (v.sess 0).bound = true := by rw [sess, sessions]; exact bound
  have effect : effect s OpEnv.quiet v (Reg.SES_CTRL, w) = linkEffect s v Reg.SES_CTRL w := by
    unfold State.effect
    dsimp only
    rw [if_neg (by decide), show Reg.SES_CTRL / 0x1000 = 1 by decide]
    rfl
  rw [effect, linkEffect, if_neg (by decide), if_pos rfl, enabled, off, bound']
  rfl

end State

/-- Settles O30: each transaction is its answer and the acts that its command asks for; a write that clears the enable ends session 0. -/
theorem localPortMovesMessages : Obligations.LocalPortMovesMessages := by
  intro s
  refine ⟨fun mosi env on enabled runs awake booted long valid => ?_, fun o granted enabled bound => ?_⟩
  · have transacts {t : State} (act : s.lpAwake mosi env = t) : exec (.localPortTransaction mosi env) s = .next (s.after t) :=
      congrArg s.finish ((State.localPort_awake on enabled runs awake).trans act)
    have told := State.emit_only (u := s) (.local_ (s.lpReturns false mosi.length))
    refine ⟨fun m rest cmd pending room => ?_, fun cmd delivered => ?_, fun cmd good => ?_, fun cmd bad => ?_⟩
    · refine ⟨_, transacts ((State.lpAwake_fetch booted long valid cmd).trans (State.lpDeliver_pending pending room)), rfl, rfl, ?_, ?_⟩
      · simp (disch := decide)
      · rw [← State.lpReturns_fetch awake pending room]
        rfl
    · have run := transacts (State.lpAwake_ack booted long valid cmd delivered)
      rw [State.lpAck_delivered delivered] at run
      exact ⟨_, run, rfl, rfl, by simp (disch := decide)⟩
    · have ses := (s.emit (.local_ (s.lpReturns false mosi.length))).lpAdmitted_ses mosi env
      have only := (s.emit (.local_ (s.lpReturns false mosi.length))).lpAdmitted_only mosi env
      exact ⟨_, transacts ((State.lpAwake_send booted long valid cmd).trans (if_pos good)), congrArg Ses.lpIn ses,
        congrArg Ses.lastGood ses, congrArg Ses.lastBad ses, (told.mono (by decide)).trans (only.mono (by decide))⟩
    · obtain ⟨ses, event, order, only⟩ := (s.emit (.local_ (s.lpReturns false mosi.length))).lpBad_spec
      refine ⟨_, transacts ((State.lpAwake_send booted long valid cmd).trans (if_neg (by simp [bad]))), ?_, ?_, ?_, event, order,
        (told.mono (by decide)).trans (only.mono (by decide))⟩
      all_goals rw [ses]
      rfl
  · obtain ⟨v, run, off, placed, regs⟩ := State.lpEnClear_granted granted enabled bound
    have sessions : v.lnk = s.lnk := placed.part .lnk (by decide)
    obtain ⟨free, empty, vacant, ctrl, only⟩ := State.endSession_local (s := v) (by rw [State.sess, sessions]; exact bound)
    refine ⟨_, run, ?_, free, empty, fun own => ?_, (placed.mono (by decide)).trans only⟩
    · rw [State.lpOn, State.rbit, ctrl]
      exact off
    · rw [vacant, if_pos ((State.owner_congr (regs _ (by decide))).trans own)]

end Sys2Proof.Machine
end

/-! ## Timers that count -/

section
namespace Sys2Proof.Machine
namespace State

variable {s u : State} {t : TimerId}

/-! ### Source events of one timer -/

/-- The counts that `k` source events bring to a timer through its prescaler (R245). -/
def tmCounts (s : State) (t : TimerId) (k : Nat) : Nat :=
  min k (if s.tmDiv t = 0 then k else ((s.timer t).acc + 65536 * k) / s.tmDiv t)

/-- A timer once it has taken `k` source events (R245). -/
def tmCounted (s : State) (t : TimerId) (k : Nat) : Timer :=
  { s.timer t with
    count := (s.timer t).count + BitVec.ofNat 48 (s.tmCounts t k)
    acc := (s.timer t).acc + 65536 * k - s.tmCounts t k * s.tmDiv t }

theorem tmPass_running {k : Nat} (run : s.tmRun t = true) (hk : k ≠ 0) :
    s.tmPass t k = (s.setTimer t (s.tmCounted t k), s.tmHits t (s.tmCounts t k)) := by
  unfold tmPass
  rw [run, Bool.true_and, if_pos (decide_eq_true hk)]
  rfl

theorem tmPass_idle {k : Nat} (idle : ¬ (s.tmRun t = true ∧ k ≠ 0)) : s.tmPass t k = (s, []) := by
  unfold tmPass
  rw [if_neg (by simpa using idle)]

/-- The source events of a timer leave every other timer as it is. -/
theorem tmPass_timer_other (s : State) {t x : TimerId} (k : Nat) (h : t ≠ x) : (s.tmPass t k).1.timer x = s.timer x := by
  by_cases counting : s.tmRun t = true ∧ k ≠ 0
  · rw [tmPass_running counting.1 counting.2]
    exact setTimer_timer_other _ _ _ _ h
  · rw [tmPass_idle counting]

/-- What a timer makes of its source events depends on the registers and the timer alone. -/
theorem tmPass_congr (k : Nat) (regs : u.regs = s.regs) (same : u.timer t = s.timer t) :
    (u.tmPass t k).1.timer t = (s.tmPass t k).1.timer t ∧ (u.tmPass t k).2 = (s.tmPass t k).2 := by
  have reg : u.reg = s.reg := by unfold State.reg; rw [regs]
  have run : u.tmRun t = s.tmRun t := by simp only [tmRun, rbit, reg]
  have div : u.tmDiv t = s.tmDiv t := by simp only [tmDiv, fld, reg]
  have counts : u.tmCounts t k = s.tmCounts t k := by simp only [tmCounts, same, div]
  have mode : u.tmMode t = s.tmMode t := funext fun c => by simp only [tmMode, fld, reg]
  have val : u.tmVal t = s.tmVal t := funext fun c => by simp only [tmVal, fld, reg]
  by_cases counting : s.tmRun t = true ∧ k ≠ 0
  · rw [tmPass_running counting.1 counting.2, tmPass_running (run.trans counting.1) counting.2]
    constructor
    · simp only [setTimer_timer_same, tmCounted, same, counts, div]
    · simp only [tmHits, same, counts, mode, val]
  · rw [tmPass_idle counting, tmPass_idle (by rwa [run])]
    exact ⟨same, rfl⟩

/-! ### Source events of several timers at one tick -/

theorem passAll_timer_other : ∀ (l : List (TimerId × Nat)) (s : State), t ∉ l.map Prod.fst → (passAll l s).1.timer t = s.timer t
  | [], _, _ => rfl
  | (x, k) :: rest, s, h => by
    simp only [List.map_cons, List.mem_cons, not_or] at h
    obtain ⟨apart, later⟩ := h
    exact (passAll_timer_other rest _ later).trans (tmPass_timer_other s k (Ne.symm apart))

/-- Where no timer is fed twice and none of them alone comes to an event, each takes its own source events. -/
theorem passAll_quiet : ∀ (l : List (TimerId × Nat)) (s : State), (l.map Prod.fst).Nodup →
    (∀ e ∈ l, (s.tmPass e.1 e.2).2 = []) →
    (passAll l s).2 = [] ∧ ∀ e ∈ l, (passAll l s).1.timer e.1 = (s.tmPass e.1 e.2).1.timer e.1
  | [], _, _, _ => ⟨rfl, fun _ h => nomatch h⟩
  | (x, k) :: rest, s, once, quiet => by
    obtain ⟨apart, once⟩ := List.nodup_cons.1 once
    have regs : (s.tmPass x k).1.regs = s.regs := (tmPass_only x k).part .regs (by decide)
    have later : ∀ e ∈ rest, ((s.tmPass x k).1.tmPass e.1 e.2).1.timer e.1 = (s.tmPass e.1 e.2).1.timer e.1 ∧
        ((s.tmPass x k).1.tmPass e.1 e.2).2 = (s.tmPass e.1 e.2).2 := fun e he =>
      tmPass_congr e.2 regs (tmPass_timer_other s k fun h => apart (List.mem_map.2 ⟨e, he, h.symm⟩))
    obtain ⟨none, each⟩ := passAll_quiet rest (s.tmPass x k).1 once fun e he =>
      (later e he).2.trans (quiet e (List.mem_cons_of_mem _ he))
    constructor
    · change (s.tmPass x k).2.map _ ++ (passAll rest (s.tmPass x k).1).2 = []
      rw [none, quiet (x, k) List.mem_cons_self]
      rfl
    · intro e he
      rcases List.mem_cons.1 he with rfl | he
      · exact passAll_timer_other rest _ apart
      · exact (each e he).trans (later e he).1

/-- Source events that bring no timer to an event are only counted. -/
theorem feed_quiet {l : List (TimerId × Nat)} (h : (passAll l s).2 = []) : s.feed l = (passAll l s).1 := by
  unfold feed feedTimers
  dsimp only
  rw [h]
  rfl

/-! ### The next tick -/

theorem mem_allTimers (t : TimerId) : t ∈ allTimers := by revert t; decide

/-- The source events that every timer takes at the next tick (R243). -/
def tickEvents (s : State) : List (TimerId × Nat) := allTimers.map fun t => (t, s.srcEvents t s.tick (s.tick + 1))

/-- The tick advances by one: every timer takes its source events (R41, R244). -/
theorem advanceTo_next (h : s.ticking = true) : s.advanceTo (s.tick + 1) = { s with tick := s.tick + 1 }.feed s.tickEvents := by
  obtain ⟨after, upto⟩ := nextTick_bounds (u := s) (Nat.lt_add_one s.tick)
  have next : s.nextTick (s.tick + 1) = s.tick + 1 := by omega
  have fuel : s.tick + 1 - s.tick = 1 := by omega
  rw [advanceTo, if_pos h, fuel, runTicks, if_pos (Nat.lt_add_one _)]
  dsimp only
  rw [next]
  rfl

/-- A tick at which no timer comes to an event: a timer that runs on TB100 counts it (R243, R245). -/
theorem advanceTo_quiet (h : s.ticking = true) (run : s.tmRun t = true) (src : s.tmSrc t = 0)
    (quiet : ∀ x, s.tmRun x = true → s.srcEvents x s.tick (s.tick + 1) ≠ 0 →
      s.tmHits x (s.tmCounts x (s.srcEvents x s.tick (s.tick + 1))) = []) :
    (s.advanceTo (s.tick + 1)).timer t = s.tmCounted t 1 ∧ Only [.tick, .tmr] s (s.advanceTo (s.tick + 1)) := by
  have event : s.srcEvents t s.tick (s.tick + 1) = 1 := by
    simp only [srcEvents, src]
    omega
  have once : (s.tickEvents.map Prod.fst).Nodup := by
    rw [tickEvents, List.map_map]
    change (allTimers.map fun x => x).Nodup
    decide
  have alike (x : TimerId) (k : Nat) := tmPass_congr (u := { s with tick := s.tick + 1 }) (s := s) (t := x) k rfl rfl
  have none : ∀ e ∈ s.tickEvents, (({ s with tick := s.tick + 1 } : State).tmPass e.1 e.2).2 = [] := by
    intro e he
    obtain ⟨x, -, rfl⟩ := List.mem_map.1 he
    refine (alike _ _).2.trans ?_
    by_cases counting : s.tmRun x = true ∧ s.srcEvents x s.tick (s.tick + 1) ≠ 0
    · rw [tmPass_running counting.1 counting.2]
      exact quiet x counting.1 counting.2
    · rw [tmPass_idle counting]
  obtain ⟨hits, each⟩ := passAll_quiet s.tickEvents { s with tick := s.tick + 1 } once none
  have mine : (t, 1) ∈ s.tickEvents := List.mem_map.2 ⟨t, mem_allTimers t, by rw [event]⟩
  rw [advanceTo_next h, feed_quiet hits]
  constructor
  · refine (each (t, 1) mine).trans ((alike t 1).1.trans ?_)
    rw [tmPass_running run (by decide)]
    exact setTimer_timer_same _ _ _
  · exact ((tick_only _).mono (by decide)).trans ((passAll_only _ _).mono (by decide))

/-! ### Matches and overflows -/

/-- A timer on a placement clock or on overflows takes its source events alone (R243). -/
theorem srcAdvance_own {n : Nat} (src : 3 ≤ s.tmSrc t ∧ s.tmSrc t ≤ 6 ∨ 11 ≤ s.tmSrc t) : s.srcAdvance t n = s.feed [(t, n)] := by
  unfold srcAdvance
  split
  case h_8 => rfl
  all_goals omega

/-- Source events of one running timer: it counts, and then its events follow in order (R247). -/
theorem feed_single {n : Nat} (run : s.tmRun t = true) (hn : n ≠ 0) :
    s.feed [(t, n)] =
      (s.tmHits t (s.tmCounts t n)).foldl (fun s hit => fireTimer overflow s (t, hit)) (s.setTimer t (s.tmCounted t n)) := by
  simp only [feed, feedTimers, passAll, tmPass_running run hn, List.append_nil, List.foldl_map]

/-- An event whose action word is 0 only sets its flag (R250). -/
theorem tmActions_none (s : State) (t : TimerId) (self : State → State) (mask : Word) :
    s.tmActions t 0 self mask = (s.setFlags (Reg.TMR_STAT t) mask).commit := rfl

/-- An event whose action word is `RESET_SELF` alone (R250). -/
theorem tmActions_resetSelf (s : State) (t : TimerId) (self : State → State) (mask : Word) :
    s.tmActions t 1 self mask = ((self s).commit.setFlags (Reg.TMR_STAT t) mask).commit := rfl

/-- The flag of an event is set at a commit (R250). -/
def tmFlagged (s : State) (t : TimerId) (hit : Nat) : State := (s.setFlag (Reg.TMR_STAT t) hit).commit

theorem tmFlagged_only (s : State) (t : TimerId) (hit : Nat) : Only [.order, .regs, .guards] s (s.tmFlagged t hit) := by
  unfold tmFlagged
  simp (disch := decide)

theorem tmFlagged_rbit (s : State) (t : TimerId) {hit : Nat} (h : hit < 28) :
    (s.tmFlagged t hit).rbit (Reg.TMR_STAT t) hit = true := by
  rw [tmFlagged, commit_rbit, setFlag_rbit_same _ _ h]

theorem tmFlagged_reg_other (s : State) (t : TimerId) (hit : Nat) {a : Nat} (h : Reg.TMR_STAT t ≠ a) :
    (s.tmFlagged t hit).reg a = s.reg a := by
  rw [tmFlagged, commit_reg, setFlag_reg_other _ _ _ _ h]

theorem tmFlagged_timer (s : State) (t : TimerId) (hit : Nat) (x : TimerId) : (s.tmFlagged t hit).timer x = s.timer x := rfl

/-- A match with no action but `RESET_SELF` (R250, R251): its flag is set, and where the action is taken the value comes off. -/
theorem fireTimer_match (ovf : State → TimerId → State) {c : Nat} (hc : c < 4) (act : s.tmAct t c = 0 ∨ s.tmAct t c = 1) :
    let u := fireTimer ovf s (t, c)
    u.rbit (Reg.TMR_STAT t) c = true ∧
      (u.timer t).count = (s.timer t).count - (if s.tmAct t c = 1 then s.tmVal t c else 0) ∧
      (∀ x, x ≠ t → u.timer x = s.timer x) ∧ RegsBut [Reg.TMR_STAT t] s u ∧ Only [.order, .regs, .guards, .tmr] s u := by
  have other {a : Nat} (ha : a ∉ [Reg.TMR_STAT t]) : Reg.TMR_STAT t ≠ a := fun e => ha (by simp [e])
  rcases act with none | reset
  · have fired : fireTimer ovf s (t, c) = s.tmFlagged t c := by
      unfold fireTimer
      dsimp only
      rw [none, tmActions_none, if_neg (by omega)]
      rfl
    rw [fired, none]
    exact ⟨tmFlagged_rbit _ _ (by omega), (BitVec.sub_zero _).symm, fun _ _ => rfl, fun a ha => tmFlagged_reg_other _ _ _ (other ha),
      (tmFlagged_only _ _ _).mono (by decide)⟩
  · have fired : fireTimer ovf s (t, c) =
        (s.modTimer t fun x => { x with count := x.count - s.tmVal t c }).commit.tmFlagged t c := by
      unfold fireTimer
      dsimp only
      rw [reset, tmActions_resetSelf, if_neg (by omega), if_pos hc]
      rfl
    rw [fired, reset]
    refine ⟨tmFlagged_rbit _ _ (by omega), ?_, fun x hx => ?_, fun a ha => tmFlagged_reg_other _ _ _ (other ha),
      .trans ?_ ((tmFlagged_only _ _ _).mono (by decide))⟩
    · rw [tmFlagged_timer, commit_timer, modTimer_timer_same, if_pos rfl]
    · rw [tmFlagged_timer, commit_timer, modTimer_timer_other _ _ _ _ (Ne.symm hx)]
    · simp (disch := decide)

/-- An overflow that no timer and no lane counts feeds nothing (R246, R263). -/
theorem overflow_unfed (timers : ∀ x, s.tmSrc x = 11 → s.tmOvfSrc x ≠ t.val)
    (lanes : ∀ l : Lane, ¬ (s.fld (Reg.PLC_SRC l) 2 0 = 5 ∧ s.fld (Reg.PLC_SRC l) 7 4 = t.val)) : s.overflow t = s := by
  have fed : (allTimers.filterMap fun x => if s.tmSrc x = 11 ∧ s.tmOvfSrc x = t.val then some (x, 1) else none) = [] :=
    List.filterMap_eq_nil_iff.2 fun x _ => if_neg fun h => timers x h.1 h.2
  unfold overflow overflowN
  dsimp only
  rw [fed]
  exact List.foldl_fixed' (fun l => if_neg (lanes l)) _

/-- An overflow with no action that nothing counts: its flag is set at one commit (R246, R250). -/
theorem fireTimer_overflow (act : s.tmAct t 4 = 0) (timers : ∀ x, s.tmSrc x = 11 → s.tmOvfSrc x ≠ t.val)
    (lanes : ∀ l : Lane, ¬ (s.fld (Reg.PLC_SRC l) 2 0 = 5 ∧ s.fld (Reg.PLC_SRC l) 7 4 = t.val)) :
    fireTimer overflow s (t, 4) = s.tmFlagged t 4 := by
  have fired : fireTimer overflow s (t, 4) = (s.tmFlagged t 4).overflow t := by
    unfold fireTimer
    dsimp only
    rw [act, tmActions_none, if_pos rfl]
    rfl
  have cfg (x : TimerId) : (s.tmFlagged t 4).reg (Reg.TMR_CFG x) = s.reg (Reg.TMR_CFG x) :=
    tmFlagged_reg_other _ _ _ (by simp only [Reg.TMR_STAT, Reg.TMR_CFG]; omega)
  have src (l : Lane) : (s.tmFlagged t 4).reg (Reg.PLC_SRC l) = s.reg (Reg.PLC_SRC l) :=
    tmFlagged_reg_other _ _ _ (by simp only [Reg.TMR_STAT, Reg.PLC_SRC]; omega)
  rw [fired, overflow_unfed]
  · simpa only [tmSrc, tmOvfSrc, fld, cfg] using timers
  · simpa only [fld, src] using lanes

end State

/-- Settles O41: the commands are the timer's source events; each clause is what the advance of the count and its events do. -/
theorem timersCountAndMatch : Obligations.TimersCountAndMatch := by
  intro s t n i named ticks counts k
  have run : exec i s = .next (s.after (s.srcAdvance t n)) := by
    have go : s.finish (if s.ticking then s.srcAdvance t n else s) = s.finish (s.srcAdvance t n) := by rw [if_pos ticks]
    rcases named with rfl | rfl
    · exact go
    · exact go
  refine ⟨fun tb one running quiet => ?_, fun src running some => ?_⟩
  · subst one
    have tick : s.srcAdvance t 1 = s.advanceTo (s.tick + 1) := by
      rw [State.srcAdvance, tb]
      rfl
    obtain ⟨counted, only⟩ := State.advanceTo_quiet ticks running tb quiet
    rw [run, tick]
    refine ⟨_, rfl, State.idle_tick s |>.trans (if_pos ticks), ?_, ?_, only⟩
    · rw [counted]
      rfl
    · rw [counted]
      rfl
  · rw [run, State.srcAdvance_own src, State.feed_single running some]
    have others (x : TimerId) (hx : x ≠ t) : (s.setTimer t (s.tmCounted t n)).timer x = s.timer x :=
      State.setTimer_timer_other _ _ _ _ (Ne.symm hx)
    have count : ((s.setTimer t (s.tmCounted t n)).timer t).count = (s.timer t).count + BitVec.ofNat 48 k :=
      congrArg Timer.count (State.setTimer_timer_same s t _)
    have counted : Only [.tmr] s (s.setTimer t (s.tmCounted t n)) := State.setTimer_only _ _
    refine ⟨fun hits => ?_, fun c hc hits act => ?_, fun hits act timers lanes => ?_⟩
    all_goals rw [show s.tmHits t (s.tmCounts t n) = _ from hits]
    · exact ⟨_, rfl, count, others, counted⟩
    · obtain ⟨flag, off, rest, regs, only⟩ :=
        State.fireTimer_match (s := s.setTimer t (s.tmCounted t n)) (t := t) State.overflow hc act
      exact ⟨_, rfl, flag, off.trans (by rw [count]; rfl), fun x hx => (rest x hx).trans (others x hx), regs,
        (counted.mono (by decide)).trans only⟩
    · have fired := State.fireTimer_overflow (s := s.setTimer t (s.tmCounted t n)) (t := t) act timers lanes
      rw [List.foldl_cons, List.foldl_nil, fired]
      exact ⟨_, rfl, State.tmFlagged_rbit _ _ (by decide), rfl, count,
        (counted.mono (by decide)).trans ((State.tmFlagged_only _ _ _).mono (by decide))⟩

end Sys2Proof.Machine
end

/-! ## Writes of timer registers that start something -/

section
namespace Sys2Proof.Machine

namespace State

variable {s : State} {o : OpCtx} {env : OpEnv} {a : Nat}

/-! ### A granted trigger of block TMR -/

/-- `TMR_CFG` of a timer holds its fields and `LOAD` in bit 31 (R262). -/
theorem tmrCfg_masks : ∀ t : TimerId, rwMask (Reg.TMR_CFG t) = 0xF1FF ∧ w1gMask (Reg.TMR_CFG t) = 0 ∧
    (regAt (Reg.TMR_CFG t)).isSome = true ∧ ownAction (Reg.TMR_CFG t) = true ∧ inst16 (Reg.TMR_CFG t) 0x5000 0x40 = t := by decide

/-- `TMR_TOUT` holds the idle levels, and the force fields from bit 16 on (R262). -/
theorem tmrTout_masks : rwMask Reg.TMR_TOUT = 0xF00 ∧ w1gMask Reg.TMR_TOUT = 0 ∧ (regAt Reg.TMR_TOUT).isSome = true ∧
    ownAction Reg.TMR_TOUT = true := by decide

/-- A bit of the word of a command comes from its field, else from the register's own fields. -/
theorem bit_keeping (s : State) (a hi lo x : Nat) {n : Nat} (hn : n < 32) :
    bit (s.keeping a hi lo x) n = if lo ≤ n ∧ n ≤ hi then x.testBit (n - lo) else bit (s.readReg a) n && bit (rwMask a) n := by
  rw [keeping, bit_putBits _ _ hn]
  congr 1
  exact BitVec.getLsbD_and

/-- A timer register but the present count reads as it is held (R262). -/
theorem readReg_timerBlock (block : a / 0x1000 = 5) (mapped : (regAt a).isSome = true) (held : a % 0x40 = 0 ∨ 0x5400 ≤ a) :
    s.readReg a = s.reg a := by
  have plain : s.derived a = none := by
    unfold derived
    rw [block]
    exact (if_neg (by omega)).trans (if_neg (by omega))
  rw [readReg, if_pos mapped, plain]

/-- A write of a timer register with fields is never moot (R551). -/
theorem moot_timerBlock (block : a / 0x1000 = 5) (fields : rwMask a ≠ 0) (w : Word) : s.moot (a, w) = false := by
  unfold moot
  dsimp only
  rw [if_neg (by omega), if_neg (by simp only [Reg.PWR_REQ]; omega), if_neg (by simp only [Reg.FLT_RELEASE]; omega), if_neg (by omega),
    if_pos fields]

theorem effect_timerBlock (block : a / 0x1000 = 5) (v : State) (w : Word) : effect s env v (a, w) = timerEffect s v a w := by
  unfold State.effect
  dsimp only
  rw [if_neg (by omega), block]
  rfl

/-- A granted command that sets a triggering field beside a timer register's own fields acts on the state that its commit
leaves, where every register reads as before (R194). -/
theorem timerTrigger_granted {hi lo x : Nat} (granted : s.Granted o env a [s.keeping a hi lo x]) (block : a / 0x1000 = 5)
    (held : s.readReg a = s.reg a) (own : ownAction a = true) (fields : rwMask a ≠ 0) (flagless : w1gMask a = 0)
    (apart : ∀ k, lo ≤ k → k ≤ hi → bit (rwMask a) k = false) :
    ∃ v : State, s.finish (s.ownerWrites o env a [s.keeping a hi lo x]) =
        .next (s.written o (timerEffect s v a (s.keeping a hi lo x))) ∧
      (∀ b, v.reg b = s.reg b) ∧ Only [.order, .regs] s v := by
  have kept := keeping_placed (x := x) held apart
  generalize s.keeping a hi lo x = w at *
  have bare : w &&& w1gMask a = 0 := by rw [flagless]; exact BitVec.and_zero
  refine ⟨(s.placeWords [(a, w)]).commit, ?_, placeWords_kept kept, (only_commit (by decide)).2 ((placeWords_only _).mono (by decide))⟩
  rw [finish_own granted (by omega) own bare (moot_timerBlock block fields w), effect_timerBlock block]

/-! ### LOAD -/

/-- `LOAD` beside fields that stay as they are loads the timer (R251). -/
theorem timerEffect_load {v : State} {t : TimerId} {w : Word} (same : ∀ b, v.reg b = s.reg b) (load : bit w 31 = true) :
    timerEffect s v (Reg.TMR_CFG t) w =
      v.tmLoad t (BitVec.ofNat 48 ((s.reg (Reg.TMR_LOAD_LO t)).toNat + s.fld (Reg.TMR_LOAD_HI t) 15 0 * 2 ^ 32)) := by
  obtain ⟨-, -, -, -, inst⟩ := tmrCfg_masks t
  have place : 0x5000 ≤ Reg.TMR_CFG t ∧ Reg.TMR_CFG t < 0x5400 ∧ Reg.TMR_CFG t % 0x40 = 0 := by simp only [Reg.TMR_CFG]; omega
  have runs : v.tmRun t = s.tmRun t := by simp only [tmRun, rbit, same]
  have src : v.tmSrc t = s.tmSrc t := by simp only [tmSrc, fld, same]
  unfold timerEffect
  rw [if_pos place, inst]
  dsimp only
  have steady : ¬ (s.tmRun t && (!s.tmRun t || decide (s.tmSrc t ≠ s.tmSrc t))) = true := by simp
  rw [runs, src, if_pos load, if_neg steady, same, fld, same, fld]

theorem tmLoad_only (s : State) (t : TimerId) (n : BitVec 48) : Only [.tmr] s (s.tmLoad t n) := modTimer_only _ _

/-- What LOAD makes of the timers (R251). -/
theorem tmLoad_spec (s : State) (t : TimerId) (n : BitVec 48) :
    ((s.tmLoad t n).timer t).count = n ∧ ((s.tmLoad t n).timer t).acc = 0 ∧ ∀ x, x ≠ t → (s.tmLoad t n).timer x = s.timer x := by
  unfold tmLoad
  exact ⟨by rw [modTimer_timer_same], by rw [modTimer_timer_same], fun x hx => modTimer_timer_other _ _ _ _ (Ne.symm hx)⟩

/-! ### Force fields -/

theorem toutLevel_rbit (s : State) (p : Nat) (high : Bool) {n : Nat} (hn : n < 32) :
    (s.toutLevel p high).rbit Reg.TMR_TOUT n = if p = n then high else s.rbit Reg.TMR_TOUT n := by
  change (s.setFld Reg.TMR_TOUT p p (b2n high)).rbit Reg.TMR_TOUT n = _
  rw [setFld_rbit _ _ _ _ _ hn]
  by_cases pin : p = n
  · subst pin
    rw [if_pos ⟨Nat.le_refl _, Nat.le_refl _⟩, if_pos rfl, Nat.sub_self]
    cases high <;> rfl
  · rw [if_neg (by omega), if_neg pin]

theorem toutLevel_reg_other (s : State) (p : Nat) (high : Bool) {b : Nat} (hb : Reg.TMR_TOUT ≠ b) :
    (s.toutLevel p high).reg b = s.reg b := by
  rw [toutLevel, emit_reg, setFld_reg_other _ _ _ _ _ _ hb]

theorem toutLevel_out (s : State) (p : Nat) (high : Bool) :
    (s.toutLevel p high).out = .pin ("TOUT" ++ toString p) (some high) :: s.out := rfl

/-- Several TOUT pins take a level, one after another (R252). -/
def toutLevels (s : State) (high : Bool) (l : List Nat) : State := l.foldl (fun s p => s.toutLevel p high) s

theorem toutLevels_rbit (high : Bool) {n : Nat} (hn : n < 32) : ∀ (l : List Nat) (s : State),
    (s.toutLevels high l).rbit Reg.TMR_TOUT n = if n ∈ l then high else s.rbit Reg.TMR_TOUT n
  | [], _ => (if_neg List.not_mem_nil).symm
  | p :: l, s => by
    refine (toutLevels_rbit high hn l (s.toutLevel p high)).trans ?_
    rw [toutLevel_rbit _ _ _ hn]
    by_cases later : n ∈ l
    · rw [if_pos later, if_pos (List.mem_cons_of_mem _ later)]
    · simp only [later, if_false, List.mem_cons, or_false, eq_comm]

theorem toutLevels_out (high : Bool) : ∀ (l : List Nat) (s : State),
    (s.toutLevels high l).out = (l.map fun p => Emit.pin ("TOUT" ++ toString p) (some high)).reverse ++ s.out
  | [], _ => rfl
  | p :: l, s => by
    refine (toutLevels_out high l (s.toutLevel p high)).trans ?_
    rw [toutLevel_out, List.map_cons, List.reverse_cons, List.append_assoc]
    rfl

theorem toutLevels_reg_other (high : Bool) {b : Nat} (hb : Reg.TMR_TOUT ≠ b) : ∀ (l : List Nat) (s : State),
    (s.toutLevels high l).reg b = s.reg b
  | [], _ => rfl
  | _ :: l, _ => (toutLevels_reg_other high hb l _).trans (toutLevel_reg_other _ _ _ hb)

theorem toutLevels_only (high : Bool) (l : List Nat) (s : State) : Only [.regs, .out] s (s.toutLevels high l) :=
  Only.foldl (fun _ p => toutLevel_only p high) l s

/-- The pins of a force field are those of its bits (R252). -/
def forcedPins (v : Word) (lo : Nat) : List Nat := (List.range 4).filter fun p => bit v (lo + p)

theorem forcePins_eq (s : State) (v : Word) (lo : Nat) (high : Bool) : s.forcePins v lo high = s.toutLevels high (forcedPins v lo) :=
  List.foldl_filter.symm

theorem mem_forcedPins {v : Word} {lo : Nat} (p : Fin 4) : p.val ∈ forcedPins v lo ↔ bit v (lo + p.val) = true := by
  rw [forcedPins, List.mem_filter, List.mem_range]
  exact and_iff_right p.isLt

/-- A force field of zeros drives no pin. -/
theorem forcePins_none {v : Word} {lo : Nat} {high : Bool} (zeros : ∀ p < 4, bit v (lo + p) = false) : s.forcePins v lo high = s := by
  have none : forcedPins v lo = [] := List.filter_eq_nil_iff.2 fun p hp => by rw [zeros p (List.mem_range.1 hp)]; exact Bool.false_ne_true
  rw [forcePins_eq, none]
  rfl

/-- A granted write of one force field: the pins of its bits are driven, on a state in which every register reads as before and
which nothing else has left (R194, R252). The fields lie at bits 16 and 20. -/
theorem force_granted {lo other : Nat} {pins : BitVec 4} {high : Bool}
    (granted : s.Granted o OpEnv.quiet Reg.TMR_TOUT [s.keeping Reg.TMR_TOUT (lo + 3) lo pins.toNat])
    (fields : lo = 16 ∧ other = 20 ∧ high = true ∨ lo = 20 ∧ other = 16 ∧ high = false) :
    ∃ u : State, s.finish (s.ownerWrite o Reg.TMR_TOUT (s.keeping Reg.TMR_TOUT (lo + 3) lo pins.toNat)) = .next (s.written o u) ∧
      (∀ p : Fin 4, u.rbit Reg.TMR_TOUT p.val = if pins.toNat.testBit p.val = true then high else s.rbit Reg.TMR_TOUT p.val) ∧
      (∀ p : Fin 4, pins.toNat.testBit p.val = true → Emit.pin ("TOUT" ++ toString p.val) (some high) ∈ u.out) ∧
      RegsBut [Reg.TMR_TOUT] s u ∧ Only [.order, .regs, .out] s u := by
  obtain ⟨mask, flagless, mapped, own⟩ := tmrTout_masks
  have unwritable : ∀ k < 32, 16 ≤ k → bit (rwMask Reg.TMR_TOUT) k = false := by rw [mask]; decide
  have high4 : lo = 16 ∨ lo = 20 := by omega
  have on (p : Nat) (hp : p < 4) : bit (s.keeping Reg.TMR_TOUT (lo + 3) lo pins.toNat) (lo + p) = pins.toNat.testBit p := by
    rw [bit_keeping _ _ _ _ _ (by omega), if_pos (by omega), Nat.add_sub_cancel_left]
  have off (p : Nat) (hp : p < 4) : bit (s.keeping Reg.TMR_TOUT (lo + 3) lo pins.toNat) (other + p) = false := by
    rw [bit_keeping _ _ _ _ _ (by omega), if_neg (by omega), unwritable _ (by omega) (by omega), Bool.and_false]
  obtain ⟨v, run, same, only⟩ := timerTrigger_granted granted (by decide)
    (readReg_timerBlock (by decide) mapped (.inr (by decide))) own (by rw [mask]; decide) flagless
    fun k h1 h2 => unwritable k (by omega) (by omega)
  generalize s.keeping Reg.TMR_TOUT (lo + 3) lo pins.toNat = w at *
  have effect : timerEffect s v Reg.TMR_TOUT w = v.forcePins w lo high := by
    unfold timerEffect
    rw [if_neg (by decide), if_neg (by decide), if_pos rfl]
    rcases fields with ⟨rfl, rfl, rfl⟩ | ⟨rfl, rfl, rfl⟩
    · exact forcePins_none off
    · rw [forcePins_none (high := true) off]
  have forced (p : Fin 4) : p.val ∈ forcedPins w lo ↔ pins.toNat.testBit p.val = true := by rw [mem_forcedPins, on p p.isLt]
  rw [effect, forcePins_eq] at run
  refine ⟨_, run, fun p => ?_, fun p h => ?_, fun b hb => ?_, (only.mono (by decide)).trans ((toutLevels_only _ _ _).mono (by decide))⟩
  · rw [toutLevels_rbit _ (by omega), rbit, same, rbit]
    exact if_congr (forced p) rfl rfl
  · rw [toutLevels_out]
    exact List.mem_append_left _ (List.mem_reverse.2 (List.mem_map.2 ⟨p, (forced p).2 h, rfl⟩))
  · rw [toutLevels_reg_other _ (fun e => hb (by simp [e])), same]

end State

/-- Settles O42: the word of each command keeps the fields of its register, so the write is its trigger alone. -/
theorem timerWritesAct : Obligations.TimerWritesAct := by
  intro s o
  refine ⟨fun t env granted => ?_, fun pins granted => ?_, fun pins granted => ?_⟩
  · obtain ⟨fields, flagless, mapped, own, -⟩ := State.tmrCfg_masks t
    have block : Reg.TMR_CFG t / 0x1000 = 5 := State.tmCfg_block t
    have held : s.readReg (Reg.TMR_CFG t) = s.reg (Reg.TMR_CFG t) :=
      State.readReg_timerBlock block mapped (.inl (by simp only [Reg.TMR_CFG]; omega))
    have load : bit (s.keeping (Reg.TMR_CFG t) 31 31 1) 31 = true := State.bit_keeping _ _ _ _ _ (by decide)
    obtain ⟨v, run, same, only⟩ := State.timerTrigger_granted granted block held own (by rw [fields]; decide) flagless
      fun k h1 h2 => by rw [fields, show k = 31 by omega]; decide
    have timers : v.tmr = s.tmr := only.part .tmr (by decide)
    obtain ⟨count, acc, others⟩ := State.tmLoad_spec v t
      (BitVec.ofNat 48 ((s.reg (Reg.TMR_LOAD_LO t)).toNat + s.fld (Reg.TMR_LOAD_HI t) 15 0 * 2 ^ 32))
    rw [State.timerEffect_load same load] at run
    exact ⟨_, run, count, acc, fun x hx => (others x hx).trans (by rw [State.timer, timers, State.timer]), fun b _ => same b,
      (only.mono (by decide)).trans ((State.tmLoad_only _ _ _).mono (by decide))⟩
  · obtain ⟨u, run, levels, sent, frame⟩ := State.force_granted (lo := 16) granted (.inl ⟨rfl, rfl, rfl⟩)
    refine ⟨u, run, fun p => ?_, sent, frame⟩
    rw [levels p]
    cases pins.toNat.testBit p.val <;> rfl
  · obtain ⟨u, run, levels, sent, frame⟩ := State.force_granted (lo := 20) granted (.inr ⟨rfl, rfl, rfl⟩)
    refine ⟨u, run, fun p => ?_, sent, frame⟩
    rw [levels p]
    cases pins.toNat.testBit p.val <;> rfl

end Sys2Proof.Machine
end

/-! ## Edges at the timers' pins -/

section
namespace Sys2Proof.Machine
namespace State

variable {s t u : State}

/-! ### What leaves the TCLK pins as they are -/

/-- The pins' accepted levels, the times of their last transitions and `TMR_TCLK_STAT` are as they were. -/
structure PinsKept (s t : State) : Prop where
  aux : t.tmr.aux = s.tmr.aux
  times : t.tmr.tclkAt = s.tmr.tclkAt
  stat : t.reg Reg.TMR_TCLK_STAT = s.reg Reg.TMR_TCLK_STAT

namespace PinsKept

theorem refl (s : State) : PinsKept s s := ⟨rfl, rfl, rfl⟩

theorem trans (h : PinsKept s t) (k : PinsKept t u) : PinsKept s u :=
  ⟨k.aux.trans h.aux, k.times.trans h.times, k.stat.trans h.stat⟩

theorem foldl {α : Type} {f : State → α → State} : ∀ (l : List α) (s : State),
    (∀ s, ∀ a ∈ l, PinsKept s (f s a)) → PinsKept s (l.foldl f s)
  | [], s, _ => refl s
  | a :: l, s, h => (h s a List.mem_cons_self).trans (foldl l (f s a) fun v b hb => h v b (List.mem_cons_of_mem _ hb))

/-- An operation that changes neither the timers' part nor registers of block TMR. -/
theorem of_frames {m : List Part} {l : List Nat} (only : Only m s t) (hm : .tmr ∉ m) (regs : RegsIn l s t) (hl : 5 ∉ l) :
    PinsKept s t := by
  have tmr : t.tmr = s.tmr := only.part .tmr hm
  exact ⟨by rw [tmr], by rw [tmr], regs _ hl⟩

theorem modTimer (s : State) (x : TimerId) (f : Timer → Timer) : PinsKept s (s.modTimer x f) := ⟨rfl, rfl, rfl⟩

theorem commit (h : PinsKept s t) : PinsKept s t.commit := h.trans ⟨rfl, rfl, rfl⟩

theorem setReg (h : PinsKept s t) {a : Nat} (ha : a ≠ Reg.TMR_TCLK_STAT) (v : Word) : PinsKept s (t.setReg a v) :=
  h.trans ⟨rfl, rfl, setReg_reg_other _ _ _ _ ha⟩

theorem setFld (h : PinsKept s t) {a : Nat} (ha : a ≠ Reg.TMR_TCLK_STAT) (hi lo v : Nat) : PinsKept s (t.setFld a hi lo v) :=
  h.setReg ha _

theorem setFlags (h : PinsKept s t) {a : Nat} (ha : a ≠ Reg.TMR_TCLK_STAT) (m : Word) : PinsKept s (t.setFlags a m) :=
  h.trans ⟨rfl, rfl, setFlags_reg_other _ _ _ _ ha⟩

end PinsKept

theorem tmrCfg_ne_stat (x : TimerId) : Reg.TMR_CFG x ≠ Reg.TMR_TCLK_STAT := by
  simp only [Reg.TMR_CFG, Reg.TMR_TCLK_STAT]
  omega

theorem tmStop_pins (s : State) (x : TimerId) : PinsKept s (s.tmStop x) := (PinsKept.refl s).setFld (tmrCfg_ne_stat x) _ _ _

theorem tmStart_pins (s : State) (x : TimerId) : PinsKept s (s.tmStart x) := by
  unfold tmStart
  refine PinsKept.setFld ?_ (tmrCfg_ne_stat x) _ _ _
  split
  · exact .refl s
  · exact .modTimer s x _

theorem tmLoad_pins (s : State) (x : TimerId) (n : BitVec 48) : PinsKept s (s.tmLoad x n) := .modTimer s x _

theorem toutOp_pins (s : State) (p op : Nat) : PinsKept s (s.toutOp p op) := by
  have level (high : Bool) : PinsKept s (s.toutLevel p high) :=
    ⟨rfl, rfl, toutLevel_reg_other s p high (by decide)⟩
  unfold toutOp
  split
  case h_4 => exact .refl s
  all_goals exact level _

theorem act_pins (s : State) (on : Bool) {f : State → State} (h : ∀ v, PinsKept v (f v)) : PinsKept s (s.act on f) := by
  unfold act
  split
  · exact (h s).commit
  · exact .refl s

theorem startChan_pins (s : State) (c : Chan) (k : RunKind) : PinsKept s (s.startChan c k) :=
  .of_frames (startChan_only c k) (by decide) (startChan_in c k) (by decide)

theorem tmActions_pins (s : State) (x : TimerId) (w : Word) {self : State → State} (h : ∀ v, PinsKept v (self v)) (mask : Word) :
    PinsKept s (s.tmActions x w self mask) := by
  have flags : Reg.TMR_STAT x ≠ Reg.TMR_TCLK_STAT := by
    simp only [Reg.TMR_STAT, Reg.TMR_TCLK_STAT]
    omega
  unfold tmActions
  refine (PinsKept.setFlags ?_ flags _).commit
  have acts := (act_pins s (bit w 0) h).trans ((act_pins _ (bit w 1) fun v => tmStop_pins v x).trans
    ((act_pins _ (bit w 4) fun v => tmLoad_pins v (s.tmLink x) 0).trans ((act_pins _ (bit w 2) fun v => tmStart_pins v (s.tmLink x)).trans
      ((act_pins _ (bit w 3) fun v => tmStop_pins v (s.tmLink x)).trans
        (act_pins _ (decide (bits w 9 8 ≠ 0)) fun v => toutOp_pins v (bits w 13 12) (bits w 9 8))))))
  split
  · exact acts.trans (startChan_pins _ _ _)
  · exact acts

theorem tmPass_pins (s : State) (x : TimerId) (k : Nat) : PinsKept s (s.tmPass x k).1 := by
  by_cases counting : s.tmRun x = true ∧ k ≠ 0
  · rw [tmPass_running counting.1 counting.2]
    exact ⟨rfl, rfl, rfl⟩
  · rw [tmPass_idle counting]
    exact .refl s

theorem passAll_pins : ∀ (l : List (TimerId × Nat)) (s : State), PinsKept s (passAll l s).1
  | [], s => .refl s
  | (x, k) :: l, s => (tmPass_pins s x k).trans (passAll_pins l _)

section
variable {ovf : State → TimerId → State} (h : ∀ v x, PinsKept v (ovf v x))
include h

theorem fireTimer_pins (s : State) (e : TimerId × Nat) : PinsKept s (fireTimer ovf s e) := by
  have acts : PinsKept s (s.tmActions e.1 (s.tmAct e.1 e.2)
      (fun v => if e.2 < 4 then v.modTimer e.1 fun x => { x with count := x.count - s.tmVal e.1 e.2 } else v) (word (2 ^ e.2))) := by
    refine tmActions_pins s _ _ (fun v => ?_) _
    split
    · exact .modTimer v _ _
    · exact .refl v
  unfold fireTimer
  dsimp only
  split
  · exact acts.trans (h _ _)
  · exact acts

theorem feedTimers_pins (s : State) (l : List (TimerId × Nat)) : PinsKept s (feedTimers ovf s l) :=
  (passAll_pins l s).trans (.foldl _ _ fun v e _ => fireTimer_pins h v e)

end

/-- The check of the reverse limit concerns the lane, its records and its message (R286). -/
theorem reverseCheck_pins (s : State) (n : Lane) : PinsKept s (s.reverseCheck n) := by
  have evt : Reg.PLC_EVT n / 0x1000 = 6 := by simp only [Reg.PLC_EVT]; omega
  have lane : Kind.src (Kind.reverse n.val) < 36 := by have := n.isLt; simp only [Kind.reverse]; omega
  have marked : PinsKept s (((s.modLane n fun l => { l with reversed := true }).setFlag (Reg.PLC_EVT n) 3).raiseLane
      (Kind.reverse n.val) (BitVec.setWidth 32 (s.lane n).pc) n) :=
    .of_frames (m := .plc :: messageParts) (l := [4, 6]) (by simp (disch := decide)) (by decide)
      (by simp (disch := simp [evt, lane])) (by decide)
  unfold reverseCheck
  dsimp only
  split
  · exact ⟨rfl, rfl, rfl⟩
  · split
    · exact marked.trans (.of_frames (suspectPrinting_only _ _) (by decide) (suspectPrinting_in _ _) (by decide))
    · exact .refl s

theorem laneMarks_pins (s : State) (l : List (TimerId × Nat)) (n : Lane) : PinsKept s (s.laneMarks l n) :=
  .foldl _ _ fun v e _ => .modTimer v e.1 _

theorem laneCountWith_pins {ovf : State → TimerId → State} (h : ∀ v x, PinsKept v (ovf v x)) (s : State) (n : Lane) (d : Int) :
    PinsKept s (laneCountWith ovf s n d) := by
  unfold laneCountWith
  dsimp only
  refine .trans ?_ (reverseCheck_pins _ n)
  refine .trans ?_ (feedTimers_pins h _ _)
  refine .trans ?_ (laneMarks_pins _ _ n)
  exact ⟨rfl, rfl, rfl⟩

theorem overflowN_pins : ∀ (f : Nat) (s : State) (x : TimerId), PinsKept s (overflowN f s x)
  | 0, s, _ => .refl s
  | f + 1, s, x => by
    unfold overflowN
    refine (feedTimers_pins (overflowN_pins f) s _).trans (.foldl _ _ fun v n _ => ?_)
    split
    · exact laneCountWith_pins (overflowN_pins f) v n _
    · exact .refl v

theorem feedSrc_pins (s : State) (src k : Nat) : PinsKept s (s.feedSrc src k) := feedTimers_pins (overflowN_pins 40) s _

/-! ### Captures -/

/-- A channel of a timer captures an edge of a source (R249). -/
abbrev CapturesEdge (s : State) (src : Nat) (rising : Bool) (e : TimerId × Nat) : Prop :=
  s.tmMode e.1 e.2 = 2 ∧ s.fld (Reg.TMR_VAL_HI e.1 e.2) 23 20 = src ∧ edgeOf (s.fld (Reg.TMR_VAL_HI e.1 e.2) 25 24) rising = true

/-- An edge reaches one channel. -/
def edgeAt (src : Nat) (rising : Bool) (s : State) (e : TimerId × Nat) : State :=
  if s.CapturesEdge src rising e then s.capture e.1 e.2 else s

/-- Every channel of every timer, in the order in which an edge reaches them. -/
def timerChannels : List (TimerId × Nat) := allTimers.flatMap fun t => [0, 1, 2, 3].map fun c => (t, c)

theorem mem_timerChannels {e : TimerId × Nat} : e ∈ timerChannels ↔ e.2 < 4 := by
  obtain ⟨x, c⟩ := e
  simp only [timerChannels, List.mem_flatMap, List.mem_map, List.mem_cons, List.not_mem_nil, or_false, Prod.mk.injEq]
  constructor
  · rintro ⟨_, _, _, hc, -, rfl⟩
    omega
  · exact fun hc => ⟨x, mem_allTimers x, c, by omega, rfl, rfl⟩

theorem timerChannels_nodup : timerChannels.Nodup := by decide

theorem captureEdge_eq (s : State) (src : Nat) (rising : Bool) : s.captureEdge src rising = timerChannels.foldl (edgeAt src rising) s := by
  rw [timerChannels, List.foldl_flatMap]
  simp only [List.foldl_map]
  rfl

/-- The count of a timer as the value of a channel (R249). -/
def captured (s : State) (x : TimerId) (c : Nat) : State :=
  (s.setReg (Reg.TMR_VAL_LO x c) (word (s.timer x).count.toNat)).setFld (Reg.TMR_VAL_HI x c) 15 0 ((s.timer x).count.toNat / 2 ^ 32)

/-- The flags of a capture: `MATCH`, with `CAP_OVR` where it was set (R249). -/
def captureFlags (beyond : Bool) (c : Nat) : Word := word (2 ^ c + if beyond then 2 ^ (8 + c) else 0)

/-- A capture takes the count, and runs the channel's actions (R249). -/
theorem capture_eq_actions (s : State) (x : TimerId) (c : Nat) : s.capture x c =
    (s.captured x c).tmActions x ((s.captured x c).tmAct x c) (fun v => v.modTimer x fun y => { y with count := 0 })
      (captureFlags (s.rbit (Reg.TMR_STAT x) c) c) := rfl

theorem captured_pins (s : State) (x : TimerId) {c : Nat} (hc : c < 4) : PinsKept s (s.captured x c) := by
  have lo : Reg.TMR_VAL_LO x c ≠ Reg.TMR_TCLK_STAT := by simp only [Reg.TMR_VAL_LO, Reg.TMR_TCLK_STAT]; omega
  have hi : Reg.TMR_VAL_HI x c ≠ Reg.TMR_TCLK_STAT := by simp only [Reg.TMR_VAL_HI, Reg.TMR_TCLK_STAT]; omega
  exact ((PinsKept.refl s).setReg lo _).setFld hi _ _ _

theorem captured_only (s : State) (x : TimerId) (c : Nat) : Only [.regs] s (s.captured x c) := by
  unfold captured
  simp (disch := decide)

theorem edgeAt_pins (s : State) (src : Nat) (rising : Bool) {e : TimerId × Nat} (he : e ∈ timerChannels) :
    PinsKept s (edgeAt src rising s e) := by
  unfold edgeAt
  split
  · rw [capture_eq_actions]
    exact (captured_pins s e.1 (mem_timerChannels.1 he)).trans (tmActions_pins _ _ _ (fun v => .modTimer v e.1 _) _)
  · exact .refl s

theorem captureEdge_pins (s : State) (src : Nat) (rising : Bool) : PinsKept s (s.captureEdge src rising) := by
  rw [captureEdge_eq]
  exact .foldl _ _ fun v e he => edgeAt_pins v src rising he

theorem captureEdge_only (s : State) (src : Nat) (rising : Bool) : Only timerParts s (s.captureEdge src rising) := by
  rw [captureEdge_eq]
  refine Only.foldl (fun v e => ?_) _ _
  unfold edgeAt
  split
  · rw [capture_eq_actions]
    exact ((captured_only v e.1 e.2).mono (by decide)).trans (tmActions_only _ _ (fun v => modTimer_only _ _) _)
  · exact Only.refl _ _

theorem foldl_edgeAt_none {src : Nat} {rising : Bool} : ∀ (l : List (TimerId × Nat)) (s : State),
    (∀ e ∈ l, ¬ s.CapturesEdge src rising e) → l.foldl (edgeAt src rising) s = s
  | [], _, _ => rfl
  | e :: l, s, unused => by
    rw [List.foldl_cons, edgeAt, if_neg (unused e List.mem_cons_self)]
    exact foldl_edgeAt_none l s fun d hd => unused d (List.mem_cons_of_mem _ hd)

/-- An edge that no channel captures does nothing (R249). -/
theorem captureEdge_none {src : Nat} {rising : Bool} (none : ∀ x c, c < 4 → ¬ s.CapturesEdge src rising (x, c)) :
    s.captureEdge src rising = s := by
  rw [captureEdge_eq]
  exact foldl_edgeAt_none _ _ fun e he => none e.1 e.2 (mem_timerChannels.1 he)

/-- An edge that one channel captures, and no other before or after it, is that capture (R249). -/
theorem captureEdge_one {src : Nat} {rising : Bool} {e : TimerId × Nat} (channel : e.2 < 4) (takes : s.CapturesEdge src rising e)
    (others : ∀ d : TimerId × Nat, d.2 < 4 → d ≠ e →
      ¬ s.CapturesEdge src rising d ∧ ¬ (s.capture e.1 e.2).CapturesEdge src rising d) :
    s.captureEdge src rising = s.capture e.1 e.2 := by
  obtain ⟨before, later, split⟩ := List.append_of_mem (mem_timerChannels.2 channel)
  have once := timerChannels_nodup
  rw [split, List.nodup_append] at once
  obtain ⟨-, onceLater, apart⟩ := once
  have other {d : TimerId × Nat} (hd : d ∈ before ++ later) : d.2 < 4 := by
    refine mem_timerChannels.1 ?_
    rw [split]
    rcases List.mem_append.1 hd with h | h
    · exact List.mem_append_left _ h
    · exact List.mem_append_right _ (List.mem_cons_of_mem _ h)
  rw [captureEdge_eq, split, List.foldl_append, List.foldl_cons, foldl_edgeAt_none before s, edgeAt, if_pos takes]
  · exact foldl_edgeAt_none later _ fun d hd => (others d (other (List.mem_append_right _ hd))
      fun e => (List.nodup_cons.1 onceLater).1 (e ▸ hd)).2
  · exact fun d hd => (others d (other (List.mem_append_left _ hd)) (apart d hd e List.mem_cons_self)).1

/-! ### A capture without actions -/

theorem captured_reg_other (s : State) {x : TimerId} {c b : Nat} (lo : Reg.TMR_VAL_LO x c ≠ b) (hi : Reg.TMR_VAL_HI x c ≠ b) :
    (s.captured x c).reg b = s.reg b := by
  rw [captured, setFld_reg_other _ _ _ _ _ _ hi, setReg_reg_other _ _ _ _ lo]

/-- The value of a channel that has captured is the count (R249). -/
theorem captured_tmVal (s : State) (x : TimerId) (c : Nat) : (s.captured x c).tmVal x c = (s.timer x).count := by
  have lt := (s.timer x).count.isLt
  have apart : Reg.TMR_VAL_HI x c ≠ Reg.TMR_VAL_LO x c := by simp only [Reg.TMR_VAL_HI, Reg.TMR_VAL_LO]; omega
  have low : (s.captured x c).reg (Reg.TMR_VAL_LO x c) = word (s.timer x).count.toNat := by
    rw [captured, setFld_reg_other _ _ _ _ _ _ apart, setReg_reg_same]
  have high : (s.captured x c).fld (Reg.TMR_VAL_HI x c) 15 0 = (s.timer x).count.toNat / 2 ^ 32 :=
    setFld_fld_same _ _ (by decide) (by omega)
  rw [tmVal, low, high]
  refine BitVec.eq_of_toNat_eq ?_
  simp only [word, BitVec.toNat_ofNat]
  omega

/-- A capture writes the value alone beside `MODE` and the selection of its source. -/
theorem captured_tmMode (s : State) (x : TimerId) (c : Nat) : (s.captured x c).tmMode x c = s.tmMode x c := by
  have apart : Reg.TMR_VAL_LO x c ≠ Reg.TMR_VAL_HI x c := by simp only [Reg.TMR_VAL_HI, Reg.TMR_VAL_LO]; omega
  rw [tmMode, captured, setFld_fld_other _ _ _ (by decide) (by decide), fld, setReg_reg_other _ _ _ _ apart, tmMode, fld]

theorem captureFlags_match (beyond : Bool) {c : Nat} (hc : c < 4) : bit (captureFlags beyond c) c = true := by
  revert c beyond
  decide

theorem capture_quiet {x : TimerId} {c : Nat} (hc : c < 4) (act : s.tmAct x c = 0) : s.capture x c =
    ((s.captured x c).setFlags (Reg.TMR_STAT x) (captureFlags (s.rbit (Reg.TMR_STAT x) c) c)).commit := by
  have same : (s.captured x c).tmAct x c = 0 := by
    rw [← act, tmAct, if_pos hc, tmAct, if_pos hc]
    refine captured_reg_other s ?_ ?_
    all_goals simp only [Reg.TMR_VAL_LO, Reg.TMR_VAL_HI, Reg.TMR_ACT]
    all_goals omega
  rw [capture_eq_actions, same, tmActions_none]

/-- A capture without actions: the channel takes the count and its flag is set, and no other register changes (R249). -/
theorem capture_quiet_spec {x : TimerId} {c : Nat} (hc : c < 4) (act : s.tmAct x c = 0) :
    (s.capture x c).tmr = s.tmr ∧ (s.capture x c).tmVal x c = (s.timer x).count ∧ (s.capture x c).tmMode x c = s.tmMode x c ∧
      (s.capture x c).rbit (Reg.TMR_STAT x) c = true ∧
      RegsBut [Reg.TMR_VAL_LO x c, Reg.TMR_VAL_HI x c, Reg.TMR_STAT x] s (s.capture x c) := by
  have lo : Reg.TMR_STAT x ≠ Reg.TMR_VAL_LO x c := by simp only [Reg.TMR_STAT, Reg.TMR_VAL_LO]; omega
  have hi : Reg.TMR_STAT x ≠ Reg.TMR_VAL_HI x c := by simp only [Reg.TMR_STAT, Reg.TMR_VAL_HI]; omega
  rw [capture_quiet hc act]
  have raised := captureFlags_match (s.rbit (Reg.TMR_STAT x) c) hc
  generalize captureFlags (s.rbit (Reg.TMR_STAT x) c) c = mask at raised
  refine ⟨(captured_only s x c).part .tmr (by decide), ?_, ?_, ?_, fun b hb => ?_⟩
  · rw [← captured_tmVal s x c]
    simp only [tmVal, fld, commit_reg, setFlags_reg_other _ _ _ _ lo, setFlags_reg_other _ _ _ _ hi]
  · rw [← captured_tmMode s x c]
    simp only [tmMode, fld, commit_reg, setFlags_reg_other _ _ _ _ hi]
  · rw [commit_rbit, rbit, setFlags_reg_same, bit_putBits_below _ _ (by omega), bit_or, raised, Bool.or_true]
  · simp only [List.mem_cons, List.not_mem_nil, or_false, not_or] at hb
    obtain ⟨notLo, notHi, notStat⟩ := hb
    rw [commit_reg, setFlags_reg_other _ _ _ _ (Ne.symm notStat), captured_reg_other s (Ne.symm notLo) (Ne.symm notHi)]

/-- A capture leaves the registers by which another channel takes edges. -/
theorem capture_quiet_others {src : Nat} {rising : Bool} {x : TimerId} {c : Nat} (hc : c < 4) (act : s.tmAct x c = 0)
    {d : TimerId × Nat} (hd : d.2 < 4) (apart : d ≠ (x, c)) :
    (s.capture x c).CapturesEdge src rising d ↔ s.CapturesEdge src rising d := by
  obtain ⟨-, -, -, -, regs⟩ := capture_quiet_spec hc act
  obtain ⟨y, e⟩ := d
  have differ : y.val ≠ x.val ∨ e ≠ c := by
    by_contra same
    rw [not_or, not_not, not_not] at same
    exact apart (Prod.ext (Fin.ext same.1) same.2)
  have kept : (s.capture x c).reg (Reg.TMR_VAL_HI y e) = s.reg (Reg.TMR_VAL_HI y e) := by
    refine regs _ ?_
    simp only [List.mem_cons, List.not_mem_nil, or_false, Reg.TMR_VAL_HI, Reg.TMR_VAL_LO, Reg.TMR_STAT]
    omega
  simp only [CapturesEdge, tmMode, fld, kept]

/-- An edge that a single channel captures, without actions, is that capture (R249). -/
theorem captureEdge_single {src : Nat} {rising : Bool} {x : TimerId} {c : Nat} (hc : c < 4) (takes : s.CapturesEdge src rising (x, c))
    (alone : ∀ y e, e < 4 → s.CapturesEdge src rising (y, e) → y = x ∧ e = c) (act : s.tmAct x c = 0) :
    s.captureEdge src rising = s.capture x c := by
  refine captureEdge_one (e := (x, c)) hc takes fun d hd apart => ?_
  have passes : ¬ s.CapturesEdge src rising d := fun h => apart (Prod.ext_iff.2 (alone d.1 d.2 hd h))
  exact ⟨passes, fun h => passes ((capture_quiet_others hc act hd apart).1 h)⟩

/-! ### TCLK balls -/

/-- The accepted transition of a TCLK ball: its level, the time of the transition, and the end of the stopped state (R254, R256). -/
def tclkTaken (s : State) (p : Fin 4) (level : Bool) : State :=
  let v := s.modTmr fun x => { x with aux := x.aux.set p level, tclkAt := x.tclkAt.set p s.tick }
  if v.rbit Reg.TMR_TCLK_STAT (8 + p.val) then (v.setFld Reg.TMR_TCLK_STAT (8 + p.val) (8 + p.val) 0).commit else v

theorem tclkTaken_spec (s : State) (p : Fin 4) (level : Bool) :
    (s.tclkTaken p level).tmr.aux[p] = level ∧ (s.tclkTaken p level).tmr.tclkAt[p] = s.tick ∧
      (s.tclkTaken p level).rbit Reg.TMR_TCLK_STAT (8 + p.val) = false ∧ Only [.order, .regs, .tmr] s (s.tclkTaken p level) := by
  have aux : (s.tmr.aux.set p level)[p] = level := Vector.getElem_set_self ..
  have time : (s.tmr.tclkAt.set p s.tick)[p] = s.tick := Vector.getElem_set_self ..
  unfold tclkTaken
  dsimp only
  split
  case isTrue =>
    refine ⟨aux, time, ?_, by simp (disch := decide)⟩
    rw [commit_rbit, setFld_rbit _ _ _ _ _ (by omega), if_pos ⟨Nat.le_refl _, Nat.le_refl _⟩]
    exact Nat.zero_testBit _
  case isFalse running => exact ⟨aux, time, Bool.eq_false_iff.2 running, by simp (disch := decide)⟩

/-- A transition of a TCLK ball, once taken, is captured, and where it counts it feeds the timers on the ball (R254, R255). -/
theorem tclkChange_eq {p : Fin 4} {level : Bool} (serves : s.rbit (Reg.TMR_TCLK_CFG p) 0 = true) (changes : s.tmr.aux[p] ≠ level) :
    s.tclkChange p level =
      (let v := (s.tclkTaken p level).captureEdge (8 + p.val) level
      if edgeOf (v.fld (Reg.TMR_TCLK_CFG p) 2 1) level then v.feedSrc (7 + p.val) 1 else v) := by
  unfold tclkChange
  dsimp only
  rw [serves, if_neg (by simpa using changes)]
  rfl

theorem tclkChange_spec {p : Fin 4} {level : Bool} (serves : s.rbit (Reg.TMR_TCLK_CFG p) 0 = true) (changes : s.tmr.aux[p] ≠ level) :
    PinsKept (s.tclkTaken p level) (s.tclkChange p level) ∧ Only clockParts (s.tclkTaken p level) (s.tclkChange p level) := by
  have edge := captureEdge_pins (s.tclkTaken p level) (8 + p.val) level
  have only : Only clockParts _ _ := (captureEdge_only (s.tclkTaken p level) (8 + p.val) level).mono (by decide)
  rw [tclkChange_eq serves changes]
  dsimp only
  split
  · exact ⟨edge.trans (feedSrc_pins _ _ _), only.trans (feedSrc_only _ _)⟩
  · exact ⟨edge, only⟩

/-- The end of a stop window: the pin is stopped, its flag is set, and `TMR.TCLK_STOP` is told (R256). -/
theorem tclkStopped_spec (p : Fin 4) (watches : s.unitInReset 10 = false) :
    (s.tclkStopped p).rbit Reg.TMR_TCLK_STAT (8 + p.val) = true ∧ (s.tclkStopped p).rbit Reg.TMR_TCLK_STAT p.val = true ∧
      (s.tclkStopped p).rbit Reg.FLT_PEND_A 10 = true ∧ Only messageParts s (s.tclkStopped p) := by
  generalize hv : (s.setFld Reg.TMR_TCLK_STAT (8 + p.val) (8 + p.val) 1).setFlag Reg.TMR_TCLK_STAT p.val = v
  have told : s.tclkStopped p = v.raise Kind.tclkStop (word p.val) := by
    rw [← hv]
    rfl
  have only : Only [.regs, .guards] s v := by
    rw [← hv]
    simp (disch := decide)
  have stopped : v.rbit Reg.TMR_TCLK_STAT (8 + p.val) = true := by
    rw [← hv, setFlag_rbit _ _ _ _ (by omega), setFld_rbit _ _ _ _ _ (by omega), if_pos ⟨Nat.le_refl _, Nat.le_refl _⟩, Nat.sub_self]
    rfl
  have flag : v.rbit Reg.TMR_TCLK_STAT p.val = true := by
    rw [← hv]
    exact setFlag_rbit_same _ _ (by omega)
  have regs : RegsIn [4] v (v.raise Kind.tclkStop (word p.val)) := (regsIn_raise _ _ ⟨by decide, by decide⟩).2 (RegsIn.refl _ _)
  rw [told]
  refine ⟨(rbit_of_regsIn regs _ _ (by decide)).trans stopped, (rbit_of_regsIn regs _ _ (by decide)).trans flag,
    raise_pends Kind.tclkStop _ (by decide) ((unitInReset_of_only only (by decide) 10).trans watches),
    (only_raise _ _ fun _ h => h).2 (only.mono (by decide))⟩

/-! ### AUX_IN balls -/

/-- An edge for which no axis searches its home ends no search (R305). -/
theorem homeEdges_none {p : Fin 4} {level : Bool}
    (none : ∀ x : Axis, ¬ (s.fld (Reg.MOT_CFG x) 21 20 = p.val ∧ s.rbit (Reg.MOT_CFG x) 22 = level)) : s.homeEdges p level = s :=
  List.foldl_fixed' (fun x => if_neg (none x)) _

/-- An AUX_IN ball takes its level (R254). -/
def auxTaken (s : State) (p : Fin 4) (level : Bool) : State := s.modTmr fun x => { x with aux := x.aux.set p level }

theorem auxTaken_aux (s : State) (p : Fin 4) (level : Bool) : (s.auxTaken p level).tmr.aux[p] = level := Vector.getElem_set_self ..

/-- A changed level of an AUX_IN ball is captured, and reaches the axes that search their home (R249, R305). -/
theorem auxChange_eq {p : Fin 4} {level : Bool} (free : s.rbit (Reg.TMR_TCLK_CFG p) 0 = false) (changes : s.tmr.aux[p] ≠ level) :
    s.auxChange p level = ((s.auxTaken p level).captureEdge p.val level).homeEdges p level := by
  have same : (s.modTmr fun x => { x with aux := x.aux.set p level }).rbit (Reg.TMR_TCLK_CFG p) 0 = false := free
  unfold auxChange
  dsimp only
  rw [same, if_neg (by simpa using changes)]
  rfl

end State

/-- Settles O43: a TCLK edge is taken before what it feeds, which leaves the pins; a window's end is its message; an AUX_IN edge is
the captures of the channels that select it. -/
theorem timerPinsAct : Obligations.TimerPinsAct := by
  intro s p level ticks
  refine ⟨fun serves changes => ?_, fun d due => ?_, fun free changes home => ?_⟩
  · have run : exec (.tclkEdge p level) s = .next (s.after (s.tclkChange p level)) := congrArg s.finish (if_pos ticks)
    obtain ⟨aux, time, runs, only⟩ := s.tclkTaken_spec p level
    obtain ⟨kept, fed⟩ := State.tclkChange_spec serves changes
    refine ⟨_, run, ?_, ?_, ?_, (only.mono (by decide)).trans fed⟩
    · rw [kept.aux, aux]
    · rw [kept.times, time]
    · rw [State.rbit, kept.stat]
      exact runs
  · intro t watches
    have run : exec (.tclkStopWindowEnd p) s = .next (s.after (t.tclkStopped p)) := by
      have timed := State.timed_some ticks d fun v => v.tclkStopped p
      rw [← due] at timed
      exact congrArg s.finish timed
    exact ⟨_, run, State.tclkStopped_spec p watches⟩
  · intro takes
    have run : exec (.auxInEdge p level false) s =
        .next (s.after (((s.auxTaken p level).captureEdge p.val level).homeEdges p level)) := by
      rw [← State.auxChange_eq free changes]
      refine congrArg s.finish ((if_neg (by simp [free])).trans ?_)
      simp [State.pinEvent, ticks]
    have aux := s.auxTaken_aux p level
    refine ⟨fun none => ?_, fun x c hc this alone act => ?_⟩
    · have missed : (s.auxTaken p level).captureEdge p.val level = s.auxTaken p level := State.captureEdge_none none
      rw [missed, State.homeEdges_none (s := s.auxTaken p level) home] at run
      exact ⟨_, run, aux, rfl, State.modTmr_only _⟩
    · have taken : (s.auxTaken p level).captureEdge p.val level = (s.auxTaken p level).capture x c :=
        State.captureEdge_single hc this alone act
      obtain ⟨tmr, value, mode, flag, regs⟩ := State.capture_quiet_spec (s := s.auxTaken p level) hc act
      rw [taken, State.homeEdges_none] at run
      · exact ⟨_, run, by rw [tmr, aux], by rw [tmr]; rfl, value, mode.trans this.1, flag, regs⟩
      · intro y
        have kept : ((s.auxTaken p level).capture x c).reg (Reg.MOT_CFG y) = s.reg (Reg.MOT_CFG y) := by
          refine regs _ ?_
          simp only [List.mem_cons, List.not_mem_nil, or_false, Reg.MOT_CFG, Reg.TMR_VAL_LO, Reg.TMR_VAL_HI, Reg.TMR_STAT]
          omega
        rw [State.fld, State.rbit, kept]
        exact home y

end Sys2Proof.Machine
end

/-! ## Writes of live words beyond the timers -/

section
namespace Sys2Proof.Machine.State

variable {s : State} {env : OpEnv} {ws : Words}

theorem lappedBy_beyond (beyond : ∀ w ∈ ws, 0x5800 ≤ w.1) (t : TimerId) (u : State) : u.lappedBy t ws = 0 := by
  have untouched : ∀ c ∈ List.range 4,
      (ws.any fun w => decide (w.1 = Reg.TMR_VAL_LO t c) || decide (w.1 = Reg.TMR_VAL_HI t c)) = false := by
    intro c hc
    have := List.mem_range.1 hc
    have := t.isLt
    refine List.any_eq_false.2 fun w hw => ?_
    have := beyond w hw
    simp only [Bool.or_eq_true, decide_eq_true_eq, Reg.TMR_VAL_LO, Reg.TMR_VAL_HI]
    omega
  refine (congrArg (fun l : List Nat => word l.sum) (List.map_congr_left (g := fun _ => 0) fun c hc => ?_)).trans rfl
  rw [untouched c hc]
  rfl

theorem setLapped_beyond (beyond : ∀ w ∈ ws, 0x5800 ≤ w.1) (u : State) : u.setLapped ws = u :=
  List.foldl_fixed' (fun t => by rw [lappedBy_beyond beyond, if_pos rfl]) _

/-- What a write of live words without flags makes: they are stored, one commit, and what they start (R194). -/
theorem makeWrite_live (plain : ∀ w ∈ ws, w1gMask w.1 = 0) (live : ∀ w ∈ ws, s.moot w = false) (nonempty : ws ≠ [])
    (beyond : ∀ w ∈ ws, 0x5800 ≤ w.1) :
    s.makeWrite env ws = (startAll s env (s.storeWords env.mem ws).commit ws, (s.storeWords env.mem ws).order + 1) := by
  have fresh : ∀ w ∈ ws, s.staleClear w = false := fun w hw => by simp [staleClear, plain w hw]
  have noStale : ws.filter s.staleClear = [] := List.filter_eq_nil_iff.2 fun w hw => by simp [fresh w hw]
  have allFresh : (ws.filter fun w => !s.staleClear w) = ws := List.filter_eq_self.2 fun w hw => by simp [fresh w hw]
  have allLive : (ws.filter fun w => !s.moot w) = ws := List.filter_eq_self.2 fun w hw => by simp [live w hw]
  unfold makeWrite
  simp only [noStale, allLive, allFresh, List.foldl_nil, List.isEmpty_iff, nonempty, if_false, setLapped_beyond beyond, commit_order]

/-- A register with fields is written with effect, whatever its new value is (R551): those of blocks PWR, FLT and HAT that are not
stand apart. -/
theorem moot_fields {a : Nat} {v : Word} (fields : rwMask a ≠ 0) (low : 0x5000 ≤ a) (high : a < 0xE000) : s.moot (a, v) = false := by
  unfold moot
  dsimp only
  rw [if_neg (by omega), if_neg (by simp only [Reg.PWR_REQ]; omega), if_neg (by simp only [Reg.FLT_RELEASE]; omega), if_neg (by omega),
    if_pos fields]

end Sys2Proof.Machine.State
end

/-! ## Job selections -/

section
namespace Sys2Proof.Machine.State

variable {s t u : State} {env : OpEnv} {n : Lane} {v : Word} {x : Selection}

/-! ### The word of a selection -/

/-- The fields of the word of a selection (R288). -/
theorem jobWord_fields (crate : BitVec 17) (job : Byte) :
    bits (word (crate.toNat + job.toNat * 2 ^ 24)) 16 0 = crate.toNat ∧ bits (word (crate.toNat + job.toNat * 2 ^ 24)) 31 24 = job.toNat := by
  have := crate.isLt
  have := job.isLt
  simp only [bits, word, BitVec.toNat_ofNat, Nat.shiftRight_eq_div_pow]
  omega

/-- `PLC_JOB` of a lane holds `CRATE` and `JOB`, and starts nothing of its own (R288). -/
theorem plcJob_masks : ∀ n : Lane, rwMask (Reg.PLC_JOB n) = 0xFF01FFFF ∧ w1gMask (Reg.PLC_JOB n) = 0 ∧ jobLane (Reg.PLC_JOB n) = some n := by
  decide

/-- The word of a selection has no bit outside the fields of `PLC_JOB`. -/
theorem jobWord_masked (crate : BitVec 17) (job : Byte) (n : Lane) :
    word (crate.toNat + job.toNat * 2 ^ 24) &&& rwMask (Reg.PLC_JOB n) = word (crate.toNat + job.toNat * 2 ^ 24) := by
  have fields : ∀ k < 32, (0xFF01FFFF : Word).getLsbD k = true ∨ 17 ≤ k ∧ k < 24 := by decide
  rw [(plcJob_masks n).1]
  refine BitVec.eq_of_getLsbD_eq fun k hk => ?_
  rw [BitVec.getLsbD_and]
  rcases fields k hk with inside | ⟨low, high⟩
  · rw [inside, Bool.and_true]
  · have clear : (crate.toNat + job.toNat * 2 ^ 24).testBit k = false := by
      rw [Nat.add_comm, Nat.mul_comm, Nat.testBit_two_pow_mul_add _ (by omega), if_pos high]
      exact Nat.testBit_lt_two_pow (Nat.lt_of_lt_of_le crate.isLt (Nat.pow_le_pow_right (by decide) low))
    rw [BitVec.getLsbD_ofNat, clear, Bool.and_false, Bool.false_and]

/-! ### What a write of `PLC_JOB` makes -/

/-- A fold over the lanes that acts on one lane only. -/
theorem foldl_allLanes_single {f : State → Lane → State} {p : Lane → Bool} (single : ∀ m, p m = decide (m = n)) (s : State) :
    allLanes.foldl (fun (s : State) (m : Lane) => if p m then f s m else s) s = f s n := by
  match n with
  | 0 | 1 | 2 | 3 => simp [allLanes, single]

/-- A write of a lane's job changes the latched set of that lane alone (R278). -/
theorem touchesLatched_job (n : Lane) (v : Word) (m : Lane) : touchesLatched [(Reg.PLC_JOB n, v)] m = decide (m = n) := by
  have lanes : ∀ n m : Lane, touchesLatched [(Reg.PLC_JOB n, 0)] m = decide (m = n) := by decide
  exact lanes n m

theorem selectsJob_job (n : Lane) (v : Word) : selectsJob (Reg.PLC_JOB n, v) = decide (bits v 31 24 ≠ 255) := by
  simp only [selectsJob, plcJob_masks, Option.isSome_some, Bool.true_and]

/-- It changes what the waveform check of a head reads where it selects a job (R459). -/
theorem touchesTable_job (n : Lane) (v : Word) (h : Head) :
    touchesTable [(Reg.PLC_JOB n, v)] h = (decide (h = n) && decide (bits v 31 24 ≠ 255)) := by
  have apart : ∀ n h : Lane, decide (Reg.PLC_JOB n = Reg.HED_WF h) = false ∧ decide (Reg.PLC_JOB n = Reg.HED_SCALE h) = false ∧
      decide (Reg.PLC_JOB n = Reg.PLC_JOB h) = decide (h = n) ∧
      decide (waveBase h ≤ Reg.PLC_JOB n ∧ Reg.PLC_JOB n < waveBase h + 0x4000) = false := by decide
  obtain ⟨wf, scale, job, wave⟩ := apart n h
  simp only [touchesTable, List.any_cons, List.any_nil, wf, scale, job, wave, selectsJob_job, Bool.false_or, Bool.or_false]

/-- A write of `PLC_JOB` starts nothing of its own. -/
theorem effect_job (n : Lane) (v : Word) (u : State) : effect s env u (Reg.PLC_JOB n, v) = u := by
  have := n.isLt
  unfold effect
  dsimp only
  rw [if_neg (by simp only [Reg.PLC_JOB]; omega), show Reg.PLC_JOB n / 0x1000 = 6 by simp only [Reg.PLC_JOB]; omega]
  exact (if_pos (by simp only [Reg.PLC_JOB]; omega)).trans (if_neg (by simp only [Reg.PLC_JOB]; omega))

theorem makeWrite_job (n : Lane) (v : Word) :
    s.makeWrite env [(Reg.PLC_JOB n, v)] =
      (startAll s env (s.storeWords env.mem [(Reg.PLC_JOB n, v)]).commit [(Reg.PLC_JOB n, v)],
        (s.storeWords env.mem [(Reg.PLC_JOB n, v)]).order + 1) := by
  obtain ⟨fields, flagless, -⟩ := plcJob_masks n
  have place : 0x5800 ≤ Reg.PLC_JOB n ∧ Reg.PLC_JOB n < 0xE000 := by simp only [Reg.PLC_JOB]; omega
  refine makeWrite_live ?_ ?_ (List.cons_ne_nil _ _) ?_ <;> intro w hw <;> rw [List.mem_singleton.1 hw]
  · exact flagless
  · exact moot_fields (by rw [fields]; decide) (by omega) place.2
  · exact place.1

/-- What follows the commit of a job: a late commit is told, and the table of a selection is checked (R280, R459). -/
theorem startAll_job (n : Lane) (v : Word) (u : State) : startAll s env u [(Reg.PLC_JOB n, v)] =
    if bits v 31 24 ≠ 255 then (u.commitLate n).checkTable n else u.commitLate n := by
  unfold startAll
  rw [foldl_allLanes_single (touchesLatched_job n v), List.foldl_cons, List.foldl_nil, effect_job]
  by_cases selects : bits v 31 24 = 255
  · rw [if_neg (not_not_intro selects)]
    exact List.foldl_fixed' (fun h => by rw [touchesTable_job, decide_eq_false (not_not_intro selects), Bool.and_false]; rfl) _
  · rw [if_pos selects]
    exact foldl_allLanes_single (fun h => by rw [touchesTable_job, decide_eq_true selects, Bool.and_true]) _

/-- A word of `PLC_JOB` is stored by what it selects, or deselects. -/
theorem storeWords_job (n : Lane) (v : Word) (m : MemEnv) : s.storeWords m [(Reg.PLC_JOB n, v)] =
    match s.selectionOf m (Reg.PLC_JOB n, v) with
    | some (_, .ok x) => s.applySelection n (v &&& rwMask (Reg.PLC_JOB n)) x
    | some (_, .error _) => s
    | none => s.deselect n (v &&& rwMask (Reg.PLC_JOB n)) := by
  obtain ⟨-, flagless, lane⟩ := plcJob_masks n
  have flags : v &&& w1gMask (Reg.PLC_JOB n) = 0 := by rw [flagless]; exact BitVec.and_zero
  have placed (u : State) : u.placeWords [] = u := rfl
  have low : ¬ 0x10000000 ≤ Reg.PLC_JOB n ∧ ¬ 0x10000 ≤ Reg.PLC_JOB n := by simp only [Reg.PLC_JOB]; omega
  unfold storeWords
  simp only [List.foldl_cons, List.foldl_nil, List.filter_cons, List.filter_nil, lane, Option.isSome_some, Bool.not_true,
    Bool.false_eq_true, if_false, if_neg low.1, if_neg low.2, if_pos flags, placed] <;> rfl

/-- What an accepted selection makes (R390, R392). -/
theorem makeWrite_select {crate : BitVec 17} {job : Byte} (selects : job ≠ 255)
    (accepted : s.checkSelection n crate.toNat job.toNat (!env.mem.noDqs) = .ok x) :
    s.makeWrite env [(Reg.PLC_JOB n, word (crate.toNat + job.toNat * 2 ^ 24))] =
      (((s.applySelection n (word (crate.toNat + job.toNat * 2 ^ 24)) x).commit.commitLate n).checkTable n,
        (s.applySelection n (word (crate.toNat + job.toNat * 2 ^ 24)) x).order + 1) := by
  obtain ⟨fldCrate, fldJob⟩ := jobWord_fields crate job
  have named : job.toNat ≠ 255 := fun e => selects (BitVec.eq_of_toNat_eq e)
  have masked := jobWord_masked crate job n
  generalize word (crate.toNat + job.toNat * 2 ^ 24) = w at *
  have chosen : s.selectionOf env.mem (Reg.PLC_JOB n, w) = some (n, .ok x) := by
    simp only [selectionOf, plcJob_masks, selectsJob_job, fldCrate, fldJob, accepted, named, ne_eq, not_false_eq_true, decide_true, if_true]
  rw [makeWrite_job, startAll_job, storeWords_job, chosen, fldJob, if_pos named, masked]

/-- What a deselection makes (R393). -/
theorem makeWrite_deselect (n : Lane) :
    s.makeWrite env [(Reg.PLC_JOB n, 0xFF000000)] = ((s.deselect n 0xFF000000).commit.commitLate n, s.order + 1) := by
  have none_ : s.selectionOf env.mem (Reg.PLC_JOB n, 0xFF000000) = none := by
    simp only [selectionOf, plcJob_masks, selectsJob_job]
    rfl
  rw [makeWrite_job, startAll_job, storeWords_job, none_, (plcJob_masks n).1]
  rfl

end Sys2Proof.Machine.State
end

/-! ## What an accepted selection leaves -/

section
namespace Sys2Proof.Machine.State

variable {s t u : State} {n : Lane} {x : Selection}

/-! ### What follows the job itself -/

/-- The registers that an accepted selection sets from its job record and envelope (R392). -/
def jobRegs (n : Lane) : List Nat :=
  [Reg.PLC_JOB n, Reg.DEV_ENV_RATE n, Reg.DEV_ENV_COUNT n, Reg.PWR_MARK n, Reg.PWR_MARKCOL n]

/-- Those registers lie in the blocks DEV, PWR and PLC, and are none of those that tell of a late commit (R280). -/
theorem jobRegs_place : ∀ n : Lane, ∀ a ∈ jobRegs n, a / 0x1000 ∈ [0, 3, 6] ∧
    a ∉ [Reg.PLC_LATE_CMT_LO n, Reg.PLC_LATE_CMT_HI n, Reg.PLC_LATE_LATCH_LO n, Reg.PLC_LATE_LATCH_HI n, Reg.PLC_EVT n] := by
  decide

/-- From `s` to `t` only head ports and what a message reports change, and the registers of the job stand. -/
def KeepsJob (n : Lane) (s t : State) : Prop := Only (.hed :: messageParts) s t ∧ ∀ a ∈ jobRegs n, t.reg a = s.reg a

namespace KeepsJob

theorem trans (h : KeepsJob n s t) (k : KeepsJob n t u) : KeepsJob n s u :=
  ⟨h.1.trans k.1, fun a ha => (k.2 a ha).trans (h.2 a ha)⟩

/-- An operation on registers of other blocks. -/
theorem of_regsIn {m : List Part} {l : List Nat} (h : Only m s t) (hm : ∀ p ∈ m, p ∈ .hed :: messageParts)
    (regs : RegsIn l s t) (hl : ∀ b ∈ [0, 3, 6], b ∉ l) : KeepsJob n s t :=
  ⟨h.mono hm, fun a ha => regs a (hl _ (jobRegs_place n a ha).1)⟩

theorem of_only {m : List Part} (h : Only m s t) (hm : ∀ p ∈ m, p ∈ .hed :: messageParts) (hr : .regs ∉ m) :
    KeepsJob n s t := of_regsIn h hm (h.regsIn hr) (by simp)

theorem refl (s : State) : KeepsJob n s s := of_only (Only.refl [] s) (by decide) (by decide)

theorem ite {c : Prop} [Decidable c] (ht : KeepsJob n s t) (hu : KeepsJob n s u) : KeepsJob n s (if c then t else u) := by
  split
  · exact ht
  · exact hu

theorem setReg (s : State) {a : Nat} (v : Word) (ha : a ∉ jobRegs n) : KeepsJob n s (s.setReg a v) :=
  ⟨(setReg_only a v).mono (by decide), fun _ hb => setReg_reg_other _ _ _ _ fun e => ha (e ▸ hb)⟩

theorem setFlag (s : State) {a : Nat} (k : Nat) (ha : a ∉ jobRegs n) : KeepsJob n s (s.setFlag a k) :=
  ⟨(setFlag_only a k).mono (by decide), fun _ hb => setFlag_reg_other _ _ _ _ fun e => ha (e ▸ hb)⟩

theorem commit (s : State) : KeepsJob n s s.commit := of_only commit_only (by decide) (by decide)

theorem raiseLane (s : State) {k : Kind} (a : Word) (m : Lane) (hk : k.src < 36) : KeepsJob n s (s.raiseLane k a m) :=
  of_regsIn (raiseN_only 12 s k a (some m)) (by decide) (raiseN_in 12 s k a (some m) hk) (by decide)

end KeepsJob

/-- A late commit is told with the counts of the commit and of the latch (R280). -/
theorem commitLate_keepsJob (s : State) (n : Lane) : KeepsJob n s (s.commitLate n) := by
  have apart {a : Nat} (ha : a ∈ [Reg.PLC_LATE_CMT_LO n, Reg.PLC_LATE_CMT_HI n, Reg.PLC_LATE_LATCH_LO n, Reg.PLC_LATE_LATCH_HI n,
      Reg.PLC_EVT n]) : a ∉ jobRegs n := fun h => (jobRegs_place n a h).2 ha
  unfold commitLate
  split
  · exact .refl s
  · exact (((((KeepsJob.setReg s _ (apart (by simp))).trans (.setReg _ _ (apart (by simp)))).trans
      (.setReg _ _ (apart (by simp)))).trans (.setReg _ _ (apart (by simp)))).trans (.setFlag _ _ (apart (by simp)))).trans
      (.raiseLane _ _ _ (by simp only [Kind.commitLate]; omega))

theorem commitLate_only (s : State) (n : Lane) : Only messageParts s (s.commitLate n) := by
  unfold commitLate
  split
  · exact Only.refl _ _
  · simp (disch := decide)

/-- The check of a head's table (R459). -/
theorem checkTable_keepsJob (s : State) (h : Head) : KeepsJob n s (s.checkTable h) := by
  have block : ∀ h : Head, Reg.HED_TEFF h / 0x1000 ∈ [4, 11] ∧ Reg.HED_EVT h / 0x1000 ∈ [4, 11] := by decide
  have shown (a : Nat) : KeepsJob n s (s.setFld (Reg.HED_TEFF h) 19 0 a) :=
    .of_regsIn (setFld_only _ _ _ _) (by decide) ((regsIn_setFld _ _ _ _ (block h).1).2 (RegsIn.refl _ _)) (by decide)
  have bad (v : State) (b : Bool) : KeepsJob n v (v.modHead h fun x => { x with wfBad := b }) :=
    .of_only (modHead_only _ _) (by decide) (by decide)
  have told (v : State) (a : Word) : KeepsJob n v (v.hedRaise h 5 (Kind.waveform h.val) a) :=
    .ite (.refl v) ((KeepsJob.of_regsIn (setFlag_only _ _) (by decide) ((regsIn_setFlag _ _ (block h).2).2 (RegsIn.refl _ _)) (by decide)).trans
      (.raiseLane _ _ _ (by simp only [Kind.waveform]; omega)))
  unfold checkTable
  dsimp only
  split
  · exact ((shown _).trans (bad _ _)).trans (told _ _)
  · exact (shown _).trans (bad _ _)

/-! ### The job itself -/

theorem setRegs_only (s : State) (l : List (Nat × Word)) : Only [.regs] s (s.setRegs l) := Only.foldl (fun _ _ => setReg_only _ _) _ _

/-- The registers of the job with what a selection sets them to (R392). -/
def jobWords (n : Lane) (w : Word) (x : Selection) : List (Nat × Word) :=
  [(Reg.PLC_JOB n, w), (Reg.DEV_ENV_RATE n, word x.env.maxRate), (Reg.DEV_ENV_COUNT n, 0), (Reg.PWR_MARK n, word x.job.eFix),
    (Reg.PWR_MARKCOL n, word x.job.eCol)]

/-- The state of a selection with its job record and envelope, before its tables and values (R392). -/
def jobShown (s : State) (n : Lane) (w : Word) (x : Selection) : State :=
  (s.setRegs (jobWords n w x)).modLane n fun l => { l with cols := x.job.columns }

theorem jobShown_reg (s : State) (n : Lane) (w : Word) (x : Selection) : ∀ e ∈ jobWords n w x, (s.jobShown n w x).reg e.1 = e.2 := by
  have distinct : ∀ n : Lane, (jobRegs n).Nodup := by decide
  have names : (jobWords n w x).map Prod.fst = jobRegs n := rfl
  rw [jobShown]
  simp only [modLane_reg]
  suffices shown : ∀ (l : List (Nat × Word)) (s : State), (l.map Prod.fst).Nodup → ∀ e ∈ l,
      (s.setRegs l).reg e.1 = e.2 from shown _ s (names ▸ distinct n)
  intro l
  induction l with
  | nil => exact fun _ _ _ he => absurd he List.not_mem_nil
  | cons f l ih =>
    intro s nodup e he
    obtain ⟨new, nodup⟩ := List.nodup_cons.1 nodup
    rcases List.mem_cons.1 he with rfl | later
    · exact (setRegs_reg_other fun g hg same => new (List.mem_map.2 ⟨g, hg, same⟩)).trans (setReg_reg_same _ _ _)
    · exact ih _ nodup e later

theorem jobShown_only (s : State) (n : Lane) (w : Word) (x : Selection) : Only [.regs, .plc] s (s.jobShown n w x) :=
  ((setRegs_only _ _).mono (by decide)).trans ((modLane_only _ _).mono (by decide))

theorem jobShown_lane (s : State) (n : Lane) (w : Word) (x : Selection) (m : Lane) :
    (s.jobShown n w x).lane m = if n = m then { s.lane n with cols := x.job.columns } else s.lane m := modLane_lane _ _ _ _

/-! ### The tables of the job -/

/-- Words of the table windows. -/
theorem setTableWords_only (s : State) (a : Nat) (l : List Word) : Only [.flash] s (s.modMem fun m => m.setTableWords a l) := by
  have rest : ∀ (l : List Word) (m : Mem) (a : Nat), m.setTableWords a l = { m with tables := (m.setTableWords a l).tables } := fun l => by
    induction l with
    | nil => exact fun _ _ => rfl
    | cons w l ih => exact fun m a => ih (m.setTable a w) (a + 4)
  refine modMem_only_of _ (fun _ => ?_) (absurd (by decide)) fun _ => ?_ <;> rw [rest]
  exact ⟨rfl, rfl⟩

/-- The loads of a CALIB section change tables, and the gearing of the axis that carries the lane (R391). -/
theorem loadCalib_frame (s : State) (n : Lane) (k : Calib) : Only [.flash, .regs] s (s.loadCalib n k) ∧ RegsIn [7] s (s.loadCalib n k) := by
  unfold loadCalib
  split
  · exact ⟨Only.refl _ _, RegsIn.refl _ _⟩
  case h_2 x carried =>
    have gear : Reg.MOT_GEAR x / 0x1000 ∈ [7] := by simp only [List.mem_singleton, Reg.MOT_GEAR]; omega
    have geared (v : State) (sine : Only [.flash] s v) :
        let u := if k.camPoints = 0 then v else (v.modMem fun m => m.setTableWords (camBase x) k.cams).setFld (Reg.MOT_GEAR x) 6 0 k.camPoints
        Only [.flash, .regs] s u ∧ RegsIn [7] s u := by
      have cams := sine.trans (setTableWords_only v (camBase x) k.cams)
      dsimp only
      split
      · exact ⟨sine.mono (by decide), (sine.regsIn (by decide)).mono (by simp)⟩
      · exact ⟨(only_setFld _ _ _ _ (by decide)).2 (cams.mono (by decide)),
          (regsIn_setFld _ _ _ _ gear).2 ((cams.regsIn (by decide)).mono (by simp))⟩
    cases k.sine with
    | some l => exact geared _ (setTableWords_only _ _ _)
    | none => exact geared s (Only.refl _ _)

/-- The tables that a selection loads (R391). -/
def loadTables (s : State) (n : Lane) (x : Selection) : State :=
  let v := s.modMem fun m => (m.setTableWords (waveBase n) x.waveform).setTableWords (fontBase n) x.font
  match x.calib with
  | some k => v.loadCalib n k
  | none => v

theorem loadTables_frame (s : State) (n : Lane) (x : Selection) : Only [.flash, .regs] s (s.loadTables n x) ∧ RegsIn [7] s (s.loadTables n x) := by
  have tables : Only [.flash] s (s.modMem fun m => (m.setTableWords (waveBase n) x.waveform).setTableWords (fontBase n) x.font) :=
    (setTableWords_only s (waveBase n) x.waveform).trans (setTableWords_only (s.modMem fun m => m.setTableWords (waveBase n) x.waveform) _ _)
  unfold loadTables
  generalize (s.modMem fun m => (m.setTableWords (waveBase n) x.waveform).setTableWords (fontBase n) x.font) = v at tables
  have regs := (tables.regsIn (by decide)).mono (m := [7]) (by simp)
  cases x.calib with
  | some k =>
    obtain ⟨only, gear⟩ := loadCalib_frame v n k
    exact ⟨(tables.mono (by decide)).trans only, regs.trans gear⟩
  | none => exact ⟨tables.mono (by decide), regs⟩

/-- An accepted selection shows its job, loads its tables, and sets its values (R392). -/
theorem applySelection_eq (s : State) (n : Lane) (w : Word) (x : Selection) :
    s.applySelection n w x = ((s.jobShown n w x).loadTables n x).setRegs x.values := rfl

theorem applySelection_order (s : State) (n : Lane) (w : Word) (x : Selection) : (s.applySelection n w x).order = s.order := by
  have shown : (s.jobShown n w x).order = s.order := (s.jobShown_only n w x).part .order (by decide)
  have loaded := (loadTables_frame (s.jobShown n w x) n x).1.part .order (by decide)
  exact ((setRegs_only _ _).part .order (by decide) : _).trans (loaded.trans shown)

/-- What a selection makes of its lane and of the registers of its job, and what else it may change (R392). -/
theorem selected_spec (s : State) (n : Lane) (w : Word) (x : Selection) :
    let u := ((s.applySelection n w x).commit.commitLate n).checkTable n
    (u.lane n).cols = x.job.columns ∧
      (∀ e ∈ jobWords n w x, (∀ f ∈ x.values, f.1 ≠ e.1) → u.reg e.1 = e.2) ∧
      (∀ m : Lane, m ≠ n → u.lane m = s.lane m) ∧ Only ([.flash, .plc, .hed] ++ messageParts) s u := by
  have stored : Only ([.flash, .hed] ++ messageParts) (s.jobShown n w x) (s.applySelection n w x) :=
    ((loadTables_frame _ n x).1.mono (by decide)).trans ((setRegs_only _ _).mono (by decide))
  have follows : KeepsJob n (s.applySelection n w x) (((s.applySelection n w x).commit.commitLate n).checkTable n) :=
    ((KeepsJob.commit _).trans (commitLate_keepsJob _ n)).trans (checkTable_keepsJob _ n)
  have regs (e : Nat × Word) (he : e ∈ jobWords n w x) (other : ∀ f ∈ x.values, f.1 ≠ e.1) : (s.applySelection n w x).reg e.1 = e.2 := by
    have named : e.1 ∈ jobRegs n := List.mem_map_of_mem (f := Prod.fst) he
    have block : e.1 / 0x1000 ∉ [7] := fun h => absurd ((jobRegs_place n _ named).1) (by rw [List.mem_singleton.1 h]; decide)
    rw [applySelection_eq, setRegs_reg_other other, (loadTables_frame _ n x).2 _ block, jobShown_reg _ _ _ _ _ he]
  generalize s.applySelection n w x = v at stored follows regs
  have frame := stored.trans (follows.1.mono (by decide))
  have lanes (m : Lane) : ((v.commit.commitLate n).checkTable n).lane m = (s.jobShown n w x).lane m := by
    rw [lane, frame.part .plc (by decide), lane]
  refine ⟨?_, fun e he other => ?_, fun m hm => ?_, ((s.jobShown_only n w x).mono (by decide)).trans (frame.mono (by decide))⟩
  · rw [lanes, jobShown_lane, if_pos rfl]
  · rw [follows.2 _ (List.mem_map_of_mem (f := Prod.fst) he : e.1 ∈ jobRegs n), regs e he other]
  · rw [lanes, jobShown_lane, if_neg (Ne.symm hm)]

/-- What a deselection makes: the lane has no job and no rate, and no table is loaded (R282, R393). -/
theorem deselected_spec (s : State) (n : Lane) :
    let u := (s.deselect n 0xFF000000).commit.commitLate n
    u.reg (Reg.PLC_JOB n) = 0xFF000000 ∧ u.maxRate n = 0 ∧ u.lane n = s.lane n ∧ u.mem = s.mem ∧
      (s.lateRec n = none → RegsBut [Reg.PLC_JOB n, Reg.DEV_ENV_RATE n] s u ∧ Only [.order, .regs] s u) := by
  have apart : Reg.DEV_ENV_RATE n ≠ Reg.PLC_JOB n := by simp only [Reg.DEV_ENV_RATE, Reg.PLC_JOB]; omega
  have kept := commitLate_keepsJob (s.deselect n 0xFF000000).commit n
  have told := commitLate_only (s.deselect n 0xFF000000).commit n
  have job : (s.deselect n 0xFF000000).reg (Reg.PLC_JOB n) = 0xFF000000 := by
    rw [deselect, setReg_reg_other _ _ _ _ apart, setReg_reg_same]
  have rate : (s.deselect n 0xFF000000).reg (Reg.DEV_ENV_RATE n) = 0 := setReg_reg_same _ _ _
  refine ⟨?_, ?_, ?_, ?_, fun punctual => ?_⟩
  · exact (kept.2 _ (by simp [jobRegs])).trans job
  · rw [maxRate, fld, kept.2 _ (by simp [jobRegs]), commit_reg, rate]
    rfl
  · rw [lane, told.part .plc (by decide)]
    rfl
  · exact (mem_of_only told (by decide) (by decide) (by decide)).trans rfl
  · have none_ : (s.deselect n 0xFF000000).commit.lateRec n = none := punctual
    rw [commitLate, none_]
    refine ⟨fun a ha => ?_, by simp (disch := decide) [deselect]⟩
    simp only [List.mem_cons, List.not_mem_nil, or_false, not_or] at ha
    rw [commit_reg, deselect, setReg_reg_other _ _ _ _ (Ne.symm ha.2), setReg_reg_other _ _ _ _ (Ne.symm ha.1)]

/-! ### The commands -/

variable {o : OpCtx} {env : OpEnv}

/-- A granted selection that its checks accept (R390, R392). -/
theorem exec_jobSelection {crate : BitVec 17} {job : Byte}
    (granted : s.Granted o env (Reg.PLC_JOB n) [word (crate.toNat + job.toNat * 2 ^ 24)]) (selects : job ≠ 255)
    (accepted : s.checkSelection n crate.toNat job.toNat (!env.mem.noDqs) = .ok x) :
    exec (.jobSelection o n crate job env) s =
      .next (s.written o (((s.applySelection n (word (crate.toNat + job.toNat * 2 ^ 24)) x).commit.commitLate n).checkTable n)) := by
  have run := finish_granted granted
  rw [wordsAt_single (by simp only [Reg.PLC_JOB]; omega), makeWrite_select selects accepted, applySelection_order] at run
  exact run

/-- A granted deselection (R393). -/
theorem exec_jobDeselection (granted : s.Granted o OpEnv.quiet (Reg.PLC_JOB n) [0xFF000000]) :
    exec (.jobDeselection o n) s = .next (s.written o ((s.deselect n 0xFF000000).commit.commitLate n)) := by
  have run := finish_granted granted
  rw [wordsAt_single (by simp only [Reg.PLC_JOB]; omega), makeWrite_deselect] at run
  exact run

end Sys2Proof.Machine.State
end

/-! ## Crate verification, and the setting of the calendar -/

section
namespace Sys2Proof.Machine.State

variable {s t u : State} {env : OpEnv} {o : OpCtx}

/-! ### Words of the blocks CMP and CAL that end in a trigger -/

section
variable {ws : Words} (range : ∀ w ∈ ws, 0x9F00 ≤ w.1 ∧ w.1 < 0xA020)
include range

theorem jobLane_go {w : Nat × Word} (hw : w ∈ ws) : jobLane w.1 = none := by
  have := range w hw
  exact if_neg (by omega)

theorem touchesLatched_go (n : Lane) : touchesLatched ws n = false := by
  have := n.isLt
  refine List.any_eq_false.2 fun w hw => ?_
  have := range w hw
  simp only [Bool.or_eq_true, decide_eq_true_eq, Reg.PLC_JOB, Reg.PLC_MARK_BASE, Reg.CMP_GCACHE, Reg.CAL_SHELF, Reg.CAL_DATE_OVR]
  omega

theorem touchesTable_go (h : Head) : touchesTable ws h = false := by
  have := h.isLt
  refine List.any_eq_false.2 fun w hw => ?_
  have := range w hw
  have none_ : selectsJob w = false := selectsJob_none (jobLane_go range hw) w.2
  simp only [none_, Bool.and_false, Bool.or_eq_true, decide_eq_true_eq, Bool.false_eq_true, or_false]
  simp only [Reg.HED_WF, Reg.HED_SCALE, waveBase]
  omega

/-- What such a word starts at its commit (R388, R421). -/
theorem effect_go {w : Nat × Word} (hw : w ∈ ws) (u : State) : effect s env u w = u.compositorEffect w.1 w.2 := by
  have := range w hw
  have block : w.1 / 0x1000 = 9 ∨ w.1 / 0x1000 = 10 := by omega
  unfold effect
  dsimp only
  rw [if_neg (by omega)]
  rcases block with h | h <;> rw [h] <;> rfl

/-- Such words are placed, and nothing else is stored. -/
theorem storeWords_go (plain : ∀ w ∈ ws, w1gMask w.1 = 0) (m : MemEnv) : s.storeWords m ws = s.placeWords ws := by
  have fixed {f : State → Nat × Word → State} (hf : ∀ (v : State), ∀ w ∈ ws, f v w = v) (v : State) : ws.foldl f v = v :=
    (List.foldl_ext f (fun v _ => v) v hf).trans (List.foldl_fixed _)
  have all : (ws.filter fun w => !(jobLane w.1).isSome) = ws :=
    List.filter_eq_self.2 fun w hw => by rw [jobLane_go range hw]; rfl
  unfold storeWords
  dsimp only
  refine (fixed (fun v w hw => ?_) _).trans ?_
  · have := range w hw
    rw [if_neg (by omega), if_neg (by omega), if_pos (by rw [plain w hw]; exact BitVec.and_zero)]
  · rw [all, fixed fun v w hw => ?_]
    rw [jobLane_go range hw]

/-- Such a word is live where it has fields or pulls its trigger (R551). -/
theorem moot_go {w : Nat × Word} (hw : w ∈ ws) (plain : w1gMask w.1 = 0) (acts : rwMask w.1 ≠ 0 ∨ w.2 &&& wtMask w.1 ≠ 0) :
    s.moot w = false := by
  have := range w hw
  by_cases fields : rwMask w.1 = 0
  · unfold moot mootCommand
    dsimp only
    rw [if_neg (by omega), if_neg (by simp only [Reg.PWR_REQ]; omega), if_neg (by simp only [Reg.FLT_RELEASE]; omega), if_neg (by omega),
      if_neg (not_not_intro fields), if_neg (not_not_intro plain), if_neg (by omega), if_neg (by omega), if_neg (by omega),
      if_neg (by omega), if_neg (by omega), decide_eq_false (acts.resolve_left (not_not_intro fields))]
  · exact moot_fields fields (by omega) (by omega)

/-- What a write of such words makes: they are placed, one commit, and what each starts (R194). -/
theorem makeWrite_go (plain : ∀ w ∈ ws, w1gMask w.1 = 0) (acts : ∀ w ∈ ws, rwMask w.1 ≠ 0 ∨ w.2 &&& wtMask w.1 ≠ 0) (nonempty : ws ≠ []) :
    s.makeWrite env ws = (ws.foldl (fun u w => u.compositorEffect w.1 w.2) (s.placeWords ws).commit, s.order + 1) := by
  have late (v : State) : allLanes.foldl (fun (s : State) (n : Lane) => if touchesLatched ws n then s.commitLate n else s) v = v :=
    List.foldl_fixed' (fun n => by rw [touchesLatched_go range]; rfl) _
  have table (v : State) : allLanes.foldl (fun (s : State) (n : Lane) => if touchesTable ws n then s.checkTable n else s) v = v :=
    List.foldl_fixed' (fun n => by rw [touchesTable_go range]; rfl) _
  have order : (s.placeWords ws).order = s.order := (placeWords_only ws).part .order (by decide)
  rw [makeWrite_live plain (fun w hw => moot_go range hw (plain w hw) (acts w hw)) nonempty fun w hw => by have := range w hw; omega,
    storeWords_go range plain, startAll, late, table, order]
  exact congrArg (·, s.order + 1) (List.foldl_ext _ _ _ fun v w hw => effect_go range hw v)

end

/-- The fields of a word's register are placed, then those of the words after it. -/
theorem placeWords_cons {a : Nat} (v : Word) (ws : Words) (u : State) (ha : a < 0xC000) :
    u.placeWords ((a, v) :: ws) = (u.setReg a ((u.reg a &&& ~~~(rwMask a)) ||| (v &&& rwMask a))).placeWords ws := by
  rw [placeWords, List.foldl_cons, if_neg (by dsimp only; omega)]
  rfl

theorem placeWords_nil (u : State) : u.placeWords [] = u := rfl

/-- Registers that no word with fields names are as before. -/
theorem placeWords_regsBut {l : List Nat} : ∀ (ws : Words) (s : State), (∀ w ∈ ws, rwMask w.1 = 0 ∨ w.1 ∈ l) → RegsBut l s (s.placeWords ws)
  | [], _, _ => fun _ _ => rfl
  | w :: ws, s, h => fun b hb => by
    have first : (s.placeWords [w]).reg b = s.reg b := by
      rcases h w List.mem_cons_self with bare | named
      · exact placeWords_reg_trigger (v := w.2) bare b
      · exact placeWords_reg_other (v := w.2) b fun e => hb (e ▸ named)
    exact (placeWords_regsBut ws (s.placeWords [w]) (fun x hx => h x (List.mem_cons_of_mem _ hx)) b hb).trans first

/-! ### The start of a verification -/

/-- The words that start the verification of a crate (R388). -/
def verifyWords (crate : BitVec 17) : Words := [(Reg.CMP_CRATE_VADDR, word crate.toNat), (Reg.CMP_CRATE_VGO, 1)]

theorem verify_masks : rwMask Reg.CMP_CRATE_VADDR = 0x1FFFF ∧ w1gMask Reg.CMP_CRATE_VADDR = 0 ∧ rwMask Reg.CMP_CRATE_VGO = 0 ∧
    w1gMask Reg.CMP_CRATE_VGO = 0 ∧ wtMask Reg.CMP_CRATE_VGO = 1 := by decide

theorem makeWrite_verify (crate : BitVec 17) :
    s.makeWrite env (verifyWords crate) = ((s.placeWords (verifyWords crate)).commit.verStart, s.order + 1) := by
  obtain ⟨rwAddr, flagsAddr, -, flagsGo, wtGo⟩ := verify_masks
  refine (makeWrite_go (ws := verifyWords crate) ?_ ?_ ?_ (List.cons_ne_nil _ _)).trans rfl
  · simp [verifyWords, Reg.CMP_CRATE_VADDR, Reg.CMP_CRATE_VGO]
  · simp [verifyWords, flagsAddr, flagsGo]
  · simp [verifyWords, rwAddr, wtGo]

/-- The words of a verification are placed (R388). -/
theorem verifyPlaced_spec (s : State) (crate : BitVec 17) :
    (s.placeWords (verifyWords crate)).fld Reg.CMP_CRATE_VADDR 16 0 = crate.toNat ∧
      RegsBut [Reg.CMP_CRATE_VADDR] s (s.placeWords (verifyWords crate)) ∧ Only [.regs] s (s.placeWords (verifyWords crate)) := by
  refine ⟨?_, placeWords_regsBut _ _ (by simp [verifyWords, verify_masks]), placeWords_only _⟩
  have := crate.isLt
  rw [verifyWords, placeWords_cons _ _ _ (by decide), placeWords_cons _ _ _ (by decide), placeWords_nil, fld,
    setReg_reg_other _ _ _ _ (by decide), setReg_reg_same, verify_masks.1, bits_placed _ _ (by decide)]
  simp only [bits, word, BitVec.toNat_ofNat, Nat.shiftRight_eq_div_pow]
  omega

/-- An operation on the crates alone. -/
theorem crates_only (s : State) (c : Crates) : Only [.crates] s { s with crates := c } := fun p hp => by
  cases p with
  | crates => exact absurd (by decide) hp
  | energy => exact ⟨rfl, rfl, rfl⟩
  | owed => exact ⟨rfl, rfl⟩
  | _ => rfl

/-- A verification starts with the crate that is addressed (R388). -/
theorem verStart_spec (s : State) :
    s.verStart.crates.run = some ⟨s.fld Reg.CMP_CRATE_VADDR 16 0, false⟩ ∧ s.verStart.crates.entries = s.crates.entries ∧
      s.verStart.fld Reg.CMP_CRATE_VSTAT 7 4 = 1 ∧ RegsBut [Reg.CMP_CRATE_VSTAT] s s.verStart ∧ Only [.regs, .crates] s s.verStart := by
  have busy : (s.setFld Reg.CMP_CRATE_VSTAT 7 4 1).fld Reg.CMP_CRATE_VSTAT 7 4 = 1 := setFld_fld_same _ _ (by decide) (by decide)
  have regs : RegsBut [Reg.CMP_CRATE_VSTAT] s (s.setFld Reg.CMP_CRATE_VSTAT 7 4 1) := fun a ha =>
    setFld_reg_other _ _ _ _ _ _ (Ne.symm (by simpa using ha))
  have crate : (s.setFld Reg.CMP_CRATE_VSTAT 7 4 1).fld Reg.CMP_CRATE_VADDR 16 0 = s.fld Reg.CMP_CRATE_VADDR 16 0 := by
    rw [fld, regs _ (by decide), fld]
  have frame : Only [.regs] s (s.setFld Reg.CMP_CRATE_VSTAT 7 4 1) := setFld_only _ _ _ _
  have entries : (s.setFld Reg.CMP_CRATE_VSTAT 7 4 1).crates.entries = s.crates.entries := rfl
  unfold verStart
  dsimp only
  generalize s.setFld Reg.CMP_CRATE_VSTAT 7 4 1 = v at busy regs crate frame entries
  exact ⟨by rw [crate], entries, busy, regs, (frame.mono (by decide)).trans ((crates_only _ _).mono (by decide))⟩

/-- What the write of a verification makes (R388). -/
theorem verifyStarted_spec (s : State) (crate : BitVec 17) :
    let u := (s.placeWords (verifyWords crate)).commit.verStart
    u.crates.run = some ⟨crate.toNat, false⟩ ∧ u.crates.entries = s.crates.entries ∧ u.fld Reg.CMP_CRATE_VSTAT 7 4 = 1 ∧
      RegsBut [Reg.CMP_CRATE_VADDR, Reg.CMP_CRATE_VSTAT] s u ∧ Only [.order, .regs, .crates] s u := by
  obtain ⟨addr, placed, only⟩ := verifyPlaced_spec s crate
  generalize s.placeWords (verifyWords crate) = v at addr placed only
  obtain ⟨runs, entries, busy, regs, started⟩ := verStart_spec v.commit
  have kept : v.crates = s.crates := only.part .crates (by decide)
  refine ⟨?_, ?_, busy, fun a ha => ?_, ?_⟩
  · rw [runs, fld, commit_reg, ← addr, fld]
  · rw [entries, commit_crates, kept]
  · simp only [List.mem_cons, List.not_mem_nil, or_false, not_or] at ha
    rw [regs a (by simpa using ha.2), commit_reg, placed a (by simpa using ha.1)]
  · exact ((only_commit (by decide)).2 (only.mono (by decide))).trans (started.mono (by decide))

/-- A granted start of a verification (R388). -/
theorem exec_crateVerify {crate : BitVec 17} (granted : s.Granted o OpEnv.quiet Reg.CMP_CRATE_VADDR [word crate.toNat, 1]) :
    exec (.crateVerify o crate) s = .next (s.written o (s.placeWords (verifyWords crate)).commit.verStart) := by
  have run := finish_granted granted
  have words : wordsAt Reg.CMP_CRATE_VADDR [word crate.toNat, 1] = verifyWords crate := rfl
  rw [words, makeWrite_verify] at run
  exact run

/-! ### The setting of the calendar -/

/-- The words that set the calendar (R421). -/
def calWords (day time : Word) : Words := [(Reg.CAL_SET_DAY, day), (Reg.CAL_SET_TIME, time), (Reg.CAL_SET_GO, 1)]

theorem cal_masks : rwMask Reg.CAL_SET_DAY = 0x1FFFF ∧ w1gMask Reg.CAL_SET_DAY = 0 ∧ rwMask Reg.CAL_SET_TIME = 0x1FFFF ∧
    w1gMask Reg.CAL_SET_TIME = 0 ∧ rwMask Reg.CAL_SET_GO = 0 ∧ w1gMask Reg.CAL_SET_GO = 0 ∧ wtMask Reg.CAL_SET_GO = 1 := by decide

theorem makeWrite_cal (day time : Word) :
    s.makeWrite env (calWords day time) = ((s.placeWords (calWords day time)).commit.calSet, s.order + 1) := by
  obtain ⟨rwDay, flagsDay, rwTime, flagsTime, -, flagsGo, wtGo⟩ := cal_masks
  refine (makeWrite_go (ws := calWords day time) ?_ ?_ ?_ (List.cons_ne_nil _ _)).trans rfl
  · simp [calWords, Reg.CAL_SET_DAY, Reg.CAL_SET_TIME, Reg.CAL_SET_GO]
  · simp [calWords, flagsDay, flagsTime, flagsGo]
  · simp [calWords, rwDay, rwTime, wtGo]

/-- The words that set the calendar are placed (R421). -/
theorem calPlaced_spec (s : State) (day time : Word) :
    (s.placeWords (calWords day time)).fld Reg.CAL_SET_DAY 16 0 = bits day 16 0 ∧
      (s.placeWords (calWords day time)).fld Reg.CAL_SET_TIME 16 0 = bits time 16 0 ∧
      RegsBut [Reg.CAL_SET_DAY, Reg.CAL_SET_TIME] s (s.placeWords (calWords day time)) ∧ Only [.regs] s (s.placeWords (calWords day time)) := by
  obtain ⟨rwDay, -, rwTime, -, rwGo, -, -⟩ := cal_masks
  rw [← and_assoc]
  refine ⟨?_, placeWords_regsBut _ _ (by simp [calWords, rwGo]), placeWords_only _⟩
  rw [calWords, placeWords_cons _ _ _ (by decide), placeWords_cons _ _ _ (by decide), placeWords_cons _ _ _ (by decide), placeWords_nil,
    fld, fld, rwDay, rwTime]
  constructor
  · rw [setReg_reg_other _ _ _ _ (by decide), setReg_reg_other _ _ _ _ (by decide), setReg_reg_same, bits_placed _ _ (by decide)]
  · rw [setReg_reg_other _ _ _ _ (by decide), setReg_reg_same, bits_placed _ _ (by decide)]

/-- The calendar takes the day and the second that were written (R421). -/
theorem calSet_day (s : State) : s.calSet.cal.day = s.fld Reg.CAL_SET_DAY 16 0 := rfl

theorem calSet_second (s : State) : s.calSet.cal.second = s.fld Reg.CAL_SET_TIME 16 0 := rfl

theorem calSet_reg (s : State) (a : Nat) : s.calSet.reg a = s.reg a := rfl

theorem calSet_only (s : State) : Only [.cal] s s.calSet := modCal_only _

/-- What the write that sets the calendar makes (R421). -/
theorem calSet_spec (s : State) (day time : Word) :
    let u := (s.placeWords (calWords day time)).commit.calSet
    u.cal.day = bits day 16 0 ∧ u.cal.second = bits time 16 0 ∧ u.cal.isSet = true ∧
      RegsBut [Reg.CAL_SET_DAY, Reg.CAL_SET_TIME] s u ∧ Only [.order, .regs, .cal] s u := by
  obtain ⟨dayPlaced, timePlaced, regs, placed⟩ := calPlaced_spec s day time
  generalize s.placeWords (calWords day time) = v at dayPlaced timePlaced regs placed
  exact ⟨by rw [calSet_day, fld, commit_reg, ← dayPlaced, fld], by rw [calSet_second, fld, commit_reg, ← timePlaced, fld], rfl,
    fun a ha => by rw [calSet_reg, commit_reg, regs a ha], ((only_commit (by decide)).2 (placed.mono (by decide))).trans ((calSet_only _).mono (by decide))⟩

/-- A granted setting of the calendar (R421). -/
theorem exec_calSet {day time : Word} (granted : s.Granted o OpEnv.quiet Reg.CAL_SET_DAY [day, time, 1]) :
    exec (.calSet o day time) s = .next (s.written o (s.placeWords (calWords day time)).commit.calSet) := by
  have run := finish_granted granted
  have words : wordsAt Reg.CAL_SET_DAY [day, time, 1] = calWords day time := rfl
  rw [words, makeWrite_cal] at run
  exact run

end Sys2Proof.Machine.State
end

/-! ## Verifications that end, the seconds of the calendar, and checkpoints -/

section
namespace Sys2Proof.Machine.State

variable {s t u : State}

/-! ### The results of a verification -/

/-- The result of a verification is shown with its flag (R388). -/
def verShown (s : State) (reason result flag : Nat) : State :=
  ((s.setFld Reg.CMP_CRATE_VSTAT 15 8 reason).setFld Reg.CMP_CRATE_VSTAT 7 4 result).setFlag Reg.CMP_CRATE_VSTAT flag

theorem verShown_spec (s : State) {reason result flag : Nat} (hreason : reason < 256) (hresult : result < 16) (hflag : flag < 4) :
    (s.verShown reason result flag).fld Reg.CMP_CRATE_VSTAT 15 8 = reason ∧
      (s.verShown reason result flag).fld Reg.CMP_CRATE_VSTAT 7 4 = result ∧
      (s.verShown reason result flag).rbit Reg.CMP_CRATE_VSTAT flag = true ∧
      Only [.regs, .guards] s (s.verShown reason result flag) := by
  unfold verShown
  refine ⟨?_, ?_, setFlag_rbit_same _ _ (by omega), by simp (disch := decide)⟩
  · rw [setFlag_fld _ _ (by decide) (by omega), setFld_fld_other _ _ _ (by decide) (by decide), setFld_fld_same _ _ (by decide) hreason]
  · rw [setFlag_fld _ _ (by decide) (by omega), setFld_fld_same _ _ (by decide) hresult]

/-- A failed verification shows its reason, and the offset at which the crate fails (R388, R394). -/
theorem verFail_spec (s : State) {reason : Nat} (hreason : reason < 256) (off : Word) :
    (s.verFail reason off).fld Reg.CMP_CRATE_VSTAT 15 8 = reason ∧ (s.verFail reason off).fld Reg.CMP_CRATE_VSTAT 7 4 = 3 ∧
      (s.verFail reason off).rbit Reg.CMP_CRATE_VSTAT 1 = true ∧ (s.verFail reason off).reg Reg.CMP_CRATE_VOFF = off ∧
      Only [.order, .regs, .guards] s (s.verFail reason off) := by
  have eq : s.verFail reason off = ((s.verShown reason 3 1).setReg Reg.CMP_CRATE_VOFF off).commit := rfl
  obtain ⟨why, result, flag, only⟩ := s.verShown_spec hreason (show 3 < 16 by decide) (show 1 < 4 by decide)
  rw [eq]
  generalize s.verShown reason 3 1 = v at why result flag only
  have stat : (v.setReg Reg.CMP_CRATE_VOFF off).commit.reg Reg.CMP_CRATE_VSTAT = v.reg Reg.CMP_CRATE_VSTAT := by
    rw [commit_reg, setReg_reg_other _ _ _ _ (by decide)]
  rw [fld] at why result
  rw [rbit] at flag
  exact ⟨by rw [fld, stat, why], by rw [fld, stat, result], by rw [rbit, stat, flag], by rw [commit_reg, setReg_reg_same],
    (only_commit (by decide)).2 ((only_setReg _ _ (by decide)).2 (only.mono (by decide)))⟩

/-- The registers of a verification entry (R397). -/
theorem verEntry_place (k : Fin 8) : Reg.CMP_CRATE_VER k ≠ Reg.CMP_CRATE_VSTAT ∧ Reg.CMP_CRATE_VHCRC k ≠ Reg.CMP_CRATE_VSTAT ∧
    Reg.CMP_CRATE_VHCRC k ≠ Reg.CMP_CRATE_VER k := by
  simp only [Reg.CMP_CRATE_VER, Reg.CMP_CRATE_VHCRC, Reg.CMP_CRATE_VSTAT]
  omega

/-- The registers of an entry with a crate that has passed (R389). -/
def verNoted (s : State) (k : Fin 8) (crate : Nat) (h : Header) : State :=
  (s.setReg (Reg.CMP_CRATE_VER k.val) (word (crate + h.sigSlot * 2 ^ 20 + 2 ^ 24 + b2n h.signed * 2 ^ 25))).setReg
    (Reg.CMP_CRATE_VHCRC k.val) (word h.hcrc)

theorem verNoted_spec (s : State) (k : Fin 8) (crate : Nat) (h : Header) :
    (s.verNoted k crate h).reg (Reg.CMP_CRATE_VER k.val) = word (crate + h.sigSlot * 2 ^ 20 + 2 ^ 24 + b2n h.signed * 2 ^ 25) ∧
      (s.verNoted k crate h).reg (Reg.CMP_CRATE_VHCRC k.val) = word h.hcrc ∧
      (s.verNoted k crate h).reg Reg.CMP_CRATE_VSTAT = s.reg Reg.CMP_CRATE_VSTAT ∧ Only [.regs] s (s.verNoted k crate h) := by
  obtain ⟨ver, hcrc, apart⟩ := verEntry_place k
  unfold verNoted
  refine ⟨?_, setReg_reg_same _ _ _, ?_, by simp (disch := decide)⟩
  · rw [setReg_reg_other _ _ _ _ apart, setReg_reg_same]
  · rw [setReg_reg_other _ _ _ _ hcrc, setReg_reg_other _ _ _ _ ver]

/-- The length of a crate that has passed is kept in its entry, which becomes the youngest (R389). -/
def verAged (s : State) (k : Fin 8) (h : Header) : State :=
  { s with crates := { s.crates with entries := s.crates.entries.set k ⟨h.len, s.crates.nextAge⟩, nextAge := s.crates.nextAge + 1 } }

theorem verWrite_eq (s : State) (crate : Nat) (h : Header) :
    s.verWrite crate h = (s.verNoted (s.verSlot crate) crate h).verAged (s.verSlot crate) h := by
  unfold verWrite verNoted verAged
  rfl

theorem verAged_run (s : State) (k : Fin 8) (h : Header) : (s.verAged k h).crates.run = s.crates.run := rfl

theorem verAged_only (s : State) (k : Fin 8) (h : Header) : Only [.crates] s (s.verAged k h) := crates_only _ _

/-- The entry of a passed verification (R389). -/
theorem verWrite_spec (s : State) (crate : Nat) (h : Header) :
    (s.verWrite crate h).reg (Reg.CMP_CRATE_VER (s.verSlot crate).val) =
        word (crate + h.sigSlot * 2 ^ 20 + 2 ^ 24 + b2n h.signed * 2 ^ 25) ∧
      (s.verWrite crate h).reg (Reg.CMP_CRATE_VHCRC (s.verSlot crate).val) = word h.hcrc ∧
      (s.verWrite crate h).reg Reg.CMP_CRATE_VSTAT = s.reg Reg.CMP_CRATE_VSTAT ∧
      (s.verWrite crate h).crates.run = s.crates.run ∧ Only [.regs, .crates] s (s.verWrite crate h) := by
  obtain ⟨ver, hcrc, stat, only⟩ := s.verNoted_spec (s.verSlot crate) crate h
  rw [verWrite_eq]
  generalize s.verNoted (s.verSlot crate) crate h = v at ver hcrc stat only
  have aged := v.verAged_only (s.verSlot crate) h
  have kept (a : Nat) : (v.verAged (s.verSlot crate) h).reg a = v.reg a := aged.regsIn (by decide) a List.not_mem_nil
  have run : v.crates.run = s.crates.run := congrArg Crates.run (only.part .crates (by decide))
  exact ⟨by rw [kept, ver], by rw [kept, hcrc], by rw [kept, stat], by rw [verAged_run, run],
    (only.mono (by decide)).trans (aged.mono (by decide))⟩

/-- A passed verification shows its result and writes its entry (R388, R389). -/
theorem verPass_spec (s : State) (crate : Nat) (h : Header) : ∃ k : Fin 8,
    (s.verPass crate h).crates.run = s.crates.run ∧ (s.verPass crate h).fld Reg.CMP_CRATE_VSTAT 7 4 = 2 ∧
      (s.verPass crate h).rbit Reg.CMP_CRATE_VSTAT 0 = true ∧
      (s.verPass crate h).reg (Reg.CMP_CRATE_VER k.val) = word (crate + h.sigSlot * 2 ^ 20 + 2 ^ 24 + b2n h.signed * 2 ^ 25) ∧
      (s.verPass crate h).reg (Reg.CMP_CRATE_VHCRC k.val) = word h.hcrc ∧ Only [.order, .regs, .guards, .crates] s (s.verPass crate h) := by
  have eq : s.verPass crate h = ((s.verShown 0 2 0).verWrite crate h).commit := rfl
  obtain ⟨-, result, flag, only⟩ := s.verShown_spec (show 0 < 256 by decide) (show 2 < 16 by decide) (show 0 < 4 by decide)
  rw [eq]
  generalize s.verShown 0 2 0 = v at result flag only
  obtain ⟨ver, hcrc, stat, run, written⟩ := v.verWrite_spec crate h
  have crates : v.crates = s.crates := only.part .crates (by decide)
  refine ⟨v.verSlot crate, by rw [commit_crates, run, crates], ?_, ?_, by rw [commit_reg, ver], by rw [commit_reg, hcrc],
    (only_commit (by decide)).2 ((only.mono (by decide)).trans (written.mono (by decide)))⟩
  · rw [fld, commit_reg, stat, ← result, fld]
  · rw [rbit, commit_reg, stat, ← flag, rbit]

/-! ### The end of a verification -/

/-- The verification that runs ends where the Cellar's reads are not held (R388). -/
theorem exec_crateVerifyDone {v : VerRun} (ticks : s.ticking = true) (runs : s.crates.run = some v) (free : s.celHeld = false) (answers : Bool) :
    exec (.crateVerifyDone answers) s = .next (s.after (if v.changed then
      { s with free := s.free + 1 }.verEnd.verFail Why.changed (Config.freeWord s.free) else (s.verEnd.verRun v.crate answers).1)) := by
  have done : s.verComplete answers = if v.changed then
      { s with free := s.free + 1 }.verEnd.verFail Why.changed (Config.freeWord s.free) else (s.verEnd.verRun v.crate answers).1 := by
    rw [verComplete, runs]
    exact if_neg (by rw [free]; exact Bool.false_ne_true)
  rw [← done]
  exact congrArg s.finish (if_pos ticks)

theorem verEnd_only (s : State) : Only [.crates] s s.verEnd := crates_only _ _

/-- A crate that has changed under its verification fails it at a free offset (R388). -/
theorem verChanged_spec (s : State) :
    let u := { s with free := s.free + 1 }.verEnd.verFail Why.changed (Config.freeWord s.free)
    u.crates.run = none ∧ u.fld Reg.CMP_CRATE_VSTAT 15 8 = Why.changed ∧ u.fld Reg.CMP_CRATE_VSTAT 7 4 = 3 ∧
      u.rbit Reg.CMP_CRATE_VSTAT 1 = true ∧ Only [.order, .regs, .guards, .crates, .free] s u := by
  have drawn : Only [.free] s { s with free := s.free + 1 } := fun p hp => by
    cases p with
    | free => exact absurd (by decide) hp
    | energy => exact ⟨rfl, rfl, rfl⟩
    | owed => exact ⟨rfl, rfl⟩
    | _ => rfl
  generalize ({ s with free := s.free + 1 } : State) = v at drawn
  obtain ⟨why, result, flag, -, only⟩ := v.verEnd.verFail_spec (show Why.changed < 256 by decide) (Config.freeWord s.free)
  exact ⟨congrArg Crates.run (only.part .crates (by decide) : _ = v.verEnd.crates), why, result, flag,
    ((drawn.mono (by decide)).trans ((verEnd_only v).mono (by decide))).trans (only.mono (by decide))⟩

/-- A verification that passes (R388, R389). -/
theorem verRun_ok {crate : Nat} {answers : Bool} {h : Header} (passes : verifyCrate (s.crateSrc crate answers) s.installedKey = .ok h) :
    (s.verEnd.verRun crate answers).1 = s.verEnd.verPass crate h := by
  have passes' : verifyCrate (s.verEnd.crateSrc crate answers) s.verEnd.installedKey = .ok h := passes
  rw [verRun, passes']

/-- A verification that fails by what it reads (R388). -/
theorem verRun_error {crate : Nat} {answers : Bool} {e : CrateFail}
    (fails : verifyCrate (s.crateSrc crate answers) s.installedKey = .error e) (reads : e.reason ≠ Why.read) :
    (s.verEnd.verRun crate answers).1 = s.verEnd.verFail e.reason (word e.off) := by
  have fails' : verifyCrate (s.verEnd.crateSrc crate answers) s.verEnd.installedKey = .error e := fails
  have silent : s.verEnd.crateBus crate answers e = s.verEnd := if_neg fun h => reads h.1
  rw [verRun, fails']
  exact congrArg (fun v : State => v.verFail e.reason (word e.off)) silent

/-! ### The seconds of the calendar -/

/-- A second boundary takes the calendar on, over midnight, or ends it (R420, R422). -/
theorem secondBoundary_spec (set : s.cal.isSet = true) :
    (s.cal.second < 86399 →
      s.secondBoundary.cal.second = s.cal.second + 1 ∧ s.secondBoundary.cal.day = s.cal.day ∧ s.secondBoundary.cal.isSet = true ∧
        s.secondBoundary.order = s.order + 1 ∧ Only [.order, .cal] s s.secondBoundary) ∧
    (s.cal.second = 86399 → s.cal.day < 73048 →
      s.secondBoundary.cal.second = 0 ∧ s.secondBoundary.cal.day = s.cal.day + 1 ∧ s.secondBoundary.cal.isSet = true ∧
        s.secondBoundary.rbit Reg.CAL_EVT 0 = true ∧ RegsBut [Reg.CAL_EVT] s s.secondBoundary ∧
        Only [.order, .regs, .guards, .cal] s s.secondBoundary) ∧
    (s.cal.second = 86399 → s.cal.day = 73048 →
      s.secondBoundary.cal.isSet = false ∧ Only [.order, .cal] s s.secondBoundary) := by
  have moved (f : Cal → Cal) : Only [.order, .cal] s (s.modCal f).commit := by simp (disch := decide)
  refine ⟨fun early => ?_, fun midnight more => ?_, fun midnight last => ?_⟩
  · have eq : s.secondBoundary = (s.modCal fun c => { c with second := c.second + 1 }).commit := by
      rw [secondBoundary, if_pos set, if_pos (by omega)]
    rw [eq]
    exact ⟨rfl, rfl, set, rfl, moved _⟩
  · have eq : s.secondBoundary = ((s.modCal fun c => { c with second := 0, day := c.day + 1 }).setFlag Reg.CAL_EVT 0).commit := by
      have before : s.cal.day < lastDayNumber := more
      rw [secondBoundary, if_pos set, if_neg (by omega), if_pos before]
    rw [eq]
    rw [commit_cal, setFlag_cal, modCal_cal, commit_rbit]
    refine ⟨rfl, rfl, set, setFlag_rbit_same _ _ (by decide), fun a ha => ?_, by simp (disch := decide)⟩
    rw [commit_reg, setFlag_reg_other _ _ _ _ (Ne.symm (by simpa using ha)), modCal_reg]
  · have eq : s.secondBoundary = (s.modCal fun c => { c with isSet := false, day := 0, second := 0 }).commit := by
      have beyond : ¬ s.cal.day < lastDayNumber := by rw [last]; decide
      rw [secondBoundary, if_pos set, if_neg (by omega), if_neg beyond]
    rw [eq]
    exact ⟨rfl, moved _⟩

theorem exec_secondBoundary (on : s.pwr.state ≠ .off) : exec .secondBoundary s = .next (s.after s.secondBoundary) :=
  congrArg s.finish (if_neg on)

/-! ### Checkpoints -/

theorem cntWords_length (s : State) : s.cntWords.length = 32 := rfl

/-- A checkpoint fills three blocks of the Loft (R432). -/
theorem ckptBytes_length (s : State) (clean : Bool) : (s.ckptBytes clean).length = 192 := by
  have words : (s.cntWords.flatMap fun w => bytesLE 4 w.toNat).length = 128 := by
    rw [List.length_flatMap, List.map_congr_left (g := fun _ => 4) fun w _ => bytesLE_length _ _, List.map_const', cntWords_length]
    rfl
  simp only [ckptBytes, List.length_append, List.length_cons, List.length_nil, bytesLE_length, List.length_replicate, words]

/-- A refusal is counted, and the first one in RUN is told (R139). -/
theorem refuse_only (s : State) (o : Option Lane) : Only (.energy :: messageParts) s (s.refuse o) := by
  have counted (v : State) (a : Nat) : Only [.regs] v (v.bump a) := bump_only a
  have noted (v : State) : Only (.energy :: messageParts) v (if v.pwr.state = .run ∧ v.pwr.refused = false then
      ((v.modPwr fun p => { p with refused := true }).setFlag Reg.PWR_EVT 2).raise Kind.pwrCharge (word v.vLow) else v) := by
    refine only_ite ?_ (Only.refl _ _)
    have flag : Only [.energy] v (v.modPwr fun p => { p with refused := true }) := .without (p := .pwr) (modPwr_only _) rfl
    exact (only_raise _ _ (by decide)).2 ((only_setFlag _ _ (by decide)).2 (flag.mono (by decide)))
  cases o with
  | none => exact ((counted s _).mono (by decide)).trans (noted _)
  | some n => exact ((counted s _).mono (by decide)).trans (noted _)

/-- A staged write that holds a checkpoint. -/
def isCkpt : StagedFor → Bool
  | .ckpt _ => true
  | _ => false

/-- A checkpoint whose values have changed, while none is on its way: staged where its energy is granted, and failed else (R433). -/
theorem ckptRequest_eq (watched : s.unitInReset 13 = false) (changed : s.cal.ckpt ≠ s.cntWords) (idle : s.stagedBusy isCkpt = false) :
    s.ckptRequest = if s.wouldGrant false 236 then s.reservedStaged (.ckpt false) ckptOffset (s.ckptBytes false)
      else ((s.refuse none).setFlag Reg.CAL_EVT 2).commit := by
  have energy : stagedEnergy (s.ckptBytes false).length = 236 := by rw [ckptBytes_length]; rfl
  have due : ¬ (s.unitInReset 13 || decide (s.cal.ckpt = s.cntWords)) = true := by simp [watched, changed]
  have reserved : s.stageReserved (.ckpt false) ckptOffset (s.ckptBytes false) =
      if s.wouldGrant false 236 then (s.reservedStaged (.ckpt false) ckptOffset (s.ckptBytes false), true) else (s.refuse none, false) := by
    rw [← energy]
    rfl
  rw [ckptRequest, if_neg due, reserved]
  refine (if_neg fun busy => Bool.false_ne_true (idle.symm.trans busy)).trans ?_
  cases s.wouldGrant false 236 <;> rfl

/-- A checkpoint that is staged (R433). -/
theorem ckptStaged_spec (s : State) :
    let u := s.reservedStaged (.ckpt false) ckptOffset (s.ckptBytes false)
    u.mem.staged = s.mem.staged ++ [⟨.ckpt false, 0x15000, s.ckptBytes false⟩] ∧ ⟨.staged 13 4, 236⟩ ∈ u.pwr.live ∧
      Only [.energy, .order, .owed] s u := by
  have energy : stagedEnergy (s.ckptBytes false).length = 236 := by rw [ckptBytes_length]; rfl
  have live : (s.reservedStaged (.ckpt false) ckptOffset (s.ckptBytes false)).pwr.live =
      s.pwr.live ++ [⟨.staged 13 4, stagedEnergy (s.ckptBytes false).length⟩] := rfl
  exact ⟨rfl, by rw [live, energy]; exact List.mem_append_right _ (List.mem_singleton.2 rfl), reservedStaged_only _ _ _ _⟩

/-- A checkpoint whose energy is refused (R139, R433). -/
theorem ckptFailed_spec (s : State) :
    let u := ((s.refuse none).setFlag Reg.CAL_EVT 2).commit
    u.rbit Reg.CAL_EVT 2 = true ∧ u.mem = s.mem ∧ Only (.energy :: messageParts) s u := by
  have refused := refuse_only s none
  generalize s.refuse none = v at refused
  dsimp only
  rw [commit_rbit, commit_mem, setFlag_mem]
  exact ⟨setFlag_rbit_same _ _ (by decide), mem_of_only refused (by decide) (by decide) (by decide),
    (only_commit (by decide)).2 ((only_setFlag _ _ (by decide)).2 refused)⟩

/-- The note of a timed event is no matter of a checkpoint. -/
theorem setFired_checkpoint (s : State) (k n : Nat) : (s.setFired k n).cntWords = s.cntWords ∧
    (s.setFired k n).ckptBytes false = s.ckptBytes false ∧ (s.setFired k n).wouldGrant false 236 = s.wouldGrant false 236 := by
  have words : (s.setFired k n).cntWords = s.cntWords := by simp only [cntWords, setFired_reg]
  have seq : (s.setFired k n).ckptSeq = s.ckptSeq := by rw [ckptSeq, ckptSeq, setFired_mem]
  exact ⟨words, by rw [ckptBytes, ckptBytes, seq, words],
    wouldGrant_congr (setFired_pwr s k n) ((setFired_only k n).regsIn (by decide)) List.not_mem_nil _ _⟩

/-- A checkpoint is requested at its period (R433). -/
theorem exec_checkpointRequest (ticks : s.ticking = true) (booted : s.booted = true) (period : s.fld Reg.CAL_CKPT_CFG 11 0 ≠ 0) :
    ∃ n, exec .checkpointRequest s = .next (s.after
      ((s.advanceTo (s.dueAt Ev.checkpoint s.boot.doneAt (s.fld Reg.CAL_CKPT_CFG 11 0 * 100000000))).setFired Ev.checkpoint n).ckptRequest) := by
  have acts : (s.booted && decide (s.fld Reg.CAL_CKPT_CFG 11 0 ≠ 0)) = true := by simp [booted, period]
  refine ⟨(s.advanceTo (s.dueAt Ev.checkpoint s.boot.doneAt (s.fld Reg.CAL_CKPT_CFG 11 0 * 100000000))).tick, ?_⟩
  rw [exec, execCheckpointRequest, if_pos acts, periodic_eq ticks]
  rfl

/-- A request of a checkpoint whose values have changed, with its note (R433). -/
theorem ckptRequest_fired (k n : Nat) (watched : s.unitInReset 13 = false) (changed : s.cal.ckpt ≠ s.cntWords)
    (idle : s.stagedBusy isCkpt = false) :
    let u := (s.setFired k n).ckptRequest
    (s.wouldGrant false 236 = true →
      u.mem.staged = s.mem.staged ++ [⟨.ckpt false, 0x15000, s.ckptBytes false⟩] ∧ ⟨.staged 13 4, 236⟩ ∈ u.pwr.live ∧
        Only [.order, .energy, .owed, .fired] s u) ∧
    (s.wouldGrant false 236 = false →
      u.rbit Reg.CAL_EVT 2 = true ∧ u.mem = s.mem ∧ Only ([.energy, .fired] ++ messageParts) s u) := by
  obtain ⟨words, bytes, energy⟩ := s.setFired_checkpoint k n
  have fired : Only [.fired] s (s.setFired k n) := setFired_only k n
  have mem : (s.setFired k n).mem = s.mem := setFired_mem s k n
  have eq := ckptRequest_eq (s := s.setFired k n) (by rw [unitInReset, setFired_flt]; exact watched) (by rw [words, setFired_cal]; exact changed)
    (by rw [stagedBusy, mem]; exact idle)
  dsimp only
  rw [eq, energy]
  generalize s.setFired k n = v at bytes fired mem
  refine ⟨fun grants => ?_, fun refuses => ?_⟩
  · obtain ⟨staged, live, only⟩ := v.ckptStaged_spec
    rw [if_pos grants]
    exact ⟨by rw [staged, mem, bytes], live, (fired.mono (by decide)).trans (only.mono (by decide))⟩
  · obtain ⟨flag, kept, only⟩ := v.ckptFailed_spec
    rw [if_neg (by rw [refuses]; exact Bool.false_ne_true)]
    exact ⟨flag, kept.trans mem, (fired.mono (by decide)).trans (only.mono (by decide))⟩

end Sys2Proof.Machine.State
end

section
namespace Sys2Proof.Machine

/-- Settles O49: each write is its words stored, one commit, and what it starts; the timed commands are what their ends do. -/
theorem jobsAndCalendarRun : Obligations.JobsAndCalendarRun := by
  intro s
  refine ⟨fun o n crate job env x => ?_, fun o n granted => ?_, fun o crate granted => ?_, fun v answers ticks runs free => ?_,
    fun on set => ?_, fun o day time granted => ?_, fun ticks booted period => ?_⟩
  · intro w granted selects accepted
    exact ⟨_, State.exec_jobSelection granted selects accepted, s.selected_spec n w x⟩
  · exact ⟨_, State.exec_jobDeselection granted, s.deselected_spec n⟩
  · exact ⟨_, State.exec_crateVerify granted, s.verifyStarted_spec crate⟩
  · have run := State.exec_crateVerifyDone ticks runs free answers
    refine ⟨fun changed => ?_, fun h same passes => ?_, fun e same fails reads small => ?_⟩
    · rw [if_pos changed] at run
      exact ⟨_, run, s.verChanged_spec⟩
    · rw [same, if_neg Bool.false_ne_true, State.verRun_ok passes] at run
      obtain ⟨k, ended, result, flag, ver, hcrc, only⟩ := s.verEnd.verPass_spec v.crate h
      exact ⟨_, k, run, ended, result, flag, ver, hcrc, (s.verEnd_only.mono (by decide)).trans only⟩
    · rw [same, if_neg Bool.false_ne_true, State.verRun_error fails reads] at run
      obtain ⟨why, result, flag, off, only⟩ := s.verEnd.verFail_spec small (word e.off)
      exact ⟨_, run, congrArg Crates.run (only.part .crates (by decide) : _ = s.verEnd.crates), why, result, flag, off,
        (s.verEnd_only.mono (by decide)).trans (only.mono (by decide))⟩
  · have run := State.exec_secondBoundary on
    obtain ⟨counts, rolls, ends⟩ := State.secondBoundary_spec set
    exact ⟨fun early => ⟨_, run, counts early⟩, fun midnight more => ⟨_, run, rolls midnight more⟩,
      fun midnight last => ⟨_, run, ends midnight last⟩⟩
  · exact ⟨_, State.exec_calSet granted, s.calSet_spec day time⟩
  · intro t watched changed idle
    obtain ⟨n, run⟩ := State.exec_checkpointRequest ticks booted period
    obtain ⟨grants, refuses⟩ := State.ckptRequest_fired Ev.checkpoint n watched changed idle
    exact ⟨fun energy => ⟨_, run, grants energy⟩, fun energy => ⟨_, run, refuses energy⟩⟩

end Sys2Proof.Machine
end

section
/-! ## Commands of registers that hold no field, and messages of lanes -/

namespace Sys2Proof.Machine
namespace State

variable {s t u : State} {o : OpCtx} {env : OpEnv} {a : Nat} {w : Word}

/-- A command's register has its effect unless the command is one without any (R551). -/
theorem moot_trigger (large : 0x7000 ≤ a) (small : a < 0x10000) (lease : a < 0xE100 ∨ 0xE208 ≤ a) (fieldless : rwMask a = 0)
    (flagless : w1gMask a = 0) : s.moot (a, w) = s.mootCommand a w := by
  unfold moot
  dsimp only
  rw [if_neg (by omega), if_neg (by simp only [Reg.PWR_REQ]; omega), if_neg (by simp only [Reg.FLT_RELEASE]; omega), if_neg (by omega),
    if_neg (not_not_intro fieldless), if_neg (not_not_intro flagless)]

/-- A granted command acts on the state that its commit leaves, where every register reads as before (R194). -/
theorem command_granted (granted : s.Granted o env a [w]) (small : a < 0x10000) (own : ownAction a = true) (fieldless : rwMask a = 0)
    (flagless : w1gMask a = 0) (live : s.moot (a, w) = false) :
    ∃ v : State, s.finish (s.ownerWrites o env a [w]) = .next (s.written o (effect s env v (a, w))) ∧ (∀ b, v.reg b = s.reg b) ∧
      Only [.order, .regs] s v := by
  have bare : w &&& w1gMask a = 0 := by rw [flagless]; exact BitVec.and_zero
  exact ⟨(s.placeWords [(a, w)]).commit, finish_own granted (by omega) own bare live, placeWords_reg_trigger fieldless,
    (only_commit (by decide)).2 ((placeWords_only _).mono (by decide))⟩

/-- The pending bit of a message, with a lane or without (R105, R115). -/
theorem raiseN_pending (n : Nat) (k : Kind) (addr : Word) (lane : Option Lane) (hk : k.src < 36) (hin : s.unitInReset k.src = false) :
    (if k.src < 28 then (raiseN (n + 1) s k addr lane).rbit Reg.FLT_PEND_A k.src
      else (raiseN (n + 1) s k addr lane).rbit Reg.FLT_PEND_B (k.src - 28)) = true := by
  have stays {b : Nat} (h : b ∈ [Reg.FLT_BIN_STAT, Reg.FLT_ERR, Reg.FLT_PEND_A, Reg.FLT_PEND_B]) :
      ∃ m : FaultMsg, m.source = k.src ∧ FlagsStay b (s.commit.recordBin m) (raiseN (n + 1) s k addr lane) :=
    (reportSteps_collectorFlags h).after_record ((reportSteps_collectorFlags h).raiseN n) s k addr lane hk hin
  by_cases low : k.src < 28
  · obtain ⟨m, source, stay⟩ := stays (b := Reg.FLT_PEND_A) (by decide)
    rw [if_pos low]
    exact stay _ low (by have pend := recordBin_pend s.commit m (by omega); rwa [source, if_pos low] at pend)
  · obtain ⟨m, source, stay⟩ := stays (b := Reg.FLT_PEND_B) (by decide)
    rw [if_neg low]
    exact stay _ (by omega) (by have pend := recordBin_pend s.commit m (by omega); rwa [source, if_neg low] at pend)

/-- A message leaves the pending bits of other sources set. -/
theorem pends_raiseN {b : Nat} (h : b ∈ [Reg.FLT_BIN_STAT, Reg.FLT_ERR, Reg.FLT_PEND_A, Reg.FLT_PEND_B]) (k : Kind) (addr : Word)
    (lane : Option Lane) (hk : k.src < 36) : FlagsStay b s (raiseN 12 s k addr lane) :=
  (reportSteps_collectorFlags h).raiseN 12 s k addr lane hk

theorem health_of_only {l : List Part} (h : Only l s t) (hl : .hlt ∉ l) (m : Head) : t.health m = s.health m :=
  congrArg (fun v : Vector HltSt 4 => v[m]) (h.part .hlt hl)

theorem laneState_of_only {l : List Part} (h : Only l s t) (hl : .hat ∉ l) (m : Lane) : t.laneState m = s.laneState m :=
  congrArg (fun v : Hat => v.lanes[m]) (h.part .hat hl)

end State
end Sys2Proof.Machine
end

section
/-! ## Lanes in service and leases -/

namespace Sys2Proof.Machine
namespace State

variable {s t u : State} {o : OpCtx} {n : Lane}

/-! ### Transitions of a lane -/

theorem laneMoved_hat (s : State) (n : Lane) (st : LaneState) :
    (s.laneMoved n st).hat = { s.hat with lanes := s.hat.lanes.set n st, closeEnd := s.hat.closeEnd.set n none } := by
  cases st <;> rfl

/-- A lane as it enters OPEN, beside its flag (R503). -/
def laneSet (s : State) (n : Lane) (st : LaneState) : State :=
  (s.setLaneState n st).modHat fun h => { h with closeEnd := h.closeEnd.set n none }

theorem laneMoved_open (s : State) (n : Lane) : s.laneMoved n .open_ = (s.laneSet n .open_).setFlag (Reg.HAT_LANE_EVT n) 2 := rfl

theorem laneMoved_inService (s : State) (n : Lane) :
    s.laneMoved n .inService = (s.laneSet n .inService).setFlag (Reg.HAT_LANE_EVT n) 1 := rfl

theorem laneEvt_block (n : Lane) : Reg.HAT_LANE_EVT n / 0x1000 = 14 := by revert n; decide

/-- The registers of a lane's transition (R503). -/
theorem laneMoved_in (n : Lane) (st : LaneState) : RegsIn [14] s (s.laneMoved n st) := by
  have event : Reg.HAT_LANE_EVT n / 0x1000 ∈ [14] := by rw [laneEvt_block]; exact List.mem_cons_self
  have set (st : LaneState) : RegsIn [14] s (s.laneSet n st) := fun _ _ => rfl
  cases st with
  | open_ => rw [laneMoved_open, regsIn_setFlag _ _ event]; exact set _
  | inService => rw [laneMoved_inService, regsIn_setFlag _ _ event]; exact set _
  | closing => exact set _
  | draining => exact set _

theorem toLane_in (s : State) (n : Lane) (st : LaneState) : RegsIn [4, 14] s (s.toLane n st) := by
  rw [toLane_eq, regsIn_stateItem _ _ _ _ (by decide), regsIn_commit]
  exact (laneMoved_in n st).mono (by decide)

theorem toLane_hat (s : State) (n : Lane) (st : LaneState) : (s.toLane n st).hat = (s.laneMoved n st).hat := by
  rw [toLane_eq]
  exact (stateItem_only _ _ _ _).part .hat (by decide)

theorem toLane_laneState_same (s : State) (n : Lane) (st : LaneState) : (s.toLane n st).laneState n = st := by
  rw [laneState, toLane_hat, laneMoved_hat]
  exact Vector.getElem_set_self ..

theorem toLane_laneState_other (s : State) {n m : Lane} (st : LaneState) (h : m ≠ n) : (s.toLane n st).laneState m = s.laneState m := by
  rw [laneState, toLane_hat, laneMoved_hat]
  exact Vector.getElem_set_ne n.isLt m.isLt fun e => h (Fin.ext e.symm)

/-- A lane that enters OPEN has its flag set, and keeps those that it had (R503). -/
theorem toLane_open_flags (s : State) (n : Lane) {k : Nat} (hk : k < 28) :
    (s.toLane n .open_).rbit (Reg.HAT_LANE_EVT n) k = (s.rbit (Reg.HAT_LANE_EVT n) k || decide (2 = k)) := by
  have kept : RegsIn [4] (s.laneMoved n .open_) (s.toLane n .open_) := by
    rw [toLane_eq, regsIn_stateItem _ _ _ _ (by decide), regsIn_commit]
    exact RegsIn.refl _ _
  have set : (s.laneSet n .open_).rbit (Reg.HAT_LANE_EVT n) k = s.rbit (Reg.HAT_LANE_EVT n) k := rfl
  rw [rbit_of_regsIn kept _ _ (by rw [laneEvt_block]; decide), laneMoved_open, setFlag_rbit _ _ _ _ hk, set]

/-! ### The deferred queue of a lane that opens -/

/-- A register that no frame counter of the ports is, whatever their number: none ends in 0xC and none is `LNK_FWD_DROP`. -/
def OffPorts (a : Nat) : Prop := a % 16 ≠ 12 ∧ a ≠ Reg.LNK_FWD_DROP

theorem transmit_reg {a : Nat} (h : OffPorts a) (p : Nat) (full : Bool) (b : List Byte) : (s.transmit p full b).reg a = s.reg a := by
  obtain ⟨tx, drop⟩ := h
  unfold transmit
  split
  · rfl
  · split
    · exact bump_reg_other _ _ _ (Ne.symm drop)
    · exact bump_reg_other _ _ _ (by simp only [Reg.LNK_TX]; omega)

theorem transmits_reg {a : Nat} (h : OffPorts a) (full : Bool) (b : List Byte) : ∀ (l : List Nat) (s : State),
    (l.foldl (fun s q => s.transmit q full b) s).reg a = s.reg a
  | [], _ => rfl
  | q :: l, s => (transmits_reg h full b l (s.transmit q full b)).trans (transmit_reg h q full b)

theorem sendTo_reg {a : Nat} (h : OffPorts a) (p : Peer) (r : Route) (m : List Byte) : (s.sendTo p r m).reg a = s.reg a := by
  cases p with
  | lp => rfl
  | ether => exact transmits_reg h _ _ _ s
  | udp => exact transmits_reg h _ _ _ (s.modLnk _)

theorem sendSess_reg {a : Nat} (h : OffPorts a) (i : Sess) (b c d : Nat) (m : List Byte) : (s.sendSess i b c d m).reg a = s.reg a := by
  unfold sendSess
  dsimp only
  split <;> exact sendTo_reg h _ _ _

/-- A response that does not end its session changes counters of the ports only. -/
theorem respond_reg {a : Nat} (h : OffPorts a) (i : Sess) {r : Resp} (stays : closes r = false) : (s.respond i r).reg a = s.reg a := by
  have sends (v : State) : v.sendResps i [r] = (v.noteSent i r).sendSess i 2 1 0 ([r].flatMap respBytes) := by
    unfold sendResps
    simp [stays]
  have owes (v : State) (q : BitVec 16) (tag : BitVec 6) : (v.owe i q tag).reg a = v.reg a := by
    unfold owe
    split <;> rfl
  rw [respond_eq]
  split
  · unfold answerOne
    split
    · simp only [List.foldl_cons, List.foldl_nil]
      split
      · rfl
      · exact owes _ _ _
    · rw [sends]
      exact sendSess_reg h _ _ _ _ _
  · rfl

/-- What a lane that opens does with one deferred write: it is counted, and answered where it is owed (R65). -/
def discarded (n : Lane) (s : State) (d : Deferred) : State :=
  let s := s.bumpFld (Reg.DEV_DEFER n) 23 16
  if d.owed then s.respond d.sess ⟨3, BitVec.ofNat 8 d.tag.toNat, .discarded, d.seq, 0, []⟩ else s

theorem discarded_only (n : Lane) (s : State) (d : Deferred) : Only replyParts s (discarded n s d) := by
  unfold discarded
  dsimp only
  split
  · exact (Only.step (respond_only _ _ rfl) (by decide)).2 ((bumpFld_only _ _ _).mono (by decide))
  · exact (bumpFld_only _ _ _).mono (by decide)

theorem discarded_reg {a : Nat} (h : OffPorts a) (ha : 0x1000 ≤ a) (n : Lane) (s : State) (d : Deferred) :
    (discarded n s d).reg a = s.reg a := by
  have counted : (s.bumpFld (Reg.DEV_DEFER n) 23 16).reg a = s.reg a :=
    bumpFld_reg_other _ _ _ _ _ (by simp only [Reg.DEV_DEFER]; omega)
  unfold discarded
  dsimp only
  split
  · rw [respond_reg h _ rfl, counted]
  · exact counted

theorem discardDeferred_eq (s : State) (n : Lane) :
    s.discardDeferred n = (s.lane n).deferred.foldl (discarded n) (s.modLane n fun l => { l with deferred := [] }) := rfl

theorem discardDeferred_lane (s : State) (n m : Lane) :
    (s.discardDeferred n).lane m = if n = m then { s.lane n with deferred := [] } else s.lane m := by
  rw [discardDeferred_eq, lane_of_only (Only.foldl (discarded_only n) _ _) (by decide), modLane_lane]

theorem discardDeferred_reg {a : Nat} (h : OffPorts a) (ha : 0x1000 ≤ a) (s : State) (n : Lane) :
    (s.discardDeferred n).reg a = s.reg a := by
  have all : ∀ (l : List Deferred) (v : State), (l.foldl (discarded n) v).reg a = v.reg a := by
    intro l
    induction l with
    | nil => exact fun _ => rfl
    | cons d l ih => exact fun v => (ih _).trans (discarded_reg h ha n v d)
  rw [discardDeferred_eq, all]
  rfl

/-- A lane that enters OPEN has no deferred write, shows it, and leaves every other lane as it is (R65, R503). -/
theorem enterOpen_spec (s : State) (n : Lane) :
    (s.enterOpen n).laneState n = .open_ ∧ (∀ m, m ≠ n → (s.enterOpen n).laneState m = s.laneState m) ∧
      (s.enterOpen n).lane n = { s.lane n with deferred := [] } ∧ (∀ m, m ≠ n → (s.enterOpen n).lane m = s.lane m) ∧
      (s.enterOpen n).rbit (Reg.HAT_LANE_EVT n) 2 = true := by
  have lanes (m : Lane) : (s.toLane n .open_).lane m = s.lane m := lane_of_only (toLane_only n _) (by decide) m
  have states (m : Lane) : (s.enterOpen n).laneState m = (s.toLane n .open_).laneState m :=
    laneState_of_only (discardDeferred_only n) (by decide) m
  refine ⟨(states n).trans (toLane_laneState_same s n _), fun m hm => (states m).trans (toLane_laneState_other s _ hm), ?_, fun m hm => ?_, ?_⟩
  · rw [enterOpen, discardDeferred_lane, if_pos rfl, lanes]
  · rw [enterOpen, discardDeferred_lane, if_neg (Ne.symm hm), lanes]
  · have off : OffPorts (Reg.HAT_LANE_EVT n) := ⟨by simp only [Reg.HAT_LANE_EVT]; omega, by simp only [Reg.HAT_LANE_EVT, Reg.LNK_FWD_DROP]; omega⟩
    rw [enterOpen, rbit, discardDeferred_reg off (by simp only [Reg.HAT_LANE_EVT]; omega), ← rbit, toLane_open_flags _ _ (by decide)]
    exact Bool.or_true _

/-- A lane that enters OPEN keeps the flags of its lane and of the collector that were set (R115, R503). -/
theorem enterOpen_keeps {n : Lane} {a : Nat} (h : a = Reg.HAT_LANE_EVT n ∨ a ∈ [Reg.FLT_BIN_STAT, Reg.FLT_ERR, Reg.FLT_PEND_A, Reg.FLT_PEND_B]) :
    FlagsStay a s (s.enterOpen n) := by
  have flags : FlagsStay a s (s.toLane n .open_) := by
    obtain own | collector := h
    · subst own
      exact fun k hk set => by rw [toLane_open_flags _ _ hk, set, Bool.true_or]
    · have moved : FlagsStay a s (s.laneMoved n .open_).commit := .of_reg (laneMoved_in n _ a (by revert collector a; decide))
      rw [toLane_eq]
      exact moved.trans ((reportSteps_collectorFlags collector).stateItem _ _ _ _ _)
  have off : OffPorts a ∧ 0x1000 ≤ a := by
    obtain rfl | collector := h
    · simp only [OffPorts, Reg.HAT_LANE_EVT, Reg.LNK_FWD_DROP]
      omega
    · clear flags
      simp only [OffPorts, Reg.LNK_FWD_DROP]
      revert a
      decide
  exact flags.trans (.of_reg (discardDeferred_reg off.1 off.2 _ n))

/-! ### Commands of a lane -/

/-- What a write of block HAT does. -/
theorem effect_blockHat {env : OpEnv} {a : Nat} {w : Word} (v : State) (block : a / 0x1000 = 14) :
    effect s env v (a, w) = v.lineEffect a w := by
  unfold State.effect
  dsimp only
  rw [if_neg (by omega), block]
  rfl

theorem laneCmd_masks : ∀ n : Lane, rwMask (Reg.HAT_LANE_CMD n) = 0 ∧ w1gMask (Reg.HAT_LANE_CMD n) = 0 ∧
    ownAction (Reg.HAT_LANE_CMD n) = true ∧ inst4 (Reg.HAT_LANE_CMD n) 0xE000 0x20 = n := by decide

theorem lowBit_pow_four : ∀ k : Fin 4, lowBit (word (2 ^ k.val)) 4 0 = k.val := by decide

/-- A granted command of a lane, in a state of the lane in which it has an effect, does it (R504). -/
theorem laneCmd_granted (k : Fin 4) (granted : s.Granted o OpEnv.quiet (Reg.HAT_LANE_CMD n) [word (2 ^ k.val)])
    (live : s.laneIdle n k.val = false) :
    ∃ v : State, s.finish (s.laneCmd o n k.val) = .next (s.written o (v.laneCommand n k.val)) ∧ (∀ b, v.reg b = s.reg b) ∧
      Only [.order, .regs] s v := by
  obtain ⟨fieldless, flagless, own, lane⟩ := laneCmd_masks n
  have place : 0xE000 ≤ Reg.HAT_LANE_CMD n ∧ Reg.HAT_LANE_CMD n < 0xE080 ∧ Reg.HAT_LANE_CMD n % 0x20 = 0 := by
    simp only [Reg.HAT_LANE_CMD]
    omega
  rw [laneCmd, ownerWrite]
  generalize Reg.HAT_LANE_CMD n = a at *
  obtain ⟨large, small, aligned⟩ := place
  have idle : s.moot (a, word (2 ^ k.val)) = false := by
    rw [moot_trigger (by omega) (by omega) (by omega) fieldless flagless, mootCommand, if_neg (by omega), if_neg (by omega),
      if_neg (by omega), if_neg (by omega), if_pos ⟨large, small⟩, lane, lowBit_pow_four, live]
  obtain ⟨v, run, regs, only⟩ := command_granted granted (by omega) own fieldless flagless idle
  refine ⟨v, ?_, regs, only⟩
  rw [run, effect_blockHat v (by omega), lineEffect, if_neg (by omega), if_pos ⟨large, small, aligned⟩, lane, lowBit_pow_four]

/-! ### OPEN -/

/-- The records of a lane end one by one (R505). -/
theorem endRecords_lane_other (c : Nat) {m : Lane} (hm : m ≠ n) (s : State) : (s.endRecords n c).lane m = s.lane m := by
  have all : ∀ (l : List Rec) (v : State), (l.foldl (fun s r =>
      match r.state with
      | .final => s
      | .printing => s.abandon n r c
      | _ => s.unmark n r c) v).lane m = v.lane m := by
    intro l
    induction l with
    | nil => exact fun _ => rfl
    | cons r l ih =>
      intro v
      rw [List.foldl_cons, ih]
      cases r.state with
      | final => rfl
      | printing => exact closeRec_lane_other hm
      | created => exact closeRec_lane_other hm
      | latched => exact closeRec_lane_other hm
  exact all _ s

/-- A lane whose records are discarded has none, and every other lane is as it was (R287, R505). -/
theorem discardRecs_lane (s : State) (n : Lane) :
    ((s.discardRecs n).lane n).recs = [] ∧ ∀ m, m ≠ n → (s.discardRecs n).lane m = s.lane m := by
  have freed : Only [.larder] s ((s.lane n).recs.foldl (fun s r => s.freeSlot n r) s) := Only.foldl (fun v r => freeSlot_only n r) _ _
  refine ⟨?_, fun m hm => ?_⟩
  · rw [discardRecs, modLane_lane_same]
  · rw [discardRecs, modLane_lane_other _ _ _ _ (Ne.symm hm), lane_of_only freed (by decide)]

/-- OPEN of a lane that is not OPEN (R505). -/
theorem laneOpen_spec (h : s.laneState n ≠ .open_) :
    (s.laneOpen n).laneState n = .open_ ∧ (∀ m, m ≠ n → (s.laneOpen n).laneState m = s.laneState m) ∧
      ((s.laneOpen n).lane n).deferred = [] ∧ (s.laneOpen n).rbit (Reg.HAT_LANE_EVT n) 2 = true ∧
      (s.laneState n ≠ .closing → ((s.laneOpen n).lane n).recs = []) ∧ (∀ m, m ≠ n → (s.laneOpen n).lane m = s.lane m) := by
  have opens (v : State) := enterOpen_spec v n
  cases st : s.laneState n with
  | open_ => exact absurd st h
  | closing =>
    obtain ⟨state, states, lane, lanes, flag⟩ := opens s
    rw [laneOpen, st]
    exact ⟨state, states, by rw [lane], flag, fun e => absurd rfl e, lanes⟩
  | inService | draining =>
      obtain ⟨state, states, lane, lanes, flag⟩ := opens ((s.endRecords n Cause.noJob).discardRecs n)
      obtain ⟨empty, others⟩ := discardRecs_lane (s.endRecords n Cause.noJob) n
      have hat : Only recordParts s ((s.endRecords n Cause.noJob).discardRecs n) :=
        (endRecords_only n _).trans ((discardRecs_only n).mono (by decide))
      rw [laneOpen, st]
      refine ⟨state, fun m hm => (states m hm).trans (laneState_of_only hat (by decide) m), by rw [lane], flag, fun _ => by rw [lane]; exact empty,
        fun m hm => ?_⟩
      rw [lanes m hm, others m hm, endRecords_lane_other _ hm]

/-! ### NEW_HEAD -/

/-- A staged write that is asked for is reserved and buffered, or refused (R94, R137, R139). -/
theorem stageReserved_only (who : StagedFor) (offset : Nat) (data : List Byte) :
    Only ([.energy, .owed] ++ messageParts) s (s.stageReserved who offset data).1 := by
  unfold stageReserved
  dsimp only
  split
  · exact (reservedStaged_only s who offset data).mono (by decide)
  · exact (refuse_only s none).mono (by decide)

/-- A save of the map changes its sequence number only among the head's health state (R481). -/
theorem saveMap_health (s : State) (h : Head) :
    ∃ q, ∀ m, (s.saveMap h).health m = if h = m then { s.health h with mapSeq := q } else s.health m := by
  have asked := fun who offset data => health_of_only (stageReserved_only (s := s) who offset data) (by decide)
  have same (m : Head) : (if h = m then { s.health h with mapSeq := (s.health h).mapSeq } else s.health m) = s.health m := by
    split
    · subst m; rfl
    · rfl
  unfold saveMap
  split
  · exact ⟨(s.health h).mapSeq, fun m => (same m).symm⟩
  · dsimp only
    split
    · refine ⟨(s.health h).mapSeq + 1, fun m => ?_⟩
      rw [modHealth_health, asked, asked]
    · exact ⟨(s.health h).mapSeq, fun m => (asked _ _ _ m).trans (same m).symm⟩

theorem saveMap_only (h : Head) : Only ([.energy, .owed, .hlt] ++ messageParts) s (s.saveMap h) := by
  unfold saveMap
  dsimp only
  split
  · simp (disch := decide)
  · split <;> simp (disch := decide) [Only.step (stageReserved_only _ _ _)]

/-- A save of the fire counts changes its sequence number and its mark only among the head's health state (R485). -/
theorem saveFires_health (s : State) (h : Head) :
    ∃ q d, ∀ m, (s.saveFires h).health m = if h = m then { s.health h with fireSeq := q, firesDirty := d } else s.health m := by
  have asked := fun who offset data => health_of_only (stageReserved_only (s := s) who offset data) (by decide)
  have same (m : Head) : (if h = m then { s.health h with fireSeq := (s.health h).fireSeq, firesDirty := (s.health h).firesDirty }
      else s.health m) = s.health m := by
    split
    · subst m; rfl
    · rfl
  unfold saveFires
  split
  · exact ⟨_, _, fun m => (same m).symm⟩
  · dsimp only
    split
    · refine ⟨(s.health h).fireSeq + 1, false, fun m => ?_⟩
      rw [modHealth_health, asked, asked]
    · exact ⟨_, _, fun m => (asked _ _ _ m).trans (same m).symm⟩

theorem saveFires_only (h : Head) : Only ([.energy, .owed, .hlt] ++ messageParts) s (s.saveFires h) := by
  unfold saveFires
  dsimp only
  split
  · exact Only.refl _ _
  · split <;> simp (disch := decide) [Only.step (stageReserved_only _ _ _)]

/-- A new head starts with an empty map and no fire counts (R509). -/
theorem newHead_spec (s : State) (n : Lane) :
    ((s.newHead n).health n).map = [] ∧ ((s.newHead n).health n).fires = [] ∧
      (∀ m, m ≠ n → (s.newHead n).health m = s.health m) ∧ Only ([.energy, .owed, .hlt] ++ messageParts) s (s.newHead n) := by
  unfold newHead
  dsimp only
  generalize fresh : (s.modHealth n fun x => { x with fires := [], map := [], firesDirty := true }).commit = v
  obtain ⟨q, map⟩ := saveMap_health v n
  obtain ⟨r, d, fires⟩ := saveFires_health (v.saveMap n) n
  have own : v.health n = { s.health n with fires := [], map := [], firesDirty := true } := by
    rw [← fresh, commit_health, modHealth_health_same]
  have others (m : Head) (hm : m ≠ n) : v.health m = s.health m := by
    rw [← fresh, commit_health, modHealth_health_other _ _ _ _ (Ne.symm hm)]
  have only : Only ([.energy, .owed, .hlt] ++ messageParts) s v := by rw [← fresh]; simp (disch := decide)
  refine ⟨?_, ?_, fun m hm => ?_, (only.trans (saveMap_only n)).trans (saveFires_only n)⟩
  · rw [fires, if_pos rfl, map, if_pos rfl, own]
  · rw [fires, if_pos rfl, map, if_pos rfl, own]
  · rw [fires, if_neg (Ne.symm hm), map, if_neg (Ne.symm hm), others m hm]

/-! ### DRAIN and CLOSE -/

theorem laneDrain_spec (h : s.laneState n = .inService) :
    (s.laneDrain n).laneState n = .draining ∧ (∀ m, m ≠ n → (s.laneDrain n).laneState m = s.laneState m) ∧
      Only (.hat :: messageParts) s (s.laneDrain n) := by
  rw [laneDrain, if_pos h]
  exact ⟨toLane_laneState_same s n _, fun m hm => toLane_laneState_other s _ hm, toLane_only n _⟩

theorem laneClose_spec (h : s.laneState n = .open_) :
    (s.laneClose n).laneState n = .closing ∧ (∀ m, m ≠ n → (s.laneClose n).laneState m = s.laneState m) ∧
      (s.laneClose n).closeEnd n = some (s.tick + s.fld Reg.HAT_CTRL 15 0 * 10000000) ∧ Only (.hat :: messageParts) s (s.laneClose n) := by
  have tick : (s.toLane n .closing).tick = s.tick := (toLane_only n _).part .tick (by decide)
  have told : RegsIn [4] s (s.toLane n .closing) := by
    rw [toLane_eq, regsIn_stateItem _ _ _ _ (by decide), regsIn_commit]
    exact fun _ _ => rfl
  have wait : (s.toLane n .closing).fld Reg.HAT_CTRL 15 0 = s.fld Reg.HAT_CTRL 15 0 := fld_of_regsIn told _ _ _ (by decide)
  have state := toLane_laneState_same s n .closing
  have others (m : Lane) (hm : m ≠ n) := toLane_laneState_other s .closing hm
  have only := toLane_only (u := s) n .closing
  rw [laneClose, if_pos h, ← tick, ← wait]
  generalize s.toLane n .closing = v at *
  exact ⟨state, others, Vector.getElem_set_self .., (only_modHat _ (by decide)).2 only⟩

/-! ### The end of a close -/

/-- A close whose wait ends with a check failing opens the lane again, with its message (R507). -/
theorem closeFail_spec (h : s.laneState n = .closing) (watches : s.unitInReset 35 = false) :
    (s.closeFail n).laneState n = .open_ ∧ (∀ m, m ≠ n → (s.closeFail n).laneState m = s.laneState m) ∧
      (s.closeFail n).rbit (Reg.HAT_LANE_EVT n) 0 = true ∧ (s.closeFail n).rbit (Reg.HAT_LANE_EVT n) 2 = true ∧
      (s.closeFail n).rbit Reg.FLT_PEND_B 7 = true ∧ ((s.closeFail n).lane n).deferred = [] ∧
      Only ([.ses, .plc, .hat] ++ messageParts) s (s.closeFail n) := by
  rw [closeFail, if_pos h]
  generalize flagged : s.setFlag (Reg.HAT_LANE_EVT n) 0 = f
  generalize told : f.raiseLane Kind.selfCheck (word n.val) n = v
  have raised : Only messageParts f v := by rw [← told]; exact raiseN_only 12 f _ _ _
  have only : Only messageParts s v := by
    rw [← flagged] at raised
    exact ((setFlag_only _ _).mono (by decide)).trans raised
  have flag : v.rbit (Reg.HAT_LANE_EVT n) 0 = true := by
    have kept : RegsIn [4] f v := by rw [← told]; exact raiseN_in 12 f _ _ _ (by decide)
    rw [rbit_of_regsIn kept _ _ (by rw [laneEvt_block]; decide), ← flagged, setFlag_rbit_same _ _ (by decide)]
  have pend : v.rbit Reg.FLT_PEND_B 7 = true := by
    have watching : f.unitInReset 35 = false := by
      rw [← flagged, unitInReset_of_only (setFlag_only _ _) (by decide), watches]
    rw [← told]
    exact raiseN_pending 11 Kind.selfCheck (word n.val) (some n) (by decide) watching
  obtain ⟨state, states, lane, -, opened⟩ := enterOpen_spec v n
  exact ⟨state, fun m hm => (states m hm).trans (laneState_of_only only (by decide) m), enterOpen_keeps (.inl rfl) 0 (by decide) flag, opened,
    enterOpen_keeps (.inr (by decide)) 7 (by decide) pend, by rw [lane],
    (only.mono (by decide)).trans (enterOpen_only n)⟩

/-! ### Leases -/

theorem lease_masks : ∀ r : Fin 66, w1gMask (Reg.HAT_LEASE r) = 0 ∧ ownAction (Reg.HAT_LEASE r) = true := by decide

/-- The entries of the lease table are set by their transfers alone (R513). -/
theorem leaseTransfer_granted {r : Fin 66} {dst : Byte} (other : s.holder r ≠ dst)
    (granted : s.Granted o OpEnv.quiet (Reg.HAT_LEASE r) [word dst.toNat]) :
    exec (.leaseTransfer o r dst) s = .next (s.written o (s.commit.transfer r dst)) := by
  obtain ⟨flagless, own⟩ := lease_masks r
  have place : 0xE100 ≤ Reg.HAT_LEASE r ∧ Reg.HAT_LEASE r < 0xE208 ∧ (Reg.HAT_LEASE r - 0xE100) / 4 = r.val := by
    simp only [Reg.HAT_LEASE]
    omega
  have run : exec (.leaseTransfer o r dst) s = s.finish (s.ownerWrites o OpEnv.quiet (Reg.HAT_LEASE r) [word dst.toNat]) := rfl
  have named : BitVec.ofNat 8 (bits (word dst.toNat) 7 0) = dst := by
    clear other granted run
    revert dst
    decide
  rw [run]
  clear run
  generalize Reg.HAT_LEASE r = a at *
  obtain ⟨large, small, entry⟩ := place
  have bare : word dst.toNat &&& w1gMask a = 0 := by rw [flagless]; exact BitVec.and_zero
  have live : s.moot (a, word dst.toNat) = false := by
    unfold moot
    dsimp only
    rw [if_neg (by omega), if_neg (by simp only [Reg.PWR_REQ]; omega), if_neg (by simp only [Reg.FLT_RELEASE]; omega),
      if_pos ⟨large, small⟩, entry, named]
    exact decide_eq_false other
  have placed : s.placeWords [(a, word dst.toNat)] = s := if_pos (.inr (.inr ⟨large, small⟩))
  rw [finish_own granted (by omega) own bare live, placed, effect_blockHat _ (by omega),
    lineEffect, if_neg (by omega), if_neg (by omega), if_pos ⟨large, small⟩, entry, named]

theorem setLease_holder (s : State) {r : Nat} (hr : r < 66) (e : Lease) (q : Nat) :
    (s.setLease r e).holder q = if r = q then e.holder else s.holder q := by
  unfold holder lease setLease modHat
  simp only [Vector.getElem?_setIfInBounds]
  split
  · rfl
  · rfl

/-- A transfer gives the resource to its new holder and no other (R513). -/
theorem transfer_spec (s : State) (r : Fin 66) {dst : Byte} (other : s.holder r ≠ dst) :
    (s.transfer r dst).holder r = dst ∧ ∀ q : Fin 66, q ≠ r → (s.transfer r dst).holder q = s.holder q := by
  rw [transfer, if_neg other]
  refine ⟨?_, fun q hq => ?_⟩
  · rw [setLease_holder s r.isLt, if_pos rfl]
  · rw [setLease_holder s r.isLt, if_neg fun e => hq (Fin.ext e.symm)]

end State

/-- Settles O60: each command of a lane is its transition on the state that its commit leaves; the end of a close is a message and an
opening; a transfer sets one entry. -/
theorem lanesAndLeasesMove : Obligations.LanesAndLeasesMove := by
  intro s n
  have kept {l : List Part} {v : State} (only : Only [.order, .regs] s v) (hl : ∀ p ∈ [Part.order, .regs], p ∈ l) {u : State} (h : Only l v u) :
      Only l s u := (only.mono hl).trans h
  refine ⟨fun o serves granted => ?_, fun o shut granted => ?_, fun o opened granted => ?_, fun o granted => ?_,
    fun d ticks due closes watches => ?_, fun o r dst other granted => ?_⟩
  · obtain ⟨v, run, -, only⟩ := State.laneCmd_granted 0 granted (decide_eq_false (by rw [serves]; decide))
    have states (m : Lane) : v.laneState m = s.laneState m := State.laneState_of_only only (by decide) m
    obtain ⟨state, others, moved⟩ := State.laneDrain_spec ((states n).trans serves)
    exact ⟨_, run, state, fun m hm => (others m hm).trans (states m), (moved.part .plc (by decide)).trans (only.part .plc (by decide)),
      kept only (by decide) moved⟩
  · obtain ⟨v, run, -, only⟩ := State.laneCmd_granted 1 granted (decide_eq_false shut)
    have states (m : Lane) : v.laneState m = s.laneState m := State.laneState_of_only only (by decide) m
    have lanes (m : Lane) : v.lane m = s.lane m := State.lane_of_only only (by decide) m
    obtain ⟨state, others, deferred, flag, records, same⟩ := State.laneOpen_spec (s := v) (n := n) (by rw [states]; exact shut)
    rw [states] at records
    exact ⟨_, run, state, fun m hm => (others m hm).trans (states m), deferred, flag, records, fun m hm => (same m hm).trans (lanes m),
      kept only (by decide) (State.laneOpen_only n)⟩
  · obtain ⟨v, run, regs, only⟩ := State.laneCmd_granted 2 granted (decide_eq_false (by rw [opened]; decide))
    have states (m : Lane) : v.laneState m = s.laneState m := State.laneState_of_only only (by decide) m
    have tick : v.tick = s.tick := only.part .tick (by decide)
    obtain ⟨state, others, wait, moved⟩ := State.laneClose_spec ((states n).trans opened)
    rw [tick, State.fld, regs] at wait
    exact ⟨_, run, state, fun m hm => (others m hm).trans (states m), wait, kept only (by decide) moved⟩
  · obtain ⟨v, run, -, only⟩ := State.laneCmd_granted 3 granted rfl
    obtain ⟨map, fires, others, moved⟩ := State.newHead_spec v n
    exact ⟨_, run, map, fires, fun m hm => (others m hm).trans (State.health_of_only only (by decide) m), kept only (by decide) moved⟩
  · have time := State.advanceTo_only (u := s) d
    have states (m : Lane) : (s.advanceTo d).laneState m = s.laneState m := State.laneState_of_only time (by decide) m
    have run : exec (.closeWaitEnd n) s = .next (s.after ((s.advanceTo d).closeFail n)) :=
      congrArg s.finish (by rw [due, State.timed_some ticks])
    obtain ⟨state, others, failed, flag, pend, deferred, moved⟩ := State.closeFail_spec ((states n).trans closes) watches
    exact ⟨_, run, state, fun m hm => (others m hm).trans (states m), failed, flag, pend, deferred, moved⟩
  · obtain ⟨given, others⟩ := State.transfer_spec s.commit r (dst := dst) other
    exact ⟨_, State.leaseTransfer_granted other granted, given, others, (State.commit_only.mono (by decide)).trans ((State.transfer_only _ _).mono (by decide))⟩

end Sys2Proof.Machine
end

section
/-! ## Steps of one axis -/

namespace Sys2Proof.Machine
namespace State

variable {s t u v : State} {o : OpCtx} {env : OpEnv} {x : Axis} {l : List Part}

theorem axis_of_only (h : Only l s t) (hl : .mot ∉ l) (y : Axis) : t.axis y = s.axis y :=
  congrArg (fun m : Mot => m.axes[y]) (h.part .mot hl)

/-- From `s` to `t` axis `x` acts: beside the listed parts nothing changes, the other axes and the axis bus stand, and of the
registers only the axis's event registers change. -/
structure AxisActs (l : List Part) (x : Axis) (s t : State) : Prop where
  only : Only l s t
  others : ∀ y, y ≠ x → t.axis y = s.axis y
  axb : t.mot.axb = s.mot.axb
  regs : RegsBut [Reg.MOT_EVT x, Reg.MOT_DRV_EVT x] s t

namespace AxisActs

theorem mono {m : List Part} (h : AxisActs l x s t) (hl : ∀ p ∈ l, p ∈ m) : AxisActs m x s t := ⟨h.only.mono hl, h.others, h.axb, h.regs⟩

theorem trans (h : AxisActs l x s t) (k : AxisActs l x t u) : AxisActs l x s u :=
  ⟨h.only.trans k.only, fun y hy => (k.others y hy).trans (h.others y hy), k.axb.trans h.axb, fun a ha => (k.regs a ha).trans (h.regs a ha)⟩

/-- A step that leaves the axes, and every register's value. -/
theorem of_regs (h : Only l s t) (regs : ∀ a, t.reg a = s.reg a) (hm : .mot ∉ l) : AxisActs l x s t :=
  ⟨h, fun y _ => axis_of_only h hm y, congrArg Mot.axb (h.part .mot hm), fun a _ => regs a⟩

theorem of_only (h : Only l s t) (hm : .mot ∉ l) (hr : .regs ∉ l) : AxisActs l x s t := of_regs h (fun a => h.regsIn hr a (by simp)) hm

theorem refl (s : State) : AxisActs l x s s := ⟨Only.refl _ _, fun _ _ => rfl, rfl, fun _ _ => rfl⟩

theorem modAxis (s : State) (f : AxisSt → AxisSt) : AxisActs [.mot] x s (s.modAxis x f) :=
  ⟨modAxis_only _ _, fun _ hy => modAxis_axis_other _ _ _ _ (Ne.symm hy), rfl, fun _ _ => rfl⟩

theorem setAxis (s : State) (a : AxisSt) : AxisActs [.mot] x s (s.setAxis x a) :=
  ⟨setAxis_only _ _, fun _ hy => setAxis_axis_other _ _ _ _ (Ne.symm hy), rfl, fun _ _ => rfl⟩

theorem setFlag (s : State) {a : Nat} (n : Nat) (ha : a ∈ [Reg.MOT_EVT x, Reg.MOT_DRV_EVT x]) :
    AxisActs [.regs, .guards] x s (s.setFlag a n) :=
  ⟨setFlag_only _ _, fun _ _ => rfl, rfl, fun _ hb => setFlag_reg_other _ _ _ _ fun e => hb (e ▸ ha)⟩

theorem commit (s : State) : AxisActs [.order] x s s.commit := of_only commit_only (by decide) (by decide)

theorem ite {c : Prop} [Decidable c] (ht : AxisActs l x s t) (hu : AxisActs l x s u) : AxisActs l x s (if c then t else u) := by
  split
  · exact ht
  · exact hu

theorem retarget (s : State) : AxisActs [.mot] x s (s.retarget x) := by
  unfold State.retarget
  exact modAxis _ _

theorem modDrive (s : State) (f : Drive → Drive) : AxisActs [.mot] x s (s.modDrive x f) := modAxis _ _

theorem startRamp (s : State) (lose : Bool) : AxisActs [.order, .regs, .guards, .mot] x s (s.startRamp x lose) := by
  have suspects (w : State) : AxisActs [.order, .regs, .guards, .mot] x w
      (if lose then (w.modAxis x fun a => { a with suspect := true }).setFlag (Reg.MOT_DRV_EVT x) 2 else w) :=
    ite (((modAxis _ _).mono (by decide)).trans ((setFlag _ _ (by simp)).mono (by decide))) (refl _)
  exact ((((modDrive s _).mono (by decide)).trans (suspects _)).trans ((retarget _).mono (by decide))).trans ((commit _).mono (by decide))

theorem reenergise (s : State) : AxisActs [.order, .regs, .guards, .mot] x s (s.reenergise x) := by
  unfold State.reenergise
  split
  · split
    · exact startRamp _ _
    · exact startRamp _ _
    · exact (((modDrive _ _).mono (by decide)).trans ((retarget _).mono (by decide))).trans ((commit _).mono (by decide))
  · exact refl _

theorem startProfile (s : State) (d : Int) (m : Nat) : AxisActs [.mot] x s (s.startProfile x d m) := by
  unfold State.startProfile
  exact modAxis _ _

theorem fromNext (s : State) : AxisActs [.fired] x s (s.fromNext x) := of_only (setFired_only _ _) (by decide) (by decide)

theorem debitAll (s : State) (w : ResFor) : AxisActs [.energy] x s (s.debitAll w) := of_only (debitAll_only w) (by decide) (by decide)

theorem endMove (s : State) (flag : Nat) : AxisActs [.order, .regs, .guards, .energy, .mot] x s (s.endMove x flag) :=
  (((((debitAll s _).mono (by decide)).trans ((modAxis _ _).mono (by decide))).trans ((setFlag _ _ (by simp)).mono (by decide))).trans
    ((modDrive _ _).mono (by decide))).trans ((commit _).mono (by decide))

theorem stopAxis (s : State) (sure : Bool) (dst : AxisState) : AxisActs [.order, .energy, .mot] x s (s.stopAxis x sure dst) :=
  (((debitAll _ _).mono (by decide)).trans ((modAxis _ _).mono (by decide))).trans ((commit _).mono (by decide))

theorem rampDown (s : State) : AxisActs [.mot] x s (s.rampDown x) := by
  unfold State.rampDown
  exact modAxis _ _

end AxisActs

/-! ### The axis after a step -/

/-- The drive stage with its coils at the targets of its phase and current scale (R316). -/
def retargeted (s : State) (x : Axis) : Drive :=
  let d := (s.axis x).drive
  let (va, na, vb, nb) := s.coilShape x d.phase.toNat
  let cs := s.csNow x
  let hyst := s.fld (Reg.MOT_CHOP_HYST x) 11 0
  { d with coilA := withThresholds hyst (takeTarget s.tick d.coilA na (va * cs / 256)),
           coilB := withThresholds hyst (takeTarget s.tick d.coilB nb (vb * cs / 256)) }

theorem retarget_axis (s : State) (x : Axis) : (s.retarget x).axis x = { s.axis x with drive := s.retargeted x } := modAxis_axis_same _ _ _

theorem modDrive_axis (s : State) (x : Axis) (f : Drive → Drive) :
    (s.modDrive x f).axis x = { s.axis x with drive := f (s.axis x).drive } := modAxis_axis_same _ _ _

/-- A ramp begins from standstill; with a phase that is lost the axis becomes suspect (R326, R327). -/
theorem startRamp_axis (s : State) (x : Axis) (lose : Bool) : ∃ d, d.standstill = false ∧
    d.rampEnd = some (s.tick + s.fld (Reg.MOT_DRV_SS x) 31 16 * 1000) ∧
    (s.startRamp x lose).axis x = { s.axis x with drive := d, suspect := (s.axis x).suspect || lose } := by
  unfold startRamp
  dsimp only
  cases lose with
  | false =>
    rw [if_neg Bool.false_ne_true, commit_axis, retarget_axis]
    refine ⟨_, ?_, ?_, by rw [modDrive_axis, Bool.or_false]⟩ <;> rw [retargeted, modDrive_axis]
  | true =>
    rw [if_pos rfl, commit_axis, retarget_axis, setFlag_axis, modAxis_axis_same]
    refine ⟨_, ?_, ?_, by rw [modDrive_axis, Bool.or_true]⟩ <;> rw [retargeted, setFlag_axis, modAxis_axis_same, modDrive_axis]

/-- A stepper in standstill is energised again: its drive stage changes, and it may lose its position (R327). -/
theorem reenergise_axis (s : State) (x : Axis) : ∃ d q, (s.reenergise x).axis x = { s.axis x with drive := d, suspect := q } := by
  unfold reenergise
  split
  · split
    · obtain ⟨d, -, -, same⟩ := startRamp_axis s x false
      exact ⟨d, _, same⟩
    · obtain ⟨d, -, -, same⟩ := startRamp_axis s x true
      exact ⟨d, _, same⟩
    · dsimp only
      rw [commit_axis, retarget_axis, modDrive_axis]
      exact ⟨_, _, rfl⟩
  · exact ⟨_, _, rfl⟩

/-- A move or a homing that ends (R292, R304). -/
theorem endMove_axis (s : State) (x : Axis) (flag : Nat) : ∃ d, (s.endMove x flag).axis x =
    { s.axis x with state := .idle, v := 0, rem := 0, endless := false, home := none, homeRef := none, parking := false, drive := d } := by
  unfold endMove restartSs modDrive
  dsimp only
  rw [commit_axis, modAxis_axis_same, setFlag_axis, modAxis_axis_same, axis_of_only (debitAll_only _) (by decide)]
  exact ⟨_, rfl⟩

/-- A stop (R302). -/
theorem stopAxis_axis (s : State) (x : Axis) (sure : Bool) (dst : AxisState) : ∃ d, (s.stopAxis x sure dst).axis x =
    { s.axis x with state := dst, suspect := (s.axis x).suspect || (sure || s.abovePullIn x), emit := (s.axis x).cmd, v := 0, ph := 0, rem := 0,
                    endless := false, home := none, homeRef := none, blend := none, cycle := false, waiting := false, mWin := none,
                    parking := false, drive := d } := by
  unfold stopAxis
  dsimp only
  rw [commit_axis, modAxis_axis_same, axis_of_only (debitAll_only _) (by decide)]
  exact ⟨_, rfl⟩

/-- A ramp down to the starting speed (R295). -/
theorem rampDown_axis (s : State) (x : Axis) : (s.rampDown x).axis x = { s.axis x with
    rem := if (s.axis x).endless = true then s.dstop x (s.axis x).v (s.axis x).vs + 1
      else min (s.axis x).rem (s.dstop x (s.axis x).v (s.axis x).vs + 1),
    endless := false } := modAxis_axis_same _ _ _

end State
end Sys2Proof.Machine
end

section
/-! ## Granted commands of axes -/

namespace Sys2Proof.Machine
namespace State

variable {s t v : State} {o : OpCtx} {env : OpEnv} {x : Axis}

/-! ### What the checks of a write say -/

/-- A granted word is not refused for the state at its commit (R194). -/
theorem stateRefusal_of_granted {a : Nat} {w : Word} (h : s.Granted o env a [w]) (small : a < 2 ^ 32) :
    s.stateRefusal (s.placeWords [(a, w)]) a w = none := by
  obtain ⟨-, -, -, -, passes, -⟩ := h
  rw [wordsAt_single small] at passes
  have codes := firstCode_none passes
  simp only [List.append_eq_nil_iff, List.filterMap_eq_nil_iff, List.mem_singleton, forall_eq] at codes
  exact codes.1

/-- The code that refuses a command. -/
def refusalOf : Except Code State → Option Code
  | .error c => some c
  | .ok _ => none

theorem refusalOf_ok (t : State) : refusalOf (.ok t) = none := rfl

theorem refusalOf_error (c : Code) : refusalOf (.error c) = some c := rfl

theorem refusalOf_none {r : Except Code State} (h : refusalOf r = none) : ∃ t, r = .ok t := by
  cases r with
  | error => cases h
  | ok t => exact ⟨t, rfl⟩

theorem refusalOf_ite {p : Prop} [Decidable p] (a b : Except Code State) :
    refusalOf (if p then a else b) = if p then refusalOf a else refusalOf b := by
  split <;> rfl

/-! ### Commands are refused for what the registers and the units say

A state in which every register reads as in another, and in which nothing but order stamp and registers differ, refuses the same
commands. -/

theorem camWord_of_mem (mem : v.mem = s.mem) : v.camWord x = s.camWord x := by
  funext k o
  rw [camWord, mem, camWord]

section
variable (regs : ∀ b, v.reg b = s.reg b) (only : Only [.order, .regs] s v)
include regs

theorem fld_of_regs (a hi lo : Nat) : v.fld a hi lo = s.fld a hi lo := by rw [fld, regs, fld]

theorem rbit_of_regs (a n : Nat) : v.rbit a n = s.rbit a n := by rw [rbit, regs, rbit]

theorem profileOk_of_regs (b : Bool) : v.profileOk x b = s.profileOk x b := by
  unfold profileOk axVstart stepMin
  rw [regs, regs, regs, regs, regs, fld_of_regs regs]

theorem axMode_of_regs : v.axImode x = s.axImode x ∧ v.axGmode x = s.axGmode x ∧ v.axIsrc x = s.axIsrc x :=
  ⟨rbit_of_regs regs _ _, rbit_of_regs regs _ _, fld_of_regs regs _ _ _⟩

end

section
variable (regs : ∀ b, v.reg b = s.reg b) (only : Only [.order, .regs] s v)

include only in
theorem axis_of_written : v.axis x = s.axis x := axis_of_only only (by decide) x

include regs only

theorem reserveMove_refusal (d : Nat) : refusalOf (v.reserveMove x d) = refusalOf (s.reserveMove x d) := by
  have energy : v.moveEnergy x d = s.moveEnergy x d := by rw [moveEnergy, regs, regs, moveEnergy]
  have grants (e : Nat) : v.wouldGrant false e = s.wouldGrant false e :=
    wouldGrant_congr (l := []) (pwr_of_only only (by decide) (by decide)) (fun a _ => regs a) (by decide) false e
  unfold reserveMove
  dsimp only
  rw [refusalOf_ite, refusalOf_ite, energy, grants]
  rfl

theorem axMove_refusal : refusalOf (v.axMove x) = refusalOf (s.axMove x) := by
  have answer (u : State) : refusalOf (u.axMove x) = if (!u.profileOk x false) = true then some Code.badValue else
      if (u.axis x).state ≠ .idle then some Code.busy else refusalOf (u.reserveMove x (u.moveDistance x)) := by
    unfold axMove
    dsimp only
    rw [refusalOf_ite, refusalOf_ite]
    cases u.reserveMove x (u.moveDistance x) <;> rfl
  have distance : v.moveDistance x = s.moveDistance x := by rw [moveDistance, regs, axis_of_written only, moveDistance]
  rw [answer, answer, profileOk_of_regs regs, axis_of_written only, distance, reserveMove_refusal regs only]

theorem axHome_refusal : refusalOf (v.axHome x) = refusalOf (s.axHome x) := by
  have answer (u : State) : refusalOf (u.axHome x) = if (!u.profileOk x true || u.homeActive x) = true then some Code.badValue else
      if (u.axis x).state ≠ .idle then some Code.busy else refusalOf (u.reserveMove x (u.homeDistance x)) := by
    unfold axHome
    dsimp only
    rw [refusalOf_ite, refusalOf_ite]
    cases u.reserveMove x (u.homeDistance x) <;> rfl
  have distance : v.homeDistance x = s.homeDistance x := by rw [homeDistance, regs, regs, regs, homeDistance]
  have active : v.homeActive x = s.homeActive x := by
    have tmr : v.tmr = s.tmr := only.part .tmr (by decide)
    simp only [homeActive, fld_of_regs regs, rbit_of_regs regs, tmr]
  rw [answer, answer, profileOk_of_regs regs, active, axis_of_written only, distance, reserveMove_refusal regs only]

omit regs in
theorem camPlan_of_written : v.camOffset x = s.camOffset x ∧ v.camBlend x = s.camBlend x ∧ v.camRatio x = s.camRatio x := by
  have words : v.camWord x = s.camWord x := camWord_of_mem (mem_of_only only (by decide) (by decide) (by decide))
  refine ⟨funext fun k => ?_, funext fun k => ?_, funext fun k => ?_⟩
  · rw [camOffset, words, camOffset]
  · rw [camBlend, words, camBlend]
  · rw [camRatio, words, camRatio]

theorem camOk_of_regs : v.camOk x = s.camOk x := by
  obtain ⟨offsets, blends, ratios⟩ := camPlan_of_written (x := x) only
  have points : v.camPoints x = s.camPoints x := fld_of_regs regs _ _ _
  unfold camOk
  rw [offsets, blends, ratios, points, (axMode_of_regs regs).2.1, rbit_of_regs regs]

theorem axEngage_refusal : refusalOf (v.axEngage x) = refusalOf (s.axEngage x) := by
  obtain ⟨imode, gmode, isrc⟩ := axMode_of_regs (x := x) regs
  unfold axEngage
  rw [refusalOf_ite, refusalOf_ite, refusalOf_ite, refusalOf_ite, camOk_of_regs regs only, axis_of_written only, imode, gmode, isrc,
    rbit_of_regs regs, refusalOf_ok, refusalOf_ok, refusalOf_error, refusalOf_error]

theorem axDecel_refusal : refusalOf (v.axDecel x) = refusalOf (s.axDecel x) := by
  have ends : v.disengageable x = s.disengageable x := by
    obtain ⟨imode, gmode, -⟩ := axMode_of_regs (x := x) regs
    unfold disengageable
    rw [imode, gmode, axis_of_written only]
  unfold axDecel
  rw [axis_of_written only, ends]
  cases (s.axis x).state with
  | gear => rw [refusalOf_ite, refusalOf_ite]; rfl
  | move | home | disabled | idle | halt => rfl

theorem axClear_refusal : refusalOf (v.axClear x) = refusalOf (s.axClear x) := by
  unfold axClear srcState
  rw [axis_of_written only, fld_of_regs regs, refusalOf_ite, refusalOf_ite, refusalOf_ite, refusalOf_ite]
  rfl

omit regs in
theorem axEnable_refusal : refusalOf (v.axEnable x) = refusalOf (s.axEnable x) := by
  unfold axEnable
  rw [axis_of_written only, refusalOf_ite, refusalOf_ite, refusalOf_ite, refusalOf_ite]
  rfl

theorem axCommand_refusal (k : Nat) : refusalOf (v.axCommand x k) = refusalOf (s.axCommand x k) := by
  unfold axCommand
  split
  · exact axEnable_refusal only
  · rfl
  · exact axMove_refusal regs only
  · exact axHome_refusal regs only
  · exact axEngage_refusal regs only
  · exact axDecel_refusal regs only
  · rfl
  · exact axClear_refusal regs only

end

/-! ### A granted command -/

theorem motCmd_masks : ∀ x : Axis, rwMask (Reg.MOT_CMD x) = 0 ∧ w1gMask (Reg.MOT_CMD x) = 0 ∧ ownAction (Reg.MOT_CMD x) = true ∧
    inst6 (Reg.MOT_CMD x) = x := by decide

theorem lowBit_pow_eight : ∀ k : Fin 8, lowBit (word (2 ^ k.val)) 8 0 = k.val := by decide

/-- The commands that have no effect in the axis's state make no commit (R293, R551). -/
def axNothing (s : State) (x : Axis) (k : Nat) : Bool :=
  match k with
  | 0 => decide ((s.axis x).state ≠ .disabled)
  | 1 => decide ((s.axis x).state = .disabled)
  | 6 => !s.axMoves x
  | 7 => decide ((s.axis x).state ≠ .halt)
  | _ => false

/-- What a write of block MOT does. -/
theorem effect_blockMot {a : Nat} {w : Word} (v : State) (block : a / 0x1000 = 7) :
    effect s env v (a, w) = motionEffect s v a w := by
  unfold State.effect
  dsimp only
  rw [if_neg (by omega), block]
  rfl

/-- A granted command of an axis that has an effect is done on the state that its commit leaves (R293). -/
theorem motCommand_granted (k : Fin 8) (granted : s.Granted o OpEnv.quiet (Reg.MOT_CMD x) [word (2 ^ k.val)])
    (live : s.axNothing x k.val = false) :
    ∃ v t : State, s.finish (s.motCommand o x k.val) = .next (s.written o t) ∧ v.axCommand x k.val = .ok t ∧
      (∀ b, v.reg b = s.reg b) ∧ Only [.order, .regs] s v := by
  obtain ⟨fieldless, flagless, own, axis⟩ := motCmd_masks x
  have place : 0x7000 ≤ Reg.MOT_CMD x ∧ Reg.MOT_CMD x < 0x7600 ∧ Reg.MOT_CMD x % 0x100 = 4 := by
    simp only [Reg.MOT_CMD]
    omega
  rw [motCommand, ownerWrite]
  generalize Reg.MOT_CMD x = a at *
  have idle : s.moot (a, word (2 ^ k.val)) = false := by
    rw [moot_trigger (by omega) (by omega) (by omega) fieldless flagless, mootCommand, if_pos place, axis, lowBit_pow_eight]
    exact live
  have accepted : refusalOf (s.axCommand x k.val) = none := by
    have passes := stateRefusal_of_granted granted (by omega)
    rw [stateRefusal, if_neg (by simp only [Reg.PWR_REQ]; omega), if_neg (by simp only [Reg.CMP_CRATE_VGO]; omega),
      if_neg (by simp only [Reg.MEM_LFT_GO]; omega), if_neg (by omega), if_neg (by omega), if_neg (by omega),
      show a / 0x1000 = 7 by omega] at passes
    have refusal : s.axisRefusal x (word (2 ^ k.val)) = none := by
      rw [← passes]
      exact ((if_pos place).trans (by rw [axis])).symm
    rw [axisRefusal, lowBit_pow_eight] at refusal
    exact refusal
  obtain ⟨v, run, regs, only⟩ := command_granted granted (by omega) own fieldless flagless idle
  obtain ⟨t, done⟩ := refusalOf_none ((axCommand_refusal regs only k.val).trans accepted)
  refine ⟨v, t, ?_, done, regs, only⟩
  rw [run, effect_blockMot v (by omega), motionEffect, if_neg (by simp only [Reg.MOT_AXB_CFG]; omega), if_pos ⟨place.1, place.2.1⟩, axis]
  dsimp only
  rw [if_pos place.2.2, lowBit_pow_eight, done]

end State
end Sys2Proof.Machine
end

section
/-! ## O50: what the commands of an axis do -/

namespace Sys2Proof.Machine
namespace State

variable {s t u v : State} {x : Axis}

/-- What a command or an event of an axis may change. -/
abbrev motionParts : List Part := [.order, .regs, .guards, .fired, .energy, .mot]

theorem drvSs_kept : ∀ x : Axis, Reg.MOT_DRV_SS x ∉ [Reg.MOT_EVT x, Reg.MOT_DRV_EVT x] := by decide

namespace AxisActs

theorem motion (h : AxisActs [.mot] x s t) : AxisActs motionParts x s t := h.mono (by decide)

theorem committed (h : AxisActs motionParts x s t) : AxisActs motionParts x s t.commit := h.trans ((commit t).mono (by decide))

theorem reenergised (h : AxisActs motionParts x s t) : AxisActs motionParts x s (t.reenergise x) := h.trans ((reenergise t).mono (by decide))

theorem ended (h : AxisActs motionParts x s t) (flag : Nat) : AxisActs motionParts x s (t.endMove x flag) := h.trans ((endMove t flag).mono (by decide))

theorem granted (s : State) (e : Nat) : AxisActs motionParts x s (s.grant (.axis x) e) :=
  (of_regs (grant_only _ _) (fun _ => rfl) (by decide)).mono (by decide)

theorem tick (h : AxisActs motionParts x s t) : t.tick = s.tick := h.only.part .tick (by decide)

theorem fld (h : AxisActs motionParts x s t) {a : Nat} (ha : a ∉ [Reg.MOT_EVT x, Reg.MOT_DRV_EVT x]) (hi lo : Nat) : t.fld a hi lo = s.fld a hi lo := by
  rw [State.fld, h.regs a ha, State.fld]

end AxisActs

/-- A command that is done was refused by none of its checks. -/
theorem ok_of_checked {p : Prop} [Decidable p] {c : Code} {r : Except Code State} (run : (if p then .error c else r) = .ok t) : r = .ok t := by
  split at run
  · cases run
  · exact run

theorem fromNext_axis (s : State) (x y : Axis) : (s.fromNext x).axis y = s.axis y := rfl

theorem restartSs_axis (s : State) (x : Axis) : ∃ d, (s.restartSs x).axis x = { s.axis x with drive := d } := ⟨_, modDrive_axis _ _ _⟩

/-- The axis starts a profile move (R295). -/
theorem startProfile_axis (s : State) (x : Axis) (target : Int) (vmax : Nat) : (s.startProfile x target vmax).axis x =
    { s.axis x with v := s.axVstart x * 65536, ph := 0, vs := s.axVstart x * 65536, vm := vmax * 65536,
                    rem := (target - (s.axis x).cmd.toInt).natAbs % 2 ^ 32, dirNeg := decide (target - (s.axis x).cmd.toInt < 0),
                    endless := false } := modAxis_axis_same _ _ _

theorem toDisabled_axis (s : State) (x : Axis) : (s.toDisabled x).axis x =
    { s.axis x with state := .disabled, fbWin := none, mWin := none,
                    drive := { (s.axis x).drive with standstill := true, rampEnd := none, ocOff := false } } := modAxis_axis_same _ _ _

/-- ENABLE (R293, R327). -/
theorem axEnable_spec (run : s.axEnable x = .ok t) (off : (s.axis x).state = .disabled) :
    AxisActs motionParts x s t ∧ (t.axis x).state = .idle ∧ (t.axis x).cmd = (s.axis x).cmd ∧ (t.axis x).emit = (s.axis x).cmd ∧
      (isStepper x = true → (t.axis x).drive.standstill = false ∧
        (t.axis x).drive.rampEnd = some (s.tick + s.fld (Reg.MOT_DRV_SS x) 31 16 * 1000)) := by
  unfold axEnable at run
  rw [if_neg (not_not.mpr off)] at run
  replace run := ok_of_checked run
  obtain ⟨u, acts, state, cmd, emit, ramp⟩ : ∃ u : State, AxisActs motionParts x s u ∧ (u.axis x).state = .idle ∧
      (u.axis x).cmd = (s.axis x).cmd ∧ (u.axis x).emit = (s.axis x).cmd ∧ t = if isStepper x = true then u.startRamp x false else u := by
    refine ⟨_, ?_, ?_, ?_, ?_, (Except.ok.inj run).symm⟩
    · exact (((AxisActs.modAxis _ _).motion.committed.trans (AxisActs.modDrive _ _).motion).trans (AxisActs.modAxis _ _).motion).trans
        (AxisActs.modAxis _ _).motion
    all_goals simp only [startFbWin, takeOffset, modDrive, modAxis_axis_same, commit_axis]
  obtain ⟨d, moves, till, same⟩ := startRamp_axis u x false
  rw [ramp]
  split
  · refine ⟨acts.trans ((AxisActs.startRamp _ _).mono (by decide)), ?_⟩
    rw [same]
    exact ⟨state, cmd, emit, fun _ => ⟨moves, by rw [till, acts.tick, acts.fld (drvSs_kept x)]⟩⟩
  next servo => exact ⟨acts, state, cmd, emit, fun h => absurd h servo⟩

/-- DISABLE (R293, R302, R329). -/
theorem axDisable_spec (s : State) (on : (s.axis x).state ≠ .disabled) :
    AxisActs motionParts x s (s.axDisable x) ∧ ((s.axDisable x).axis x).state = .disabled ∧ ((s.axDisable x).axis x).cmd = (s.axis x).cmd ∧
      ((s.axDisable x).axis x).emit = (s.axis x).cmd := by
  unfold axDisable
  rw [if_neg on]
  split
  · obtain ⟨d, same⟩ := stopAxis_axis s x false .disabled
    refine ⟨((AxisActs.stopAxis _ _ _).mono (by decide)).trans (AxisActs.modAxis _ _).motion, ?_⟩
    rw [toDisabled_axis, same]
    exact ⟨rfl, rfl, rfl⟩
  · refine ⟨((AxisActs.modAxis _ _).motion.trans (AxisActs.modAxis _ _).motion).committed, ?_⟩
    rw [commit_axis, toDisabled_axis, modAxis_axis_same]
    exact ⟨rfl, rfl, rfl⟩

/-- A granted reservation leaves the axis and the registers. -/
theorem reserveMove_ok {d : Nat} (reserved : s.reserveMove x d = .ok t) :
    AxisActs motionParts x s t ∧ t.axis x = s.axis x ∧ ∀ a, t.reg a = s.reg a := by
  unfold reserveMove at reserved
  dsimp only at reserved
  split at reserved
  · cases reserved
    exact ⟨AxisActs.granted _ _, axis_of_only (grant_only _ _) (by decide) x, fun _ => rfl⟩
  · cases reserved

/-- MOVE (R294, R295, R304): the axis takes the profile to its target, and is done at once where it stands there. -/
theorem axMove_spec (run : s.axMove x = .ok t) : ∃ (u : State) (d : Drive) (q : Bool), AxisActs motionParts x s u ∧
    u.axis x = { s.axis x with
      state := .move, v := s.axVstart x * 65536, ph := 0, vs := s.axVstart x * 65536, vm := (s.reg (Reg.MOT_VMAX x)).toNat * 65536,
      rem := s.moveDistance x % 2 ^ 32, dirNeg := decide (sword (s.reg (Reg.MOT_TARGET x)) - (s.axis x).cmd.toInt < 0), endless := false,
      drive := d, suspect := q } ∧
    t = if (u.axis x).rem = 0 then u.endMove x 0 else u := by
  unfold axMove at run
  replace run := ok_of_checked (ok_of_checked run)
  dsimp only at run
  cases reserved : s.reserveMove x (s.moveDistance x) with
  | error => rw [reserved] at run; cases run
  | ok w =>
    obtain ⟨acts, same, regs⟩ := reserveMove_ok reserved
    rw [reserved] at run
    obtain ⟨u, begins, motion, rest⟩ : ∃ u : State, AxisActs motionParts x w u ∧
        u.axis x = { w.axis x with
          state := .move, v := w.axVstart x * 65536, ph := 0, vs := w.axVstart x * 65536, vm := (w.reg (Reg.MOT_VMAX x)).toNat * 65536,
          rem := (sword (s.reg (Reg.MOT_TARGET x)) - (w.axis x).cmd.toInt).natAbs % 2 ^ 32,
          dirNeg := decide (sword (s.reg (Reg.MOT_TARGET x)) - (w.axis x).cmd.toInt < 0), endless := false } ∧
        t = if ((u.reenergise x).axis x).rem = 0 then (u.reenergise x).endMove x 0 else u.reenergise x := by
      refine ⟨_, ?_, ?_, (Except.ok.inj run).symm⟩
      · exact (((AxisActs.modAxis _ _).motion.trans (AxisActs.startProfile _ _ _).motion).committed).trans ((AxisActs.fromNext _).mono (by decide))
      · rw [fromNext_axis, commit_axis, startProfile_axis, modAxis_axis_same]
        rfl
    obtain ⟨d, q, energised⟩ := reenergise_axis u x
    refine ⟨u.reenergise x, d, q, (acts.trans begins).reenergised, ?_, rest⟩
    rw [energised, motion, same, axVstart, regs, regs]
    rfl

/-- HOME (R304, R305). -/
theorem axHome_spec (run : s.axHome x = .ok t) : ∃ (d : Drive) (q : Bool), AxisActs motionParts x s t ∧
    t.axis x = { s.axis x with
      state := .home, home := some .search, homeStart := (s.axis x).cmd, homeRef := none, endless := true, v := s.axVstart x * 65536,
      ph := 0, vs := s.axVstart x * 65536, vm := (s.reg (Reg.MOT_HOMEVEL x)).toNat * 65536, rem := 0,
      dirNeg := s.rbit (Reg.MOT_CFG x) 23, drive := d, suspect := q } := by
  unfold axHome at run
  replace run := ok_of_checked (ok_of_checked run)
  dsimp only at run
  cases reserved : s.reserveMove x (s.homeDistance x) with
  | error => rw [reserved] at run; cases run
  | ok w =>
    obtain ⟨acts, same, regs⟩ := reserveMove_ok reserved
    rw [reserved] at run
    obtain ⟨u, begins, motion, rest⟩ : ∃ u : State, AxisActs motionParts x w u ∧
        u.axis x = { w.axis x with
          state := .home, home := some .search, homeStart := (w.axis x).cmd, homeRef := none, endless := true, v := w.axVstart x * 65536,
          ph := 0, vs := w.axVstart x * 65536, vm := (w.reg (Reg.MOT_HOMEVEL x)).toNat * 65536, rem := 0,
          dirNeg := w.rbit (Reg.MOT_CFG x) 23 } ∧ t = u.reenergise x := by
      refine ⟨_, ?_, ?_, (Except.ok.inj run).symm⟩
      · exact (AxisActs.modAxis _ _).motion.committed.trans ((AxisActs.fromNext _).mono (by decide))
      · rw [fromNext_axis, commit_axis, modAxis_axis_same]
    obtain ⟨d, q, energised⟩ := reenergise_axis u x
    refine ⟨d, q, rest ▸ (acts.trans begins).reenergised, ?_⟩
    rw [rest, energised, motion, same, axVstart, rbit, regs, regs, regs]
    rfl

/-- ENGAGE (R297, R298, R317). -/
theorem axEngage_spec (run : s.axEngage x = .ok t) : AxisActs motionParts x s t ∧ (t.axis x).state = .gear ∧
    (t.axis x).waiting = s.axGmode x ∧ (t.axis x).anchor = (s.axis x).mhwm ∧ (t.axis x).ratio = 0 ∧ (t.axis x).blend = none ∧
    (t.axis x).nextCam = 0 ∧ (t.axis x).cmd = (s.axis x).cmd := by
  unfold axEngage at run
  replace run := ok_of_checked (ok_of_checked run)
  obtain ⟨u, acts, ⟨d, w, engaged⟩, rest⟩ : ∃ u : State, AxisActs motionParts x s u ∧
      (∃ d w, u.axis x = { s.axis x with state := .gear, waiting := s.axGmode x, anchor := (s.axis x).mhwm, ratio := 0, blend := none,
                                         nextCam := 0, drive := d, mWin := w }) ∧
      t = (if u.backlog x = 0 then u.restartSs x else u).reenergise x := by
    refine ⟨_, ?_, ?_, (Except.ok.inj run).symm⟩
    · refine ((AxisActs.modAxis _ _).motion.committed).trans (AxisActs.ite (AxisActs.refl _) (AxisActs.modAxis _ _).motion)
    · split
      · rw [commit_axis, modAxis_axis_same]
        exact ⟨_, _, rfl⟩
      · rw [startMWin, modAxis_axis_same, commit_axis, modAxis_axis_same]
        exact ⟨_, _, rfl⟩
  have settles : AxisActs motionParts x s (if u.backlog x = 0 then u.restartSs x else u) :=
    acts.trans (AxisActs.ite (AxisActs.modDrive _ _).motion (AxisActs.refl _))
  have still : ∃ d, (if u.backlog x = 0 then u.restartSs x else u).axis x = { u.axis x with drive := d } := by
    split
    · exact restartSs_axis u x
    · exact ⟨_, rfl⟩
  generalize (if u.backlog x = 0 then u.restartSs x else u) = w at *
  obtain ⟨d', same⟩ := still
  obtain ⟨d'', q, energised⟩ := reenergise_axis w x
  subst rest
  refine ⟨settles.reenergised, ?_⟩
  rw [energised, same, engaged]
  exact ⟨rfl, rfl, rfl, rfl, rfl, rfl, rfl⟩

/-- DECEL in MOVE (R295). -/
theorem axDecel_move (run : s.axDecel x = .ok t) (moves : (s.axis x).state = .move) : t = s.rampDown x := by
  unfold axDecel at run
  rw [moves] at run
  exact (Except.ok.inj run).symm

/-- DECEL in HOME (R305). -/
theorem axDecel_home (run : s.axDecel x = .ok t) (homes : (s.axis x).state = .home) : t = s.failHome x := by
  unfold axDecel at run
  rw [homes] at run
  exact (Except.ok.inj run).symm

/-- DECEL in GEAR (R298, R317). -/
theorem axDecel_gear (run : s.axDecel x = .ok t) (geared : (s.axis x).state = .gear) :
    AxisActs motionParts x s t ∧ (t.axis x).state = .idle ∧ (t.axis x).cmd = (s.axis x).cmd := by
  unfold axDecel at run
  rw [geared] at run
  dsimp only at run
  split at run
  · cases run
    refine ⟨((AxisActs.modAxis _ _).motion.trans (AxisActs.modDrive _ _).motion).committed, ?_⟩
    rw [commit_axis, restartSs, modDrive_axis, modAxis_axis_same]
    exact ⟨rfl, rfl⟩
  · cases run

theorem failHome_axis (s : State) (x : Axis) : ∃ r, (s.failHome x).axis x = { s.axis x with home := some .fail, rem := r, endless := false } := by
  rw [failHome, rampDown_axis, modAxis_axis_same]
  exact ⟨_, rfl⟩

/-- CLEAR (R293, R322). -/
theorem axClear_spec (run : s.axClear x = .ok t) (halted : (s.axis x).state = .halt) :
    AxisActs motionParts x s t ∧ (t.axis x).state = .idle ∧ (t.axis x).drive.ocOff = false ∧ (t.axis x).cmd = (s.axis x).cmd ∧
      (t.axis x).suspect = (s.axis x).suspect := by
  unfold axClear at run
  rw [if_neg (not_not.mpr halted)] at run
  replace run := ok_of_checked run
  dsimp only at run
  split at run
  · cases run
    refine ⟨(((AxisActs.modAxis _ _).motion.trans (AxisActs.modDrive _ _).motion).trans (AxisActs.retarget _).motion).committed, ?_⟩
    rw [commit_axis, retarget_axis, modDrive_axis, modAxis_axis_same]
    refine ⟨rfl, ?_, rfl, rfl⟩
    rw [retargeted, modDrive_axis, modAxis_axis_same]
  · cases run
    refine ⟨(AxisActs.modAxis _ _).motion.committed, ?_⟩
    rw [commit_axis, modAxis_axis_same]
    exact ⟨rfl, rfl, rfl, rfl⟩

theorem abovePullIn_of_written (regs : ∀ b, v.reg b = s.reg b) (same : v.axis x = s.axis x) : v.abovePullIn x = s.abovePullIn x := by
  unfold abovePullIn axVstart
  rw [regs, same]

/-- A granted command of an axis, with the state that it is done on: where it lets only the axis act, the rest stands. -/
theorem motCommand_done {o : OpCtx} (k : Fin 8) (granted : s.Granted o OpEnv.quiet (Reg.MOT_CMD x) [word (2 ^ k.val)])
    (live : s.axNothing x k.val = false) :
    ∃ v t : State, s.finish (s.motCommand o x k.val) = .next (s.written o t) ∧ v.axCommand x k.val = .ok t ∧
      (∀ b, v.reg b = s.reg b) ∧ v.tick = s.tick ∧ v.axis x = s.axis x ∧
      (AxisActs motionParts x v t → (∀ y, y ≠ x → t.axis y = s.axis y) ∧ t.mot.axb = s.mot.axb ∧
        RegsBut [Reg.MOT_EVT x, Reg.MOT_DRV_EVT x] s t ∧ Only motionParts s t) := by
  obtain ⟨v, t, run, done, regs, only⟩ := motCommand_granted k granted live
  exact ⟨v, t, run, done, regs, only.part .tick (by decide), axis_of_only only (by decide) x, fun acts =>
    ⟨fun y hy => (acts.others y hy).trans (axis_of_only only (by decide) y), acts.axb.trans (congrArg Mot.axb (only.part .mot (by decide))),
      fun b hb => (acts.regs b hb).trans (regs b), (only.mono (by decide)).trans acts.only⟩⟩

end State

/-- Settles O50: a granted word of `MOT_CMD` commits alone and leaves every register's value, so that the command acts on the axis that
the statement speaks of (`State.motCommand_done`); each command's own lemma then says which state and motion it gives. -/
theorem axisCommandsAct : Obligations.AxisCommandsAct := by
  intro s o x gives a
  have stands : a = s.axis x := rfl
  refine ⟨fun off granted => ?_, fun on granted => ?_, fun away near granted => ?_, fun there granted => ?_, fun granted => ?_,
    fun granted => ?_, fun moves granted => ?_, fun homes granted => ?_, fun geared granted => ?_, fun moves granted => ?_,
    fun halted granted => ?_⟩
  · obtain ⟨v, t, run, done, regs, tick, same, frame⟩ := State.motCommand_done 0 granted (decide_eq_false (not_not.mpr off))
    obtain ⟨acts, enabled⟩ := State.axEnable_spec done (by rw [same]; exact off)
    rw [same, tick, State.fld_of_regs regs] at enabled
    exact ⟨t, run, enabled, frame acts⟩
  · obtain ⟨v, t, run, done, regs, tick, same, frame⟩ := State.motCommand_done 1 granted (decide_eq_false on)
    cases done
    obtain ⟨acts, disabled⟩ := State.axDisable_spec v (by rw [same]; exact on)
    rw [same] at disabled
    exact ⟨_, run, disabled, frame acts⟩
  · obtain ⟨v, t, run, done, regs, tick, same, frame⟩ := State.motCommand_done 2 granted rfl
    have distance : v.moveDistance x = s.moveDistance x := by rw [State.moveDistance, regs, same, State.moveDistance]
    have apart : s.moveDistance x ≠ 0 := fun h => away (by rw [State.moveDistance] at h; rw [stands]; omega)
    obtain ⟨u, d, q, acts, motion, rest⟩ := State.axMove_spec done
    rw [distance, Nat.mod_eq_of_lt near, same, State.axVstart, regs, regs, regs] at motion
    rw [if_neg (by rw [motion]; exact apart)] at rest
    subst rest
    refine ⟨_, run, ?_, frame acts⟩
    rw [motion]
    exact ⟨rfl, rfl, rfl, rfl, rfl, rfl, decide_eq_decide.mpr (by rw [stands]; omega)⟩
  · obtain ⟨v, t, run, done, regs, tick, same, frame⟩ := State.motCommand_done 2 granted rfl
    have distance : v.moveDistance x = 0 := by rw [State.moveDistance, regs, same]; rw [stands] at there; omega
    obtain ⟨u, d, q, acts, motion, rest⟩ := State.axMove_spec done
    obtain ⟨d', ended⟩ := State.endMove_axis u x 0
    rw [if_pos (by rw [motion, distance]; rfl)] at rest
    subst rest
    refine ⟨_, run, ?_, frame (acts.ended 0)⟩
    rw [ended, motion, same]
    exact ⟨rfl, rfl⟩
  · obtain ⟨v, t, run, done, regs, tick, same, frame⟩ := State.motCommand_done 3 granted rfl
    obtain ⟨d, q, acts, homing⟩ := State.axHome_spec done
    have speed : v.axVstart x = s.axVstart x := by rw [State.axVstart, regs, State.axVstart]
    refine ⟨_, run, ?_, frame acts⟩
    rw [homing, same, speed, regs, State.rbit_of_regs regs]
    exact ⟨rfl, rfl, rfl, rfl, rfl, rfl, rfl⟩
  · obtain ⟨v, t, run, done, regs, tick, same, frame⟩ := State.motCommand_done 4 granted rfl
    obtain ⟨acts, engaged⟩ := State.axEngage_spec done
    rw [same, (State.axMode_of_regs regs).2.1] at engaged
    exact ⟨t, run, engaged, frame acts⟩
  · obtain ⟨v, t, run, done, regs, tick, same, frame⟩ := State.motCommand_done 5 granted rfl
    have stops (r w : Nat) : v.dstop x r w = s.dstop x r w := by rw [State.dstop, State.axDec, regs]; rfl
    cases State.axDecel_move done (by rw [same]; exact moves)
    refine ⟨_, run, ?_, frame (State.AxisActs.rampDown v).motion⟩
    rw [State.rampDown_axis, same, stops]
    exact ⟨moves, rfl, rfl⟩
  · obtain ⟨v, t, run, done, regs, tick, same, frame⟩ := State.motCommand_done 5 granted rfl
    obtain ⟨r, failed⟩ := State.failHome_axis v x
    cases State.axDecel_home done (by rw [same]; exact homes)
    refine ⟨_, run, ?_, frame ((State.AxisActs.modAxis _ _).trans (State.AxisActs.rampDown _)).motion⟩
    rw [failed, same]
    exact ⟨homes, rfl, rfl⟩
  · obtain ⟨v, t, run, done, regs, tick, same, frame⟩ := State.motCommand_done 5 granted rfl
    obtain ⟨acts, idle⟩ := State.axDecel_gear done (by rw [same]; exact geared)
    rw [same] at idle
    exact ⟨t, run, idle, frame acts⟩
  · obtain ⟨v, t, run, done, regs, tick, same, frame⟩ := State.motCommand_done 6 granted (congrArg Bool.not moves)
    obtain ⟨d, stopped⟩ := State.stopAxis_axis v x false .halt
    have stops : v.axStop x = v.stopAxis x false .halt := if_pos (by rw [State.axMoves, same]; exact moves)
    cases (Except.ok.inj done).symm.trans stops
    refine ⟨_, run, ?_, frame ((State.AxisActs.stopAxis _ _ _).mono (by decide))⟩
    rw [stopped, State.abovePullIn_of_written regs same, same]
    exact ⟨rfl, rfl, rfl, rfl, rfl, rfl, rfl⟩
  · obtain ⟨v, t, run, done, regs, tick, same, frame⟩ := State.motCommand_done 7 granted (decide_eq_false (not_not.mpr halted))
    obtain ⟨acts, cleared⟩ := State.axClear_spec done (by rw [same]; exact halted)
    rw [same] at cleared
    exact ⟨t, run, cleared, frame acts⟩

end Sys2Proof.Machine
end

section
/-! ## Messages of an axis -/

namespace Sys2Proof.Machine
namespace State

variable {s t u : State} {x : Axis} {k : Kind} {a : Word}

/-! ### The records that an axis carries -/

theorem closeRec_fbs (s : State) (n : Lane) (r : Rec) : (s.closeRec n r).plc.fbs = s.plc.fbs := by
  unfold closeRec
  dsimp only
  have ends (q : Rec) : (s.endsOf n q).plc.fbs = s.plc.fbs := congrArg Plc.fbs ((endsOf_only n q).part .plc (by decide))
  rw [commit_plc, (copySlot_only n _).part .plc (by decide)]
  exact ends _

theorem storeRec_fbs (s : State) (n : Lane) (r : Rec) : (s.storeRec n r).plc.fbs = s.plc.fbs := by
  unfold storeRec
  dsimp only
  split
  · rw [(copySlot_only n r).part .plc (by decide)]
    rfl
  · cases r.state with
    | final => rfl
    | printing | created | latched => exact (closeRec_fbs _ n _).trans rfl

/-- The feedback encoders are none of a record's concern. -/
theorem suspectCarried_fbs (s : State) (x : Axis) : (s.suspectCarried x).plc.fbs = s.plc.fbs := by
  unfold suspectCarried suspectPrinting proposeRec
  split
  · split
    · dsimp only
      split
      · exact storeRec_fbs _ _ _
      · exact (congrArg Plc.fbs (commit_plc _)).trans (storeRec_fbs _ _ _)
    · rfl
  · rfl

theorem suspectCarried_in (s : State) (x : Axis) : RegsIn [6] s (s.suspectCarried x) := by
  unfold suspectCarried
  split
  · exact suspectPrinting_in _ _
  · exact RegsIn.refl _ _

/-! ### The stop that a message makes -/

/-- Where a message leaves an axis (R302): one that is DISABLED stays so, every other is in HALT. -/
def stopsAt (st : AxisState) : AxisState := if st = .disabled then .disabled else .halt

/-- An axis after the stop of a message (R302). -/
structure StoppedFrom (a b : AxisSt) (sure : Bool) : Prop where
  state : b.state = stopsAt a.state
  suspect : sure = true → b.suspect = true
  faultNow : b.faultNow = a.faultNow
  cmd : b.cmd = a.cmd
  fbWin : b.fbWin = a.fbWin
  mWin : a.mWin = none → b.mWin = none

theorem stopFor_acts (s : State) (x : Axis) (sure : Bool) : AxisActs [.order, .energy, .mot] x s (s.stopFor x sure) := by
  unfold stopFor
  split
  · exact (AxisActs.modAxis _ _).mono (by decide)
  · exact (AxisActs.modAxis _ _).mono (by decide)
  · exact AxisActs.stopAxis _ _ _

theorem stopFor_regs (s : State) (x : Axis) (sure : Bool) (b : Nat) : (s.stopFor x sure).reg b = s.reg b :=
  congrArg (fun r => Tab.get regReset r b) ((stopFor_only x sure).part .regs (by decide))

theorem stopFor_stopped (s : State) (x : Axis) (sure : Bool) : StoppedFrom (s.axis x) ((s.stopFor x sure).axis x) sure := by
  unfold stopFor
  split
  next off =>
    rw [modAxis_axis_same]
    exact ⟨off.trans (by rw [off]; rfl), fun h => by rw [h]; exact Bool.or_true _, rfl, rfl, rfl, fun h => h⟩
  next halted =>
    rw [modAxis_axis_same]
    exact ⟨halted.trans (by rw [halted]; rfl), fun h => by rw [h]; exact Bool.or_true _, rfl, rfl, rfl, fun h => h⟩
  next on _ =>
    obtain ⟨d, same⟩ := stopAxis_axis s x sure .halt
    rw [same]
    exact ⟨(if_neg on).symm, fun h => by rw [h, Bool.true_or]; exact Bool.or_true _, rfl, rfl, rfl, fun _ => rfl⟩

/-! ### A message -/

/-- The pending bit of the axis's source (R115). -/
def motPends (u : State) (x : Axis) : Prop :=
  (if x.val < 2 then u.rbit Reg.FLT_PEND_A (26 + x.val) else u.rbit Reg.FLT_PEND_B (x.val - 2)) = true

theorem motPends_of_regs (h : motPends s x) (same : ∀ b ∈ [Reg.FLT_PEND_A, Reg.FLT_PEND_B], t.reg b = s.reg b) : motPends t x := by
  unfold motPends rbit at *
  rwa [same _ (by simp), same _ (by simp)]

theorem raise_motPends (src : k.src = 26 + x.val) (up : s.unitInReset (26 + x.val) = false) : motPends (s.raise k a) x := by
  have pend := raise_pending a (s := s) (k := k) (by omega) (by rw [src]; exact up)
  unfold motPends
  rw [src] at pend
  by_cases low : x.val < 2
  · rwa [if_pos (by omega)] at pend ⊢
  · rw [if_neg (by omega), show 26 + x.val - 28 = x.val - 2 by omega] at pend
    rwa [if_neg low]

/-- A message of an axis whose unit is not in reset is pending, and stops the axis (R302, R303). -/
theorem motMessage_spec (src : k.src = 26 + x.val) (up : s.unitInReset (26 + x.val) = false) :
    motPends (s.motMessage x k a) x ∧ StoppedFrom (s.axis x) ((s.motMessage x k a).axis x) (decide (k.code ≤ 4)) ∧
      (∀ y, y ≠ x → (s.motMessage x k a).axis y = s.axis y) := by
  have axes (y : Axis) : ((s.raise k a).suspectCarried x).axis y = s.axis y :=
    (axis_of_only (suspectCarried_only x) (by decide) y).trans (axis_of_only (raiseN_only 12 s k a none) (by decide) y)
  have pends : motPends ((s.raise k a).suspectCarried x) x :=
    motPends_of_regs (raise_motPends src up) fun b hb => suspectCarried_in _ _ b (by revert b; decide)
  unfold motMessage
  rw [if_neg (by rw [up]; decide)]
  refine ⟨motPends_of_regs pends fun b _ => stopFor_regs _ _ _ b, ?_, fun y hy => ((stopFor_acts _ _ _).others y hy).trans (axes y)⟩
  rw [← axes x]
  exact stopFor_stopped _ _ _

theorem motMessage_fbs (s : State) (x : Axis) (k : Kind) (a : Word) : (s.motMessage x k a).plc.fbs = s.plc.fbs := by
  unfold motMessage
  split
  · rfl
  · rw [(stopFor_only x _).part .plc (by decide), suspectCarried_fbs]
    exact congrArg Plc.fbs ((raiseN_only 12 s k a none).part .plc (by decide))

/-- The registers of a message of an axis are the collector's and the records'. -/
theorem motMessage_in (s : State) (src : k.src = 26 + x.val) : RegsIn [4, 6] s (s.motMessage x k a) := by
  unfold motMessage
  split
  · exact RegsIn.refl _ _
  · exact fun b hb => (stopFor_regs _ _ _ b).trans
      ((suspectCarried_in _ _ b (by simp at hb ⊢; exact hb.2)).trans (raiseN_in 12 s k a none (by omega) b (by simp at hb ⊢; exact hb.1)))

end State
end Sys2Proof.Machine
end

section
/-! ## Axes in time -/

namespace Sys2Proof.Machine
namespace State

variable {s t u : State} {x : Axis}

/-! ### The command position moves -/

theorem startRamp_interp (s : State) (x : Axis) (lose : Bool) : ((s.startRamp x lose).axis x).drive.pend = (s.axis x).drive.pend ∧
    ((s.startRamp x lose).axis x).drive.iph = (s.axis x).drive.iph := by
  cases lose <;>
    simp only [startRamp, commit_axis, retarget_axis, retargeted, modDrive_axis, setFlag_axis, modAxis_axis_same, if_true,
      Bool.false_eq_true, if_false, and_self]

/-- A stepper that is energised again interpolates as before. -/
theorem reenergise_interp (s : State) (x : Axis) : ((s.reenergise x).axis x).drive.pend = (s.axis x).drive.pend ∧
    ((s.reenergise x).axis x).drive.iph = (s.axis x).drive.iph := by
  unfold reenergise
  split
  · split
    · exact startRamp_interp s x false
    · exact startRamp_interp s x true
    · simp only [commit_axis, retarget_axis, retargeted, modDrive_axis, and_self]
  · exact ⟨rfl, rfl⟩

theorem step_kept : ∀ x : Axis, Reg.MOT_STEP x ∉ [Reg.MOT_EVT x, Reg.MOT_DRV_EVT x] := by decide

/-- What the move of a command position may change. -/
abbrev followParts : List Part := [.order, .regs, .guards, .mot]

/-- The command position has moved and lies within `LAG_MAX` (R306, R327). -/
theorem afterCmd_spec (lag : s.onBus x = true ∨ (s.backlog x).natAbs ≤ s.fld (Reg.MOT_STEP x) 31 16) :
    AxisActs followParts x s (s.afterCmd x) ∧ ∃ e d q, (s.afterCmd x).axis x = { s.axis x with emit := e, drive := d, suspect := q } ∧
      d.pend = (s.axis x).drive.pend ∧ d.iph = (s.axis x).drive.iph := by
  unfold afterCmd
  split
  · exact ⟨(AxisActs.modAxis _ _).mono (by decide), _, _, _, modAxis_axis_same _ _ _, rfl, rfl⟩
  next off =>
    split
    · exact ⟨AxisActs.refl _, _, _, _, rfl, rfl, rfl⟩
    · obtain ⟨d, q, same⟩ := reenergise_axis s x
      have acts : AxisActs followParts x s (s.reenergise x) := AxisActs.reenergise s
      have near : ¬ ((s.reenergise x).backlog x).natAbs > (s.reenergise x).fld (Reg.MOT_STEP x) 31 16 := by
        rw [backlog, same, fld, acts.regs _ (step_kept x)]
        exact Nat.not_lt.mpr (lag.resolve_left off)
      rw [lagCheck, if_neg near]
      refine ⟨acts, _, d, q, same, ?_⟩
      have interp := reenergise_interp s x
      rwa [same] at interp

/-! ### Profiles -/

/-- The speed of the next tick of the rate multiplier (R295). -/
def nextSpeed (s : State) (x : Axis) : Nat :=
  let a := s.axis x
  if a.endless = false ∧ a.rem ≤ s.dstop x a.v a.vs then max a.vs (a.v - s.axDec x)
  else if a.v < a.vm then min a.vm (a.v + (s.reg (Reg.MOT_ACC x)).toNat) else a.v

/-- The axis has a step of the rate multiplier ahead (R295). -/
def rateRuns (a : AxisSt) : Prop := (a.state = .move ∨ a.state = .home) ∧ (a.endless = true ∨ a.rem ≠ 0)

theorem profileDue_some {d : Nat} (due : s.profileDue x = some d) : rateRuns (s.axis x) ∧ d = s.dueAt (Ev.profile x) 0 1 := by
  unfold profileDue at due
  dsimp only at due
  split at due
  · exact ⟨‹_›, (Option.some.inj due).symm⟩
  · cases due

/-- An axis that the rate multiplier has moved by one step (R295). -/
def stepped (a : AxisSt) (v : Nat) : AxisSt :=
  { a with v := v, ph := a.ph + v - 2 ^ 48, cmd := if a.dirNeg = true then a.cmd - 1 else a.cmd + 1, rem := a.rem - 1 }

theorem profileTick_eq (runs : rateRuns (s.axis x)) : s.profileTick x =
    if 2 ^ 48 ≤ (s.axis x).ph + s.nextSpeed x then
      let w := (s.modAxis x fun a => stepped a (s.nextSpeed x)).afterCmd x
      if (w.axis x).state = .move ∨ (w.axis x).state = .home then
        if (w.axis x).home = some .search ∧
            ((w.axis x).cmd - (w.axis x).homeStart).toInt.natAbs ≥ (w.reg (Reg.MOT_HOMERANGE x)).toNat then w.failHome x
        else w
      else w
    else s.modAxis x fun a => { a with v := s.nextSpeed x, ph := (s.axis x).ph + s.nextSpeed x } := by
  have speed : (if (!(s.axis x).endless && decide ((s.axis x).rem ≤ s.dstop x (s.axis x).v (s.axis x).vs)) = true then
        (if (s.axis x).v > (s.axis x).vs + s.axDec x then (s.axis x).v - s.axDec x else (s.axis x).vs)
      else if (s.axis x).v < (s.axis x).vm then
        (if (s.axis x).v + (s.reg (Reg.MOT_ACC x)).toNat < (s.axis x).vm then (s.axis x).v + (s.reg (Reg.MOT_ACC x)).toNat
          else (s.axis x).vm)
      else (s.axis x).v) = s.nextSpeed x := by
    unfold nextSpeed
    simp only [Bool.and_eq_true, Bool.not_eq_true', decide_eq_true_eq]
    split
    · split <;> omega
    · split
      · split <;> omega
      · rfl
  unfold rateRuns at runs
  unfold profileTick
  dsimp only
  rw [if_pos runs, speed]
  have moved : (s.modAxis x fun a =>
      { a with v := s.nextSpeed x, ph := (s.axis x).ph + s.nextSpeed x - 2 ^ 48, cmd := if a.dirNeg = true then a.cmd - 1 else a.cmd + 1,
               rem := a.rem - 1 }) = s.modAxis x fun a => stepped a (s.nextSpeed x) := congrArg (s.setAxis x) rfl
  rw [moved]

/-- A tick of the rate multiplier without a step (R295). -/
theorem profileTick_between (runs : rateRuns (s.axis x)) (below : (s.axis x).ph + s.nextSpeed x < 2 ^ 48) :
    s.profileTick x = s.modAxis x fun a => { a with v := s.nextSpeed x, ph := (s.axis x).ph + s.nextSpeed x } := by
  rw [profileTick_eq runs, if_neg (by omega)]

/-- A tick of the rate multiplier with a step, outside the search of a homing (R295). -/
theorem profileTick_steps (runs : rateRuns (s.axis x)) (carry : 2 ^ 48 ≤ (s.axis x).ph + s.nextSpeed x)
    (calm : (s.axis x).home ≠ some .search)
    (lag : s.onBus x = true ∨ ((stepped (s.axis x) (s.nextSpeed x)).cmd - (s.axis x).emit).toInt.natAbs ≤ s.fld (Reg.MOT_STEP x) 31 16) :
    AxisActs followParts x s (s.profileTick x) ∧ ∃ e d q, (s.profileTick x).axis x =
      { stepped (s.axis x) (s.nextSpeed x) with emit := e, drive := d, suspect := q } := by
  obtain ⟨acts, e, d, q, same, -⟩ := afterCmd_spec (s := s.modAxis x fun a => stepped a (s.nextSpeed x)) (x := x)
    (by rw [backlog, modAxis_axis_same]; exact lag)
  rw [modAxis_axis_same] at same
  have goes : s.profileTick x = (s.modAxis x fun a => stepped a (s.nextSpeed x)).afterCmd x := by
    rw [profileTick_eq runs, if_pos carry]
    dsimp only
    rw [if_pos (by rw [same]; exact runs.1), if_neg (by rw [same]; exact fun h => calm h.1)]
  rw [goes]
  exact ⟨((AxisActs.modAxis _ _).mono (by decide)).trans acts, e, d, q, same⟩

/-! ### The interpolator -/

/-- An axis that the interpolator has moved by one step (R318). -/
def interpolated (a : AxisSt) : AxisSt :=
  { a with cmd := if a.drive.idirNeg = true then a.cmd - 1 else a.cmd + 1,
           drive := { a.drive with iph := a.drive.iph + a.drive.iv - 2 ^ 32, pend := a.drive.pend - 1 } }

/-- A tick of the interpolator without a step (R318). -/
theorem interpTick_between (pends : (s.axis x).drive.pend ≠ 0) (below : (s.axis x).drive.iph + (s.axis x).drive.iv < 2 ^ 32) :
    s.interpTick x = s.setAxis x { s.axis x with drive := { (s.axis x).drive with iph := (s.axis x).drive.iph + (s.axis x).drive.iv } } := by
  unfold interpTick
  dsimp only
  rw [if_neg pends, if_neg (by omega)]

/-- A tick of the interpolator with a step (R318). -/
theorem interpTick_steps (pends : (s.axis x).drive.pend ≠ 0) (carry : 2 ^ 32 ≤ (s.axis x).drive.iph + (s.axis x).drive.iv)
    (lag : s.onBus x = true ∨ ((interpolated (s.axis x)).cmd - (s.axis x).emit).toInt.natAbs ≤ s.fld (Reg.MOT_STEP x) 31 16) :
    AxisActs followParts x s (s.interpTick x) ∧ ((s.interpTick x).axis x).cmd = (interpolated (s.axis x)).cmd ∧
      ((s.interpTick x).axis x).drive.pend = (s.axis x).drive.pend - 1 ∧
      ((s.interpTick x).axis x).drive.iph = (s.axis x).drive.iph + (s.axis x).drive.iv - 2 ^ 32 := by
  obtain ⟨acts, e, d, q, same, pend, iph⟩ := afterCmd_spec (s := s.setAxis x (interpolated (s.axis x))) (x := x)
    (by rw [backlog, setAxis_axis_same]; exact lag)
  rw [setAxis_axis_same] at same pend iph
  have goes : s.interpTick x = (s.setAxis x (interpolated (s.axis x))).afterCmd x := by
    unfold interpTick
    dsimp only
    rw [if_neg pends, if_pos carry]
    rfl
  rw [goes, same]
  exact ⟨((AxisActs.setAxis _ _).mono (by decide)).trans acts, rfl, pend, iph⟩

/-! ### The end of a move -/

/-- A reservation whose whole amount is debited is live no more (R138). -/
theorem debitAll_isLive (s : State) (w : ResFor) : (s.debitAll w).isLive w = false := by
  unfold debitAll isLive
  split
  next none => simpa [List.find?_eq_none] using none
  · simp [release, List.any_filter]

theorem isLive_of_only {l : List Part} (h : Only l s t) (hl : .energy ∉ l) (w : ResFor) : t.isLive w = s.isLive w :=
  congrArg (fun r : List Reservation => r.any fun q => decide (q.holder = w)) (h.part .energy hl).1

theorem endMove_reg (s : State) (x : Axis) (flag b : Nat) : (s.endMove x flag).reg b = (s.setFlag (Reg.MOT_EVT x) flag).reg b := by
  have debited (c : Nat) : (s.debitAll (.axis x)).reg c = s.reg c :=
    congrArg (fun r => Tab.get regReset r c) ((debitAll_only (.axis x)).part .regs (by decide))
  unfold endMove restartSs modDrive
  rw [commit_reg, modAxis_reg]
  by_cases same : Reg.MOT_EVT x = b
  · rw [← same, setFlag_reg_same, setFlag_reg_same, modAxis_reg, debited]
  · rw [setFlag_reg_other _ _ _ _ same, setFlag_reg_other _ _ _ _ same, modAxis_reg, debited]

theorem endMove_isLive (s : State) (x : Axis) (flag : Nat) : (s.endMove x flag).isLive (.axis x) = false := by
  have pwr : (s.endMove x flag).pwr = (s.debitAll (.axis x)).pwr := by
    unfold endMove restartSs modDrive
    rw [commit_pwr, modAxis_pwr, setFlag_pwr, modAxis_pwr]
  rw [isLive, pwr]
  exact debitAll_isLive s _

/-- A move that ends changes no register but the axis's events. -/
theorem endMove_regsBut (s : State) (x : Axis) (flag : Nat) : RegsBut [Reg.MOT_EVT x] s (s.endMove x flag) := fun b hb =>
  (endMove_reg s x flag b).trans (setFlag_reg_other _ _ _ _ fun e => hb (e ▸ List.mem_singleton_self _))

theorem endMove_rbit (s : State) (x : Axis) (flag : Nat) {n : Nat} (hn : n < 28) :
    (s.endMove x flag).rbit (Reg.MOT_EVT x) n = (s.rbit (Reg.MOT_EVT x) n || decide (flag = n)) := by
  rw [rbit, endMove_reg]
  exact setFlag_rbit s _ _ _ hn

/-- The axis whose homing has stopped is coordinated (R305). -/
def coordinated (s : State) (x : Axis) : State :=
  let a := s.axis x
  let p := a.cmd - a.homeRef.getD a.cmd + to64 (sword (s.reg (Reg.MOT_HOMEPOS x)))
  (((s.modAxis x fun a => { a with cmd := p, emit := p, suspect := false, home := some .park }).takeOffset x).setFlag (Reg.MOT_EVT x) 1).commit

/-- The coordinated axis begins to park (R305). -/
def parks (s : State) (x : Axis) : State :=
  (s.startProfile x (sword (s.reg (Reg.MOT_PARKPOS x))) (s.reg (Reg.MOT_VMAX x)).toNat).fromNext x

theorem recoordinate_eq (s : State) (x : Axis) : s.recoordinate x =
    if (((s.coordinated x).parks x).axis x).rem = 0 then ((s.coordinated x).parks x).endMove x 0 else (s.coordinated x).parks x := rfl

theorem coordinated_acts (s : State) (x : Axis) : AxisActs motionParts x s (s.coordinated x) :=
  (((AxisActs.modAxis _ _).motion.trans (AxisActs.modAxis _ _).motion).trans ((AxisActs.setFlag _ _ (by simp)).mono (by decide))).committed

theorem coordinated_axis (s : State) (x : Axis) : ∃ o, (s.coordinated x).axis x =
    { s.axis x with cmd := (s.axis x).cmd - (s.axis x).homeRef.getD (s.axis x).cmd + to64 (sword (s.reg (Reg.MOT_HOMEPOS x))),
                    emit := (s.axis x).cmd - (s.axis x).homeRef.getD (s.axis x).cmd + to64 (sword (s.reg (Reg.MOT_HOMEPOS x))),
                    suspect := false, home := some .park, fbOff := o } := by
  unfold coordinated takeOffset
  dsimp only
  rw [commit_axis, setFlag_axis, modAxis_axis_same, modAxis_axis_same]
  exact ⟨_, rfl⟩

theorem parks_acts (s : State) (x : Axis) : AxisActs motionParts x s (s.parks x) :=
  (AxisActs.startProfile _ _ _).motion.trans ((AxisActs.fromNext _).mono (by decide))

theorem parks_axis (s : State) (x : Axis) : ∃ v vs m r n, (s.parks x).axis x =
    { s.axis x with v := v, ph := 0, vs := vs, vm := m, rem := r, dirNeg := n, endless := false } :=
  ⟨_, _, _, _, _, startProfile_axis _ _ _ _⟩

/-- A homing that has stopped is coordinated again (R305): its positions are those of `HOME_POS`, whether or not it has then to park. -/
theorem recoordinate_spec (s : State) (x : Axis) {ref : BitVec 64} (found : (s.axis x).homeRef = some ref) :
    AxisActs motionParts x s (s.recoordinate x) ∧ (s.recoordinate x).rbit (Reg.MOT_EVT x) 1 = true ∧
      ((s.recoordinate x).axis x).suspect = false ∧
      ((s.recoordinate x).axis x).cmd = (s.axis x).cmd - ref + to64 (sword (s.reg (Reg.MOT_HOMEPOS x))) ∧
      ((s.recoordinate x).axis x).emit = ((s.recoordinate x).axis x).cmd := by
  obtain ⟨o, first⟩ := coordinated_axis s x
  obtain ⟨v, vs, m, r, n, second⟩ := parks_axis (s.coordinated x) x
  have acts := (coordinated_acts s x).trans (parks_acts (s.coordinated x) x)
  have flag : ((s.coordinated x).parks x).rbit (Reg.MOT_EVT x) 1 = true :=
    setFlag_rbit_same ((s.modAxis x _).takeOffset x) (Reg.MOT_EVT x) (by decide)
  rw [first, found] at second
  rw [recoordinate_eq]
  generalize (s.coordinated x).parks x = u at *
  split
  · obtain ⟨d, same⟩ := endMove_axis u x 0
    refine ⟨acts.ended 0, by rw [endMove_rbit _ _ _ (by decide), flag, Bool.true_or], ?_⟩
    rw [same, second]
    exact ⟨rfl, rfl, rfl⟩
  · refine ⟨acts, flag, ?_⟩
    rw [second]
    exact ⟨rfl, rfl, rfl⟩

end State
end Sys2Proof.Machine
end

section
/-! ## Emissions, cam points, freeze windows and feedback -/

namespace Sys2Proof.Machine
namespace State

variable {s t u : State} {x : Axis}

/-! ### Emission -/

/-- One microstep has left (R296), before the phase and the following monitor. -/
def stepEmitted (s : State) (x : Axis) : State :=
  let neg := decide (s.backlog x < 0)
  let flip := !isStepper x && decide ((s.axis x).dirOut ≠ neg)
  let s := s.modAxis x fun a =>
    { a with emit := if neg then a.emit - 1 else a.emit + 1, prevEmit := a.lastEmit, lastEmit := some s.tick, dirOut := neg }
  (s.emit (.step x (if flip then s.tick + 10 else s.tick) neg)).restartSs x

theorem emitStep_eq (s : State) (x : Axis) (k : Nat) : s.emitStep x k =
    if isStepper x = true then (s.stepEmitted x).movePhase x (decide (s.backlog x < 0)) k
    else (s.stepEmitted x).followCheck x ((s.stepEmitted x).axis x).emit := rfl

namespace AxisActs

theorem emit (s : State) (e : Emit) : AxisActs [.mot, .out] x s (s.emit e) :=
  ⟨(emit_only _).mono (by decide), fun _ _ => rfl, rfl, fun _ _ => rfl⟩

end AxisActs

theorem stepEmitted_acts (s : State) (x : Axis) : AxisActs [.mot, .out] x s (s.stepEmitted x) := by
  unfold stepEmitted restartSs
  dsimp only
  exact (((AxisActs.modAxis _ _).mono (by decide)).trans (AxisActs.emit _ _)).trans ((AxisActs.modDrive _ _).mono (by decide))

theorem stepEmitted_axis (s : State) (x : Axis) : ∃ d, d.phase = (s.axis x).drive.phase ∧ (s.stepEmitted x).axis x =
    { s.axis x with emit := if decide (s.backlog x < 0) = true then (s.axis x).emit - 1 else (s.axis x).emit + 1,
                    prevEmit := (s.axis x).lastEmit, lastEmit := some s.tick, dirOut := decide (s.backlog x < 0), drive := d } := by
  unfold stepEmitted restartSs
  dsimp only
  rw [modDrive_axis, emit_axis, modAxis_axis_same]
  refine ⟨_, ?_, rfl⟩
  rfl

theorem stepEmitted_out (s : State) (x : Axis) : (s.stepEmitted x).out =
    .step x (if isStepper x = false ∧ (s.axis x).dirOut ≠ decide (s.backlog x < 0) then s.tick + 10 else s.tick) (decide (s.backlog x < 0)) ::
      s.out := by
  unfold stepEmitted restartSs modDrive
  rw [modAxis_out]
  simp only [Bool.and_eq_true, Bool.not_eq_true', decide_eq_true_eq]
  rfl

/-- The phase moves, without the end of a full step (R316). -/
theorem movePhase_within (s : State) (x : Axis) (neg : Bool) (k : Nat) {p : BitVec 10}
    (moved : (if neg = true then (s.axis x).drive.phase - BitVec.ofNat 10 (2 ^ s.fld (Reg.MOT_DRV_CFG x) 3 0)
      else (s.axis x).drive.phase + BitVec.ofNat 10 (2 ^ s.fld (Reg.MOT_DRV_CFG x) 3 0)) = p) (within : p.toNat % 256 ≠ 0) :
    AxisActs [.mot] x s (s.movePhase x neg k) ∧ ∃ d, d.phase = p ∧ (s.movePhase x neg k).axis x = { s.axis x with drive := d } := by
  obtain ⟨w, acts, ⟨d, phase, same⟩, moves⟩ : ∃ w : State, AxisActs [.mot] x s w ∧
      (∃ d, d.phase = p ∧ w.axis x = { s.axis x with drive := d }) ∧
      s.movePhase x neg k = if (w.axis x).drive.phase.toNat % 256 = 0 then w.fullStep x k else w := by
    refine ⟨_, (AxisActs.modDrive _ _).trans (AxisActs.retarget _), ?_, rfl⟩
    rw [retarget_axis, retargeted, modDrive_axis]
    refine ⟨_, ?_, rfl⟩
    exact moved
  rw [moves, same, if_neg (by rw [phase]; exact within)]
  exact ⟨acts, d, phase, same⟩

/-- One microstep leaves, without the end of a full step and without a following check (R296). -/
theorem emitStep_spec (s : State) (x : Axis) (k : Nat) {p : BitVec 10}
    (moved : (if s.backlog x < 0 then (s.axis x).drive.phase - BitVec.ofNat 10 (2 ^ s.fld (Reg.MOT_DRV_CFG x) 3 0)
      else (s.axis x).drive.phase + BitVec.ofNat 10 (2 ^ s.fld (Reg.MOT_DRV_CFG x) 3 0)) = p)
    (plain : if isStepper x = true then p.toNat % 256 ≠ 0 else s.rbit (Reg.MOT_CFG x) 16 = false) :
    AxisActs [.mot, .out] x s (s.emitStep x k) ∧ ∃ d, (isStepper x = true → d.phase = p) ∧ (s.emitStep x k).out = (s.stepEmitted x).out ∧
      (s.emitStep x k).axis x = { s.axis x with
        emit := if s.backlog x < 0 then (s.axis x).emit - 1 else (s.axis x).emit + 1,
        prevEmit := (s.axis x).lastEmit, lastEmit := some s.tick, dirOut := decide (s.backlog x < 0), drive := d } := by
  obtain ⟨d, phase, same⟩ := stepEmitted_axis s x
  have acts := stepEmitted_acts s x
  have config : (s.stepEmitted x).fld (Reg.MOT_DRV_CFG x) 3 0 = s.fld (Reg.MOT_DRV_CFG x) 3 0 := rfl
  simp only [decide_eq_true_eq] at same
  rw [emitStep_eq]
  by_cases stepper : isStepper x = true
  · rw [if_pos stepper] at plain ⊢
    obtain ⟨moves, d', next, same'⟩ := movePhase_within (s.stepEmitted x) x (decide (s.backlog x < 0)) k (p := p)
      (by rw [same, config, ← moved]; simp only [decide_eq_true_eq, phase]) plain
    refine ⟨acts.trans (moves.mono (by decide)), d', fun _ => next, moves.only.part .out (by decide), ?_⟩
    rw [same', same]
  · rw [if_neg stepper] at plain ⊢
    have quiet : (s.stepEmitted x).rbit (Reg.MOT_CFG x) 16 = false := plain
    rw [followCheck, quiet, Bool.false_and, Bool.false_and, if_neg Bool.false_ne_true]
    exact ⟨acts, d, fun h => absurd h stepper, rfl, same⟩

/-! ### Cam points -/

/-- A due cam point that does not end a cycle (R298, R299). -/
theorem camPoint_eq (due : s.camDue x = true)
    (on : ¬ (s.axGmode x = true ∧ s.camBlend x (s.axis x).nextCam = 0 ∧ (s.axis x).nextCam + 1 = s.camPoints x)) :
    s.camPoint x = (s.modAxis x fun a =>
      if s.camBlend x (s.axis x).nextCam = 0 then
        { a with ratio := s.camRatio x (s.axis x).nextCam, blend := none, nextCam := (s.axis x).nextCam + 1 }
      else { a with blend := some ⟨a.ratio, s.camRatio x (s.axis x).nextCam, 0, s.camBlend x (s.axis x).nextCam⟩,
                    nextCam := (s.axis x).nextCam + 1 }).commit := by
  unfold camPoint
  dsimp only
  rw [if_pos due]
  exact if_neg on

/-! ### Freeze windows -/

theorem endFbWin_restart {w : Nat} {ref : Word} {c : BitVec 64} (open_ : (s.axis x).fbWin = some (w, ref, c))
    (near : ((s.axis x).cmd - c).toInt.natAbs < s.fld (Reg.MOT_FOLLOW x) 31 16) : s.endFbWin x = s.startFbWin x := by
  unfold endFbWin
  rw [open_]
  exact if_neg (Nat.not_le.mpr near)

theorem endFbWin_frozen {w : Nat} {ref : Word} {c : BitVec 64} (open_ : (s.axis x).fbWin = some (w, ref, c))
    (far : s.fld (Reg.MOT_FOLLOW x) 31 16 ≤ ((s.axis x).cmd - c).toInt.natAbs) :
    s.endFbWin x = (s.modAxis x fun a => { a with fbWin := none }).motMessage x (Kind.feedbackFrozen x.val) (s.feedback x) := by
  unfold endFbWin
  rw [open_]
  exact if_pos far

/-- The master of an axis must turn (R308). -/
def masterTurns (s : State) (x : Axis) : Prop :=
  (s.axis x).state = .gear ∧ ((s.axis x).blend.isSome = true ∨ s.fld (Reg.MOT_GEAR x) 31 16 * 2 ^ 24 ≤ (s.axis x).ratio.toInt.natAbs)

theorem endMWin_frozen (turns : s.masterTurns x) :
    s.endMWin x = (s.modAxis x fun a => { a with mWin := none }).motMessage x (Kind.masterLost x.val) 1 := by
  unfold endMWin
  exact (if_pos turns.1).trans (if_pos turns.2)

theorem endMWin_restart (still : ¬ s.masterTurns x) : s.endMWin x = s.modAxis x fun a =>
    { a with mWin := if (s.axis x).state = .gear then some (s.tick, a.mpos) else none } := by
  unfold endMWin
  dsimp only
  by_cases geared : (s.axis x).state = .gear
  · rw [if_pos geared, if_neg fun h => still ⟨geared, h⟩, startMWin]
    simp only [geared, if_true]
  · rw [if_neg geared]
    simp only [geared, if_false]

/-! ### Feedback -/

theorem fbCount_kept : ∀ i : Fin 2, Reg.MOT_FBCOUNT (servoAxis i) / 0x1000 ∉ [4, 6] := by decide

theorem followCheck_only (s : State) (x : Axis) (c : BitVec 64) : Only axisParts s (s.followCheck x c) := by
  unfold followCheck
  dsimp only
  exact only_ite (only_ite (motMessage_only _ _ _) (Only.refl _ _)) (Only.refl _ _)

theorem followCheck_in (s : State) (x : Axis) (c : BitVec 64) : RegsIn [4, 6] s (s.followCheck x c) := by
  unfold followCheck
  dsimp only
  split
  · split
    · exact motMessage_in s rfl
    · exact RegsIn.refl _ _
  · exact RegsIn.refl _ _

theorem followCheck_fbs (s : State) (x : Axis) (c : BitVec 64) : (s.followCheck x c).plc.fbs = s.plc.fbs := by
  unfold followCheck
  dsimp only
  split
  · split
    · exact motMessage_fbs _ _ _ _
    · rfl
  · rfl

theorem slideFbWin_acts (s : State) (x : Axis) : AxisActs [.mot] x s (s.slideFbWin x) := by
  unfold slideFbWin
  split
  · exact AxisActs.ite (AxisActs.modAxis _ _) (AxisActs.refl _)
  · exact AxisActs.refl _

theorem slideFbWin_reg (s : State) (x : Axis) (b : Nat) : (s.slideFbWin x).reg b = s.reg b :=
  congrArg (fun r => Tab.get regReset r b) ((slideFbWin_acts s x).only.part .regs (by decide))

/-- A count of a feedback encoder (R289, R306). -/
theorem fbCount_spec (s : State) (i : Fin 2) (d : Int) : Only axisParts s (s.fbCount (servoAxis i) d) ∧
    (s.fbCount (servoAxis i) d).plc.fbs = s.plc.fbs ∧
    (s.fbCount (servoAxis i) d).reg (Reg.MOT_FBCOUNT (servoAxis i)) = s.reg (Reg.MOT_FBCOUNT (servoAxis i)) + BitVec.ofInt 32 d := by
  unfold fbCount
  dsimp only
  generalize counted : s.setReg (Reg.MOT_FBCOUNT (servoAxis i)) _ = w
  have only : Only axisParts s w := counted ▸ (setReg_only _ _).mono (by decide)
  have fbs : w.plc.fbs = s.plc.fbs := by rw [← counted]; rfl
  have count : w.reg (Reg.MOT_FBCOUNT (servoAxis i)) = s.reg (Reg.MOT_FBCOUNT (servoAxis i)) + BitVec.ofInt 32 d := by
    rw [← counted]
    exact setReg_reg_same _ _ _
  have slides := (slideFbWin_acts w (servoAxis i)).only
  have slid : Only axisParts s (w.slideFbWin (servoAxis i)) := only.trans (slides.mono (by decide))
  have slidFbs : (w.slideFbWin (servoAxis i)).plc.fbs = s.plc.fbs := (congrArg Plc.fbs (slides.part .plc (by decide))).trans fbs
  have slidCount := (slideFbWin_reg w (servoAxis i) (Reg.MOT_FBCOUNT (servoAxis i))).trans count
  split
  · exact ⟨only, fbs, count⟩
  split
  · exact ⟨slid, slidFbs, slidCount⟩
  · exact ⟨slid.trans (followCheck_only _ _ _), (followCheck_fbs _ _ _).trans slidFbs,
      ((followCheck_in _ _ _) _ (fbCount_kept i)).trans slidCount⟩

end State
end Sys2Proof.Machine
end

section
/-! ## O51 -/

namespace Sys2Proof.Machine
namespace State

variable {s t u : State} {x : Axis}

/-! ### The steps of events -/

theorem timed_next (ticks : s.ticking = true) {due : Option Nat} {d : Nat} (h : due = some d) (f : State → State) :
    s.finish (s.timed due f) = .next (s.after (f (s.advanceTo d))) := congrArg s.finish (by rw [h, timed_some ticks])

theorem pinCount_next (ticks : s.ticking = true) (f : State → State) : s.finish (s.pinCount f) = .next (s.after (f s)) :=
  congrArg s.finish (if_pos ticks)

theorem pinEvent_next (ticks : s.ticking = true) (i : Nat) (f : State → State) :
    s.finish (s.pinEvent i false f) = .next (s.after (f s)) :=
  congrArg s.finish (by rw [pinEvent, if_neg (by rw [ticks]; decide), if_neg Bool.false_ne_true])

theorem advanceTo_axis (s : State) (d : Nat) (y : Axis) : (s.advanceTo d).axis y = s.axis y := axis_of_only (advanceTo_only d) (by decide) y

/-- The state at which an event of number `k` that falls at a multiple of a period is taken. -/
def takenAt (s : State) (k d : Nat) : State := (s.advanceTo d).setFired k (s.advanceTo d).tick

theorem takenAt_axis (s : State) (k d : Nat) (y : Axis) : (s.takenAt k d).axis y = s.axis y := advanceTo_axis s d y

theorem takenAt_only (s : State) (k d : Nat) : Only [.fired] (s.advanceTo d) (s.takenAt k d) := setFired_only _ _

/-- A message of an axis, seen from a state that only the axis's own fields tell apart. -/
theorem motMessage_after {f : AxisSt → AxisSt} {k : Kind} {a : Word} (src : k.src = 26 + x.val)
    (up : s.unitInReset (26 + x.val) = false) : ∃ u, u = (s.modAxis x f).motMessage x k a ∧ motPends u x ∧
      StoppedFrom (f (s.axis x)) (u.axis x) (decide (k.code ≤ 4)) ∧ (∀ y, y ≠ x → u.axis y = s.axis y) ∧ Only axisParts s u := by
  obtain ⟨pends, stopped, others⟩ := motMessage_spec (s := s.modAxis x f) (a := a) src up
  rw [modAxis_axis_same] at stopped
  exact ⟨_, rfl, pends, stopped, fun y hy => (others y hy).trans (modAxis_axis_other _ _ _ _ (Ne.symm hy)),
    ((modAxis_only _ _).mono (by decide)).trans (motMessage_only _ _ _)⟩

end State

/-- Settles O51: an event in time acts on the state that its tick leaves, in which the axes stand as before; each event's own lemma says
what it does to the axis, and a message of an axis stops it (`State.motMessage_spec`). -/
theorem axesMove : Obligations.AxesMove := by
  intro s x ticks a pends lagOk
  have stands : a = s.axis x := rfl
  refine ⟨fun d due => ?_, fun ended => ?_, fun onA onB emits => ?_, fun due on => ?_, fun d k ref c due open_ => ?_, fun d due => ?_,
    fun i p q => ?_, fun i here low index source => ?_, fun pend => ?_, fun servo idle up => ?_, fun servo => ?_⟩
  · intro t v
    obtain ⟨runs, due'⟩ := State.profileDue_some due
    have run : exec (.profileTick x) s = .next (s.after ((s.takenAt (Ev.profile x) d).profileTick x)) := State.timed_next ticks due _
    have same := State.takenAt_axis s (Ev.profile x) d x
    have time := State.takenAt_only s (Ev.profile x) d
    have others (y : Axis) := State.takenAt_axis s (Ev.profile x) d y
    have tick : (s.takenAt (Ev.profile x) d).tick = max s.tick d := State.advanceTo_tick ticks d
    have speed : (s.takenAt (Ev.profile x) d).nextSpeed x = v := by
      rw [State.nextSpeed, same]
      rfl
    have step : (s.takenAt (Ev.profile x) d).onBus x = t.onBus x ∧
        (s.takenAt (Ev.profile x) d).fld (Reg.MOT_STEP x) 31 16 = t.fld (Reg.MOT_STEP x) 31 16 := ⟨rfl, rfl⟩
    generalize s.takenAt (Ev.profile x) d = w at *
    refine ⟨fun below => ?_, fun c carried carry calm lag => ?_⟩
    · have ends := State.profileTick_between (s := w) (x := x) (by rw [same]; exact runs) (by rw [same, speed]; exact below)
      rw [speed, same] at ends
      refine ⟨_, run, ?_, ?_, fun y hy => ?_, ?_⟩
      · rw [ends, State.modAxis_axis_same, same]
      · rw [ends, State.modAxis_tick, tick]
      · rw [ends, State.modAxis_axis_other _ _ _ _ (Ne.symm hy), others]
      · rw [ends]
        exact (time.mono (by decide)).trans ((State.modAxis_only _ _).mono (by decide))
    · obtain ⟨acts, e, g, q, motion⟩ := State.profileTick_steps (s := w) (x := x) (by rw [same]; exact runs)
        (by rw [same, speed]; exact carry) (by rw [same]; exact calm) (by
          rw [same, step.1, step.2]
          rw [carried] at lag
          exact lag)
      rw [same, speed] at motion
      refine ⟨_, run, ?_, ?_, ?_, ?_, ?_, fun y hy => (acts.others y hy).trans (others y),
        (time.mono (by decide)).trans (acts.only.mono (by decide))⟩
      all_goals rw [motion]
      · rw [carried]
        rfl
      all_goals rfl
  · have run : exec (.moveDone x) s = .next (s.after (s.arrive x)) := congrArg s.finish (if_pos (by rw [ticks, ended]; rfl))
    refine ⟨fun ends => ?_, fun ref stops found => ?_⟩
    · have goes : s.arrive x = s.endMove x (if a.home = some .fail then 2 else 0) := by
        unfold State.arrive
        split
        next stops => exact absurd stops ends
        next fails => rw [if_pos fails]
        next fails => rw [if_neg fails]
      obtain ⟨g, same⟩ := State.endMove_axis s x (if a.home = some .fail then 2 else 0)
      have flag : (if a.home = some .fail then 2 else 0) < 28 := by split <;> decide
      have acts := State.AxisActs.endMove (x := x) s (if a.home = some .fail then 2 else 0)
      rw [goes] at run
      refine ⟨_, run, by rw [same], by rw [same], ?_, State.endMove_isLive s x _, acts.others, State.endMove_regsBut s x _, acts.only⟩
      rw [State.endMove_rbit _ _ _ flag, decide_eq_true rfl, Bool.or_true]
    · have goes : s.arrive x = s.recoordinate x := by
        unfold State.arrive
        rw [← stands, stops]
      obtain ⟨acts, flag, sure, cmd, emit⟩ := State.recoordinate_spec s x found
      rw [goes] at run
      exact ⟨_, run, flag, sure, cmd, emit, acts.only.mono (by decide)⟩
  · intro t neg inc phase plain
    have run : exec (.microstepEmission x onA onB) s = .next (s.after (t.emitStep x (onA + onB))) := State.timed_next ticks (if_pos emits) _
    have same : t.axis x = s.axis x := State.advanceTo_axis s _ x
    have backlog : t.backlog x = s.backlog x := by rw [State.backlog, same, State.backlog]
    obtain ⟨acts, g, moved, out, motion⟩ := State.emitStep_spec t x (onA + onB) (p := phase)
      (by rw [backlog, same]; simp only [phase, neg, inc, decide_eq_true_eq]; rfl) plain
    refine ⟨_, run, ?_, ?_, ?_, fun stepper => ?_, ?_, fun y hy => (acts.others y hy).trans (State.advanceTo_axis s _ y), acts.only⟩
    · rw [motion, backlog, same]
      simp only [neg, decide_eq_true_eq]
      rfl
    · rw [motion, same]
    · rw [motion]
    · rw [motion]
      exact moved stepper
    · rw [out, State.stepEmitted_out, backlog, same]
  · have run : exec (.camPoint x) s = .next (s.after (s.camPoint x)) := congrArg s.finish (if_pos ticks)
    have goes := State.camPoint_eq due on
    refine ⟨_, run, ?_, ?_, ?_⟩
    · rw [goes, State.commit_axis, State.modAxis_axis_same]
    · rw [goes]
      rfl
    · rw [goes]
      exact (State.only_commit (by decide)).2 ((State.modAxis_only _ _).mono (by decide))
  · intro t
    have run : exec (.fbFreezeWindowEnd x) s = .next (s.after (t.endFbWin x)) := State.timed_next ticks due _
    have same (y : Axis) : t.axis y = s.axis y := State.advanceTo_axis s _ y
    have window : (t.axis x).fbWin = some (k, ref, c) := (congrArg AxisSt.fbWin (same x)).trans open_
    refine ⟨fun near => ?_, fun far up => ?_⟩
    · rw [State.endFbWin_restart window (by rw [same]; exact near)] at run
      refine ⟨_, run, ?_, ?_, State.modAxis_only _ _⟩
      all_goals rw [State.startFbWin, State.modAxis_axis_same, same]
    · rw [State.endFbWin_frozen window (by rw [same]; exact far)] at run
      obtain ⟨u, made, pending, stopped, others, only⟩ := State.motMessage_after (s := t) (x := x)
        (f := fun a => { a with fbWin := none }) (k := Kind.feedbackFrozen x.val) (a := t.feedback x) rfl up
      rw [← made] at run
      rw [same] at stopped
      exact ⟨u, run, pending, stopped.fbWin, stopped.suspect rfl, fun on => ⟨stopped.state.trans (if_neg on),
        fun y hy => (others y hy).trans (same y)⟩, only⟩
  · intro t turns
    have run : exec (.mFreezeWindowEnd x) s = .next (s.after (t.endMWin x)) := State.timed_next ticks due _
    have same : t.axis x = s.axis x := State.advanceTo_axis s _ x
    have turns_iff : turns ↔ t.masterTurns x := by rw [State.masterTurns, same]
    refine ⟨fun still => ?_, fun lost up => ?_⟩
    · rw [State.endMWin_restart fun h => still (turns_iff.mpr h)] at run
      refine ⟨_, run, ?_, ?_, State.modAxis_only _ _⟩
      all_goals rw [State.modAxis_axis_same, same]
    · rw [State.endMWin_frozen (turns_iff.mp lost)] at run
      obtain ⟨u, made, pending, stopped, -, only⟩ := State.motMessage_after (s := t) (x := x)
        (f := fun a => { a with mWin := none }) (k := Kind.masterLost x.val) (a := 1) rfl up
      rw [← made] at run
      rw [same] at stopped
      refine ⟨u, run, pending, stopped.mWin rfl, stopped.suspect rfl, stopped.state.trans ?_, only⟩
      exact if_neg fun off => AxisState.noConfusion (off.symm.trans lost.1)
  · intro r
    have run : exec (.feedbackCount i p q) s = .next (s.after (s.fbChange i p q)) := State.pinCount_next ticks _
    refine ⟨fun d counted => ?_, fun c jumped => ?_⟩
    · obtain ⟨only, fbs, count⟩ := State.fbCount_spec
        (s.modPlc fun l => { l with fbs := l.fbs.set i { s.plc.fbs[i] with a := p, b := q } }) i d
      have goes : s.fbChange i p q = (s.modPlc fun l => { l with fbs := l.fbs.set i { s.plc.fbs[i] with a := p, b := q } }).fbCount
          (State.servoAxis i) d := by
        unfold State.fbChange
        dsimp only
        rw [show State.decode 1 s.plc.fbs[i].a s.plc.fbs[i].b p q = _ from counted]
        rfl
      rw [goes] at run
      refine ⟨_, run, ?_, ?_, count, ((State.modPlc_only _).mono (by decide)).trans only⟩
      all_goals
        rw [fbs]
        simp
    · have goes : s.fbChange i p q = (s.modPlc fun l => { l with fbs := l.fbs.set i { s.plc.fbs[i] with a := p, b := q } }).bump
          (Reg.MOT_FB_JUMPS i) := by
        unfold State.fbChange
        dsimp only
        rw [show State.decode 1 s.plc.fbs[i].a s.plc.fbs[i].b p q = _ from jumped]
        rfl
      rw [goes] at run
      refine ⟨_, run, ?_, ?_, State.bump_oneMore _ _, fun b hb => State.bump_reg_other _ _ _ (fun e => hb (List.mem_singleton.mpr e.symm)), ?_⟩
      · rw [State.bump_plc]
        simp
      · rw [State.bump_plc]
        simp
      · exact ((State.modPlc_only _).mono (by decide)).trans ((State.bump_only _).mono (by decide))
  · subst here
    have run : exec (.fbZEdge i true false) s = .next (s.after (s.fbZ i true)) := State.pinEvent_next ticks _ _
    have goes : s.fbZ i true = (((s.modPlc fun l => { l with fbs := l.fbs.set i { s.plc.fbs[i] with z := true } }).modAxis (State.servoAxis i)
        fun a => { a with homeRef := some a.cmd, home := some .stop }).rampDown (State.servoAxis i)) := by
      unfold State.fbZ State.indexEdge
      dsimp only
      rw [low, if_pos (by decide)]
      exact if_pos ⟨index, source⟩
    rw [goes] at run
    refine ⟨_, run, ?_, ?_, ?_, ?_⟩
    · rw [State.rampDown_axis, State.modAxis_axis_same, State.modPlc_axis]
    · rw [State.rampDown_axis, State.modAxis_axis_same]
    · rw [State.rampDown, State.modAxis_plc, State.modAxis_plc]
      simp
    · exact ((State.modPlc_only _).mono (by decide)).trans (((State.modAxis_only _ _).trans (State.AxisActs.rampDown _).only).mono (by decide))
  · intro t
    have run : exec (.interpolationTick x) s = .next (s.after ((s.takenAt (Ev.interp x) (s.dueAt (Ev.interp x) a.drive.tPrev 1)).interpTick x)) :=
      congrArg s.finish ((if_neg pend).trans (State.periodic_eq ticks _ _ _ _))
    have same := State.takenAt_axis s (Ev.interp x) (s.dueAt (Ev.interp x) a.drive.tPrev 1) x
    have time : Only [.fired] t _ := State.takenAt_only s (Ev.interp x) (s.dueAt (Ev.interp x) a.drive.tPrev 1)
    have step : (s.takenAt (Ev.interp x) (s.dueAt (Ev.interp x) a.drive.tPrev 1)).onBus x = t.onBus x ∧
        (s.takenAt (Ev.interp x) (s.dueAt (Ev.interp x) a.drive.tPrev 1)).fld (Reg.MOT_STEP x) 31 16 = t.fld (Reg.MOT_STEP x) 31 16 := ⟨rfl, rfl⟩
    generalize s.takenAt (Ev.interp x) (s.dueAt (Ev.interp x) a.drive.tPrev 1) = w at *
    rw [← stands] at same
    refine ⟨fun below => ?_, fun c carried carry lag => ?_⟩
    · rw [State.interpTick_between (by rw [same]; exact pend) (by rw [same]; exact below)] at run
      refine ⟨_, run, by rw [State.setAxis_axis_same, same], ?_⟩
      exact (time.mono (by decide)).trans ((State.setAxis_only _ _).mono (by decide))
    · obtain ⟨acts, cmd, left, phase⟩ := State.interpTick_steps (s := w) (x := x) (by rw [same]; exact pend) (by rw [same]; exact carry) (by
        rw [same, step.1, step.2]
        rw [carried] at lag
        exact lag)
      rw [same] at cmd left phase
      exact ⟨_, run, cmd.trans carried.symm, left, phase, (time.mono (by decide)).trans (acts.only.mono (by decide))⟩
  · have run : exec (.driveFaultIn x false) s = .next (s.after (s.driveFault x)) := by
      have goes := State.pinEvent_next ticks (12 + x.val) fun s => s.driveFault x
      exact (congrArg s.finish (if_neg (by rw [servo, ← stands, idle]; decide))).trans goes
    obtain ⟨u, made, pending, stopped, -, only⟩ := State.motMessage_after (s := s) (x := x)
      (f := fun a => { a with faultNow := true }) (k := Kind.motDrive x.val) (a := 0) rfl up
    refine ⟨u, run.trans (congrArg _ (congrArg s.after made.symm)), stopped.faultNow, pending, stopped.state, only⟩
  · have run : exec (.driveFaultRelease x) s = .next (s.after (s.modAxis x fun a => { a with faultNow := false })) :=
      (congrArg s.finish (if_neg (by rw [servo]; decide))).trans (State.pinCount_next ticks _)
    exact ⟨_, run, State.modAxis_axis_same _ _ _, State.modAxis_only _ _⟩

end Sys2Proof.Machine
end

section
/-! ## Granted writes to the registers of heads -/

namespace Sys2Proof.Machine
namespace State

variable {s t u v : State} {o : OpCtx} {env : OpEnv} {h : Head} {a : Nat} {w : Word}

/-- A granted write of a head's settings commits its one word, and what the word starts follows (R194): its fields are placed, and no other
register changes. -/
theorem headSetting_granted (granted : s.Granted o env a [w]) (large : 0xB000 ≤ a) (small : a < 0xD000) (held : a % 0x100 ≠ 0x5C)
    (own : ownAction a = true) (fields : rwMask a ≠ 0) (flagless : w1gMask a = 0) :
    ∃ v : State, s.finish (s.ownerWrites o env a [w]) = .next (s.written o (effect s env v (a, w))) ∧
      v.reg a = (s.reg a &&& ~~~(rwMask a)) ||| (w &&& rwMask a) ∧ (∀ b, b ≠ a → v.reg b = s.reg b) ∧ Only [.order, .regs] s v := by
  have live : s.moot (a, w) = false := by
    unfold moot
    dsimp only
    rw [if_neg (by omega), if_neg (by simp only [Reg.PWR_REQ]; omega), if_neg (by simp only [Reg.FLT_RELEASE]; omega), if_neg (by omega),
      if_pos fields]
  have bare : w &&& w1gMask a = 0 := by rw [flagless]; exact BitVec.and_zero
  refine ⟨(s.placeWords [(a, w)]).commit, finish_own granted (by omega) own bare live, ?_, fun b hb => placeWords_reg_other b hb,
    (only_commit (by decide)).2 ((placeWords_only _).mono (by decide))⟩
  rw [commit_reg]
  simp only [placeWords, List.foldl_cons, List.foldl_nil]
  rw [if_neg (by omega), setReg_reg_same]

/-- What a write of block HED does. -/
theorem effect_blockHed (v : State) (large : 0xB000 ≤ a) (small : a < 0xB400) : effect s env v (a, w) = headEffect s v env.mem a w := by
  unfold State.effect
  dsimp only
  rw [if_neg (by omega), show a / 0x1000 = 11 by omega]
  exact if_pos small

/-- What a write of block HLT does. -/
theorem effect_blockHlt (v : State) (large : 0xC000 ≤ a) (small : a < 0xC400) : effect s env v (a, w) = healthEffect s v env.gates a w := by
  unfold State.effect
  dsimp only
  rw [if_neg (by omega), show a / 0x1000 = 12 by omega]
  exact if_pos small

/-- Bits beside the field that a command sets stay, where the register reads as it is held. -/
theorem keeping_bit_kept {hi lo x n : Nat} (reads : s.readReg a = s.reg a) (hn : n < 32) (apart : ¬ (lo ≤ n ∧ n ≤ hi)) :
    bit ((s.reg a &&& ~~~(rwMask a)) ||| (s.keeping a hi lo x &&& rwMask a)) n = bit (s.reg a) n := by
  rw [bit_placed, bit_keeping _ _ _ _ _ hn, if_neg apart, reads]
  cases bit (rwMask a) n with
  | true => rw [if_pos rfl, Bool.and_true]
  | false => rfl

/-- A field that a command sets takes its value. -/
theorem keeping_bit_set {n x : Nat} (hn : n < 32) (field : bit (rwMask a) n = true) :
    bit ((s.reg a &&& ~~~(rwMask a)) ||| (s.keeping a n n x &&& rwMask a)) n = x.testBit 0 ∧ bit (s.keeping a n n x) n = x.testBit 0 := by
  have set : bit (s.keeping a n n x) n = x.testBit 0 := by rw [bit_keeping _ _ _ _ _ hn, if_pos ⟨le_refl n, le_refl n⟩, Nat.sub_self]
  exact ⟨by rw [bit_placed, field, if_pos rfl, set], set⟩

theorem hedEnable_masks : ∀ h : Head, rwMask (Reg.HED_ENABLE h) = 3 ∧ w1gMask (Reg.HED_ENABLE h) = 0 ∧ ownAction (Reg.HED_ENABLE h) = true ∧
    (regAt (Reg.HED_ENABLE h)).isSome = true ∧ inst4 (Reg.HED_ENABLE h) 0xB000 0x100 = h := by decide

theorem hedId_masks : ∀ h : Head, rwMask (Reg.HED_ID h) = 0x0FFF0FFF ∧ w1gMask (Reg.HED_ID h) = 0 ∧ ownAction (Reg.HED_ID h) = true ∧
    inst4 (Reg.HED_ID h) 0xB000 0x100 = h := by decide

theorem hedCmd_masks : ∀ h : Head, rwMask (Reg.HED_CMD h) = 0 ∧ w1gMask (Reg.HED_CMD h) = 0 ∧ ownAction (Reg.HED_CMD h) = true ∧
    inst4 (Reg.HED_CMD h) 0xB000 0x100 = h := by decide

theorem hedEnable_readReg (s : State) (h : Head) : s.readReg (Reg.HED_ENABLE h) = s.reg (Reg.HED_ENABLE h) := by
  obtain ⟨-, -, -, mapped, -⟩ := hedEnable_masks h
  have place : Reg.HED_ENABLE h / 0x1000 = 11 ∧ Reg.HED_ENABLE h % 0x100 = 0 := by simp only [Reg.HED_ENABLE]; omega
  have plain : s.derived (Reg.HED_ENABLE h) = none := by
    unfold derived
    rw [place.1]
    exact if_neg fun k => by omega
  rw [readReg, if_pos mapped, plain]

/-- A granted write of `EN` of a head port (R443, R444): `EN` takes its value, `PRES_POL` and every other register stay. -/
theorem hedEnableTo_granted (on : Bool)
    (granted : s.Granted o OpEnv.quiet (Reg.HED_ENABLE h) [s.keeping (Reg.HED_ENABLE h) 0 0 (b2n on)]) :
    ∃ (v : State) (w : Word), s.finish (s.hedEnableTo o h on) = .next (s.written o (enableHead s v h w)) ∧ bit w 0 = on ∧
      v.rbit (Reg.HED_ENABLE h) 0 = on ∧ v.rbit (Reg.HED_ENABLE h) 1 = s.rbit (Reg.HED_ENABLE h) 1 ∧
      (∀ b, b ≠ Reg.HED_ENABLE h → v.reg b = s.reg b) ∧ Only [.order, .regs] s v := by
  obtain ⟨fields, flagless, own, mapped, head⟩ := hedEnable_masks h
  have place : 0xB000 ≤ Reg.HED_ENABLE h ∧ Reg.HED_ENABLE h < 0xB400 ∧ Reg.HED_ENABLE h % 0x100 = 0 := by
    simp only [Reg.HED_ENABLE]
    omega
  have reads := hedEnable_readReg s h
  have value : (b2n on).testBit 0 = on := by cases on <;> rfl
  obtain ⟨placed, set⟩ := keeping_bit_set (s := s) (a := Reg.HED_ENABLE h) (n := 0) (x := b2n on) (by decide) (by rw [fields]; decide)
  have stays := keeping_bit_kept (hi := 0) (lo := 0) (x := b2n on) (n := 1) reads (by decide) (by omega)
  rw [value] at placed set
  obtain ⟨v, run, reg, regs, only⟩ := headSetting_granted granted (by omega) (by omega) (by omega) own (by rw [fields]; decide) flagless
  refine ⟨v, s.keeping (Reg.HED_ENABLE h) 0 0 (b2n on), ?_, set, by rw [rbit, reg, placed], by rw [rbit, reg, stays, rbit], regs, only⟩
  rw [effect_blockHed v place.1 place.2.1, headEffect, place.2.2, head] at run
  exact run

/-- A granted write of the identity of a head (R443). -/
theorem hedId_granted (granted : s.Granted o OpEnv.quiet (Reg.HED_ID h) [w]) :
    ∃ v : State, s.finish (s.ownerWrite o (Reg.HED_ID h) w) =
        .next (s.written o (if (v.head h).state = .mismatch then v.hedIdent h else v)) ∧
      v.fld (Reg.HED_ID h) 11 0 = bits w 11 0 ∧ v.fld (Reg.HED_ID h) 27 16 = bits w 27 16 ∧
      (∀ b, b ≠ Reg.HED_ID h → v.reg b = s.reg b) ∧ Only [.order, .regs] s v := by
  obtain ⟨fields, flagless, own, head⟩ := hedId_masks h
  have place : 0xB000 ≤ Reg.HED_ID h ∧ Reg.HED_ID h < 0xB400 ∧ Reg.HED_ID h % 0x100 = 0x2C := by
    simp only [Reg.HED_ID]
    omega
  obtain ⟨v, run, reg, regs, only⟩ := headSetting_granted granted (by omega) (by omega) (by omega) own (by rw [fields]; decide) flagless
  have low : ∀ n ≤ 11, 0 ≤ n → bit (rwMask (Reg.HED_ID h)) n = true := by rw [fields]; decide
  have high : ∀ n ≤ 27, 16 ≤ n → bit (rwMask (Reg.HED_ID h)) n = true := by rw [fields]; decide
  refine ⟨v, ?_, by rw [fld, reg, bits_placed _ _ low], by rw [fld, reg, bits_placed _ _ high], regs, only⟩
  rw [effect_blockHed v place.1 place.2.1, headEffect, place.2.2, head] at run
  exact run

/-- A granted RESTART of a head port in FAULT (R443). -/
theorem hedRestart_granted (fault : (s.head h).state = .fault) (granted : s.Granted o OpEnv.quiet (Reg.HED_CMD h) [word 1]) :
    ∃ v : State, s.finish (s.hedCommand o h 0 OpEnv.quiet) = .next (s.written o (v.hedToReady h)) ∧ (∀ b, v.reg b = s.reg b) ∧
      Only [.order, .regs] s v := by
  obtain ⟨fieldless, flagless, own, head⟩ := hedCmd_masks h
  have place : 0xB000 ≤ Reg.HED_CMD h ∧ Reg.HED_CMD h < 0xB400 ∧ Reg.HED_CMD h % 0x100 = 4 := by
    simp only [Reg.HED_CMD]
    omega
  have live : s.moot (Reg.HED_CMD h, word 1) = false := by
    rw [moot_trigger (by omega) (by omega) (by omega) fieldless flagless, mootCommand, if_neg (by omega), if_neg (by omega),
      if_pos ⟨place.1, place.2.1⟩, head, fault]
    rfl
  obtain ⟨v, run, regs, only⟩ := command_granted granted (by omega) own fieldless flagless live
  refine ⟨v, ?_, regs, only⟩
  have stays : (v.head h).state = .fault := (congrArg HedSt.state (head_of_only only (by decide) h)).trans fault
  have set : bit (word 1) 0 = true := by decide
  rw [effect_blockHed v place.1 place.2.1, headEffect, place.2.2, head] at run
  exact run.trans (congrArg (fun u => Host.Outcome.next (s.written o u)) ((if_pos set).trans (if_pos stays)))

end State
end Sys2Proof.Machine
end

section
/-! ## The states of a head port -/

namespace Sys2Proof.Machine
namespace State

variable {s t u v : State} {h : Head} {st : HedState} {on hv ck : Bool}

/-- A head port that has made a transition (R443). -/
def moved (x : HedSt) (st : HedState) (on hv ck : Bool) : HedSt :=
  { x with state := st, headEn := on, hvEn := hv, stepEnd := none,
           ckStart := if ck then x.ckStart else none, fLast := if ck then x.fLast else none,
           firings := if st = .ready then x.firings else [], svc := if st = .ready then x.svc else none,
           stream := if st = .ready ∨ ck = true then x.stream else [], svcBuf := if st = .ready then x.svcBuf else [] }

theorem hedGo_own (s : State) (h : Head) (st : HedState) (on hv ck : Bool) : (s.hedGo h st on hv ck).head h = moved (s.head h) st on hv ck := by
  have pin (v : State) (p : Prop) [Decidable p] (n : String) (x : Bool) (j : Head) : (if p then v else v.hedPin h n x).head j = v.head j := by
    split <;> rfl
  have flag (v : State) (p : Prop) [Decidable p] (j : Head) : (if p then v.setFlag (Reg.HED_EVT h) 6 else v).head j = v.head j := by
    split <;> rfl
  unfold hedGo
  simp only [commit_head, flag, pin, setHead_head_same]
  rfl

theorem hedGo_other (s : State) {g : Head} (hg : g ≠ h) (st : HedState) (on hv ck : Bool) : (s.hedGo h st on hv ck).head g = s.head g :=
  (hedGo_head s h st on hv ck).2 g (Ne.symm hg)

theorem hedGo_tick (s : State) (h : Head) (st : HedState) (on hv ck : Bool) : (s.hedGo h st on hv ck).tick = s.tick :=
  (hedGo_only h st on hv ck).part .tick (by decide)

/-- A transition sets `READY`, and no other register (R443). -/
theorem hedGo_reg (s : State) (h : Head) (st : HedState) (on hv ck : Bool) (b : Nat) :
    (s.hedGo h st on hv ck).reg b = (if st = .ready then s.setFlag (Reg.HED_EVT h) 6 else s).reg b := by
  have pin (v : State) (p : Prop) [Decidable p] (n : String) (x : Bool) (b : Nat) : (if p then v else v.hedPin h n x).reg b = v.reg b := by
    split <;> rfl
  obtain ⟨w, regs, goes⟩ : ∃ w : State, (∀ b, w.reg b = s.reg b) ∧
      s.hedGo h st on hv ck = (if st = .ready then w.setFlag (Reg.HED_EVT h) 6 else w).commit :=
    ⟨_, fun b => (pin _ _ _ _ b).trans ((pin _ _ _ _ b).trans (setHead_reg _ _ _ b)), rfl⟩
  rw [goes, commit_reg]
  split
  · by_cases same : Reg.HED_EVT h = b
    · rw [← same, setFlag_reg_same, setFlag_reg_same, regs]
    · rw [setFlag_reg_other _ _ _ _ same, setFlag_reg_other _ _ _ _ same, regs]
  · exact regs b

/-- A transition to another state than READY changes no register and no guard. -/
theorem hedGo_plain (h : Head) {st : HedState} (on hv ck : Bool) (idle : st ≠ .ready) :
    Only [.order, .hed, .out] s (s.hedGo h st on hv ck) := by
  have pin (t : State) (p : Prop) [Decidable p] (n : String) (v : Bool) : Only [.out] t (if p then t else t.hedPin h n v) :=
    only_ite (Only.refl _ _) (hedPin_only h n v)
  unfold hedGo
  dsimp only
  rw [if_neg idle]
  simp (disch := decide) only [only_commit, Only.step (pin _ _ _ _), only_setHead, only_self]

theorem hedTimer_own (s : State) (h : Head) (ms : Nat) : (s.hedTimer h ms).head h = { s.head h with stepEnd := some (s.tick + ms * 100000) } :=
  modHead_head_same _ _ _

/-- The port enters ABSENT (R443). -/
theorem hedAbsent_spec (s : State) (h : Head) : Only [.order, .hed, .out] s (s.hedAbsent h) ∧
    (s.hedAbsent h).head h = { moved (s.head h) .absent false false false with
      stepEnd := if s.presentNow h = true then some (s.tick + s.fld (Reg.HED_SETTLE h) 15 0 * 100000) else none } ∧
    (∀ g, g ≠ h → (s.hedAbsent h).head g = s.head g) := by
  have goes := hedGo_plain (s := s) h false false false (st := .absent) (by decide)
  have own := hedGo_own s h .absent false false false
  have others (g : Head) (hg : g ≠ h) := hedGo_other s hg .absent false false false
  have present : (s.hedGo h .absent false false false).presentNow h = s.presentNow h := by
    rw [presentNow, own, rbit, hedGo_reg]
    rfl
  unfold hedAbsent
  dsimp only
  rw [present]
  split
  · refine ⟨goes.trans ((hedTimer_only _ _).mono (by decide)), ?_, fun g hg => (modHead_head_other _ _ _ _ (Ne.symm hg)).trans (others g hg)⟩
    rw [hedTimer_own, own, hedGo_tick, fld, hedGo_reg]
    rfl
  · exact ⟨goes, own, others⟩

/-- The port enters IDENT (R445). -/
theorem hedIdent_spec (s : State) (h : Head) : Only [.order, .hed, .out] s (s.hedIdent h) ∧
    (s.hedIdent h).head h = { moved (s.head h) .ident false false false with stepEnd := some (s.tick + 50000) } := by
  unfold hedIdent
  refine ⟨(hedGo_plain h _ _ _ (by decide)).trans ((modHead_only _ _).mono (by decide)), ?_⟩
  rw [modHead_head_same, hedGo_own]

/-- The port enters READY (R443, R482). -/
theorem hedToReady_spec (s : State) (h : Head) : Only [.order, .regs, .guards, .hed, .hlt, .out] s (s.hedToReady h) ∧
    (s.hedToReady h).head h = moved (s.head h) .ready true true true ∧ (∀ g, g ≠ h → (s.hedToReady h).head g = s.head g) ∧
    ((s.hedToReady h).health h).idleFrom = s.tick ∧ (s.hedToReady h).rbit (Reg.HED_EVT h) 6 = true ∧
    RegsBut [Reg.HED_EVT h] s (s.hedToReady h) := by
  have reg (b : Nat) : (s.hedToReady h).reg b = (s.setFlag (Reg.HED_EVT h) 6).reg b := hedGo_reg s h .ready true true true b
  refine ⟨hedToReady_only h, hedGo_own s h .ready true true true, fun g hg => hedGo_other s hg .ready true true true, ?_, ?_,
    fun b hb => (reg b).trans (setFlag_reg_other _ _ _ _ fun e => hb (List.mem_singleton.mpr e.symm))⟩
  · rw [hedToReady, modHealth_health_same]
  · rw [rbit, reg]
    exact setFlag_rbit_same _ _ (by decide)

end State
end Sys2Proof.Machine
end

section
/-! ## Messages, measurements and power of a head port -/

namespace Sys2Proof.Machine
namespace State

variable {s t u v : State} {h : Head}

theorem hedEvt_block : ∀ h : Head, Reg.HED_EVT h / 0x1000 = 11 := by decide

/-- A message of a head port whose unit is not in reset sets its flag, and is pending (R462). -/
theorem hedRaise_spec {k : Kind} (src : k.src = 18 + h.val) (up : s.unitInReset (18 + h.val) = false) {flag : Nat} (hf : flag < 28)
    (addr : Word) : (s.hedRaise h flag k addr).rbit (Reg.HED_EVT h) flag = true ∧
      (s.hedRaise h flag k addr).rbit Reg.FLT_PEND_A (18 + h.val) = true ∧
      (∀ b, b / 0x1000 ≠ 4 → b ≠ Reg.HED_EVT h → (s.hedRaise h flag k addr).reg b = s.reg b) := by
  have small : k.src < 36 := by omega
  have up' : (s.setFlag (Reg.HED_EVT h) flag).unitInReset k.src = false := by
    rw [src]
    exact (unitInReset_of_only (setFlag_only _ _) (by decide) _).trans up
  have eq : s.hedRaise h flag k addr = raiseN 12 (s.setFlag (Reg.HED_EVT h) flag) k addr (some h) := by
    unfold hedRaise
    rw [up]
    rfl
  have regs := raiseN_in 12 (s.setFlag (Reg.HED_EVT h) flag) k addr (some h) small
  rw [eq]
  refine ⟨?_, ?_, fun b hb hn => ?_⟩
  · rw [rbit_of_regsIn regs _ _ (by rw [hedEvt_block]; decide)]
    exact setFlag_rbit_same _ _ hf
  · have pend := raiseN_pending 11 k addr (some h) small up'
    rwa [if_pos (by omega), src] at pend
  · exact (regs b (by simpa using hb)).trans (setFlag_reg_other _ _ _ _ (Ne.symm hn))

theorem hedRaise_head (s : State) (h : Head) (flag : Nat) (k : Kind) (addr : Word) (g : Head) :
    (s.hedRaise h flag k addr).head g = s.head g := head_of_only (hedRaise_only h flag k addr) (by decide) g

theorem loseHead_in (s : State) (h : Head) : RegsIn [6] s (s.loseHead h) := by
  refine RegsIn.foldl (fun v r => ?_) _ _
  cases r.state with
  | printing => exact closeRec_in _ _
  | latched => exact closeRec_in _ _
  | created => exact RegsIn.refl _ _
  | final => exact RegsIn.refl _ _

/-! ### The change of PRESENT -/

/-- The accepted level of PRESENT. -/
def levelled (s : State) (h : Head) (level : Bool) : State := s.modHead h fun x => { x with level := level }

theorem levelled_own (s : State) (h : Head) (level : Bool) : (s.levelled h level).head h = { s.head h with level := level } :=
  modHead_head_same _ _ _

theorem levelled_presentNow (s : State) (h : Head) (level : Bool) :
    (s.levelled h level).presentNow h = decide (level = s.rbit (Reg.HED_ENABLE h) 1) := by
  rw [presentNow, levelled_own]
  rfl

theorem hedPresent_off {level : Bool} (off : (s.head h).state = .off) : s.hedPresent h level = s.levelled h level := by
  have state : ((s.modHead h fun x => { x with level := level }).head h).state = .off := by rw [modHead_head_same]; exact off
  unfold hedPresent
  dsimp only
  rw [state]
  rfl

theorem hedPresent_absent {level : Bool} (absent : (s.head h).state = .absent) : s.hedPresent h level =
    if (s.levelled h level).presentNow h = true then
      (if (s.head h).stepEnd.isSome = true then s.levelled h level
        else (s.levelled h level).hedTimer h (s.fld (Reg.HED_SETTLE h) 15 0))
    else (s.levelled h level).modHead h fun x => { x with stepEnd := none } := by
  have state : ((s.modHead h fun x => { x with level := level }).head h).state = .absent := by rw [modHead_head_same]; exact absent
  have step : ((s.modHead h fun x => { x with level := level }).head h).stepEnd = (s.head h).stepEnd := by rw [modHead_head_same]
  unfold hedPresent
  dsimp only
  rw [state, step]
  rfl

theorem hedPresent_lost {level : Bool} (off : (s.head h).state ≠ .off) (absent : (s.head h).state ≠ .absent)
    (gone : level ≠ s.rbit (Reg.HED_ENABLE h) 1) : s.hedPresent h level =
      (((s.levelled h level).hedRaise h 0 (Kind.hedAbsent h.val) 0).hedGo h .absent false false false).loseHead h := by
  have state : ((s.modHead h fun x => { x with level := level }).head h).state = (s.head h).state := by rw [modHead_head_same]
  have away : ¬ (s.levelled h level).presentNow h = true := by
    rw [levelled_presentNow, decide_eq_true_eq]
    exact gone
  unfold hedPresent
  dsimp only
  rw [state]
  split
  next none => exact absurd none off
  next none => exact absurd none absent
  · exact if_neg away

/-- The loss of a head (R443, R447). -/
theorem hedPresent_lost_spec {level : Bool} (off : (s.head h).state ≠ .off) (absent : (s.head h).state ≠ .absent)
    (gone : level ≠ s.rbit (Reg.HED_ENABLE h) 1) (up : s.unitInReset (18 + h.val) = false) :
    ((s.hedPresent h level).head h).state = .absent ∧ ((s.hedPresent h level).head h).hvEn = false ∧
      ((s.hedPresent h level).head h).headEn = false ∧ (s.hedPresent h level).rbit (Reg.HED_EVT h) 0 = true ∧
      (s.hedPresent h level).rbit Reg.FLT_PEND_A (18 + h.val) = true ∧
      Only (.hed :: (recordParts ++ messageParts)) s (s.hedPresent h level) := by
  have level_ : Only [.hed] s (s.levelled h level) := modHead_only _ _
  obtain ⟨flag, pend, -⟩ := hedRaise_spec (s := s.levelled h level) (k := Kind.hedAbsent h.val) rfl
    ((unitInReset_of_only level_ (by decide) _).trans up) (flag := 0) (by decide) 0
  have told := hedRaise_only (u := s.levelled h level) h 0 (Kind.hedAbsent h.val) 0
  rw [hedPresent_lost off absent gone]
  generalize (s.levelled h level).hedRaise h 0 (Kind.hedAbsent h.val) 0 = w at *
  have goes := hedGo_plain (s := w) h false false false (st := .absent) (by decide)
  have loses := loseHead_only (u := w.hedGo h .absent false false false) h
  have own : ((w.hedGo h .absent false false false).loseHead h).head h = moved (w.head h) .absent false false false :=
    (head_of_only loses (by decide) h).trans (hedGo_own _ _ _ _ _ _)
  have kept (b : Nat) (hb : b / 0x1000 ≠ 6) : ((w.hedGo h .absent false false false).loseHead h).reg b = w.reg b :=
    (loseHead_in _ h b (by simpa using hb)).trans (hedGo_reg w h _ _ _ _ b)
  rw [own]
  refine ⟨rfl, rfl, rfl, ?_, ?_, ((level_.mono (by decide)).trans (told.mono (by decide))).trans
    ((goes.mono (by decide)).trans (loses.mono (by decide)))⟩
  · rw [rbit, kept _ (by rw [hedEvt_block]; decide)]
    exact flag
  · rw [rbit, kept _ (by decide)]
    exact pend

/-! ### The measurement of the identity -/

theorem hedPower_spec (h : Head) (env : MemEnv) (state : (s.head h).state ≠ .parked) : Only [.order, .hed, .out] s (s.hedPower h env) ∧
    (s.hedPower h env).head h = { moved (s.head h) .power true false false with
      logicOn := false, stepEnd := some (s.tick + s.fld (Reg.HED_POWER h) 15 0 * 100000) } := by
  unfold hedPower
  dsimp only
  rw [decide_eq_false state, Bool.false_and, if_neg Bool.false_ne_true]
  refine ⟨((hedGo_plain h _ _ _ (by decide)).trans ((modHead_only _ _).mono (by decide))).trans ((hedTimer_only _ _).mono (by decide)), ?_⟩
  rw [hedTimer_own, modHead_head_same, hedGo_own, modHead_tick, hedGo_tick, fld, modHead_reg, hedGo_reg]
  rfl

theorem idCode_apart : ∀ h : Head, Reg.HED_ID_CODE h ≠ Reg.HED_ID h ∧ Reg.HED_ID_CODE h ≠ Reg.HED_POWER h ∧
    Reg.HED_ID_CODE h ≠ Reg.HED_EVT h ∧ Reg.HED_ID_CODE h / 0x1000 = 11 := by decide

/-- The measurement shows its code, and decides between POWER and MISMATCH (R445). -/
theorem identEnd_eq (s : State) (h : Head) (code : Nat) : s.identEnd h code =
    if s.fld (Reg.HED_ID h) 11 0 ≤ code ∧ code ≤ s.fld (Reg.HED_ID h) 27 16 then
      (s.setReg (Reg.HED_ID_CODE h) (word code)).hedPower h MemEnv.quiet
    else ((s.setReg (Reg.HED_ID_CODE h) (word code)).hedRaise h 1 (Kind.idMismatch h.val) (word code)).hedGo h .mismatch false false false := by
  have limits (hi lo : Nat) : (s.setReg (Reg.HED_ID_CODE h) (word code)).fld (Reg.HED_ID h) hi lo = s.fld (Reg.HED_ID h) hi lo := by
    rw [fld, setReg_reg_other _ _ _ _ (idCode_apart h).1, fld]
  unfold identEnd
  dsimp only
  rw [limits, limits]

/-! ### The end of `T_LOGIC` -/

theorem sendTrim_own (s : State) (h : Head) (env : MemEnv) :
    (s.sendTrim h env).head h = { s.head h with seq := (s.head h).seq + 1 } := by
  have sends (w : State) (f k : Nat) (c : List Nat) : (w.sendFrame h f k c).head h = { w.head h with seq := (w.head h).seq + 1 } :=
    modHead_head_same _ _ _
  unfold sendTrim
  split
  · exact sends _ _ _ _
  next e _ =>
    have noted : ((s.noteRead e).setFlag (Reg.HED_EVT h) 7).head h = s.head h := head_of_only (noteRead_only s e) (by decide) h
    rw [commit_head, sends, noted]

theorem hedPower_apart : ∀ h : Head, Reg.HED_EVT h ≠ Reg.HED_POWER h ∧ Reg.HED_POWER h / 0x1000 = 11 := by decide

/-- The trim frame leaves the port's times as they are. -/
theorem sendTrim_power (s : State) (h : Head) (env : MemEnv) : (s.sendTrim h env).reg (Reg.HED_POWER h) = s.reg (Reg.HED_POWER h) := by
  obtain ⟨apart, block⟩ := hedPower_apart h
  unfold sendTrim
  split
  · rfl
  next e _ =>
    have noted : RegsIn [4, 15] s (s.noteRead e) := noteRead_rel (.regsIn (by decide)) (fun _ r => (readNoted_in r).mono (by decide)) s e
    exact (setFlag_reg_other _ _ _ _ apart).trans (noted _ (by rw [block]; decide))

/-- The end of `T_LOGIC` (R443, R452, R455): CK runs `d_em` later, the trim frame has left, and `T_HV` runs. -/
theorem logicEnd_own (s : State) (h : Head) (env : MemEnv) : (s.logicEnd h env).head h =
    { s.head h with logicOn := true, ckStart := some (s.tick + 4), fLast := none, seq := 1, hvEn := true,
                    stepEnd := some (s.tick + s.fld (Reg.HED_POWER h) 31 16 * 100000) } := by
  have tick : ((s.startCk h).sendTrim h env).tick = s.tick := (sendTrim_only h env).part .tick (by decide)
  have power : ((s.startCk h).sendTrim h env).fld (Reg.HED_POWER h) 31 16 = s.fld (Reg.HED_POWER h) 31 16 := by
    rw [fld, sendTrim_power]
    rfl
  have sent := sendTrim_own (s.startCk h) h env
  rw [startCk, modHead_head_same] at sent
  unfold logicEnd
  dsimp only
  rw [startCk] at tick power ⊢
  generalize sendTrim _ h env = w at *
  rw [commit_head, hedTimer_own, modHead_head_same]
  change { w.head h with hvEn := true, stepEnd := some (w.tick + w.fld (Reg.HED_POWER h) 31 16 * 100000) } = _
  rw [sent, tick, power]
  rfl

/-- The timed step of a head port ends. -/
theorem hedStep_some {st : HedState} {d : Nat} (state : (s.head h).state = st) (ends : (s.head h).stepEnd = some d) {logic : Bool}
    (on : (s.head h).logicOn = logic) : s.hedStep h st logic = some d := (if_pos ⟨state, on⟩).trans ends

theorem advanceTo_head (s : State) (d : Nat) (g : Head) : (s.advanceTo d).head g = s.head g := head_of_only (advanceTo_only d) (by decide) g

end State

/-- Settles O56: the writes of the owner act on the state that their commit leaves, the timed steps on that of their tick, and each step's
own lemma says where it takes the port. -/
theorem headPortsPowerUp : Obligations.HeadPortsPowerUp := by
  intro s h x there ends
  refine ⟨fun o off granted => ?_, fun o on granted => ?_, fun level ticks => ⟨fun off => ?_, fun absent => ?_, fun off absent gone up => ?_⟩,
    fun d step => ?_, fun d c0 c1 c2 c3 step => ?_, fun o id mismatch granted => ?_, fun d env step => ?_, fun o fault granted => ?_⟩
  · obtain ⟨v, w, run, set, enabled, polarity, regs, only⟩ := State.hedEnableTo_granted true granted
    have heads (g : Head) : v.head g = s.head g := State.head_of_only only (by decide) g
    have settles : v.fld (Reg.HED_SETTLE h) 15 0 = s.fld (Reg.HED_SETTLE h) 15 0 := by
      rw [State.fld, regs _ (by simp [Reg.HED_SETTLE, Reg.HED_ENABLE]), State.fld]
    have present : v.presentNow h = s.presentNow h := by rw [State.presentNow, heads, polarity, State.presentNow]
    have acts : State.enableHead s v h w = v.hedAbsent h := if_pos (by rw [set, heads, decide_eq_true off]; rfl)
    obtain ⟨goes, own, others⟩ := State.hedAbsent_spec v h
    have reg (b : Nat) : (v.hedAbsent h).reg b = v.reg b := congrArg (fun r => Tab.get regReset r b) (goes.part .regs (by decide))
    rw [acts] at run
    rw [present, settles, only.part .tick (by decide)] at own
    refine ⟨_, run, by rw [own]; rfl, by rw [State.rbit, reg]; exact enabled, by rw [own], by rw [own]; rfl, by rw [own]; rfl,
      fun g hg => (others g hg).trans (heads g), fun b hb => (reg b).trans (regs b fun e => hb (e ▸ List.mem_singleton_self _)),
      (only.mono (by decide)).trans (goes.mono (by decide))⟩
  · obtain ⟨v, w, run, set, enabled, -, regs, only⟩ := State.hedEnableTo_granted false granted
    have heads (g : Head) : v.head g = s.head g := State.head_of_only only (by decide) g
    have acts : State.enableHead s v h w = v.hedGo h .off false false false :=
      (if_neg (by rw [set, Bool.false_and]; decide)).trans (if_pos (by rw [set, heads, decide_eq_true on]; rfl))
    have goes := State.hedGo_plain (s := v) h false false false (st := .off) (by decide)
    have own := State.hedGo_own v h .off false false false
    have reg (b : Nat) : (v.hedGo h .off false false false).reg b = v.reg b := State.hedGo_reg v h _ _ _ _ b
    rw [acts] at run
    exact ⟨_, run, by rw [own]; rfl, by rw [State.rbit, reg]; exact enabled, by rw [own]; rfl, by rw [own]; rfl, by rw [own]; rfl,
      fun g hg => (State.hedGo_other v hg _ _ _ _).trans (heads g), fun b hb => (reg b).trans (regs b fun e => hb (e ▸ List.mem_singleton_self _)),
      (only.mono (by decide)).trans (goes.mono (by decide))⟩
  · have run : exec (.headPresentChange h level false) s = .next (s.after (s.hedPresent h level)) := State.pinEvent_next ticks _ _
    rw [State.hedPresent_off off] at run
    exact ⟨_, run, State.levelled_own _ _ _, State.modHead_only _ _⟩
  · have run : exec (.headPresentChange h level false) s = .next (s.after (s.hedPresent h level)) := State.pinEvent_next ticks _ _
    have own := State.levelled_own s h level
    have keeps : Only [.hed] s (s.levelled h level) := State.modHead_only _ _
    have present : (s.levelled h level).presentNow h = true ↔ there level := by rw [State.levelled_presentNow, decide_eq_true_eq]
    rw [State.hedPresent_absent absent] at run
    refine ⟨_, run, ?_, fun here idle => ?_, fun gone => ?_⟩
    · exact only_ite (only_ite keeps (keeps.trans (State.hedTimer_only _ _))) (keeps.trans (State.modHead_only _ _))
    · rw [if_pos (present.mpr here), if_neg (by rw [show (s.head h).stepEnd = none from idle]; decide), State.hedTimer_own, own]
      rfl
    · rw [if_neg fun k => gone (present.mp k), State.modHead_head_same, own]
  · have run : exec (.headPresentChange h level false) s = .next (s.after (s.hedPresent h level)) := State.pinEvent_next ticks _ _
    exact ⟨_, run, State.hedPresent_lost_spec off absent gone up⟩
  · obtain ⟨ticks, state, due⟩ := step
    have run : exec (.presSettleEnd h) s = .next (s.after ((s.advanceTo d).hedIdent h)) :=
      State.timed_next ticks (State.hedStep_some state due rfl) _
    obtain ⟨goes, own⟩ := State.hedIdent_spec (s.advanceTo d) h
    rw [State.advanceTo_tick ticks] at own
    exact ⟨_, run, by rw [own]; rfl, by rw [own], goes⟩
  · obtain ⟨ticks, state, due⟩ := step
    intro t code
    have run : exec (.identEnd h c0 c1 c2 c3) s = .next (s.after (t.identEnd h code)) :=
      State.timed_next ticks (State.hedStep_some state due rfl) _
    have ident : (t.head h).state = .ident := (congrArg HedSt.state (State.advanceTo_head s d h)).trans state
    obtain ⟨-, power, event, block⟩ := State.idCode_apart h
    have shown := State.setReg_reg_same t (Reg.HED_ID_CODE h) (word code)
    have wrote : Only [.regs] t (t.setReg (Reg.HED_ID_CODE h) (word code)) := State.setReg_only _ _
    rw [State.identEnd_eq] at run
    refine ⟨fun low high => ?_, fun out up => ?_⟩
    · rw [if_pos ⟨low, high⟩] at run
      obtain ⟨goes, own⟩ := State.hedPower_spec (s := t.setReg (Reg.HED_ID_CODE h) (word code)) h MemEnv.quiet (fun parked =>
        HedState.noConfusion (ident.symm.trans parked))
      have reg (b : Nat) : ((t.setReg (Reg.HED_ID_CODE h) (word code)).hedPower h MemEnv.quiet).reg b =
          (t.setReg (Reg.HED_ID_CODE h) (word code)).reg b := congrArg (fun r => Tab.get regReset r b) (goes.part .regs (by decide))
      rw [State.setReg_tick, State.fld, State.setReg_reg_other _ _ _ _ power] at own
      refine ⟨_, run, by rw [own]; rfl, by rw [own]; rfl, by rw [own]; rfl, by rw [own]; rfl, (reg _).trans shown, fun b hb => ?_,
        (wrote.mono (by decide)).trans (goes.mono (by decide))⟩
      exact (reg b).trans (State.setReg_reg_other _ _ _ _ fun e => hb (e ▸ List.mem_singleton_self _))
    · rw [if_neg (by omega)] at run
      obtain ⟨flag, pend, regs⟩ := State.hedRaise_spec (s := t.setReg (Reg.HED_ID_CODE h) (word code)) (k := Kind.idMismatch h.val) rfl
        ((State.unitInReset_of_only wrote (by decide) _).trans up) (flag := 1) (by decide) (word code)
      have told := State.hedRaise_only (u := t.setReg (Reg.HED_ID_CODE h) (word code)) h 1 (Kind.idMismatch h.val) (word code)
      have code_ := (regs (Reg.HED_ID_CODE h) (by rw [block]; decide) event).trans shown
      generalize (t.setReg (Reg.HED_ID_CODE h) (word code)).hedRaise h 1 (Kind.idMismatch h.val) (word code) = w at *
      have goes := State.hedGo_plain (s := w) h false false false (st := .mismatch) (by decide)
      have reg (b : Nat) : (w.hedGo h .mismatch false false false).reg b = w.reg b := State.hedGo_reg w h _ _ _ _ b
      exact ⟨_, run, by rw [State.hedGo_own]; rfl, by rw [State.rbit, reg]; exact flag, by rw [State.rbit, reg]; exact pend,
        (reg _).trans code_, ((wrote.mono (by decide)).trans (told.mono (by decide))).trans (goes.mono (by decide))⟩
  · obtain ⟨v, run, low, high, regs, only⟩ := State.hedId_granted granted
    obtain ⟨goes, own⟩ := State.hedIdent_spec v h
    have reg (b : Nat) : (v.hedIdent h).reg b = v.reg b := congrArg (fun r => Tab.get regReset r b) (goes.part .regs (by decide))
    rw [if_pos ((congrArg HedSt.state (State.head_of_only only (by decide) h)).trans mismatch)] at run
    rw [only.part .tick (by decide)] at own
    exact ⟨_, run, by rw [own]; rfl, by rw [own], by rw [State.fld, reg]; exact low, by rw [State.fld, reg]; exact high,
      fun b hb => (reg b).trans (regs b fun e => hb (e ▸ List.mem_singleton_self _)), (only.mono (by decide)).trans (goes.mono (by decide))⟩
  · obtain ⟨ticks, state, due⟩ := step
    intro t
    have same : t.head h = s.head h := State.advanceTo_head s d h
    refine ⟨fun off => ?_, fun on => ?_⟩
    · have run : exec (.tLogicEnd h env) s = .next (s.after (t.logicEnd h env)) := State.timed_next ticks (State.hedStep_some state due off) _
      have own := State.logicEnd_own t h env
      rw [same] at own
      exact ⟨_, run, by rw [own]; exact state, by rw [own], by rw [own], by rw [own], by rw [own], by rw [own], (State.logicEnd_only h env).mono (by decide)⟩
    · have run : exec (.tHvEnd h) s = .next (s.after (t.hedToReady h)) := State.timed_next ticks (State.hedStep_some state due on) _
      obtain ⟨goes, own, -, waits, flag, regs⟩ := State.hedToReady_spec t h
      rw [same] at own
      exact ⟨_, run, by rw [own]; rfl, by rw [own]; rfl, by rw [own]; rfl, by rw [own]; rfl, waits, flag, regs, goes⟩
  · obtain ⟨v, run, regs, only⟩ := State.hedRestart_granted fault granted
    obtain ⟨goes, own, others, -, flag, kept⟩ := State.hedToReady_spec v h
    exact ⟨_, run, by rw [own]; rfl, flag, fun g hg => (others g hg).trans (State.head_of_only only (by decide) g),
      fun b hb => (kept b hb).trans (regs b), (only.mono (by decide)).trans goes⟩

end Sys2Proof.Machine
end

section
/-! ## The heater of a head -/

namespace Sys2Proof.Machine
namespace State

variable {s t u v : State} {o : OpCtx} {env : OpEnv} {h : Head} {k : Kind} {st : HeatState}

/-! ### Messages of head health -/

theorem hltEvt_block : ∀ h : Head, Reg.HLT_EVT h / 0x1000 = 12 := by decide

/-- A HLT message is told, and its source is pending (R462, R487). -/
def hltPends (u : State) (h : Head) (flag : Nat) : Prop :=
  u.rbit (Reg.HLT_EVT h) flag = true ∧ u.rbit Reg.FLT_PEND_A (22 + h.val) = true

/-- A HLT message changes its flag and the registers of the collector only. -/
theorem hltRaise_reg (src : k.src = 22 + h.val) (flag : Nat) (addr : Word) {b : Nat} (hb : b / 0x1000 ≠ 4) (hn : b ≠ Reg.HLT_EVT h) :
    (s.hltRaise h flag k addr).reg b = s.reg b := by
  unfold hltRaise
  split
  · rfl
  · exact (raiseN_in 12 _ k addr (some h) (by omega) b (by simpa using hb)).trans (setFlag_reg_other _ _ _ _ (Ne.symm hn))

/-- A HLT message clears no flag and no pending bit. -/
theorem hltRaise_stays (src : k.src = 22 + h.val) (flag : Nat) (addr : Word) {b : Nat} (hb : b = Reg.HLT_EVT h ∨ b = Reg.FLT_PEND_A) :
    FlagsStay b s (s.hltRaise h flag k addr) := by
  have small : k.src < 36 := by omega
  have flagged : FlagsStay b s (s.setFlag (Reg.HLT_EVT h) flag) := FlagsStay.set (.of_reg rfl) _ _
  unfold hltRaise
  split
  · exact .of_reg rfl
  · refine flagged.trans ?_
    rcases hb with rfl | rfl
    · exact .of_reg (raiseN_in 12 _ k addr (some h) small _ (by rw [hltEvt_block]; decide))
    · exact pends_raiseN (by decide) k addr (some h) small

theorem hltPends_stays {flag : Nat} (hf : flag < 28) (pends : s.hltPends h flag)
    (stays : ∀ b, b = Reg.HLT_EVT h ∨ b = Reg.FLT_PEND_A → FlagsStay b s t) : t.hltPends h flag :=
  ⟨stays _ (.inl rfl) flag hf pends.1, stays _ (.inr rfl) _ (by omega) pends.2⟩

/-- A HLT message of a unit that is not in reset sets its flag, and is pending. -/
theorem hltRaise_pends (src : k.src = 22 + h.val) (up : s.unitInReset (22 + h.val) = false) {flag : Nat} (hf : flag < 28) (addr : Word) :
    (s.hltRaise h flag k addr).hltPends h flag := by
  have small : k.src < 36 := by omega
  have up' : (s.setFlag (Reg.HLT_EVT h) flag).unitInReset k.src = false := by
    rw [src]
    exact (unitInReset_of_only (setFlag_only _ _) (by decide) _).trans up
  have eq : s.hltRaise h flag k addr = raiseN 12 (s.setFlag (Reg.HLT_EVT h) flag) k addr (some h) := by
    unfold hltRaise
    rw [up]
    rfl
  rw [eq]
  refine ⟨?_, ?_⟩
  · rw [rbit_of_regsIn (raiseN_in 12 _ k addr (some h) small) _ _ (by rw [hltEvt_block]; decide)]
    exact setFlag_rbit_same _ _ hf
  · have pend := raiseN_pending 11 k addr (some h) small up'
    rwa [if_pos (by omega), src] at pend

theorem hltRaise_health (flag : Nat) (addr : Word) (g : Head) : (s.hltRaise h flag k addr).health g = s.health g :=
  health_of_only (hltRaise_only h flag k addr) (by decide) g

/-! ### Transitions of the heater -/

/-- A heater that has made a transition (R464). -/
def heated (x : HltSt) (st : HeatState) (duty : Nat) : HltSt :=
  { x with heat := st, duty := duty, dutyNext := duty, band := if st = .regulating then x.band else false,
           freeze := if st = .warming ∨ st = .regulating then x.freeze else none, hold := if st = .holding then x.hold else none }

theorem heatGo_eq (s : State) (h : Head) (st : HeatState) (duty : Nat) : s.heatGo h st duty =
    ((if (s.health h).heat = .warming ∧ st ≠ .warming then s.debitAll (.warm h) else s).modHealth h fun x => heated x st duty).commit := rfl

theorem heatGo_health (s : State) (h : Head) (st : HeatState) (duty : Nat) : (s.heatGo h st duty).health h = heated (s.health h) st duty := by
  rw [heatGo_eq, commit_health, modHealth_health_same]
  split
  · rw [health_of_only (debitAll_only _) (by decide)]
  · rfl

theorem heatGo_reg (s : State) (h : Head) (st : HeatState) (duty b : Nat) : (s.heatGo h st duty).reg b = s.reg b :=
  (heatGo_only h st duty).regsIn (by decide) b (by simp)

/-- A heater that does not leave WARMING debits nothing. -/
theorem heatGo_plain (duty : Nat) (cold : (s.health h).heat ≠ .warming) : Only [.order, .hlt] s (s.heatGo h st duty) := by
  rw [heatGo_eq, if_neg fun k => cold k.1]
  exact (only_commit (by decide)).2 ((modHealth_only _ _).mono (by decide))

/-! ### The start of the heater -/

/-- What a start of the heater leads to (R464, R470). -/
def HeatStarts (s u : State) (h : Head) : Prop :=
  Only ([.energy, .hlt] ++ messageParts) s u ∧ (s.heatAllowed h = false → (u.health h).heat = .paused ∧ (u.health h).duty = 0) ∧
    (s.heatAllowed h = true → s.wouldGrant false (s.reg (Reg.HLT_EWARM h)).toNat = true → (u.health h).heat = .warming ∧
      (u.health h).warmAt = s.tick ∧ (u.health h).acc = 0 ∧ ⟨.warm h, (s.reg (Reg.HLT_EWARM h)).toNat⟩ ∈ u.pwr.live)

/-- The warm-up where its reservation is granted. -/
def warmed (s : State) (h : Head) : State :=
  (((s.grant (.warm h) (s.reg (Reg.HLT_EWARM h)).toNat).heatGo h .warming 0).modHealth h fun x => { x with acc := 0, warmAt := s.tick }).startFreeze h

theorem requestWarm_eq (s : State) (h : Head) :
    s.requestWarm h = if s.wouldGrant false (s.reg (Reg.HLT_EWARM h)).toNat then s.warmed h else s.refuse none := rfl

theorem warmed_only (s : State) (h : Head) : Only [.energy, .order, .hlt] s (s.warmed h) := by
  unfold warmed startFreeze
  simp (disch := decide) [Only.step (heatGo_only _ _ _), Only.step (grant_only _ _)]

theorem requestWarm_only (s : State) (h : Head) : Only ([.energy, .hlt] ++ messageParts) s (s.requestWarm h) := by
  rw [requestWarm_eq]
  exact only_ite ((warmed_only s h).mono (by decide)) ((refuse_only s none).mono (by decide))

theorem grant_health (s : State) (w : ResFor) (e : Nat) (g : Head) : (s.grant w e).health g = s.health g :=
  health_of_only (grant_only w e) (by decide) g

theorem warmed_health (s : State) (h : Head) : ((s.warmed h).health h).heat = .warming ∧ ((s.warmed h).health h).warmAt = s.tick ∧
    ((s.warmed h).health h).acc = 0 := by
  unfold warmed startFreeze
  rw [modHealth_health_same, modHealth_health_same, heatGo_health]
  exact ⟨rfl, rfl, rfl⟩

theorem warmed_live (cold : (s.health h).heat ≠ .warming) : ⟨.warm h, (s.reg (Reg.HLT_EWARM h)).toNat⟩ ∈ (s.warmed h).pwr.live := by
  have plain : Only [.order, .hlt] (s.grant (.warm h) (s.reg (Reg.HLT_EWARM h)).toNat) (s.warmed h) := by
    unfold warmed startFreeze
    have goes := heatGo_plain (s := s.grant (.warm h) (s.reg (Reg.HLT_EWARM h)).toNat) (st := .warming) 0 (by rw [grant_health]; exact cold)
    exact goes.trans (((modHealth_only _ _).trans (modHealth_only _ _)).mono (by decide))
  rw [pwr_of_only plain (by decide) (by decide)]
  exact List.mem_append_right _ (List.mem_singleton_self _)

/-- A heater that is not warming starts (R464). -/
theorem heatStart_starts (cold : (s.health h).heat ≠ .warming) : HeatStarts s (s.heatStart h) h := by
  have waits : Only [.order, .hlt] s ((s.heatGo h .energyWait 0).modHealth h fun x => { x with good := [] }) :=
    (heatGo_plain 0 cold).trans ((modHealth_only _ _).mono (by decide))
  have heat : (((s.heatGo h .energyWait 0).modHealth h fun x => { x with good := [] }).health h).heat = .energyWait := by
    rw [modHealth_health_same, heatGo_health]
    rfl
  unfold heatStart heatWait
  generalize (s.heatGo h .energyWait 0).modHealth h (fun x => { x with good := [] }) = w at *
  have energy : w.reg (Reg.HLT_EWARM h) = s.reg (Reg.HLT_EWARM h) := waits.regsIn (by decide) _ (by simp)
  refine ⟨only_ite ((waits.mono (by decide)).trans (requestWarm_only w h)) ((heatGo_plain 0 cold).mono (by decide)), fun barred => ?_,
    fun allowed grants => ?_⟩
  · rw [if_neg (by rw [barred]; decide), heatGo_health]
    exact ⟨rfl, rfl⟩
  · have granted : w.wouldGrant false (w.reg (Reg.HLT_EWARM h)).toNat = true := by
      rw [energy, wouldGrant_congr (pwr_of_only waits (by decide) (by decide)) (waits.regsIn (by decide)) (by decide)]
      exact grants
    obtain ⟨warms, at_, zero⟩ := warmed_health w h
    rw [if_pos allowed, requestWarm_eq, if_pos granted]
    refine ⟨warms, at_.trans (waits.part .tick (by decide)), zero, ?_⟩
    rw [← energy]
    exact warmed_live (by rw [heat]; decide)

/-- A start from a state that differs in what a granted write places only. -/
theorem HeatStarts.of_written (starts : HeatStarts v u h) (only : Only [.order, .regs] s v)
    (energy : v.reg (Reg.HLT_EWARM h) = s.reg (Reg.HLT_EWARM h)) (blocks : RegsIn [12] s v) : HeatStarts s u h := by
  obtain ⟨parts, paused, warms⟩ := starts
  have allowed : v.heatAllowed h = s.heatAllowed h := by
    rw [heatAllowed, heatAllowed, head_of_only only (by decide), pwr_of_only only (by decide) (by decide)]
  have grants (e : Nat) : v.wouldGrant false e = s.wouldGrant false e := wouldGrant_congr (pwr_of_only only (by decide) (by decide)) blocks (by decide) _ _
  rw [allowed] at paused warms
  rw [energy, grants, only.part .tick (by decide)] at warms
  exact ⟨(only.mono (by decide)).trans parts, paused, warms⟩

/-! ### Commands -/

theorem hltCtrl_masks : ∀ h : Head, rwMask (Reg.HLT_CTRL h) = 7 ∧ w1gMask (Reg.HLT_CTRL h) = 0 ∧ ownAction (Reg.HLT_CTRL h) = true ∧
    (regAt (Reg.HLT_CTRL h)).isSome = true ∧ inst4 (Reg.HLT_CTRL h) 0xC000 0x100 = h := by decide

theorem hltCmd_masks : ∀ h : Head, rwMask (Reg.HLT_CMD h) = 0 ∧ w1gMask (Reg.HLT_CMD h) = 0 ∧ ownAction (Reg.HLT_CMD h) = true ∧
    inst4 (Reg.HLT_CMD h) 0xC000 0x100 = h := by decide

theorem hltCtrl_readReg (s : State) (h : Head) : s.readReg (Reg.HLT_CTRL h) = s.reg (Reg.HLT_CTRL h) := by
  obtain ⟨-, -, -, mapped, -⟩ := hltCtrl_masks h
  have place : Reg.HLT_CTRL h / 0x1000 = 12 ∧ Reg.HLT_CTRL h < 0xC400 ∧ Reg.HLT_CTRL h % 0x100 = 0 := by simp only [Reg.HLT_CTRL]; omega
  have plain : s.derived (Reg.HLT_CTRL h) = none := by
    unfold derived
    rw [place.1]
    refine (if_pos place.2.1).trans ?_
    rw [place.2.2]
    rfl
  rw [readReg, if_pos mapped, plain]

/-- What a write of `HLT_CTRL_Hn` does (R464, R482). -/
theorem healthEffect_ctrl {a : Nat} {w : Word} {g : Head} (v : State) (gates : Vector (BitVec 12) 4) (place : a % 0x100 = 0)
    (head : inst4 a 0xC000 0x100 = g) : healthEffect s v gates a w =
      if (bit w 0 != s.rbit a 0) = true then
        (if bit w 2 && !s.rbit a 2 then v.modHealth g fun x => { x with idleFrom := v.tick, spat := false } else v).heatEnable g (bit w 0)
      else if bit w 2 && !s.rbit a 2 then v.modHealth g fun x => { x with idleFrom := v.tick, spat := false } else v := by
  subst head
  unfold healthEffect
  rw [place]
  rfl

/-- What a command of head health does (R464, R474, R481). -/
theorem healthEffect_cmd {a : Nat} {w : Word} {g : Head} (v : State) (gates : Vector (BitVec 12) 4) (place : a % 0x100 = 4)
    (head : inst4 a 0xC000 0x100 = g) : healthEffect s v gates a w =
      if bit w 0 then v.heatRestart g else if bit w 1 then v.startScan g gates[g].toNat else if bit w 2 then v.mapLoad g else v.saveMap g := by
  subst head
  unfold healthEffect
  rw [place]
  rfl

/-- A granted write of `HEAT_EN` that changes it (R464): the heater follows it, and no other register changes. -/
theorem heaterEnable_granted {on : Bool} (changes : s.rbit (Reg.HLT_CTRL h) 0 = !on)
    (granted : s.Granted o OpEnv.quiet (Reg.HLT_CTRL h) [s.keeping (Reg.HLT_CTRL h) 0 0 (b2n on)]) :
    ∃ v : State, exec (.heaterEnable o h on) s = .next (s.written o (v.heatEnable h on)) ∧ v.rbit (Reg.HLT_CTRL h) 0 = on ∧
      (∀ b, b ≠ Reg.HLT_CTRL h → v.reg b = s.reg b) ∧ Only [.order, .regs] s v := by
  obtain ⟨fields, flagless, own, mapped, head⟩ := hltCtrl_masks h
  have place : 0xC000 ≤ Reg.HLT_CTRL h ∧ Reg.HLT_CTRL h < 0xC400 ∧ Reg.HLT_CTRL h % 0x100 = 0 := by
    simp only [Reg.HLT_CTRL]
    omega
  have reads := hltCtrl_readReg s h
  have value : (b2n on).testBit 0 = on := by cases on <;> rfl
  obtain ⟨placed, set⟩ := keeping_bit_set (s := s) (a := Reg.HLT_CTRL h) (n := 0) (x := b2n on) (by decide) (by rw [fields]; decide)
  rw [value] at placed set
  have spits : bit (s.keeping (Reg.HLT_CTRL h) 0 0 (b2n on)) 2 = s.rbit (Reg.HLT_CTRL h) 2 := by
    rw [bit_keeping _ _ _ _ _ (by decide), if_neg (by decide), reads, fields, show bit (7 : Word) 2 = true by decide, Bool.and_true, rbit]
  have still : ¬ (s.rbit (Reg.HLT_CTRL h) 2 && !s.rbit (Reg.HLT_CTRL h) 2) = true := by rw [Bool.and_not_self]; exact Bool.false_ne_true
  have moves : (on != !on) = true := by cases on <;> rfl
  obtain ⟨v, run, reg, regs, only⟩ := headSetting_granted granted (by omega) (by omega) (by omega) own (by rw [fields]; decide) flagless
  rw [effect_blockHlt v place.1 place.2.1, healthEffect_ctrl v _ place.2.2 head, spits, set, changes, if_neg still, if_pos moves] at run
  exact ⟨v, run, by rw [rbit, reg, placed], regs, only⟩

/-- A granted command of head health. -/
theorem hltCommand_granted {k : Nat} (live : bit (word (2 ^ k)) 0 = true → (s.health h).heat = .tripped)
    (granted : s.Granted o env (Reg.HLT_CMD h) [word (2 ^ k)]) :
    ∃ v : State, s.finish (s.hltCommand o h k env) = .next (s.written o (healthEffect s v env.gates (Reg.HLT_CMD h) (word (2 ^ k)))) ∧
      (∀ b, v.reg b = s.reg b) ∧ Only [.order, .regs] s v := by
  obtain ⟨fieldless, flagless, own, head⟩ := hltCmd_masks h
  have place : 0xC000 ≤ Reg.HLT_CMD h ∧ Reg.HLT_CMD h < 0xC400 ∧ Reg.HLT_CMD h % 0x100 = 4 := by
    simp only [Reg.HLT_CMD]
    omega
  have runs : s.moot (Reg.HLT_CMD h, word (2 ^ k)) = false := by
    rw [moot_trigger (by omega) (by omega) (by omega) fieldless flagless, mootCommand, if_neg (by omega), if_neg (by omega),
      if_neg (by omega), if_pos ⟨place.1, place.2.1⟩, head]
    cases set : bit (word (2 ^ k)) 0 with
    | false => rfl
    | true => rw [live set]; rfl
  obtain ⟨v, run, regs, only⟩ := command_granted granted (by omega) own fieldless flagless runs
  exact ⟨v, run.trans (by rw [effect_blockHlt v place.1 place.2.1]), regs, only⟩

/-- What each command of head health does (R464, R474, R481). -/
theorem healthEffect_command (v : State) (gates : Vector (BitVec 12) 4) (h : Head) :
    healthEffect s v gates (Reg.HLT_CMD h) (word (2 ^ 0)) = v.heatRestart h ∧
    healthEffect s v gates (Reg.HLT_CMD h) (word (2 ^ 1)) = v.startScan h gates[h].toNat ∧
    healthEffect s v gates (Reg.HLT_CMD h) (word (2 ^ 2)) = v.mapLoad h ∧ healthEffect s v gates (Reg.HLT_CMD h) (word (2 ^ 3)) = v.saveMap h := by
  obtain ⟨-, -, -, head⟩ := hltCmd_masks h
  have place : Reg.HLT_CMD h % 0x100 = 4 := by
    simp only [Reg.HLT_CMD]
    omega
  simp only [healthEffect_cmd v gates place head]
  exact ⟨if_pos (by decide), (if_neg (by decide)).trans (if_pos (by decide)),
    (if_neg (by decide)).trans ((if_neg (by decide)).trans (if_pos (by decide))),
    (if_neg (by decide)).trans ((if_neg (by decide)).trans (if_neg (by decide)))⟩

/-- A granted `HEAT_RESTART` (R464). -/
theorem heatRestart_granted (trips : (s.health h).heat = .tripped) (granted : s.Granted o OpEnv.quiet (Reg.HLT_CMD h) [word 1]) :
    ∃ v : State, exec (.heatRestart o h) s = .next (s.written o (v.heatStart h)) ∧ (∀ b, v.reg b = s.reg b) ∧ Only [.order, .regs] s v := by
  obtain ⟨v, run, regs, only⟩ := hltCommand_granted (k := 0) (fun _ => trips) granted
  refine ⟨v, run.trans ?_, regs, only⟩
  rw [(healthEffect_command v _ h).1, heatRestart, health_of_only only (by decide), trips, if_pos rfl]

end State
end Sys2Proof.Machine
end

section
/-! ## The loop of a heater in time -/

namespace Sys2Proof.Machine
namespace State

variable {s t u v : State} {h : Head} {k : Kind}

/-! ### What a loop period may change -/

/-- A step of the loop changes the heater, the port's scale and what messages change, and leaves the converted temperature (R465). -/
structure LoopActs (h : Head) (s t : State) : Prop where
  only : Only ([.energy, .hed, .hlt] ++ messageParts) s t
  temp : t.reg (Reg.HLT_TEMP h) = s.reg (Reg.HLT_TEMP h)

namespace LoopActs

theorem refl (s : State) : LoopActs h s s := ⟨Only.refl _ _, rfl⟩

theorem trans (a : LoopActs h s t) (b : LoopActs h t u) : LoopActs h s u := ⟨a.only.trans b.only, b.temp.trans a.temp⟩

theorem ite {c : Prop} [Decidable c] (a : LoopActs h s t) (b : LoopActs h s u) : LoopActs h s (if c then t else u) := by
  split
  · exact a
  · exact b

/-- A step that changes no register. -/
theorem of_only (o : Only [.energy, .order, .hed, .hlt] s t) : LoopActs h s t := ⟨o.mono (by decide), o.regsIn (by decide) _ (by simp)⟩

theorem modHealth (s : State) (f : HltSt → HltSt) : LoopActs h s (s.modHealth h f) := of_only ((modHealth_only _ _).mono (by decide))

theorem commit (s : State) : LoopActs h s s.commit := of_only (only_commit (by decide) |>.2 (Only.refl _ _))

theorem heatGo (s : State) (st : HeatState) (duty : Nat) : LoopActs h s (s.heatGo h st duty) := of_only ((heatGo_only h st duty).mono (by decide))

theorem setReg (s : State) {a : Nat} (v : Word) (ha : a ≠ Reg.HLT_TEMP h) : LoopActs h s (s.setReg a v) :=
  ⟨(setReg_only a v).mono (by decide), setReg_reg_other _ _ _ _ ha⟩

theorem setFlag (s : State) (n : Nat) : LoopActs h s (s.setFlag (Reg.HLT_EVT h) n) :=
  ⟨(setFlag_only _ n).mono (by decide), setFlag_reg_other _ _ _ _ (by simp only [Reg.HLT_EVT, Reg.HLT_TEMP]; omega)⟩

theorem hltRaise (src : k.src = 22 + h.val) (s : State) (flag : Nat) (addr : Word) : LoopActs h s (s.hltRaise h flag k addr) :=
  ⟨(hltRaise_only h flag k addr).mono (by decide),
    hltRaise_reg src flag addr (by simp only [Reg.HLT_TEMP]; omega) (by simp only [Reg.HLT_EVT, Reg.HLT_TEMP]; omega)⟩

end LoopActs

/-! ### The steps of a loop period -/

theorem refuse_in (s : State) : RegsIn [3, 4] s (s.refuse none) := by
  unfold refuse
  dsimp only
  split
  · rw [regsIn_raise _ _ ⟨by decide, by decide⟩, regsIn_setFlag _ _ (by decide)]
    exact (regsIn_bump _ (by decide)).2 (RegsIn.refl _ _)
  · exact (regsIn_bump _ (by decide)).2 (RegsIn.refl _ _)

theorem hltTemp_block : ∀ h : Head, Reg.HLT_TEMP h / 0x1000 = 12 := by decide

theorem requestWarm_in (s : State) (h : Head) : RegsIn [3, 4] s (s.requestWarm h) := by
  rw [requestWarm_eq]
  split
  · exact ((warmed_only s h).regsIn (by decide)).mono (by decide)
  · exact refuse_in s

theorem heatStart_in (s : State) (h : Head) : RegsIn [3, 4] s (s.heatStart h) := by
  have goes (st : HeatState) : RegsIn [3, 4] s (s.heatGo h st 0) := fun b _ => heatGo_reg s h st 0 b
  unfold heatStart heatWait
  split
  · exact ((regsIn_modHealth _ _).2 (goes _)).trans (requestWarm_in _ h)
  · exact goes _

theorem requestWarm_acts (s : State) (h : Head) : LoopActs h s (s.requestWarm h) :=
  ⟨(requestWarm_only s h).mono (by decide), requestWarm_in s h _ (by rw [hltTemp_block]; decide)⟩

theorem startFreeze_acts (s : State) (h : Head) : LoopActs h s (s.startFreeze h) := .modHealth _ _

theorem slideFreeze_acts (s : State) (h : Head) : LoopActs h s (s.slideFreeze h) := by
  unfold slideFreeze
  dsimp only
  split
  · exact startFreeze_acts _ _
  · exact .ite (startFreeze_acts _ _) (.refl s)

theorem slideFreeze_health (s : State) (h : Head) : ∃ f, (s.slideFreeze h).health h = { s.health h with freeze := f } := by
  unfold slideFreeze
  dsimp only
  split
  · exact ⟨_, modHealth_health_same _ _ _⟩
  · split
    · exact ⟨_, modHealth_health_same _ _ _⟩
    · exact ⟨_, rfl⟩

theorem loopDuty_eq (s : State) (h : Head) : s.loopDuty h = (s.slideFreeze h).modHealth h fun x =>
    { x with acc := (s.piDuty h (s.heatErr h)).1, dutyNext := (s.piDuty h (s.heatErr h)).2 } := rfl

theorem loopDuty_acts (s : State) (h : Head) : LoopActs h s (s.loopDuty h) := by
  rw [loopDuty_eq]
  exact (slideFreeze_acts s h).trans (.modHealth _ _)

theorem bandStep_acts (s : State) (h : Head) : LoopActs h s (s.bandStep h) := by
  unfold bandStep
  dsimp only
  refine .ite (.ite (((LoopActs.heatGo _ _ _).trans (.modHealth _ _)).trans (startFreeze_acts _ _)) (.refl s)) (.ite ?_ (.ite ?_ (.refl s)))
  · exact (LoopActs.modHealth _ _).trans (.hltRaise rfl _ _ _)
  · exact (LoopActs.modHealth _ _).trans (.commit _)

/-- The band of a heater that regulates changes nothing else of it (R471). -/
theorem bandStep_regulating (regulates : (s.health h).heat = .regulating) : ∃ b, (s.bandStep h).health h = { s.health h with band := b } := by
  unfold bandStep
  dsimp only
  rw [if_neg (by rw [regulates]; decide)]
  split
  · exact ⟨_, (hltRaise_health _ _ _).trans (modHealth_health_same _ _ _)⟩
  · split
    · exact ⟨_, (commit_health _ _).trans (modHealth_health_same _ _ _)⟩
    · exact ⟨_, rfl⟩

theorem holdStep_acts (s : State) (h : Head) : LoopActs h s (s.holdStep h) := by
  unfold holdStep
  split
  · exact .refl s
  · exact .ite (((LoopActs.heatGo _ _ _).trans (.modHealth _ _)).trans (startFreeze_acts _ _)) (.modHealth _ _)

/-- A check of the table places the number of its steps, and may tell of a bad table (R459). -/
theorem checkTable_cases (s : State) (h : Head) : ∃ (v : Nat) (f : HedSt → HedSt),
    s.checkTable h = (s.setFld (Reg.HED_TEFF h) 19 0 v).modHead h f ∨
      ∃ o, s.checkTable h = ((s.setFld (Reg.HED_TEFF h) 19 0 v).modHead h f).hedRaise h 5 (Kind.waveform h.val) (word o) := by
  unfold checkTable
  dsimp only
  generalize min (s.tEff h) (2 ^ 20 - 1) = v
  split
  · exact ⟨v, _, .inr ⟨_, rfl⟩⟩
  · exact ⟨v, _, .inl rfl⟩

theorem checkTable_only (s : State) (h : Head) : Only (.hed :: messageParts) s (s.checkTable h) := by
  obtain ⟨v, f, eq⟩ := checkTable_cases s h
  have checked : Only (.hed :: messageParts) s ((s.setFld (Reg.HED_TEFF h) 19 0 v).modHead h f) :=
    ((setFld_only _ _ _ _).mono (by decide)).trans ((modHead_only _ _).mono (by decide))
  rcases eq with eq | ⟨o, eq⟩
  · rw [eq]
    exact checked
  · rw [eq]
    exact checked.trans ((hedRaise_only _ _ _ _).mono (by decide))

theorem hedRaise_in (src : k.src < 36) (flag : Nat) (addr : Word) : RegsIn [4, 11] s (s.hedRaise h flag k addr) := by
  unfold hedRaise
  split
  · exact RegsIn.refl _ _
  · rw [regsIn_raiseLane _ _ _ ⟨src, by decide⟩, regsIn_setFlag _ _ (by rw [hedEvt_block]; decide)]
    exact RegsIn.refl _ _

theorem checkTable_in (s : State) (h : Head) : RegsIn [4, 11] s (s.checkTable h) := by
  obtain ⟨v, f, eq⟩ := checkTable_cases s h
  have efficient : Reg.HED_TEFF h / 0x1000 = 11 := by simp only [Reg.HED_TEFF]; omega
  have checked : RegsIn [4, 11] s ((s.setFld (Reg.HED_TEFF h) 19 0 v).modHead h f) :=
    (regsIn_modHead _ _).2 ((regsIn_setFld _ _ _ _ (by rw [efficient]; decide)).2 (RegsIn.refl _ _))
  rcases eq with eq | ⟨o, eq⟩
  · rw [eq]
    exact checked
  · rw [eq]
    exact checked.trans (hedRaise_in (by simp only [Kind.waveform]; omega) _ _)

/-- The scales that a temperature asks for stay, are refused, or are placed and checked (R473). -/
theorem compensate_cases (s : State) (h : Head) : s.compensate h = s ∨ s.compensate h = (s.setFlag (Reg.HLT_EVT h) 8).commit ∨
    ∃ v, s.compensate h = ((s.setReg (Reg.HED_SCALE h) v).checkTable h).commit := by
  have branches {p q : Prop} [Decidable p] [Decidable q] (a b c : State) :
      (if p then a else if q then b else c) = a ∨ (if p then a else if q then b else c) = b ∨ (if p then a else if q then b else c) = c := by
    split
    · exact .inl rfl
    · split
      · exact .inr (.inl rfl)
      · exact .inr (.inr rfl)
  unfold compensate
  dsimp only
  exact (branches _ _ _).imp id (Or.imp id fun e => ⟨_, e⟩)

theorem compensate_only (s : State) (h : Head) : Only (.hed :: messageParts) s (s.compensate h) := by
  rcases compensate_cases s h with eq | eq | ⟨v, eq⟩
  · rw [eq]
    exact Only.refl _ _
  · rw [eq]
    exact (only_commit (by decide)).2 ((setFlag_only _ _).mono (by decide))
  · rw [eq]
    exact (only_commit (by decide)).2 (((setReg_only _ _).mono (by decide)).trans (checkTable_only _ _))

theorem compensate_acts (s : State) (h : Head) : LoopActs h s (s.compensate h) := by
  rcases compensate_cases s h with eq | eq | ⟨v, eq⟩
  · rw [eq]
    exact .refl s
  · rw [eq]
    exact (LoopActs.setFlag s _).trans (.commit _)
  · have placed : LoopActs h s (s.setReg (Reg.HED_SCALE h) v) := .setReg s v (by simp only [Reg.HED_SCALE, Reg.HLT_TEMP]; omega)
    rw [eq]
    generalize s.setReg (Reg.HED_SCALE h) v = w at *
    have checked : LoopActs h w (w.checkTable h) :=
      ⟨(checkTable_only w h).mono (by decide), checkTable_in w h _ (by rw [hltTemp_block]; decide)⟩
    exact (placed.trans checked).trans (.commit _)

theorem enterHolding_acts (s : State) (h : Head) (frozen : Option Nat) : LoopActs h s (s.enterHolding h frozen) := by
  unfold enterHolding
  dsimp only
  exact .ite (((LoopActs.heatGo _ _ _).trans (.modHealth _ _)).trans (.hltRaise rfl _ _ _)) ((LoopActs.heatGo _ _ _).trans (.modHealth _ _))

theorem loopState_acts (s : State) (h : Head) (ok : Bool) (code : Nat) : LoopActs h s (s.loopState h ok code) := by
  unfold loopState
  split
  · exact requestWarm_acts s h
  · exact (LoopActs.hltRaise rfl s _ _).trans (.heatGo _ _ _)
  · exact (loopDuty_acts s h).trans (bandStep_acts _ h)
  · exact (loopDuty_acts s h).trans (bandStep_acts _ h)
  · exact (LoopActs.hltRaise rfl s _ _).trans (enterHolding_acts _ h _)
  · exact (LoopActs.hltRaise rfl s _ _).trans (enterHolding_acts _ h _)
  · exact holdStep_acts s h
  · exact .modHealth _ _
  · exact .refl s

/-! ### The conversion -/

/-- The temperature of a loop period is converted (R465). -/
def converted (s : State) (h : Head) (code : Nat) : State :=
  let t := (s.setFld (Reg.HLT_TEMP h) 27 16 code).setFld (Reg.HLT_TEMP h) 31 31 (b2n (s.inRange h code))
  if s.inRange h code then t.setFld (Reg.HLT_TEMP h) 15 0 (wrapInt 16 (t.tempOf h code)) else t

/-- A loop period where its code is taken in the heater's state. -/
def looped (s : State) (h : Head) (code : Nat) : State := (s.converted h code).loopState h (s.inRange h code) code

theorem loopPeriod_eq (up : s.unitInReset (22 + h.val) = false) (code : Nat) : s.loopPeriod h code =
    if s.inRange h code && (s.looped h code).compensates h then (s.looped h code).compensate h else s.looped h code := by
  unfold loopPeriod
  rw [up]
  rfl

theorem converted_only (s : State) (h : Head) (code : Nat) : Only [.regs] s (s.converted h code) :=
  only_ite (((setFld_only _ _ _ _).trans (setFld_only _ _ _ _)).trans (setFld_only _ _ _ _)) ((setFld_only _ _ _ _).trans (setFld_only _ _ _ _))

theorem converted_reg (s : State) (h : Head) (code : Nat) : RegsBut [Reg.HLT_TEMP h] s (s.converted h code) := fun b hb => by
  have apart : Reg.HLT_TEMP h ≠ b := fun e => hb (e ▸ List.mem_singleton_self _)
  unfold converted
  dsimp only
  split
  · rw [setFld_reg_other _ _ _ _ _ _ apart, setFld_reg_other _ _ _ _ _ _ apart, setFld_reg_other _ _ _ _ _ _ apart]
  · rw [setFld_reg_other _ _ _ _ _ _ apart, setFld_reg_other _ _ _ _ _ _ apart]

theorem tempOf_congr {code : Nat} (regs : RegsBut [Reg.HLT_TEMP h] s t) : t.tempOf h code = s.tempOf h code := by
  have entry (j : Nat) : t.ttab h j = s.ttab h j := by
    rw [ttab, fld, regs _ (by simp only [Reg.HLT_TTAB, Reg.HLT_TEMP, List.mem_singleton]; omega), ttab, fld]
  rw [tempOf, entry, entry, tempOf]

theorem wrapInt_lt (x : Int) : wrapInt 16 x < 2 ^ 16 := by
  unfold wrapInt
  omega

theorem converted_spec (s : State) (h : Head) {code : Nat} (small : code < 2 ^ 12) : (s.converted h code).thermCode h = code ∧
    (s.converted h code).rbit (Reg.HLT_TEMP h) 31 = s.inRange h code ∧
    (s.converted h code).thermTemp h = if s.inRange h code then signed 16 (wrapInt 16 (s.tempOf h code)) else s.thermTemp h := by
  have ranged : ((s.setFld (Reg.HLT_TEMP h) 27 16 code).setFld (Reg.HLT_TEMP h) 31 31 (b2n (s.inRange h code))).rbit (Reg.HLT_TEMP h) 31 =
      s.inRange h code := by
    rw [setFld_rbit _ _ _ _ _ (by decide), if_pos (by decide)]
    cases s.inRange h code <;> rfl
  have coded : ((s.setFld (Reg.HLT_TEMP h) 27 16 code).setFld (Reg.HLT_TEMP h) 31 31 (b2n (s.inRange h code))).thermCode h = code := by
    rw [thermCode, setFld_fld_other _ _ _ (by decide) (by decide), setFld_fld_same _ _ (by decide) small]
  have held : ((s.setFld (Reg.HLT_TEMP h) 27 16 code).setFld (Reg.HLT_TEMP h) 31 31 (b2n (s.inRange h code))).thermTemp h = s.thermTemp h := by
    rw [thermTemp, setFld_fld_other _ _ _ (by decide) (by decide), setFld_fld_other _ _ _ (by decide) (by decide), thermTemp]
  have same : RegsBut [Reg.HLT_TEMP h] s ((s.setFld (Reg.HLT_TEMP h) 27 16 code).setFld (Reg.HLT_TEMP h) 31 31 (b2n (s.inRange h code))) :=
    fun b hb => by
      have apart : Reg.HLT_TEMP h ≠ b := fun e => hb (e ▸ List.mem_singleton_self _)
      rw [setFld_reg_other _ _ _ _ _ _ apart, setFld_reg_other _ _ _ _ _ _ apart]
  unfold converted
  dsimp only
  rw [tempOf_congr same]
  generalize (s.setFld (Reg.HLT_TEMP h) 27 16 code).setFld (Reg.HLT_TEMP h) 31 31 (b2n (s.inRange h code)) = w at *
  split
  · refine ⟨?_, ?_, ?_⟩
    · rw [thermCode, setFld_fld_other _ _ _ (by decide) (by decide)]
      exact coded
    · rw [setFld_rbit _ _ _ _ _ (by decide), if_neg (by decide), ranged]
    · rw [thermTemp, setFld_fld_same _ _ (by decide) (wrapInt_lt _)]
  · exact ⟨coded, ranged, held⟩

/-! ### The duty -/

/-- The sum and the duty of a loop period, between their limits (R466). -/
theorem piDuty_eq (s : State) (h : Head) (e : Int) :
    let dm : Int := s.dutyMax h
    let acc := max 0 (min (dm * 256) (((s.health h).acc : Int) + e * (s.fld (Reg.HLT_PI h) 31 16 : Nat)))
    ((s.piDuty h e).1 : Int) = acc ∧ ((s.piDuty h e).2 : Int) = max 0 (min dm ((e * (s.fld (Reg.HLT_PI h) 15 0 : Nat) + acc) / 256)) := by
  have clamp (x m : Int) (hm : 0 ≤ m) : (if x < 0 then 0 else if x > m then m else x) = max 0 (min m x) := by
    split
    · omega
    · split <;> omega
  intro dm acc
  have sum : acc = (if ((s.health h).acc : Int) + e * (s.fld (Reg.HLT_PI h) 31 16 : Nat) < 0 then 0
      else if ((s.health h).acc : Int) + e * (s.fld (Reg.HLT_PI h) 31 16 : Nat) > dm * 256 then dm * 256
      else ((s.health h).acc : Int) + e * (s.fld (Reg.HLT_PI h) 31 16 : Nat)) := (clamp _ _ (by omega)).symm
  unfold piDuty
  dsimp only
  rw [← sum, clamp _ _ (by omega)]
  exact ⟨Int.toNat_of_nonneg (le_max_left _ _), Int.toNat_of_nonneg (le_max_left _ _)⟩

/-- An in-range loop period of a heater that regulates (R466). -/
theorem looped_regulating (regulates : (s.health h).heat = .regulating) {code : Nat} (ranged : s.inRange h code = true) :
    ((s.looped h code).health h).heat = .regulating ∧
      ((s.looped h code).health h).acc = ((s.converted h code).piDuty h ((s.converted h code).heatErr h)).1 ∧
      ((s.looped h code).health h).dutyNext = ((s.converted h code).piDuty h ((s.converted h code).heatErr h)).2 ∧
      ((s.looped h code).health h).duty = (s.health h).duty := by
  have same : (s.converted h code).health h = s.health h := health_of_only (converted_only s h code) (by decide) h
  have eq : s.looped h code = ((s.converted h code).loopDuty h).bandStep h := by
    rw [looped, ranged]
    unfold loopState
    rw [same, regulates]
  rw [eq]
  generalize s.converted h code = w at *
  obtain ⟨f, freezes⟩ := slideFreeze_health w h
  have duty : (w.loopDuty h).health h = { s.health h with
      freeze := f, acc := (w.piDuty h (w.heatErr h)).1, dutyNext := (w.piDuty h (w.heatErr h)).2 } := by
    rw [loopDuty_eq, modHealth_health_same, freezes, same]
  obtain ⟨b, banded⟩ := bandStep_regulating (s := w.loopDuty h) (h := h) (by rw [duty]; exact regulates)
  rw [banded, duty]
  exact ⟨regulates, rfl, rfl, rfl⟩

/-! ### The loss of the temperature -/

theorem averageDuty_of_health (same : t.health h = s.health h) : t.averageDuty h = s.averageDuty h := by rw [averageDuty, same, averageDuty]

/-- The heater enters HOLDING at its averaged duty, and no flag is cleared (R469). -/
theorem enterHolding_spec (s : State) (h : Head) (frozen : Option Nat) : ((s.enterHolding h frozen).health h).heat = .holding ∧
    ((s.enterHolding h frozen).health h).duty = s.averageDuty h ∧ ((s.enterHolding h frozen).health h).freeze = none ∧
    ∀ b, b = Reg.HLT_EVT h ∨ b = Reg.FLT_PEND_A → FlagsStay b s (s.enterHolding h frozen) := by
  obtain ⟨w, own, regs, eq⟩ : ∃ w : State, w.health h = { heated (s.health h) .holding (s.averageDuty h) with hold := some (s.tick, frozen, 0) } ∧
      (∀ b, w.reg b = s.reg b) ∧ s.enterHolding h frozen =
        if (s.health h).band then w.hltRaise h 3 (Kind.tempBand h.val) (BitVec.ofInt 32 (w.thermTemp h)) else w := by
    refine ⟨_, ?_, ?_, rfl⟩
    · rw [modHealth_health_same, heatGo_health, (heatGo_only h .holding _).part .tick (by decide)]
    · exact fun b => (modHealth_reg _ _ _ b).trans (heatGo_reg s h _ _ b)
  have same : (s.enterHolding h frozen).health h = w.health h := by
    rw [eq]
    split
    · exact hltRaise_health _ _ _
    · rfl
  rw [same, own]
  refine ⟨rfl, rfl, rfl, fun b hb => ?_⟩
  rw [eq]
  split
  · exact (FlagsStay.of_reg (regs b)).trans (hltRaise_stays rfl _ _ hb)
  · exact .of_reg (regs b)

/-- The temperature is lost: the message is told, and the heater holds its averaged duty (R467-R469). -/
theorem lost_spec (src : k.src = 22 + h.val) (up : s.unitInReset (22 + h.val) = false) {flag : Nat} (hf : flag < 28) (addr : Word)
    (frozen : Option Nat) : ∃ u, u = (s.hltRaise h flag k addr).enterHolding h frozen ∧ (u.health h).heat = .holding ∧
      (u.health h).duty = s.averageDuty h ∧ (u.health h).freeze = none ∧ u.hltPends h flag ∧ Only ([.energy, .hlt] ++ messageParts) s u := by
  obtain ⟨holds, duty, freeze, stays⟩ := enterHolding_spec (s.hltRaise h flag k addr) h frozen
  exact ⟨_, rfl, holds, duty.trans (averageDuty_of_health (hltRaise_health _ _ _)), freeze,
    hltPends_stays hf (hltRaise_pends src up hf addr) stays, ((hltRaise_only h flag k addr).mono (by decide)).trans (enterHolding_only h frozen)⟩

/-- The heater trips (R469, R470). -/
theorem heaterOff_spec (up : s.unitInReset (22 + h.val) = false) : ((s.heaterOff h).health h).heat = .tripped ∧
    ((s.heaterOff h).health h).duty = 0 ∧ (s.heaterOff h).hltPends h 2 := by
  unfold heaterOff
  have told := hltRaise_pends (k := Kind.heaterOff h.val) rfl up (flag := 2) (by decide) 0
  generalize s.hltRaise h 2 (Kind.heaterOff h.val) 0 = w at *
  rw [heatGo_health]
  exact ⟨rfl, rfl, hltPends_stays (by decide) told fun b _ => .of_reg (heatGo_reg w h _ _ b)⟩

/-- A loop period whose code is in range (R465, R466). -/
theorem loopPeriod_good (up : s.unitInReset (22 + h.val) = false) {code : Nat} (small : code < 2 ^ 12) (ranged : s.inRange h code = true) :
    let temp := signed 16 (wrapInt 16 (s.tempOf h code))
    let e := signed 16 (s.fld (Reg.HLT_SET h) 15 0) - temp
    let dm : Int := s.dutyMax h
    let acc := max 0 (min (dm * 256) (((s.health h).acc : Int) + e * (s.fld (Reg.HLT_PI h) 31 16 : Nat)))
    ∃ u, u = s.loopPeriod h code ∧ u.thermCode h = code ∧ u.rbit (Reg.HLT_TEMP h) 31 = true ∧ u.thermTemp h = temp ∧
      Only ([.energy, .hed, .hlt] ++ messageParts) s u ∧
      ((s.health h).heat = .regulating → (u.health h).heat = .regulating ∧ ((u.health h).acc : Int) = acc ∧
        ((u.health h).dutyNext : Int) = max 0 (min dm ((e * (s.fld (Reg.HLT_PI h) 15 0 : Nat) + acc) / 256)) ∧
        (u.health h).duty = (s.health h).duty) := by
  intro temp e dm acc
  obtain ⟨coded, flag, heat⟩ := converted_spec s h small
  have regs := converted_reg s h code
  have loops : LoopActs h (s.converted h code) (s.looped h code) := loopState_acts _ h _ _
  obtain ⟨u, eq, acts, same⟩ : ∃ u, u = s.loopPeriod h code ∧ LoopActs h (s.looped h code) u ∧ u.health h = (s.looped h code).health h := by
    refine ⟨_, rfl, ?_, ?_⟩
    · rw [loopPeriod_eq up]
      exact .ite (compensate_acts _ h) (.refl _)
    · rw [loopPeriod_eq up]
      split
      · exact health_of_only (compensate_only _ h) (by decide) h
      · rfl
  have held : u.reg (Reg.HLT_TEMP h) = (s.converted h code).reg (Reg.HLT_TEMP h) := acts.temp.trans loops.temp
  rw [ranged, if_pos rfl] at heat
  refine ⟨u, eq, by rw [thermCode, fld, held]; exact coded, by rw [rbit, held]; exact flag.trans ranged, by rw [thermTemp, fld, held]; exact heat,
    ((converted_only s h code).mono (by decide)).trans (loops.only.trans acts.only), fun regulates => ?_⟩
  obtain ⟨stays, sum, next, duty⟩ := looped_regulating regulates ranged
  obtain ⟨sum_, next_⟩ := piDuty_eq (s.converted h code) h ((s.converted h code).heatErr h)
  have keeps (a hi lo : Nat) (ha : a ≠ Reg.HLT_TEMP h) : (s.converted h code).fld a hi lo = s.fld a hi lo := by
    rw [fld, regs a (fun k => ha (List.mem_singleton.mp k)), fld]
  have error : (s.converted h code).heatErr h = e := by
    rw [heatErr, heat, keeps _ _ _ (by simp only [Reg.HLT_SET, Reg.HLT_TEMP]; omega)]
  have most : (s.converted h code).dutyMax h = s.dutyMax h := keeps _ _ _ (by simp only [Reg.HLT_LOOP, Reg.HLT_TEMP]; omega)
  rw [error, most, keeps _ _ _ (by simp only [Reg.HLT_PI, Reg.HLT_TEMP]; omega), keeps _ _ _ (by simp only [Reg.HLT_PI, Reg.HLT_TEMP]; omega),
    health_of_only (converted_only s h code) (by decide)] at next_
  rw [error, most, keeps _ _ _ (by simp only [Reg.HLT_PI, Reg.HLT_TEMP]; omega), health_of_only (converted_only s h code) (by decide)] at sum_
  rw [error] at sum next
  rw [same]
  exact ⟨stays, by rw [sum]; exact sum_, by rw [next]; exact next_, duty⟩

/-- A loop period whose code is out of range (R465, R467). -/
theorem loopPeriod_bad (up : s.unitInReset (22 + h.val) = false) {code : Nat} (small : code < 2 ^ 12) (ranged : s.inRange h code = false) :
    ∃ u, u = s.loopPeriod h code ∧ u.thermCode h = code ∧ u.rbit (Reg.HLT_TEMP h) 31 = false ∧ u.thermTemp h = s.thermTemp h ∧
      ((s.health h).heat = .regulating ∨ (s.health h).heat = .warming → (u.health h).heat = .holding ∧ (u.health h).duty = s.averageDuty h ∧
        u.hltPends h 0 ∧ Only ([.energy, .hlt] ++ messageParts) s u) := by
  obtain ⟨coded, flag, heat⟩ := converted_spec s h small
  have same : (s.converted h code).health h = s.health h := health_of_only (converted_only s h code) (by decide) h
  have eq : s.loopPeriod h code = (s.converted h code).loopState h false code := by
    rw [loopPeriod_eq up, looped, ranged]
    exact if_neg (by rw [Bool.false_and]; decide)
  have loops : LoopActs h (s.converted h code) (s.loopPeriod h code) := by
    rw [eq]
    exact loopState_acts _ h _ _
  rw [ranged, if_neg (by decide)] at heat
  refine ⟨_, rfl, by rw [thermCode, fld, loops.temp]; exact coded, by rw [rbit, loops.temp]; exact flag.trans ranged,
    by rw [thermTemp, fld, loops.temp]; exact heat, fun runs => ?_⟩
  have lost : s.loopPeriod h code =
      ((s.converted h code).hltRaise h 0 (Kind.thermLost h.val) (word code)).enterHolding h none := by
    rw [eq]
    unfold loopState
    rw [same]
    rcases runs with regulates | warms
    · rw [regulates]
    · rw [warms]
  obtain ⟨u, is, holds, duty, -, pend, only⟩ := lost_spec (s := s.converted h code) (k := Kind.thermLost h.val) rfl
    ((unitInReset_of_only (converted_only s h code) (by decide) _).trans up) (flag := 0) (by decide) (word code) none
  rw [lost, ← is]
  exact ⟨holds, duty.trans (averageDuty_of_health same), pend, ((converted_only s h code).mono (by decide)).trans only⟩

/-! ### The events of a heater -/

/-- An event that falls at multiples of a period from the end of the boot. -/
theorem fromBoot_next (ticks : s.ticking = true) (booted : s.booted = true) {p : Nat} (hp : p ≠ 0) (k : Nat) (f : State → State) :
    s.finish (s.fromBoot k p f) = .next (s.after (f (s.takenAt k (s.dueAt k s.boot.doneAt p)))) := by
  have runs : s.fromBoot k p f = s.periodic k s.boot.doneAt p f := if_pos (by rw [booted, decide_eq_true hp]; rfl)
  rw [runs]
  exact timed_next ticks rfl _

theorem takenAt_health (s : State) (k d : Nat) (h : Head) : (s.takenAt k d).health h = s.health h :=
  health_of_only (advanceTo_only d) (by decide) h

/-- A loop period at the state `w` at which its event is taken, seen from the state `t` that its tick leaves. -/
theorem loopPeriod_taken {w : State} (up : t.unitInReset (22 + h.val) = false) {code : Nat} (small : code < 2 ^ 12) (taken : Only [.fired] t w)
    (health : w.health h = s.health h) :
    let temp := signed 16 (wrapInt 16 (t.tempOf h code))
    let e := signed 16 (t.fld (Reg.HLT_SET h) 15 0) - temp
    let dm : Int := t.dutyMax h
    let acc := max 0 (min (dm * 256) (((s.health h).acc : Int) + e * (t.fld (Reg.HLT_PI h) 31 16 : Nat)))
    (t.inRange h code = true → ∃ u, u = w.loopPeriod h code ∧ u.thermCode h = code ∧ u.rbit (Reg.HLT_TEMP h) 31 = true ∧ u.thermTemp h = temp ∧
      Only ([.fired, .energy, .hed, .hlt] ++ messageParts) t u ∧
      ((s.health h).heat = .regulating → (u.health h).heat = .regulating ∧ ((u.health h).acc : Int) = acc ∧
        ((u.health h).dutyNext : Int) = max 0 (min dm ((e * (t.fld (Reg.HLT_PI h) 15 0 : Nat) + acc) / 256)) ∧
        (u.health h).duty = (s.health h).duty)) ∧
    (t.inRange h code = false → ∃ u, u = w.loopPeriod h code ∧ u.thermCode h = code ∧ u.rbit (Reg.HLT_TEMP h) 31 = false ∧
      u.thermTemp h = t.thermTemp h ∧
      ((s.health h).heat = .regulating ∨ (s.health h).heat = .warming → (u.health h).heat = .holding ∧ (u.health h).duty = s.averageDuty h ∧
        Only ([.fired, .energy, .hlt] ++ messageParts) t u ∧ u.hltPends h 0)) := by
  have regs (b : Nat) : w.reg b = t.reg b := taken.regsIn (by decide) b (by simp)
  have field (a hi lo : Nat) : w.fld a hi lo = t.fld a hi lo := fld_of_regs regs a hi lo
  have awake := (unitInReset_of_only taken (by decide) (22 + h.val)).trans up
  have ranges : w.inRange h code = t.inRange h code := by rw [inRange, field, field, inRange]
  have temps : w.tempOf h code = t.tempOf h code := tempOf_congr fun b _ => regs b
  have most : w.dutyMax h = t.dutyMax h := field _ _ _
  refine ⟨fun ranged => ?_, fun ranged => ?_⟩
  · obtain ⟨u, eq, coded, flag, heat, only, regulates⟩ := loopPeriod_good awake small (ranges.trans ranged)
    rw [temps] at heat
    rw [health, temps, most, field, field, field] at regulates
    exact ⟨u, eq, coded, flag, heat, (taken.mono (by decide)).trans (only.mono (by decide)), regulates⟩
  · obtain ⟨u, eq, coded, flag, heat, lost⟩ := loopPeriod_bad awake small (ranges.trans ranged)
    rw [health, averageDuty_of_health health] at lost
    refine ⟨u, eq, coded, flag, by rw [heat, thermTemp, field, thermTemp], fun runs => ?_⟩
    obtain ⟨holds, duty, pend, only⟩ := lost runs
    exact ⟨holds, duty, (taken.mono (by decide)).trans (only.mono (by decide)), pend⟩

/-- The end of a heater's duty period (R466). -/
theorem pwmPeriod_eq (runs : (s.health h).heat = .warming ∨ (s.health h).heat = .regulating) :
    s.pwmPeriod h = s.modHealth h fun x => { x with good := (x.duty :: x.good).take 64, duty := x.dutyNext } := by
  unfold pwmPeriod
  rcases runs with warms | regulates
  · rw [warms]
  · rw [regulates]

end State

/-- Settles O58: a granted command starts or ends the heater (`State.heatStart_starts`); a loop period converts the temperature
(`State.converted_spec`) and the heater's state takes it (`State.looped_regulating`, `State.lost_spec`). -/
theorem heatersRegulate : Obligations.HeatersRegulate := by
  intro s h x starts pends
  refine ⟨fun o on changes granted => ?_, fun o trips granted => ?_, fun code ticks booted period => ?_, fun ticks booted period runs => ?_,
    fun d ticks due up => ?_, fun d i event ticks up => ?_⟩
  · obtain ⟨v, run, set, regs, only⟩ := State.heaterEnable_granted changes granted
    have same : v.health h = s.health h := State.health_of_only only (by decide) h
    have block : Reg.HLT_CTRL h / 0x1000 = 12 := by simp only [Reg.HLT_CTRL]; omega
    have placed : RegsIn [12] s v := fun b hb => regs b fun e => hb (by rw [e, block]; decide)
    cases on with
    | true =>
      have kept : RegsIn [3, 4] v (v.heatEnable h true) := by
        unfold State.heatEnable
        rw [if_pos rfl]
        split
        · exact State.heatStart_in v h
        · exact RegsIn.refl _ _
      refine ⟨_, run, by rw [State.rbit, kept _ (by rw [block]; decide)]; exact set, fun _ idle => ?_, fun off => Bool.noConfusion off⟩
      have begins : v.heatEnable h true = v.heatStart h := (if_pos rfl).trans (if_pos (by rw [same]; exact idle))
      rw [begins]
      exact (State.heatStart_starts (by rw [same, show (s.health h).heat = .idle from idle]; decide)).of_written only
        (regs _ (by simp only [Reg.HLT_EWARM, Reg.HLT_CTRL]; omega)) placed
    | false =>
      have reg (b : Nat) : (v.heatEnable h false).reg b = v.reg b := by
        unfold State.heatEnable
        rw [if_neg (by decide)]
        split
        · rfl
        · exact State.heatGo_reg v h _ _ b
      refine ⟨_, run, by rw [State.rbit, reg]; exact set, fun k => Bool.noConfusion k, fun _ busy => ?_⟩
      have ends : v.heatEnable h false = v.heatGo h .idle 0 := (if_neg (by decide)).trans (if_neg (by rw [same]; exact busy))
      have goes := State.heatGo_health v h .idle 0
      rw [ends] at reg ⊢
      rw [goes]
      exact ⟨rfl, rfl, rfl, fun b hb => (reg b).trans (regs b fun e => hb (e ▸ List.mem_singleton_self _)),
        (only.mono (by decide)).trans ((State.heatGo_only h .idle 0).mono (by decide))⟩
  · obtain ⟨v, run, regs, only⟩ := State.heatRestart_granted trips granted
    have cold : (v.health h).heat ≠ .warming := by rw [State.health_of_only only (by decide), show (s.health h).heat = .tripped from trips]; decide
    exact ⟨_, run, (State.heatStart_starts cold).of_written only (regs _) fun b _ => regs b⟩
  · intro t temp e dm acc up
    have run : exec (.heaterLoopPeriod h code) s = .next (s.after ((s.takenAt (Ev.heaterLoop h)
        (s.dueAt (Ev.heaterLoop h) s.boot.doneAt (s.fld (Reg.HLT_LOOP h) 9 0 * 100000))).loopPeriod h code.toNat)) :=
      State.fromBoot_next ticks booted (Nat.mul_ne_zero period (by decide)) _ _
    have taken := State.takenAt_only s (Ev.heaterLoop h) (s.dueAt (Ev.heaterLoop h) s.boot.doneAt (s.fld (Reg.HLT_LOOP h) 9 0 * 100000))
    have health := State.takenAt_health s (Ev.heaterLoop h) (s.dueAt (Ev.heaterLoop h) s.boot.doneAt (s.fld (Reg.HLT_LOOP h) 9 0 * 100000)) h
    obtain ⟨good, bad⟩ := State.loopPeriod_taken up code.isLt taken health
    refine ⟨fun ranged => ?_, fun ranged => ?_⟩
    · obtain ⟨u, eq, rest⟩ := good ranged
      rw [← eq] at run
      exact ⟨u, run, rest⟩
    · obtain ⟨u, eq, coded, flag, heat, lost⟩ := bad ranged
      rw [← eq] at run
      exact ⟨u, run, coded, flag, heat, lost⟩
  · have run : exec (.heaterPwmPeriod h) s = .next (s.after ((s.takenAt (Ev.heaterPwm h)
        (s.dueAt (Ev.heaterPwm h) s.boot.doneAt (s.fld (Reg.HLT_PWM h) 19 0))).pwmPeriod h)) := State.fromBoot_next ticks booted period _ _
    have taken := State.takenAt_only s (Ev.heaterPwm h) (s.dueAt (Ev.heaterPwm h) s.boot.doneAt (s.fld (Reg.HLT_PWM h) 19 0))
    have health := State.takenAt_health s (Ev.heaterPwm h) (s.dueAt (Ev.heaterPwm h) s.boot.doneAt (s.fld (Reg.HLT_PWM h) 19 0)) h
    rw [State.pwmPeriod_eq (by rw [health]; exact runs)] at run
    refine ⟨_, run, ?_, (taken.mono (by decide)).trans ((State.modHealth_only _ _).mono (by decide))⟩
    rw [State.modHealth_health_same, health]
  · obtain ⟨e, open_, -⟩ := Option.map_eq_some_iff.mp due
    have run : exec (.freezeWindowEnd h) s = .next (s.after ((s.advanceTo d).freezeEnd h)) := State.timed_next ticks due _
    have health : (s.advanceTo d).health h = s.health h := State.health_of_only (State.advanceTo_only d) (by decide) h
    have frozen : (s.advanceTo d).freezeEnd h = ((s.advanceTo d).hltRaise h 1 (Kind.thermFrozen h.val)
        (word ((s.advanceTo d).thermCode h))).enterHolding h (some e.2) := by
      unfold State.freezeEnd
      rw [health, open_]
    obtain ⟨u, eq, holds, duty, thaws, pend, only⟩ := State.lost_spec (s := s.advanceTo d) (k := Kind.thermFrozen h.val) rfl up (flag := 1)
      (by decide) (word ((s.advanceTo d).thermCode h)) (some e.2)
    rw [frozen, ← eq] at run
    exact ⟨u, run, holds, duty.trans (State.averageDuty_of_health health), thaws, only.mono (by decide), pend.1, pend.2⟩
  · obtain ⟨trips, duty, pend⟩ := State.heaterOff_spec (s := s.advanceTo d) up
    have only := State.heaterOff_only (u := s.advanceTo d) h
    refine ⟨(s.advanceTo d).heaterOff h, ?_, trips, duty, only.mono (by decide), pend.1, pend.2⟩
    rcases List.mem_cons.mp event with held | rest
    · obtain ⟨rfl, due⟩ := Prod.mk.inj held
      exact State.timed_next ticks due.symm _
    · obtain ⟨rfl, due⟩ := Prod.mk.inj (List.mem_singleton.mp rest)
      exact State.timed_next ticks due.symm _

end Sys2Proof.Machine
end

section
/-! ## Drop-gate scans -/

namespace Sys2Proof.Machine
namespace State

variable {s t u v : State} {o : OpCtx} {env : OpEnv} {h : Head} {c : Scan}

/-! ### The start of a scan -/

theorem nozClass_of_health (same : t.health h = s.health h) (i : Nat) : t.nozClass h i = s.nozClass h i := by
  rw [nozClass, mapEntry, same, nozClass, mapEntry]

theorem scanList_congr (regs : ∀ b, t.reg b = s.reg b) (same : t.health h = s.health h) : t.scanList h = s.scanList h := by
  simp only [scanList, fld_of_regs regs, nozClass_of_health same]

/-- A scan that starts now (R474, R475). -/
def newScan (s : State) (h : Head) : Scan :=
  ⟨s.scanList h, s.fld (Reg.HLT_SCAN_SHOT h) 7 0, s.tick + s.fld (Reg.HLT_SCAN_PER h) 19 0, [],
    if (s.scanList h).isEmpty then some (s.tick + s.fld (Reg.HLT_SCAN_PER h) 19 0) else none, []⟩

theorem newScan_congr (regs : ∀ b, t.reg b = s.reg b) (same : t.health h = s.health h) (tick : t.tick = s.tick) : t.newScan h = s.newScan h := by
  simp only [newScan, scanList_congr regs same, fld_of_regs regs, tick]

theorem startScan_lit {level : Nat} (lit : s.fld (Reg.HLT_GATE h) 27 16 ≤ level) :
    s.startScan h level = s.modHealth h fun x => { x with scan := some (s.newScan h) } := if_neg (Nat.not_lt.mpr lit)

theorem startScan_dark {level : Nat} (dark : level < s.fld (Reg.HLT_GATE h) 27 16) :
    s.startScan h level = s.hltRaise h 5 (Kind.gateFail h.val) 0 := if_pos dark

/-- A granted SCAN (R474). -/
theorem scan_granted (granted : s.Granted o env (Reg.HLT_CMD h) [word 2]) :
    ∃ v : State, exec (.scan o h env) s = .next (s.written o (v.startScan h env.gates[h].toNat)) ∧ (∀ b, v.reg b = s.reg b) ∧
      Only [.order, .regs] s v := by
  obtain ⟨v, run, regs, only⟩ := hltCommand_granted (k := 1) (fun k => absurd k (by decide)) granted
  exact ⟨v, run.trans (by rw [(healthEffect_command v env.gates h).2.1]), regs, only⟩

/-! ### Shots -/

/-- A scan after the shot of its nozzle `i`, which fires now (R475). -/
def shotScan (s : State) (h : Head) (c : Scan) (i : Nat) : Scan :=
  let f := (s.planFire h).2
  let d := nextShot c (s.fld (Reg.HLT_SCAN_PER h) 19 0) (s.fld (Reg.HLT_SCAN_SHOT h) 7 0)
  { d with windows := (c.windows.filter fun w => decide (s.tick ≤ w.2.2.1)) ++
                        [(i, f + s.fld (Reg.HLT_GWIN h) 15 0, f + s.fld (Reg.HLT_GWIN h) 31 16, false)],
           endAt := if d.todo.isEmpty then some (f + s.fld (Reg.HLT_GWIN h) 31 16) else none }

/-- A shot at a port that is READY fires its nozzle (R475). -/
theorem shoot_eq {i : Nat} {rest : List Nat} (runs : (s.health h).scan = some c) (next : c.todo = i :: rest) (ready : s.hedReady h = true) :
    s.shoot h = (s.pushFiring h (s.planFire h).2 (.shot i) (s.oneNozzle h i (s.fld (Reg.HLT_SCAN h) 29 28))).modHealth h fun x =>
      { x with scan := some (s.shotScan h c i) } := by
  unfold shoot
  rw [runs]
  dsimp only
  rw [next]
  dsimp only
  rw [ready]
  rfl

theorem shotScan_spec (s : State) (h : Head) {i : Nat} {rest : List Nat} (next : c.todo = i :: rest) :
    (s.shotScan h c i).hits = c.hits ∧ (s.shotScan h c i).todo = (if c.shots ≤ 1 then rest else i :: rest) ∧
      (s.shotScan h c i).nextAt = c.nextAt + s.fld (Reg.HLT_SCAN_PER h) 19 0 ∧
      ((s.shotScan h c i).endAt.isSome = true ↔ (s.shotScan h c i).todo = []) := by
  unfold shotScan nextShot
  split
  · refine ⟨rfl, congrArg (List.drop 1) next, rfl, ?_⟩
    dsimp only
    cases c.todo.drop 1 <;> simp
  · refine ⟨rfl, next, rfl, ?_⟩
    dsimp only
    cases c.todo <;> simp

/-! ### Falls at the gate -/

/-- A window that is open and has not scored (R475). -/
def awaits (s : State) (w : Nat × Nat × Nat × Bool) : Bool := decide (w.2.1 ≤ s.tick) && decide (s.tick ≤ w.2.2.1) && !w.2.2.2

/-- A scan after an accepted fall (R475). -/
def fallen (s : State) (c : Scan) : Scan :=
  { c with windows := c.windows.map fun w => if s.awaits w then (w.1, w.2.1, w.2.2.1, true) else w,
           hits := (c.windows.filter s.awaits).foldl (fun l w => addHit l w.1) c.hits }

theorem gateFall_eq (runs : (s.health h).scan = some c) : s.gateFall h = s.modHealth h fun x => { x with scan := some (s.fallen c) } := by
  unfold gateFall
  rw [runs]
  rfl

theorem hitsOf_cons (e : Nat × Nat) (l : List (Nat × Nat)) (i : Nat) : hitsOf (e :: l) i = if e.1 = i then e.2 else hitsOf l i := by
  by_cases same : e.1 = i
  · rw [if_pos same, hitsOf, List.find?_cons_of_pos (by simpa using same)]
    rfl
  · rw [if_neg same, hitsOf, List.find?_cons_of_neg (by simpa using same), hitsOf]

/-- The entries of a nozzle count one more. -/
def raised (l : List (Nat × Nat)) (j : Nat) : List (Nat × Nat) := l.map fun e => if e.1 = j then (j, e.2 + 1) else e

theorem hitsOf_raised_other {i j : Nat} (apart : j ≠ i) : ∀ l : List (Nat × Nat), hitsOf (raised l j) i = hitsOf l i
  | [] => rfl
  | e :: l => by
    have ih := hitsOf_raised_other apart l
    rw [raised] at ih
    rw [raised, List.map_cons, hitsOf_cons, hitsOf_cons, ih]
    by_cases same : e.1 = j
    · rw [if_pos same, if_neg apart, if_neg fun k => apart (same.symm.trans k)]
    · rw [if_neg same]

theorem hitsOf_raised_same {j : Nat} : ∀ l : List (Nat × Nat), (∃ e ∈ l, e.1 = j) → hitsOf (raised l j) j = hitsOf l j + 1
  | [], has => absurd has (by simp)
  | e :: l, has => by
    rw [raised, List.map_cons, hitsOf_cons, hitsOf_cons]
    by_cases same : e.1 = j
    · rw [if_pos same, if_pos rfl, if_pos same]
    · obtain ⟨x, hx, hit⟩ := has
      have later : x ∈ l := (List.mem_cons.mp hx).resolve_left fun k => same (k ▸ hit)
      rw [if_neg same, if_neg same, if_neg same]
      exact hitsOf_raised_same l ⟨x, later, hit⟩

theorem hitsOf_append (i j : Nat) : ∀ l : List (Nat × Nat), (∀ e ∈ l, e.1 ≠ j) →
    hitsOf (l ++ [(j, 1)]) i = hitsOf l i + if j = i then 1 else 0
  | [], _ => by
    rw [List.nil_append, hitsOf_cons]
    by_cases same : j = i
    · rw [if_pos same, if_pos same]; rfl
    · rw [if_neg same, if_neg same]; rfl
  | e :: l, lacks => by
    rw [List.cons_append, hitsOf_cons, hitsOf_cons, hitsOf_append i j l fun x hx => lacks x (List.mem_cons_of_mem _ hx)]
    by_cases first : e.1 = i
    · rw [if_pos first, if_pos first, if_neg fun k => lacks e List.mem_cons_self (first.trans k.symm)]
      rfl
    · rw [if_neg first, if_neg first]

/-- A hit counts for its nozzle only. -/
theorem hitsOf_addHit (i j : Nat) (l : List (Nat × Nat)) : hitsOf (addHit l j) i = hitsOf l i + if j = i then 1 else 0 := by
  unfold addHit
  split
  · next counted =>
    have has : ∃ e ∈ l, e.1 = j := by simpa using counted
    by_cases same : j = i
    · subst i
      rw [if_pos rfl]
      exact hitsOf_raised_same l has
    · rw [if_neg same]
      exact hitsOf_raised_other same l
  · next fresh => exact hitsOf_append i j l fun e he k => fresh (List.any_eq_true.mpr ⟨e, he, by simpa using k⟩)

theorem hitsOf_hits (i : Nat) : ∀ (ws : List (Nat × Nat × Nat × Bool)) (l : List (Nat × Nat)),
    hitsOf (ws.foldl (fun l w => addHit l w.1) l) i = hitsOf l i + (ws.filter fun w => decide (w.1 = i)).length
  | [], l => rfl
  | w :: ws, l => by
    rw [List.foldl_cons, hitsOf_hits i ws, hitsOf_addHit, List.filter_cons]
    by_cases same : w.1 = i
    · rw [if_pos same, if_pos (decide_eq_true same), List.length_cons]
      omega
    · rw [if_neg same, if_neg (by rw [decide_eq_false same]; decide)]
      omega

theorem fallen_spec (s : State) (c : Scan) :
    (∀ i, hitsOf (s.fallen c).hits i = hitsOf c.hits i + (c.windows.filter fun w => s.awaits w && decide (w.1 = i)).length) ∧
      (s.fallen c).windows.length = c.windows.length ∧ ∀ w ∈ (s.fallen c).windows, s.awaits w = false := by
  refine ⟨fun i => ?_, List.length_map _, fun w hw => ?_⟩
  · rw [fallen, hitsOf_hits, List.filter_filter]
    simp only [Bool.and_comm]
  · obtain ⟨x, -, rfl⟩ := List.mem_map.mp hw
    split
    · simp [awaits]
    · rename_i past
      exact Bool.eq_false_iff.mpr past

/-! ### The end of a scan -/

theorem scanClass_lt (s : State) (h : Head) (n : Nat) : s.scanClass h n < 4 := by
  unfold scanClass
  split
  · decide
  · split <;> decide

/-- An entry whose class is replaced (R476). -/
def classed (e : BitVec 16) (k : Nat) : BitVec 16 := (e &&& 0xFFFC) ||| BitVec.ofNat 16 k

theorem classed_classed (e : BitVec 16) (k : Nat) : classed (classed e k) k = classed e k := by
  refine BitVec.eq_of_getLsbD_eq fun i _ => ?_
  simp only [classed, BitVec.getLsbD_or, BitVec.getLsbD_and]
  cases e.getLsbD i <;> cases (0xFFFC : BitVec 16).getLsbD i <;> cases (BitVec.ofNat 16 k).getLsbD i <;> rfl

theorem classed_class (e : BitVec 16) {k : Nat} (small : k < 4) : (classed e k).toNat % 4 = k := by
  have low : (classed e k).toNat % 2 ^ 2 = (e.toNat &&& 0xFFFC) % 2 ^ 2 ||| k % 2 ^ 2 := by
    rw [classed, BitVec.toNat_or, BitVec.toNat_and, BitVec.toNat_ofNat, Nat.mod_eq_of_lt (by omega : k < 2 ^ 16), Nat.or_mod_two_pow]
    rfl
  rw [Nat.and_mod_two_pow, show (0xFFFC : Nat) % 2 ^ 2 = 0 from rfl, Nat.and_zero, Nat.zero_or] at low
  exact low.trans (Nat.mod_eq_of_lt small)

theorem setEntry_mapEntry (s : State) (h : Head) (i : Nat) (v : BitVec 16) (j : Nat) :
    (s.setEntry h i v).mapEntry h j = if j = i then v else s.mapEntry h j := by
  rw [mapEntry, setEntry, modHealth_health_same]
  split
  · subst j
    exact Tab.get_set_same _ _ _ _
  · exact Tab.get_set_other _ _ _ ‹_›

/-- A setting of an entry leaves what else a health unit holds. -/
theorem setEntry_health (s : State) (h : Head) (i : Nat) (v : BitVec 16) : ∃ m, (s.setEntry h i v).health h = { s.health h with map := m } :=
  ⟨_, modHealth_health_same _ _ _⟩

/-- The classes of a scan in the map (R476). -/
def classify (s : State) (h : Head) (res : List (Nat × Nat × Nat)) : State :=
  res.foldl (fun (s : State) (e : Nat × Nat × Nat) => s.setEntry h e.1 ((s.mapEntry h e.1 &&& 0xFFFC) ||| BitVec.ofNat 16 e.2.1)) s

theorem classify_only (s : State) (h : Head) (res : List (Nat × Nat × Nat)) : Only [.hlt] s (s.classify h res) :=
  Only.foldl (fun _ _ => setEntry_only _ _ _) _ _

/-- Each nozzle of a scan takes its class, and the other entries stay. -/
theorem classify_mapEntry (h : Head) (f : Nat → Nat) (j : Nat) : ∀ (res : List (Nat × Nat × Nat)) (s : State), (∀ e ∈ res, e.2.1 = f e.1) →
    (s.classify h res).mapEntry h j = if j ∈ res.map (·.1) then classed (s.mapEntry h j) (f j) else s.mapEntry h j
  | [], s, _ => rfl
  | e :: res, s, hf => by
    have first : (s.setEntry h e.1 (classed (s.mapEntry h e.1) e.2.1)).mapEntry h j =
        if j = e.1 then classed (s.mapEntry h j) (f j) else s.mapEntry h j := by
      rw [setEntry_mapEntry]
      split
      · subst j
        rw [hf e List.mem_cons_self]
      · rfl
    have rest := classify_mapEntry h f j res (s.setEntry h e.1 (classed (s.mapEntry h e.1) e.2.1)) fun x hx => hf x (List.mem_cons_of_mem _ hx)
    refine rest.trans ?_
    rw [first, List.map_cons]
    by_cases same : j = e.1
    · have named : j ∈ e.1 :: res.map (·.1) := same ▸ List.mem_cons_self
      rw [if_pos same, if_pos named, classed_classed]
      split <;> rfl
    · rw [if_neg same]
      by_cases later : j ∈ res.map (·.1)
      · rw [if_pos later, if_pos (List.mem_cons_of_mem _ later)]
      · rw [if_neg later, if_neg fun k => (List.mem_cons.mp k).elim same later]

/-- A save of the map clears no flag of the health unit (R481). -/
theorem saveMap_stays (s : State) (h : Head) : FlagsStay (Reg.HLT_EVT h) s (s.saveMap h) := by
  have evt : Reg.HLT_EVT h / 0x1000 ∉ [3, 4] := by rw [hltEvt_block]; decide
  have asked (offset : Nat) (data : List Byte) :
      (s.stageReserved (.map h) offset data).1.reg (Reg.HLT_EVT h) = s.reg (Reg.HLT_EVT h) := by
    unfold stageReserved
    dsimp only
    split
    · exact (reservedStaged_only s (.map h) offset data).regsIn (by decide) _ (by simp)
    · exact refuse_in s _ evt
  unfold saveMap
  split
  · exact FlagsStay.set (.of_reg rfl) _ _
  · dsimp only
    split
    · exact .of_reg (asked _ _)
    · exact FlagsStay.set (.of_reg (asked _ _)) _ _

/-- The nozzle failures that a scan finds are told (R476). -/
def tellFailures (s : State) (h : Head) (was : Nat → Nat) (res : List (Nat × Nat × Nat)) : State :=
  res.foldl (fun (s : State) (e : Nat × Nat × Nat) =>
    if e.2.1 = 2 ∧ was e.1 ≠ 2 then s.hltRaise h 4 (Kind.nozzleFail h.val) (word e.1) else s) s

theorem tellFailures_only (s : State) (h : Head) (was : Nat → Nat) (res : List (Nat × Nat × Nat)) :
    Only messageParts s (s.tellFailures h was res) :=
  Only.foldl (fun _ _ => only_ite (hltRaise_only _ _ _ _) (Only.refl _ _)) _ _

theorem tellFailures_stays (h : Head) (was : Nat → Nat) : ∀ (res : List (Nat × Nat × Nat)) (s : State),
    FlagsStay (Reg.HLT_EVT h) s (s.tellFailures h was res)
  | [], _ => .of_reg rfl
  | e :: res, s => by
    have first : FlagsStay (Reg.HLT_EVT h) s
        (if e.2.1 = 2 ∧ was e.1 ≠ 2 then s.hltRaise h 4 (Kind.nozzleFail h.val) (word e.1) else s) := by
      split
      · exact hltRaise_stays rfl _ _ (.inl rfl)
      · exact .of_reg rfl
    exact first.trans (tellFailures_stays h was res _)

/-- The classes are in the map, and the scan has ended with its results (R476). -/
def concluded (s : State) (h : Head) (res : List (Nat × Nat × Nat)) (n : Word) : State :=
  ((((s.classify h res).modHealth h fun x =>
    { x with scan := none, hits := res.foldl (fun t e => Tab.set (fun _ => 0) t e.1 e.2.2) x.hits }).setReg (Reg.HLT_SCAN_RES h) n).setFlag
      (Reg.HLT_EVT h) 6).commit

theorem applyScan_eq (s : State) (h : Head) (res : List (Nat × Nat × Nat)) : ∃ n, s.applyScan h res =
    if res.any (fun e => decide (e.2.1 ≠ s.nozClass h e.1)) then ((s.concluded h res n).tellFailures h (fun i => s.nozClass h i) res).saveMap h
    else (s.concluded h res n).tellFailures h (fun i => s.nozClass h i) res := ⟨_, rfl⟩

theorem concluded_only (s : State) (h : Head) (res : List (Nat × Nat × Nat)) (n : Word) :
    Only [.order, .regs, .guards, .hlt] s (s.concluded h res n) := by
  refine (only_commit (by decide)).2 ((only_setFlag _ _ (by decide)).2 ((only_setReg _ _ (by decide)).2 ?_))
  exact ((classify_only s h res).mono (by decide)).trans ((modHealth_only _ _).mono (by decide))

theorem concluded_health (s : State) (h : Head) (res : List (Nat × Nat × Nat)) (n : Word) :
    ((s.concluded h res n).health h).scan = none ∧ ((s.concluded h res n).health h).map = ((s.classify h res).health h).map := by
  rw [concluded, commit_health, setFlag_health, setReg_health, modHealth_health_same]
  exact ⟨rfl, rfl⟩

theorem concluded_flag (s : State) (h : Head) (res : List (Nat × Nat × Nat)) (n : Word) :
    (s.concluded h res n).rbit (Reg.HLT_EVT h) 6 = true := by
  rw [concluded, commit_rbit]
  exact setFlag_rbit_same _ _ (by decide)

/-- The results of a scan (R476). -/
theorem applyScan_spec (s : State) (h : Head) (res : List (Nat × Nat × Nat)) :
    ((s.applyScan h res).health h).scan = none ∧ ((s.applyScan h res).health h).map = ((s.classify h res).health h).map ∧
      (s.applyScan h res).rbit (Reg.HLT_EVT h) 6 = true ∧ Only ([.energy, .owed, .hlt] ++ messageParts) s (s.applyScan h res) := by
  obtain ⟨n, eq⟩ := applyScan_eq s h res
  have concludes := concluded_only s h res n
  obtain ⟨ends, map⟩ := concluded_health s h res n
  have flag : (s.concluded h res n).rbit (Reg.HLT_EVT h) 6 = true := concluded_flag s h res n
  generalize s.concluded h res n = w at *
  have tells := tellFailures_only w h (fun i => s.nozClass h i) res
  have flags := tellFailures_stays h (fun i => s.nozClass h i) res w
  have health := health_of_only tells (by decide) h
  generalize w.tellFailures h (fun i => s.nozClass h i) res = z at *
  have told : Only ([.energy, .owed, .hlt] ++ messageParts) s z := (concludes.mono (by decide)).trans (tells.mono (by decide))
  rw [eq]
  split
  · obtain ⟨q, saved⟩ := saveMap_health z h
    rw [saved h, if_pos rfl, health]
    exact ⟨ends, map, saveMap_stays z h 6 (by decide) (flags 6 (by decide) flag), told.trans (saveMap_only h)⟩
  · rw [health]
    exact ⟨ends, map, flags 6 (by decide) flag, told⟩

/-- The results of a scan's nozzles, by nozzle. -/
def scanResults (s : State) (h : Head) (c : Scan) : List (Nat × Nat × Nat) :=
  (s.scanList h).map fun i => (i, s.scanClass h (hitsOf c.hits i), hitsOf c.hits i)

theorem scanEnd_eq (runs : (s.health h).scan = some c) : s.scanEnd h =
    if 8 ≤ (s.scanResults h c).length ∧ ((s.scanResults h c).all fun e => decide (e.2.1 = 2)) = true then
      (s.modHealth h fun x => { x with scan := none }).hltRaise h 5 (Kind.gateFail h.val) 0
    else s.applyScan h (s.scanResults h c) := by
  unfold scanEnd
  rw [runs]
  rfl

/-- All of enough nozzles are silent: the gate has failed (R476). -/
theorem silent_iff (s : State) (h : Head) (c : Scan) :
    (8 ≤ (s.scanResults h c).length ∧ ((s.scanResults h c).all fun e => decide (e.2.1 = 2)) = true) ↔
      8 ≤ (s.scanList h).length ∧ ∀ i ∈ s.scanList h, s.scanClass h (hitsOf c.hits i) = 2 := by
  simp [scanResults]

/-- A scan that ends with results classes its nozzles and leaves the other entries (R476). -/
theorem scanEnd_classes (runs : (s.health h).scan = some c)
    (heard : (s.scanList h).length < 8 ∨ ∃ i ∈ s.scanList h, s.scanClass h (hitsOf c.hits i) ≠ 2) :
    ((s.scanEnd h).health h).scan = none ∧ (s.scanEnd h).rbit (Reg.HLT_EVT h) 6 = true ∧
      (∀ i ∈ s.scanList h, (s.scanEnd h).nozClass h i = s.scanClass h (hitsOf c.hits i)) ∧
      (∀ i, i ∉ s.scanList h → (s.scanEnd h).mapEntry h i = s.mapEntry h i) ∧
      Only ([.energy, .owed, .hlt] ++ messageParts) s (s.scanEnd h) := by
  have sounds : ¬ (8 ≤ (s.scanList h).length ∧ ∀ i ∈ s.scanList h, s.scanClass h (hitsOf c.hits i) = 2) := by
    rintro ⟨many, all⟩
    rcases heard with few | ⟨i, hi, heard⟩
    · omega
    · exact heard (all i hi)
  rw [scanEnd_eq runs, if_neg fun k => sounds ((silent_iff s h c).mp k)]
  obtain ⟨ends, map, flag, only⟩ := applyScan_spec s h (s.scanResults h c)
  have entry (j : Nat) : (s.applyScan h (s.scanResults h c)).mapEntry h j = if j ∈ s.scanList h then
      classed (s.mapEntry h j) (s.scanClass h (hitsOf c.hits j)) else s.mapEntry h j := by
    have named : (s.scanResults h c).map (·.1) = s.scanList h := by simp [scanResults, Function.comp_def]
    have classes := classify_mapEntry h (fun i => s.scanClass h (hitsOf c.hits i)) j (s.scanResults h c) s (by simp [scanResults])
    rw [named] at classes
    rw [mapEntry, map]
    exact classes
  refine ⟨ends, flag, fun i hi => ?_, fun i hi => ?_, only⟩
  · rw [nozClass, entry, if_pos hi]
    exact classed_class _ (scanClass_lt s h _)
  · rw [entry, if_neg hi]

/-- A scan whose nozzles are all silent ends without results, and the gate's failure is told (R476). -/
theorem scanEnd_silent (runs : (s.health h).scan = some c) (many : 8 ≤ (s.scanList h).length)
    (silent : ∀ i ∈ s.scanList h, s.scanClass h (hitsOf c.hits i) = 2) (up : s.unitInReset (22 + h.val) = false) :
    ((s.scanEnd h).health h).scan = none ∧ ((s.scanEnd h).health h).map = (s.health h).map ∧ (s.scanEnd h).hltPends h 5 ∧
      Only (.hlt :: messageParts) s (s.scanEnd h) := by
  rw [scanEnd_eq runs, if_pos ((silent_iff s h c).mpr ⟨many, silent⟩), hltRaise_health, modHealth_health_same]
  have closed : Only [.hlt] s (s.modHealth h fun x => { x with scan := none }) := modHealth_only _ _
  exact ⟨rfl, rfl, hltRaise_pends rfl ((unitInReset_of_only closed (by decide) _).trans up) (by decide) _,
    (closed.mono (by decide)).trans ((hltRaise_only _ _ _ _).mono (by decide))⟩

end State
end Sys2Proof.Machine
end

section
/-! ## The health map, keep-wet bursts and fire counts -/

namespace Sys2Proof.Machine
namespace State

variable {s t u v : State} {o : OpCtx} {env : OpEnv} {h : Head} {ws : Words}

/-! ### The map from its region -/

/-- A table of values by index holds each of them. -/
theorem get_tabFrom {α : Type} [DecidableEq α] (z : α) (f : Nat → α) (j : Nat) : ∀ k i : Nat,
    Tab.get (fun _ => z) (tabFrom z f i k) j = if i ≤ j ∧ j < i + k then f j else z
  | 0, i => by
    rw [if_neg (by omega)]
    rfl
  | k + 1, i => by
    have later := get_tabFrom z f j k (i + 1)
    rw [tabFrom]
    by_cases here : i = j
    · subst j
      rw [show (if i ≤ i ∧ i < i + (k + 1) then f i else z) = f i from if_pos (by omega)]
      split
      · next blank => rw [later, if_neg (by omega), blank]
      · exact if_pos rfl
    · have range : (i + 1 ≤ j ∧ j < i + 1 + k) ↔ (i ≤ j ∧ j < i + (k + 1)) := by omega
      simp only [range] at later
      split
      · exact later
      · exact (if_neg here).trans later

theorem loadMap_valid (good : mapRegionOk h (s.mem.loftBytes (mapOffset h) 2112) = true) : s.loadMap h = (s.modHealth h fun x =>
    { x with map := readMap (s.mem.loftBytes (mapOffset h) 2112), mapSeq := word (u32 (s.mem.loftBytes (mapOffset h) 2112) 8) }, true) := by
  unfold loadMap
  dsimp only
  rw [if_pos good]

theorem loadMap_invalid (bad : mapRegionOk h (s.mem.loftBytes (mapOffset h) 2112) = false) : s.loadMap h = (s, false) := by
  unfold loadMap
  dsimp only
  rw [if_neg (by rw [bad]; exact Bool.false_ne_true)]

/-- `MAP_LOAD` from a valid region (R481). -/
theorem mapLoad_valid (good : mapRegionOk h (s.mem.loftBytes (mapOffset h) 2112) = true) : s.mapLoad h = s.modHealth h fun x =>
    { x with map := readMap (s.mem.loftBytes (mapOffset h) 2112), mapSeq := word (u32 (s.mem.loftBytes (mapOffset h) 2112) 8) } := by
  unfold mapLoad
  rw [loadMap_valid good]
  exact if_pos rfl

theorem mapLoad_invalid (bad : mapRegionOk h (s.mem.loftBytes (mapOffset h) 2112) = false) :
    s.mapLoad h = (s.setFlag (Reg.HLT_EVT h) 9).commit := by
  unfold mapLoad
  rw [loadMap_invalid bad]
  exact if_neg Bool.false_ne_true

theorem mapLoad_mapEntry (good : mapRegionOk h (s.mem.loftBytes (mapOffset h) 2112) = true) (i : Nat) : (s.mapLoad h).mapEntry h i =
    if i < 1024 then BitVec.ofNat 16 (u16 (s.mem.loftBytes (mapOffset h) 2112) (16 + 2 * i)) else 0 := by
  rw [mapLoad_valid good, mapEntry, modHealth_health_same]
  dsimp only
  rw [readMap, get_tabFrom]
  simp only [Nat.zero_le, Nat.zero_add, true_and]

/-! ### Saves -/

theorem mapBytes_length (s : State) (h : Head) : (s.mapBytes h).length = 2112 := by
  have entries : ((List.range 1024).flatMap fun i => bytesLE 2 (s.mapEntry h i).toNat).length = 2048 := by
    rw [List.length_flatMap, List.map_congr_left (g := fun _ => 2) fun _ _ => bytesLE_length _ _, List.map_const', List.length_range,
      List.sum_replicate]
    rfl
  simp only [mapBytes, List.length_append, List.length_cons, List.length_nil, bytesLE_length, List.length_replicate, entries]

theorem fireBytes_length (s : State) (h : Head) : (s.fireBytes h).length = 6208 := by
  have counts : ((List.range 1024).flatMap fun i => bytesLE 6 (s.fireCount h i)).length = 6144 := by
    rw [List.length_flatMap, List.map_congr_left (g := fun _ => 6) fun _ _ => bytesLE_length _ _, List.map_const', List.length_range,
      List.sum_replicate]
    rfl
  simp only [fireBytes, List.length_append, List.length_cons, List.length_nil, bytesLE_length, List.length_replicate, counts]

theorem mapBytes_of_health (same : t.health h = s.health h) : t.mapBytes h = s.mapBytes h := by
  have entry (i : Nat) : t.mapEntry h i = s.mapEntry h i := by rw [mapEntry, same, mapEntry]
  simp only [mapBytes, same, entry]

theorem fireBytes_of_health (same : t.health h = s.health h) : t.fireBytes h = s.fireBytes h := by
  simp only [fireBytes, fireCount, same]

theorem reservedStaged_live (s : State) (who : StagedFor) (offset : Nat) (data : List Byte) :
    ⟨stagedHolder who, stagedEnergy data.length⟩ ∈ (s.reservedStaged who offset data).pwr.live :=
  List.mem_append_right _ (List.mem_singleton_self _)

theorem reservedStaged_staged (s : State) (who : StagedFor) (offset : Nat) (data : List Byte) :
    (s.reservedStaged who offset data).mem.staged = s.mem.staged ++ [⟨who, offset, data⟩] := rfl

/-- A save of the map that is granted (R481). -/
theorem saveMap_granted (free : s.stagedBusy (fun w => decide (w = .map h)) = false) (energy : s.wouldGrant false 596 = true) :
    s.saveMap h = (s.reservedStaged (.map h) (mapOffset h) (s.mapBytes h)).modHealth h fun x => { x with mapSeq := x.mapSeq + 1 } := by
  have grants : s.stageReserved (.map h) (mapOffset h) (s.mapBytes h) = (s.reservedStaged (.map h) (mapOffset h) (s.mapBytes h), true) :=
    stageReserved_granted _ _ (by rw [mapBytes_length]; exact energy)
  unfold saveMap
  rw [if_neg (by rw [free]; decide), grants]
  rfl

/-- A save of the fire counts that is granted (R485). -/
theorem saveFires_granted (dirty : (s.health h).firesDirty = true) (up : s.unitInReset (22 + h.val) = false)
    (free : s.stagedBusy (fun w => decide (w = .fires h)) = false) (energy : s.wouldGrant false 1364 = true) :
    s.saveFires h = (s.reservedStaged (.fires h) (firesOffset h) (s.fireBytes h)).modHealth h fun x =>
      { x with fireSeq := x.fireSeq + 1, firesDirty := false } := by
  have grants : s.stageReserved (.fires h) (firesOffset h) (s.fireBytes h) = (s.reservedStaged (.fires h) (firesOffset h) (s.fireBytes h), true) :=
    stageReserved_granted _ _ (by rw [fireBytes_length]; exact energy)
  unfold saveFires
  rw [if_neg (by rw [dirty, up, free]; decide), grants]
  rfl

/-! ### The write of an entry -/

/-- Words of registers alone, of which none selects a job or clears flags, are placed and nothing else is stored. -/
theorem storeWords_plain (jobless : ∀ w ∈ ws, jobLane w.1 = none) (small : ∀ w ∈ ws, w.1 < 0x10000) (plain : ∀ w ∈ ws, w1gMask w.1 = 0)
    (m : MemEnv) : s.storeWords m ws = s.placeWords ws := by
  have fixed {f : State → Nat × Word → State} (hf : ∀ (v : State), ∀ w ∈ ws, f v w = v) (v : State) : ws.foldl f v = v :=
    (List.foldl_ext f (fun v _ => v) v hf).trans (List.foldl_fixed _)
  have all : (ws.filter fun w => !(jobLane w.1).isSome) = ws := List.filter_eq_self.2 fun w hw => by rw [jobless w hw]; rfl
  unfold storeWords
  dsimp only
  refine (fixed (fun v w hw => ?_) _).trans ?_
  · have := small w hw
    rw [if_neg (by omega), if_neg (by omega), if_pos (by rw [plain w hw]; exact BitVec.and_zero)]
  · rw [all, fixed fun v w hw => ?_]
    rw [jobless w hw]

/-- The words that write an entry of the map (R480). -/
def entryWords (h : Head) (sel entry : Word) : Words := [(Reg.HLT_NOZ_SEL h, sel), (Reg.HLT_NOZ h, entry)]

theorem entry_masks : ∀ h : Head, rwMask (Reg.HLT_NOZ_SEL h) = 1023 ∧ w1gMask (Reg.HLT_NOZ_SEL h) = 0 ∧ rwMask (Reg.HLT_NOZ h) ≠ 0 ∧
    w1gMask (Reg.HLT_NOZ h) = 0 ∧ jobLane (Reg.HLT_NOZ_SEL h) = none ∧ jobLane (Reg.HLT_NOZ h) = none ∧
    inst4 (Reg.HLT_NOZ_SEL h) 0xC000 0x100 = h ∧ inst4 (Reg.HLT_NOZ h) 0xC000 0x100 = h := by decide

theorem entryWords_untouched (h : Head) (sel entry : Word) (n : Lane) :
    touchesLatched (entryWords h sel entry) n = false ∧ touchesTable (entryWords h sel entry) n = false := by
  obtain ⟨-, -, -, -, jobless, jobless', -⟩ := entry_masks h
  constructor
  · simp only [touchesLatched, entryWords, List.any_cons, List.any_nil, Bool.or_false, Bool.or_eq_false_iff, decide_eq_false_iff_not,
      Reg.PLC_JOB, Reg.PLC_MARK_BASE, Reg.CMP_GCACHE, Reg.CAL_SHELF, Reg.CAL_DATE_OVR, Reg.HLT_NOZ_SEL, Reg.HLT_NOZ]
    omega
  · simp only [touchesTable, entryWords, List.any_cons, List.any_nil, selectsJob_none jobless, selectsJob_none jobless', Bool.and_false,
      Bool.or_false, Bool.or_eq_false_iff, decide_eq_false_iff_not, Reg.HED_WF, Reg.HED_SCALE, waveBase, Reg.HLT_NOZ_SEL, Reg.HLT_NOZ]
    exact ⟨⟨by omega, decide_eq_false (by omega)⟩, by omega, decide_eq_false (by omega)⟩

/-- The selection is placed; the entry is no register of its own (R480). -/
theorem placeWords_entry (s : State) (h : Head) (sel entry : Word) : s.placeWords (entryWords h sel entry) =
    s.setReg (Reg.HLT_NOZ_SEL h) ((s.reg (Reg.HLT_NOZ_SEL h) &&& ~~~(rwMask (Reg.HLT_NOZ_SEL h))) ||| (sel &&& rwMask (Reg.HLT_NOZ_SEL h))) := by
  rw [entryWords, placeWords, List.foldl_cons, List.foldl_cons, List.foldl_nil, if_pos (by simp only [Reg.HLT_NOZ]; omega),
    if_neg (by simp only [Reg.HLT_NOZ_SEL]; omega)]

/-- A selection of an entry starts nothing; the word of the entry writes it (R480). -/
theorem healthEffect_entry {a : Nat} {w : Word} {g : Head} (v : State) (gates : Vector (BitVec 12) 4) (head : inst4 a 0xC000 0x100 = g) :
    (a % 0x100 = 0x58 → healthEffect s v gates a w = v) ∧
      (a % 0x100 = 0x5C → healthEffect s v gates a w = v.writeEntry g (v.fld (Reg.HLT_NOZ_SEL g) 9 0) (bits w 12 0)) := by
  subst head
  unfold healthEffect
  constructor
  · intro place
    rw [place]
    rfl
  · intro place
    rw [place]
    rfl

theorem makeWrite_entry (h : Head) (sel entry : Word) : s.makeWrite env (entryWords h sel entry) =
    ((s.placeWords (entryWords h sel entry)).commit.writeEntry h ((s.placeWords (entryWords h sel entry)).commit.fld (Reg.HLT_NOZ_SEL h) 9 0)
      (bits entry 12 0), s.order + 1) := by
  obtain ⟨fields, flagless, fields', flagless', jobless, jobless', head, head'⟩ := entry_masks h
  have place : 0xC000 ≤ Reg.HLT_NOZ_SEL h ∧ Reg.HLT_NOZ_SEL h < 0xC400 ∧ Reg.HLT_NOZ_SEL h % 0x100 = 0x58 := by
    simp only [Reg.HLT_NOZ_SEL]
    omega
  have place' : 0xC000 ≤ Reg.HLT_NOZ h ∧ Reg.HLT_NOZ h < 0xC400 ∧ Reg.HLT_NOZ h % 0x100 = 0x5C := by
    simp only [Reg.HLT_NOZ]
    omega
  have both {P : Nat × Word → Prop} (p : P (Reg.HLT_NOZ_SEL h, sel)) (q : P (Reg.HLT_NOZ h, entry)) : ∀ w ∈ entryWords h sel entry, P w :=
    fun w hw => (List.mem_cons.mp hw).elim (fun e => e ▸ p) fun e => List.mem_singleton.mp e ▸ q
  have stored : s.storeWords env.mem (entryWords h sel entry) = s.placeWords (entryWords h sel entry) :=
    storeWords_plain (both jobless jobless') (both (by dsimp only; omega) (by dsimp only; omega)) (both flagless flagless') _
  have order : (s.placeWords (entryWords h sel entry)).order = s.order := (placeWords_only _).part .order (by decide)
  have late (v : State) : allLanes.foldl (fun (s : State) (n : Lane) =>
      if touchesLatched (entryWords h sel entry) n then s.commitLate n else s) v = v :=
    List.foldl_fixed' (fun n => by rw [(entryWords_untouched h sel entry n).1]; rfl) _
  have table (v : State) : allLanes.foldl (fun (s : State) (n : Lane) =>
      if touchesTable (entryWords h sel entry) n then s.checkTable n else s) v = v :=
    List.foldl_fixed' (fun n => by rw [(entryWords_untouched h sel entry n).2]; rfl) _
  rw [makeWrite_live (both flagless flagless') (both (moot_fields (by rw [fields]; decide) (by omega) (by omega))
    (moot_fields fields' (by omega) (by omega))) (List.cons_ne_nil _ _) (both (by dsimp only; omega) (by dsimp only; omega)), stored, order,
    startAll, late, table]
  refine congrArg (·, s.order + 1) ?_
  generalize (s.placeWords (entryWords h sel entry)).commit = v
  rw [entryWords, List.foldl_cons, List.foldl_cons, List.foldl_nil, effect_blockHlt _ place.1 place.2.1, (healthEffect_entry v _ head).1 place.2.2,
    effect_blockHlt _ place'.1 place'.2.1, (healthEffect_entry v _ head').2 place'.2.2]

/-- A granted write of an entry of the map (R480). -/
theorem nozzleEntry_granted {sel entry : Word} (granted : s.Granted o env (Reg.HLT_NOZ_SEL h) [sel, entry]) :
    ∃ v : State, s.finish (s.ownerWrites o env (Reg.HLT_NOZ_SEL h) [sel, entry]) =
        .next (s.written o (v.writeEntry h (bits sel 9 0) (bits entry 12 0))) ∧ Only [.order, .regs] s v := by
  obtain ⟨fields, -⟩ := entry_masks h
  have words : wordsAt (Reg.HLT_NOZ_SEL h) [sel, entry] = entryWords h sel entry := by
    have small : Reg.HLT_NOZ_SEL h < 2 ^ 32 := by simp only [Reg.HLT_NOZ_SEL]; omega
    have next : Reg.HLT_NOZ_SEL h + 4 = Reg.HLT_NOZ h := by simp only [Reg.HLT_NOZ_SEL, Reg.HLT_NOZ]; omega
    simp only [wordsAt, writeList, wordAddrs, word, BitVec.toNat_ofNat, Nat.mod_eq_of_lt small, entryWords, ← next]
    rfl
  have run := finish_granted granted
  rw [words, makeWrite_entry] at run
  have placed : (s.placeWords (entryWords h sel entry)).commit.fld (Reg.HLT_NOZ_SEL h) 9 0 = bits sel 9 0 := by
    rw [fld, commit_reg, placeWords_entry, setReg_reg_same, fields, bits_placed _ _ (by decide)]
  rw [placed] at run
  exact ⟨_, run, (only_commit (by decide)).2 ((placeWords_only _).mono (by decide))⟩

end State
end Sys2Proof.Machine
end

section
/-! ## O59 -/

namespace Sys2Proof.Machine
namespace State

variable {s t u v : State} {o : OpCtx} {env : OpEnv} {h : Head}

/-- An owner's write of an entry sets that entry, and a nozzle that fails by it is told (R480). -/
theorem writeEntry_spec (s : State) (h : Head) (i k : Nat) (small : k < 8192) :
    (s.writeEntry h i k).mapEntry h i = BitVec.ofNat 16 k ∧ (∀ j, j ≠ i → (s.writeEntry h i k).mapEntry h j = s.mapEntry h j) ∧
      (k % 4 = 2 → s.nozClass h i ≠ 2 → s.unitInReset (22 + h.val) = false → (s.writeEntry h i k).hltPends h 4) := by
  have entry (j : Nat) : (s.setEntry h i (BitVec.ofNat 16 (k % 8192))).mapEntry h j = if j = i then BitVec.ofNat 16 k else s.mapEntry h j := by
    rw [setEntry_mapEntry, Nat.mod_eq_of_lt small]
  have sets := setEntry_only (u := s) h i (BitVec.ofNat 16 (k % 8192))
  have eq : s.writeEntry h i k =
      if (s.setEntry h i (BitVec.ofNat 16 (k % 8192))).nozClass h i = 2 ∧ s.nozClass h i ≠ 2 then
        (s.setEntry h i (BitVec.ofNat 16 (k % 8192))).hltRaise h 4 (Kind.nozzleFail h.val) (word i)
      else s.setEntry h i (BitVec.ofNat 16 (k % 8192)) := rfl
  generalize s.setEntry h i (BitVec.ofNat 16 (k % 8192)) = w at *
  have same (j : Nat) : (s.writeEntry h i k).mapEntry h j = w.mapEntry h j := by
    rw [eq, mapEntry]
    split
    · rw [hltRaise_health, mapEntry]
    · rfl
  refine ⟨by rw [same, entry, if_pos rfl], fun j hj => by rw [same, entry, if_neg hj], fun fails sound up => ?_⟩
  have failed : w.nozClass h i = 2 := by
    rw [nozClass, entry, if_pos rfl, BitVec.toNat_ofNat, Nat.mod_eq_of_lt (by omega : k < 2 ^ 16)]
    exact fails
  rw [eq, if_pos ⟨failed, sound⟩]
  exact hltRaise_pends rfl ((State.unitInReset_of_only sets (by decide) _).trans up) (by decide) _

/-! ### Keep-wet bursts -/

/-- A burst that starts (R482, R483). -/
def burstBegun (s : State) (h : Head) : State :=
  ((s.modHealth h fun x => { x with idleFrom := s.tick, spat := true }).grant (.spit h) (s.reg (Reg.HLT_ESPIT h)).toNat).modHealth h fun x =>
    { x with burst := some ⟨0, s.tick + s.fld (Reg.HLT_SPIT_PER h) 19 0⟩ }

theorem spitWaitEnd_starts (may : s.mayBurst h = true) (energy : s.wouldGrant false (s.reg (Reg.HLT_ESPIT h)).toNat = true) :
    s.spitWaitEnd h = s.burstBegun h := by
  have granted : (s.modHealth h fun x => { x with idleFrom := s.tick, spat := true }).wouldGrant false (s.reg (Reg.HLT_ESPIT h)).toNat = true :=
    energy
  unfold spitWaitEnd startBurst
  rw [if_pos may, if_pos may]
  exact if_pos granted

theorem burstBegun_spec (s : State) (h : Head) :
    ((s.burstBegun h).health h).burst = some ⟨0, s.tick + s.fld (Reg.HLT_SPIT_PER h) 19 0⟩ ∧ ((s.burstBegun h).health h).spat = true ∧
      ⟨.spit h, (s.reg (Reg.HLT_ESPIT h)).toNat⟩ ∈ (s.burstBegun h).pwr.live ∧ Only [.order, .energy, .hlt] s (s.burstBegun h) := by
  refine ⟨?_, ?_, List.mem_append_right _ (List.mem_singleton_self _), ?_⟩
  · rw [burstBegun, modHealth_health_same]
  · rw [burstBegun, modHealth_health_same, grant_health, modHealth_health_same]
  · exact ((modHealth_only _ _).mono (by decide)).trans (((grant_only _ _).mono (by decide)).trans ((modHealth_only _ _).mono (by decide)))

theorem endBurst_eq {b : Burst} (runs : (s.health h).burst = some b) :
    s.endBurst h = ((s.debitAll (.spit h)).modHealth h fun x => { x with burst := none }).commit := if_pos (by rw [spitting, runs]; rfl)

theorem endBurst_spec {b : Burst} (runs : (s.health h).burst = some b) : ((s.endBurst h).health h).burst = none ∧
    (s.endBurst h).isLive (.spit h) = false ∧ Only [.order, .energy, .hlt] s (s.endBurst h) := by
  rw [endBurst_eq runs]
  have debited := debitAll_isLive s (.spit h)
  have debits := debitAll_only (u := s) (.spit h)
  generalize s.debitAll (.spit h) = w at *
  have closes : Only [.order, .hlt] w (w.modHealth h fun x => { x with burst := none }).commit :=
    (only_commit (by decide)).2 ((modHealth_only _ _).mono (by decide))
  refine ⟨by rw [commit_health, modHealth_health_same], (isLive_of_only closes (by decide) _).trans debited,
    (debits.mono (by decide)).trans (closes.mono (by decide))⟩

/-- A keep-wet firing at a port that is READY: the last one of its burst ends it (R483). -/
theorem spitFire_spec {b : Burst} (runs : (s.health h).burst = some b) (ready : s.hedReady h = true) :
    ((s.spitFire h).head h).firings = (s.head h).firings ++ [⟨(s.planFire h).2, .spit, s.spitCodes h b.g, s.ampScale h, s.tScale h⟩] ∧
      ((s.spitFire h).health h).burst = (if s.fld (Reg.HLT_SPIT_B h) 7 0 ≤ b.g + 1 then none
        else some ⟨b.g + 1, b.nextAt + s.fld (Reg.HLT_SPIT_PER h) 19 0⟩) ∧
      (s.fld (Reg.HLT_SPIT_B h) 7 0 ≤ b.g + 1 → (s.spitFire h).isLive (.spit h) = false) ∧ Only [.order, .energy, .hed, .hlt] s (s.spitFire h) := by
  obtain ⟨w, pushed, regs, only, eq⟩ : ∃ w, (w.head h).firings =
        (s.head h).firings ++ [⟨(s.planFire h).2, .spit, s.spitCodes h b.g, s.ampScale h, s.tScale h⟩] ∧ (∀ a, w.reg a = s.reg a) ∧
      Only [.hed] s w ∧ s.spitFire h = if w.fld (Reg.HLT_SPIT_B h) 7 0 ≤ b.g + 1 then w.endBurst h else w.modHealth h fun x =>
        { x with burst := some ⟨b.g + 1, b.nextAt + w.fld (Reg.HLT_SPIT_PER h) 19 0⟩ } := by
    refine ⟨_, (pushFiring_head s h (s.planFire h).2 .spit (s.spitCodes h b.g)).1, fun a => modHead_reg _ _ _ a, pushFiring_only _ _ _ _, ?_⟩
    unfold spitFire
    rw [runs]
    dsimp only
    rw [if_pos ready]
  have same : (w.health h).burst = some b := by rw [health_of_only only (by decide)]; exact runs
  rw [eq, fld_of_regs regs, fld_of_regs regs]
  split
  · next last =>
    obtain ⟨ends, debited, goes⟩ := endBurst_spec same
    exact ⟨by rw [head_of_only goes (by decide)]; exact pushed, ends, fun _ => debited, (only.mono (by decide)).trans (goes.mono (by decide))⟩
  · next more =>
    exact ⟨pushed, by rw [modHealth_health_same], fun k => absurd k more, (only.mono (by decide)).trans ((modHealth_only _ _).mono (by decide))⟩

theorem shotDue_some {c : Scan} {i : Nat} {rest : List Nat} (runs : (s.health h).scan = some c) (next : c.todo = i :: rest) :
    s.shotDue h = some c.nextAt := by
  unfold shotDue
  rw [runs]
  dsimp only
  rw [next]
  rfl

end State

/-- Settles O59: each command and each event of a health unit is one state operation (`State.startScan_lit`, `State.shoot_eq`,
`State.gateFall_eq`, `State.scanEnd_classes`, `State.mapLoad_valid`, `State.saveMap_granted`, `State.writeEntry_spec`,
`State.burstBegun_spec`, `State.spitFire_spec`, `State.saveFires_granted`), taken in the state that its write or its tick leaves. -/
theorem nozzleHealthIsKept : Obligations.NozzleHealthIsKept := by
  intro s h x
  refine ⟨fun o env granted => ⟨fun lit => ?_, fun dark up => ?_⟩, fun c i rest ticks runs next => ?_, fun c ticks runs => ?_,
    fun c d ticks runs ends => ?_, fun o granted => ?_, fun o granted free energy => ?_, fun o sel entry granted => ?_,
    fun d ticks due => ?_, fun b ticks runs => ?_, fun ticks booted period => ?_⟩
  · obtain ⟨v, run, regs, only⟩ := State.scan_granted granted
    have same : v.health h = s.health h := State.health_of_only only (by decide) h
    have field (a hi lo : Nat) : v.fld a hi lo = s.fld a hi lo := State.fld_of_regs regs a hi lo
    rw [State.startScan_lit (by rw [field]; exact lit), State.newScan_congr regs same (only.part .tick (by decide))] at run
    refine ⟨_, s.newScan h, run, ?_, rfl, rfl, rfl, rfl, rfl, fun b _ => regs b, (only.mono (by decide)).trans ((State.modHealth_only _ _).mono (by decide))⟩
    rw [State.modHealth_health_same, same]
  · obtain ⟨v, run, regs, only⟩ := State.scan_granted granted
    rw [State.startScan_dark (by rw [State.fld_of_regs regs]; exact dark)] at run
    have pends := State.hltRaise_pends (s := v) (h := h) (k := Kind.gateFail h.val) rfl ((State.unitInReset_of_only only (by decide) _).trans up)
      (flag := 5) (by decide) 0
    exact ⟨_, run, (only.mono (by decide)).trans (State.hltRaise_only _ _ _ _), pends.1, pends.2⟩
  · intro t f ready
    have same : (t.health h).scan = some c := by rw [State.health_of_only (State.advanceTo_only _) (by decide)]; exact runs
    have heads : t.head h = s.head h := State.advanceTo_head s _ h
    have run : exec (.dropGateShot h) s = .next (s.after (t.shoot h)) := State.timed_next ticks (State.shotDue_some runs next) _
    rw [State.shoot_eq same next ready] at run
    obtain ⟨hits, todo, nextAt, last⟩ := State.shotScan_spec t h next
    refine ⟨_, t.shotScan h c i, run, ?_, ?_, List.mem_append_right _ (List.mem_singleton_self _), hits, todo, nextAt, last,
      ((State.pushFiring_only _ _ _ _).mono (by decide)).trans ((State.modHealth_only _ _).mono (by decide))⟩
    · rw [State.modHealth_health_same]
    · rw [State.modHealth_head, (State.pushFiring_head _ _ _ _ _).1, heads]
  · intro on
    have run : exec (.gateComparatorFall h false) s = .next (s.after (s.gateFall h)) := State.pinEvent_next ticks _ _
    rw [State.gateFall_eq runs] at run
    obtain ⟨hits, length, scored⟩ := State.fallen_spec s c
    exact ⟨_, s.fallen c, run, State.modHealth_health_same _ _ _, hits, length, scored, rfl, State.modHealth_only _ _⟩
  · intro t cls
    have same : (t.health h).scan = some c := by rw [State.health_of_only (State.advanceTo_only _) (by decide)]; exact runs
    have run : exec (.scanEnd h) s = .next (s.after (t.scanEnd h)) := by
      refine State.timed_next ticks (d := d) ?_ _
      rw [show (s.health h).scan = some c from runs]
      exact ends
    refine ⟨fun heard => ?_, fun many silent up => ?_⟩
    · obtain ⟨closes, flag, classes, others, only⟩ := State.scanEnd_classes same heard
      refine ⟨_, run, closes, flag, classes, fun i hi => (others i hi).trans ?_, only⟩
      rw [State.mapEntry, State.health_of_only (State.advanceTo_only d) (by decide), State.mapEntry]
    · obtain ⟨closes, map, pends, only⟩ := State.scanEnd_silent same many silent up
      rw [State.health_of_only (State.advanceTo_only d) (by decide)] at map
      exact ⟨_, run, closes, map, pends.1, pends.2, only⟩
  · intro b
    obtain ⟨v, run, regs, only⟩ := State.hltCommand_granted (k := 2) (fun k => absurd k (by decide)) granted
    have mem : v.mem = s.mem := State.mem_of_only only (by decide) (by decide) (by decide)
    rw [(State.healthEffect_command v _ h).2.2.1] at run
    refine ⟨fun good => ?_, fun bad => ?_⟩
    · have valid : State.mapRegionOk h (v.mem.loftBytes (State.mapOffset h) 2112) = true := by rw [mem]; exact good
      have entries := State.mapLoad_mapEntry valid
      have eq := State.mapLoad_valid valid
      rw [mem] at entries
      refine ⟨_, run, fun a _ => ?_, (only.mono (by decide)).trans ?_, entries⟩
      · rw [eq, State.modHealth_reg, regs]
      · rw [eq]
        exact (State.modHealth_only _ _).mono (by decide)
    · have invalid : State.mapRegionOk h (v.mem.loftBytes (State.mapOffset h) 2112) = false := by rw [mem]; exact bad
      rw [State.mapLoad_invalid invalid] at run
      refine ⟨_, run, (only.mono (by decide)).trans ((State.only_commit (by decide)).2 ((State.setFlag_only _ _).mono (by decide))), ?_⟩
      rw [State.commit_rbit]
      exact State.setFlag_rbit_same _ _ (by decide)
  · obtain ⟨v, run, regs, only⟩ := State.hltCommand_granted (k := 3) (fun k => absurd k (by decide)) granted
    have mem : v.mem = s.mem := State.mem_of_only only (by decide) (by decide) (by decide)
    have same : v.health h = s.health h := State.health_of_only only (by decide) h
    have granted' : v.wouldGrant false 596 = true :=
      (State.wouldGrant_congr (l := []) (State.pwr_of_only only (by decide) (by decide)) (fun a _ => regs a) (by decide) false 596).trans energy
    rw [(State.healthEffect_command v _ h).2.2.2, State.saveMap_granted (by rw [State.stagedBusy, mem]; exact free) granted',
      State.mapBytes_of_health same] at run
    refine ⟨_, run, ?_, ?_, fun a _ => ?_, (only.mono (by decide)).trans
      (((State.reservedStaged_only _ _ _ _).mono (by decide)).trans ((State.modHealth_only _ _).mono (by decide)))⟩
    · rw [State.modHealth_mem, State.reservedStaged_staged, mem]
      rfl
    · have live := State.reservedStaged_live v (.map h) (State.mapOffset h) (s.mapBytes h)
      rw [State.mapBytes_length] at live
      exact live
    · rw [State.modHealth_reg]
      exact ((State.reservedStaged_only _ _ _ _).regsIn (by decide) a (by simp)).trans (regs a)
  · obtain ⟨v, run, only⟩ := State.nozzleEntry_granted granted
    have same : v.health h = s.health h := State.health_of_only only (by decide) h
    have chosen : bits (word sel.toNat) 9 0 = sel.toNat := by
      have small := sel.isLt
      simp only [bits, word, BitVec.toNat_ofNat]
      omega
    rw [chosen] at run
    obtain ⟨sets, others, fails⟩ := State.writeEntry_spec v h sel.toNat (bits entry 12 0) (bits_lt _ _ _)
    refine ⟨_, run, sets, fun i hi => (others i hi).trans (by rw [State.mapEntry, same, State.mapEntry]),
      (only.mono (by decide)).trans (State.writeEntry_only _ _ _), fun failed sound up => ?_⟩
    have pends := fails (by rw [← failed]; simp only [bits]; omega) (by rw [State.nozClass_of_health same]; exact sound) ((State.unitInReset_of_only only (by decide) _).trans up)
    exact ⟨pends.1, pends.2⟩
  · intro t
    have same : t.health h = s.health h := State.health_of_only (State.advanceTo_only d) (by decide) h
    have run : exec (.keepWetWaitEnd h) s = .next (s.after (t.spitWaitEnd h)) := State.timed_next ticks due _
    refine ⟨fun barred => ?_, fun may energy => ?_⟩
    · rw [State.spitWaitEnd, if_neg (by rw [barred]; decide)] at run
      refine ⟨_, run, ?_, State.modHealth_only _ _⟩
      rw [State.modHealth_health_same, same]
    · rw [State.spitWaitEnd_starts may energy] at run
      exact ⟨_, run, State.burstBegun_spec t h⟩
  · intro t ready
    have same : (t.health h).burst = some b := by rw [State.health_of_only (State.advanceTo_only _) (by decide)]; exact runs
    have heads : t.head h = s.head h := State.advanceTo_head s _ h
    have run : exec (.keepWetFiring h) s = .next (s.after (t.spitFire h)) := by
      refine State.timed_next ticks (d := b.nextAt) ?_ _
      rw [show (s.health h).burst = some b from runs]
      rfl
    obtain ⟨fires, burst, live, only⟩ := State.spitFire_spec same ready
    rw [heads] at fires
    exact ⟨_, run, fires, burst, live, only⟩
  · intro t
    have run : exec (.fireCountSave h) s = .next (s.after ((s.takenAt (Ev.fireSave h)
        (s.dueAt (Ev.fireSave h) s.boot.doneAt (s.fld Reg.HLT_FC_CFG 11 0 * 100000000))).saveFires h)) :=
      State.fromBoot_next ticks booted (Nat.mul_ne_zero period (by decide)) _ _
    have taken := State.takenAt_only s (Ev.fireSave h) (s.dueAt (Ev.fireSave h) s.boot.doneAt (s.fld Reg.HLT_FC_CFG 11 0 * 100000000))
    have health := State.takenAt_health s (Ev.fireSave h) (s.dueAt (Ev.fireSave h) s.boot.doneAt (s.fld Reg.HLT_FC_CFG 11 0 * 100000000)) h
    have mem : (s.takenAt (Ev.fireSave h) (s.dueAt (Ev.fireSave h) s.boot.doneAt (s.fld Reg.HLT_FC_CFG 11 0 * 100000000))).mem = t.mem := rfl
    have energy (e : Nat) := State.wouldGrant_congr (l := []) (State.pwr_of_only taken (by decide) (by decide)) (taken.regsIn (by decide))
      (by decide) false e
    have same := health.trans (State.health_of_only (State.advanceTo_only (s.dueAt (Ev.fireSave h) s.boot.doneAt
      (s.fld Reg.HLT_FC_CFG 11 0 * 100000000))) (by decide) h).symm
    generalize s.takenAt (Ev.fireSave h) (s.dueAt (Ev.fireSave h) s.boot.doneAt (s.fld Reg.HLT_FC_CFG 11 0 * 100000000)) = w at *
    refine ⟨fun clean => ?_, fun dirty up free grants => ?_⟩
    · rw [State.saveFires, if_pos (.inl (by rw [health]; exact clean))] at run
      exact ⟨_, run, taken⟩
    · rw [State.saveFires_granted (by rw [health]; exact dirty) ((State.unitInReset_of_only taken (by decide) _).trans up)
        (by rw [State.stagedBusy, mem]; exact free) ((energy _).trans grants), State.fireBytes_of_health same] at run
      have live := State.reservedStaged_live w (.fires h) (State.firesOffset h) (t.fireBytes h)
      rw [State.fireBytes_length] at live
      refine ⟨_, run, ?_, ?_, live, (taken.mono (by decide)).trans
        (((State.reservedStaged_only _ _ _ _).mono (by decide)).trans ((State.modHealth_only _ _).mono (by decide)))⟩
      · rw [State.modHealth_mem, State.reservedStaged_staged, mem]
        rfl
      · rw [State.modHealth_health_same]

end Sys2Proof.Machine
end

section
/-! ## What Hoist channels do to the state -/

namespace Sys2Proof.Machine
namespace State

variable {s t u v w : State} {c d : Chan} {env : MemEnv} {x : Xfer} {k : Kind}

/-! ### Channels -/

theorem chan_of_only {l : List Part} (h : Only l s t) (hl : .hst ∉ l) (d : Chan) : t.chan d = s.chan d :=
  congrArg (fun v : Hst => v.chans[d]) (h.part .hst hl)

/-- The other channels of a changed one. -/
theorem modChan_others (s : State) (c : Chan) (f : ChanSt → ChanSt) : ∀ d, d ≠ c → (s.modChan c f).chan d = s.chan d :=
  fun _ hd => modChan_chan_other _ _ _ _ (Ne.symm hd)

theorem mayExecute_iff : s.mayExecute c = true ↔ (s.chan c).state = .running ∧ (s.chan c).aborting = false ∧ (s.chan c).ready = false := by
  simp [mayExecute, and_assoc]

theorem advancePos_chan (s : State) (c : Chan) (n : Nat) : (s.advancePos c n).chan c = { s.chan c with pos := (s.chan c).pos + word n } :=
  modChan_chan_same _ _ _

theorem advancePos_only (s : State) (c : Chan) (n : Nat) : Only [.hst] s (s.advancePos c n) := modChan_only _ _

theorem waitChan_chan (s : State) (c : Chan) (w : WaitFor) : (s.waitChan c w).chan c = { s.chan c with state := .waiting, wait := some w } := by
  rw [waitChan, commit_chan, modChan_chan_same]

theorem waitChan_others (s : State) (c : Chan) (w : WaitFor) : ∀ d, d ≠ c → (s.waitChan c w).chan d = s.chan d := fun d hd => by
  rw [waitChan, commit_chan]
  exact modChan_others s c _ d hd

theorem waitChan_only (s : State) (c : Chan) (w : WaitFor) : Only [.order, .hst] s (s.waitChan c w) :=
  (only_commit (by decide)).2 ((modChan_only _ _).mono (by decide))

theorem wakeChan_chan (s : State) (c : Chan) :
    (s.wakeChan c).chan c = { s.chan c with state := .queued, queuedAt := s.order + 1, wait := none } := by
  rw [wakeChan, commit_chan, modChan_chan_same]

theorem wakeChan_others (s : State) (c : Chan) : ∀ d, d ≠ c → (s.wakeChan c).chan d = s.chan d := fun d hd => by
  rw [wakeChan, commit_chan]
  exact modChan_others s c _ d hd

theorem wakeChan_only (s : State) (c : Chan) : Only [.order, .hst] s (s.wakeChan c) :=
  (only_commit (by decide)).2 ((modChan_only _ _).mono (by decide))

theorem dropShaft_cases (s : State) (c : Chan) : s.dropShaft c = s ∨ ∃ r, s.dropShaft c = s.modHst fun h => { h with running := r } := by
  unfold dropShaft
  dsimp only
  split
  · exact .inr ⟨_, rfl⟩
  · exact .inl rfl

theorem dropShaft_chan (s : State) (c d : Chan) : (s.dropShaft c).chan d = s.chan d := by
  rcases dropShaft_cases s c with eq | ⟨r, eq⟩
  · rw [eq]
  · rw [eq]
    rfl

theorem dropShaft_reg (s : State) (c : Chan) (b : Nat) : (s.dropShaft c).reg b = s.reg b := by
  rcases dropShaft_cases s c with eq | ⟨r, eq⟩
  · rw [eq]
  · rw [eq]
    rfl

theorem dropShaft_only (s : State) (c : Chan) : Only [.hst] s (s.dropShaft c) := by
  rcases dropShaft_cases s c with eq | ⟨r, eq⟩
  · rw [eq]
    exact Only.refl _ _
  · rw [eq]
    exact modHst_only _

/-! ### Halts -/

theorem hstEvt_block : ∀ c : Chan, Reg.HST_EVT c / 0x1000 = 8 := by decide

/-- The error registers of a channel. -/
def errRegs (c : Chan) : List Nat := [Reg.HST_ERR_ADDR c, Reg.HST_ERR_INFO c, Reg.HST_RESIDUE c]

theorem latchHalt_only (s : State) (c : Chan) (a : Word) (n : Nat) (dir confirm table : Bool) (residue : Nat) :
    Only [.regs] s (s.latchHalt c a n dir confirm table residue) :=
  ((setReg_only _ _).trans (setReg_only _ _)).trans (setReg_only _ _)

theorem latchHalt_addr (s : State) (c : Chan) (a : Word) (n : Nat) (dir confirm table : Bool) (residue : Nat) :
    (s.latchHalt c a n dir confirm table residue).reg (Reg.HST_ERR_ADDR c) = a := by
  have info : Reg.HST_ERR_INFO c ≠ Reg.HST_ERR_ADDR c := by simp only [Reg.HST_ERR_INFO, Reg.HST_ERR_ADDR]; omega
  have left : Reg.HST_RESIDUE c ≠ Reg.HST_ERR_ADDR c := by simp only [Reg.HST_RESIDUE, Reg.HST_ERR_ADDR]; omega
  rw [latchHalt, setReg_reg_other _ _ _ _ left, setReg_reg_other _ _ _ _ info, setReg_reg_same]

/-- A channel that halts changes its state, and its message is pending (R333, R350). -/
theorem haltChan_chan (s : State) (c : Chan) (k : Kind) (a : Word) :
    (s.haltChan c k a).chan c = { s.chan c with state := .halted, wait := none } := by
  have told : Only messageParts s (s.raise k a) := raiseN_only 12 s k a none
  rw [haltChan, commit_chan, dropShaft_chan, modChan_chan_same, setFlag_chan, chan_of_only told (by decide)]

theorem haltChan_others (s : State) (c : Chan) (k : Kind) (a : Word) : ∀ d, d ≠ c → (s.haltChan c k a).chan d = s.chan d := fun d hd => by
  have told : Only messageParts s (s.raise k a) := raiseN_only 12 s k a none
  rw [haltChan, commit_chan, dropShaft_chan, modChan_chan_other _ _ _ _ (Ne.symm hd), setFlag_chan, chan_of_only told (by decide)]

theorem haltChan_only (s : State) (c : Chan) (k : Kind) (a : Word) : Only (.hst :: messageParts) s (s.haltChan c k a) := by
  have told : Only messageParts s (s.raise k a) := raiseN_only 12 s k a none
  exact (only_commit (by decide)).2 ((told.mono (by decide)).trans (((setFlag_only _ _).mono (by decide)).trans
    (((modChan_only _ _).mono (by decide)).trans ((dropShaft_only _ _).mono (by decide)))))

theorem haltChan_reg (small : k.src < 36) (a : Word) {b : Nat} (hb : b / 0x1000 ≠ 4) (hn : b ≠ Reg.HST_EVT c) :
    (s.haltChan c k a).reg b = s.reg b := by
  rw [haltChan, commit_reg, dropShaft_reg, modChan_reg, setFlag_reg_other _ _ _ _ (Ne.symm hn)]
  exact raiseN_in 12 s k a none small b (by simpa using hb)

theorem haltChan_flag (s : State) (c : Chan) (k : Kind) (a : Word) : (s.haltChan c k a).rbit (Reg.HST_EVT c) 2 = true := by
  rw [haltChan, commit_rbit, rbit, dropShaft_reg, modChan_reg]
  exact setFlag_rbit_same _ _ (by decide)

theorem haltChan_pends (src : k.src = 11) (up : s.unitInReset 11 = false) (a : Word) : (s.haltChan c k a).rbit Reg.FLT_PEND_A 11 = true := by
  have pend := raiseN_pending (s := s) 11 k a none (by omega) (by rw [src]; exact up)
  rw [if_pos (by omega), src] at pend
  rw [haltChan, commit_rbit, rbit, dropShaft_reg, modChan_reg, setFlag_reg_other _ _ _ _ (by simp only [Reg.HST_EVT, Reg.FLT_PEND_A]; omega)]
  exact pend

/-- A program fault at the current instruction (R368). -/
theorem programFault_spec (up : s.unitInReset 11 = false) (c : Chan) : ((s.programFault c (.ok 0)).chan c).state = .halted ∧
    (s.programFault c (.ok 0)).rbit (Reg.HST_EVT c) 2 = true ∧ (s.programFault c (.ok 0)).rbit Reg.FLT_PEND_A 11 = true ∧
    (s.programFault c (.ok 0)).reg (Reg.HST_ERR_ADDR c) = (s.chan c).pos ∧ (∀ d, d ≠ c → (s.programFault c (.ok 0)).chan d = s.chan d) ∧
    Only (.hst :: messageParts) s (s.programFault c (.ok 0)) := by
  have eq : s.programFault c (.ok 0) = (s.latchHalt c (s.chan c).pos 4 false false false 0).haltChan c Kind.hstProgram (s.chan c).pos := rfl
  have latched := latchHalt_only s c (s.chan c).pos 4 false false false 0
  have addr := latchHalt_addr s c (s.chan c).pos 4 false false false 0
  rw [eq]
  generalize s.latchHalt c (s.chan c).pos 4 false false false 0 = v at *
  refine ⟨by rw [haltChan_chan], haltChan_flag _ _ _ _, haltChan_pends rfl ((unitInReset_of_only latched (by decide) _).trans up) _, ?_,
    fun d hd => (haltChan_others v c _ _ d hd).trans (chan_of_only latched (by decide) d), (latched.mono (by decide)).trans (haltChan_only _ _ _ _)⟩
  rw [haltChan_reg (by decide) _ (by simp only [Reg.HST_ERR_ADDR]; omega) (by simp only [Reg.HST_ERR_ADDR, Reg.HST_EVT]; omega), addr]

/-! ### Accesses -/

/-- What the access of a channel may change outside the Hoist: memory, the Cellar interface with its messages, and snapshots. -/
def accessParts : List Part := [.order, .regs, .guards, .flt, .due, .larder, .flash, .lnk, .crates, .out]

theorem captureAt_only (s : State) (a : Nat) : Only [.regs] s (s.captureAt a) := only_ite (capture_only _) (Only.refl _ _)

theorem captureAt_high (s : State) {a : Nat} (high : 0x10000 ≤ a) : s.captureAt a = s := if_neg (Nat.not_lt.mpr high)

theorem celResult_parts (s : State) (r : Nat) : Only [.regs, .guards] s (s.celResult r) := by
  have placed : Only [.regs, .guards] s (s.setFld Reg.MEM_CEL_PSTAT 7 4 r) := (setFld_only _ _ _ _).mono (by decide)
  exact only_ite (placed.trans (setFlag_only _ _)) (only_ite (placed.trans (setFlag_only _ _)) placed)

/-- A run of the Cellar that starts changes its interface (R89). -/
theorem celStart_only (s : State) (r : CelRun) : Only [.flash] s (s.modMem fun m => { m with celRun := some r }) :=
  modMem_only_of _ (fun _ => rfl) (fun k => absurd (by decide) k) fun _ => ⟨rfl, rfl⟩

theorem celGo_only (s : State) : Only accessParts s s.celGo.1 := by
  have told (r : Nat) (k : Kind) (a : Word) : Only accessParts s ((s.celResult r).raise k a) :=
    ((celResult_parts s r).mono (by decide)).trans ((raiseN_only 12 _ k a none).mono (by decide))
  unfold celGo
  dsimp only
  split
  · exact Only.refl _ _
  · split
    · exact told _ _ _
    · split
      · exact told _ _ _
      · have emits (v : State) (e f : Emit) : Only [.out] v ((v.emit e).emit f) := (only_emit _ (by decide)).2 ((only_emit _ (by decide)).2 (Only.refl _ _))
        exact ((celResult_parts s 1).mono (by decide)).trans (((verInvalidate_only _ _).mono (by decide)).trans
          (((emits _ _ _).mono (by decide)).trans ((celStart_only _ _).mono (by decide))))

theorem hoistReg_only {a : Nat} {y : Word} (wrote : s.hoistReg a y = some t) : Only accessParts s t := by
  have begun : Only accessParts s s.commit := (only_commit (by decide)).2 (Only.refl _ _)
  unfold hoistReg at wrote
  split at wrote
  · exact absurd wrote (by simp)
  · split at wrote
    · split at wrote
      · have goes := celGo_only s.commit
        split at wrote
        · next eq =>
          rw [eq] at goes
          exact Option.some.inj wrote ▸ begun.trans goes
        · exact absurd wrote (by simp)
      · exact Option.some.inj wrote ▸ begun
    · exact Option.some.inj wrote ▸ (only_commit (by decide)).2 ((setReg_only _ _).mono (by decide))

theorem hoistWrite_only {a : Nat} {b : List Byte} (wrote : s.hoistWrite c a b = some t) : Only accessParts s t := by
  unfold hoistWrite at wrote
  split at wrote
  · split at wrote
    · exact Option.some.inj wrote ▸ (writeLarder_only _ _ _).mono (by decide)
    · exact absurd wrote (by simp)
  · split at wrote
    · exact hoistReg_only wrote
    · exact absurd wrote (by simp)
  · exact absurd wrote (by simp)

/-- A write of a channel that may write the Larder there (R72). -/
theorem hoistWrite_larder {a : Nat} (b : List Byte) (region : regionOf s a = .larder) (live : s.isolated 2 = false)
    (may : s.mayWriteBank (holdChan c) (bankOf a) = true) :
    s.hoistWrite c a b = some (s.modMem fun m => m.writeLarder a b.length (leBytes b)) := by
  unfold hoistWrite
  rw [region]
  exact if_pos (by rw [live, may]; rfl)

/-! ### Elements -/

theorem moveBytes_only {src dst : Int} {a : Nat} {b : List Byte} (moved : s.moveBytes c env x src dst = .ok t a b) : Only accessParts s t := by
  unfold moveBytes at moved
  dsimp only at moved
  split at moved
  · exact absurd moved (by simp)
  split at moved
  · exact absurd moved (by simp)
  split at moved
  · exact absurd moved (by simp)
  split at moved
  · exact absurd moved (by simp)
  split at moved
  · split at moved
    · exact absurd moved (by simp)
    · split at moved
      · next wrote =>
        obtain ⟨rfl, -, -⟩ := Elem.ok.inj moved
        exact ((captureAt_only s _).mono (by decide)).trans (hoistWrite_only wrote)
      · exact absurd moved (by simp)
  · exact absurd moved (by simp)

theorem moveElem_only {i a : Nat} {b : List Byte} (moved : s.moveElem c env x i = .ok t a b) : Only accessParts s t := by
  unfold moveElem at moved
  split at moved
  · next e table =>
    subst moved
    unfold tableOff at table
    dsimp only at table
    repeat' split at table
    all_goals simp at table
  · exact moveBytes_only moved

/-- Elements that move leave the channels as they are but for the last destination (R349). -/
theorem moveN_keeps : ∀ (k : Nat) (s : State) (i : Nat) (acc : List Byte) {w : State} {j : Nat} {b : List Byte} {e : MoveEnd},
    moveN c env x k s i acc = (w, j, b, e) → Only (.hst :: accessParts) s w ∧ (∀ d, d ≠ c → w.chan d = s.chan d) ∧
      ∃ l, w.chan c = { s.chan c with lastDst := l }
  | 0, s, i, acc, w, j, b, e, moved => by
    obtain rfl : s = w := congrArg Prod.fst moved
    exact ⟨Only.refl _ _, fun _ _ => rfl, _, rfl⟩
  | k + 1, s, i, acc, w, j, b, e, moved => by
    unfold moveN at moved
    split at moved
    · next t a y one =>
      have first := moveElem_only one
      obtain ⟨only, others, l, own⟩ := moveN_keeps k _ _ _ moved
      refine ⟨(first.mono (by decide)).trans (((modChan_only _ _).mono (by decide)).trans only), fun d hd => ?_, l, ?_⟩
      · rw [others d hd, modChan_others _ _ _ d hd, chan_of_only first (by decide)]
      · rw [own, modChan_chan_same, chan_of_only first (by decide)]
    · obtain rfl : s = w := congrArg Prod.fst moved
      exact ⟨Only.refl _ _, fun _ _ => rfl, _, rfl⟩
    · obtain rfl : s = w := congrArg Prod.fst moved
      exact ⟨Only.refl _ _, fun _ _ => rfl, _, rfl⟩

/-! ### Transfers -/

theorem deliver_none (s : State) (b : List Byte) : s.deliver 0 b = s := rfl

/-- A transfer that passes its checks and moves all its elements ends (R341, R358). -/
theorem runXfer_whole (fin : State → State) {b : List Byte} (fresh : x.done = 0) (aligned : x.misaligned = none) (apart : x.overlaps = false)
    (unpaced : s.chReqLine c = 0) (moved : moveN c env x x.total s 0 [] = (w, x.total, b, .done)) (still : w.chReqLine c = 0) :
    s.runXfer fin c env x = fin w := by
  have passes : s.xferRefused c x = none := by
    unfold xferRefused
    rw [aligned, apart]
    rfl
  unfold runXfer
  rw [if_pos fresh, passes, fresh]
  dsimp only
  rw [if_pos unpaced, Nat.sub_zero, moved, endPart]
  dsimp only
  rw [still, deliver_none, if_pos rfl]

theorem afterXfer_chan (s : State) (c : Chan) (x : Xfer) : (s.afterXfer c x).chan c =
    { s.chan c with xfer := none, cs := (s.chan c).cs + x.advS, cd := (s.chan c).cd + x.advD, pos := x.next } := modChan_chan_same _ _ _

/-! ### Transfers of one element -/

/-- The only element of a transfer lies at its two addresses (R342). -/
theorem addrs_single (one : x.n = 1) (row : x.rows = 1) (plain : x.indexed = false) : x.addrs 0 0 = ((x.src : Int), (x.dst : Int)) := by
  have place : x.place 0 = (0, 0) := by
    unfold Xfer.place
    rw [one, row]
    simp
  have kind : x.pat ≠ .gather ∧ x.pat ≠ .scatter := by simpa [Xfer.indexed] using plain
  unfold Xfer.addrs
  rw [place]
  dsimp only
  split
  · next gather => exact absurd gather kind.1
  · next scatter => exact absurd scatter kind.2
  · simp

theorem swapBytes_length (e swap : Nat) {b : List Byte} (hb : b.length = 2 ^ e) : (swapBytes e swap b).length = 2 ^ e := by
  unfold swapBytes
  split
  · rw [List.length_map, List.length_range]
  · rw [List.length_map, List.length_range]
  · rw [List.length_map, List.length_range]
  · exact hb

/-- The bytes that an element writes (R345). -/
def elemBytes (x : Xfer) (v : Nat) : List Byte := swapBytes x.esize x.swap (bytesLE x.size v)

theorem regionOf_larder_iff {a : Nat} (region : regionOf s a = .larder) : 0x10000000 ≤ a ∧ a < 0x10400000 := by
  unfold regionOf at region
  split at region
  · exact absurd region (by simp)
  split at region
  · exact absurd region (by simp)
  split at region
  · assumption
  split at region
  · exact absurd region (by simp)
  split at region
  · exact absurd region (by simp)
  · exact absurd region (by simp)

/-- An element between two places of the Larder moves (R343-R345). -/
theorem moveBytes_larder {v : Nat} (plain : x.indexed = false) (source : regionOf s x.src = .larder) (target : regionOf s x.dst = .larder)
    (read : s.hoistRead env x.src x.size = .ok v) (live : s.isolated 2 = false) (may : s.mayWriteBank (holdChan c) (bankOf x.dst) = true) :
    s.moveBytes c env x x.src x.dst =
      .ok (s.modMem fun m => m.writeLarder x.dst x.size (leBytes (elemBytes x v))) x.dst (elemBytes x v) := by
  obtain ⟨low, high⟩ := regionOf_larder_iff source
  obtain ⟨low', high'⟩ := regionOf_larder_iff target
  have free : s.heldAt x.src = false := by simp [heldAt, source]
  have length : (elemBytes x v).length = x.size := swapBytes_length _ _ (bytesLE_length _ _)
  have wrote := hoistWrite_larder (elemBytes x v) target live may
  rw [length] at wrote
  unfold moveBytes
  dsimp only
  rw [if_neg (by rw [plain, Bool.false_and]; decide), if_neg (by rw [plain, Bool.false_and]; decide), if_neg (by omega), Int.toNat_natCast, free,
    if_neg (by decide), read]
  dsimp only
  rw [if_neg (by omega), captureAt_high s (by omega), Int.toNat_natCast]
  rw [elemBytes] at wrote
  rw [wrote]
  rfl

/-- A transfer of one element is that element (R342). -/
theorem moveN_single {a : Nat} {b : List Byte} (one : x.n = 1) (row : x.rows = 1) (plain : x.indexed = false)
    (moved : s.moveBytes c env x x.src x.dst = .ok t a b) :
    moveN c env x x.total s 0 [] = (t.modChan c fun y => { y with lastDst := some a }, x.total, b.reverse, .done) := by
  have total : x.total = 1 := by rw [Xfer.total, one, row]
  have offset : s.tableOff env x 0 = .ok 0 := if_neg (by rw [plain]; decide)
  have elem : s.moveElem c env x 0 = .ok t a b := by
    unfold moveElem
    rw [offset]
    dsimp only
    rw [addrs_single one row plain]
    exact moved
  rw [total, moveN, elem]
  dsimp only
  rw [moveN, List.append_nil]

end State
end Sys2Proof.Machine
end

section
/-! ## The instructions of a program -/

namespace Sys2Proof.Machine
namespace State

variable {s t u v w : State} {c d q : Chan} {env : MemEnv} {x : Xfer} {op : Nat} {i : HInstr}

/-! ### The current instruction -/

/-- A channel that stands at an instruction of its program. -/
def stands (s : State) (c : Chan) : Prop := s.mayExecute c = true ∧ s.chShelf c = false ∧ (s.chan c).xfer = none

theorem instruction_next (runs : s.hoistRuns = true) (c : Chan) (op : Nat) (env : MemEnv) :
    s.finish (s.instruction c op env) = .next (s.after (s.runInstr c op env)) := congrArg s.finish (if_pos runs)

/-- What a channel does that stands at an instruction (R364). -/
theorem runInstr_stands (here : s.stands c) (clean : env.ecc = []) : s.runInstr c op env = match s.fetchInstr env c with
    | .held => s
    | .fault r => s.programFault c r
    | .instr o i => if o = op then (match i with
        | .xfer x => s.runXfer (fun t => t.afterXfer c x) c env x
        | i => s.runPlain c i env) else s := by
  obtain ⟨may, program, idle⟩ := here
  unfold runInstr
  rw [may, program, noteCorrected_nil _ clean]
  dsimp only
  rw [if_neg (by decide), idle] <;> rfl

theorem runInstr_xfer (here : s.stands c) (clean : env.ecc = []) (fetch : s.fetchInstr env c = .instr op (.xfer x)) :
    s.runInstr c op env = s.runXfer (fun t => t.afterXfer c x) c env x := by
  rw [runInstr_stands here clean, fetch]
  exact if_pos rfl

theorem runInstr_plain (here : s.stands c) (clean : env.ecc = []) (fetch : s.fetchInstr env c = .instr op i) (plain : ∀ x, i ≠ .xfer x) :
    s.runInstr c op env = s.runPlain c i env := by
  rw [runInstr_stands here clean, fetch]
  refine (if_pos rfl).trans ?_
  cases i with
  | xfer x => exact absurd rfl (plain x)
  | _ => rfl

theorem runInstr_fault (here : s.stands c) (clean : env.ecc = []) (fetch : s.fetchInstr env c = .fault (.ok 0)) :
    s.runInstr c op env = s.programFault c (.ok 0) := by rw [runInstr_stands here clean, fetch]

/-- A transfer of a program moves wholly, and the run goes on behind it (R341, R358). -/
theorem wholeTransfer {b : List Byte} (here : s.stands c) (clean : env.ecc = []) (fetch : s.fetchInstr env c = .instr op (.xfer x))
    (fresh : x.done = 0) (aligned : x.misaligned = none) (apart : x.overlaps = false) (unpaced : s.chReqLine c = 0)
    (moved : moveN c env x x.total s 0 [] = (w, x.total, b, .done)) (still : w.chReqLine c = 0) :
    s.runInstr c op env = w.afterXfer c x := by
  rw [runInstr_xfer here clean fetch]
  exact runXfer_whole _ fresh aligned apart unpaced moved still

theorem transfer_chans {b : List Byte} {k i : Nat} {e : MoveEnd} (running : s.mayExecute c = true)
    (moved : moveN c env x k s 0 [] = (w, i, b, e)) :
    ((w.afterXfer c x).chan c).xfer = none ∧ ((w.afterXfer c x).chan c).pos = x.next ∧
      ((w.afterXfer c x).chan c).cs = (s.chan c).cs + x.advS ∧ ((w.afterXfer c x).chan c).cd = (s.chan c).cd + x.advD ∧
      ((w.afterXfer c x).chan c).state = .running ∧ Only [.hst] w (w.afterXfer c x) ∧ ∀ d, d ≠ c → (w.afterXfer c x).chan d = s.chan d := by
  obtain ⟨-, others, l, own⟩ := moveN_keeps _ _ _ _ moved
  rw [afterXfer_chan, own]
  exact ⟨rfl, rfl, rfl, rfl, (mayExecute_iff.mp running).1, modChan_only _ _, fun d hd => (modChan_others _ _ _ d hd).trans (others d hd)⟩

/-- A program's transfer of one element within the Larder (R342-R345). -/
theorem single_spec {v : Nat} (here : s.stands c) (clean : env.ecc = []) (fetch : s.fetchInstr env c = .instr op (.xfer x))
    (fresh : x.done = 0) (aligned : x.misaligned = none) (apart : x.overlaps = false) (unpaced : s.chReqLine c = 0) (one : x.n = 1)
    (row : x.rows = 1) (plain : x.indexed = false) (source : regionOf s x.src = .larder) (target : regionOf s x.dst = .larder)
    (read : s.hoistRead env x.src x.size = .ok v) (live : s.isolated 2 = false) (may : s.mayWriteBank (holdChan c) (bankOf x.dst) = true) :
    ∃ t, s.runInstr c op env = t ∧ t.mem = s.mem.writeLarder x.dst x.size (leBytes (elemBytes x v)) ∧ Only [.larder, .hst] s t := by
  have moved := moveN_single one row plain (moveBytes_larder plain source target read live may)
  have writes := writeLarder_only (u := s) x.dst x.size (leBytes (elemBytes x v))
  refine ⟨_, wholeTransfer here clean fetch fresh aligned apart unpaced moved unpaced, rfl,
    (writes.mono (by decide)).trans (((modChan_only _ _).trans (modChan_only _ _)).mono (by decide))⟩

/-! ### Flags -/

theorem takeSig_only (s : State) (c : Chan) (n : Nat) : Only [.order, .regs] s (s.takeSig c n) :=
  (only_commit (by decide)).2 ((setFld_only _ _ _ _).mono (by decide))

theorem takeSig_rbit (s : State) (c : Chan) {n : Nat} (hn : n < 8) : (s.takeSig c n).rbit (Reg.HST_SIG c) n = false := by
  rw [takeSig, commit_rbit, setFld_rbit _ _ _ _ _ (by omega), if_pos ⟨le_refl n, le_refl n⟩, Nat.sub_self]
  rfl

/-- The flag of a channel is set (R361). -/
def flagged (s : State) (q : Chan) (n : Nat) : State := (s.setFlag (Reg.HST_SIG q) n).commit

theorem flagged_only (s : State) (q : Chan) (n : Nat) : Only [.order, .regs, .guards] s (s.flagged q n) :=
  (only_commit (by decide)).2 ((setFlag_only _ _).mono (by decide))

theorem flagged_chan (s : State) (q d : Chan) (n : Nat) : (s.flagged q n).chan d = s.chan d := rfl

theorem setSig_eq (on : (s.chan q).state ≠ .disabled) (n : Nat) : s.setSig q n env =
    if (s.chan q).wait = some (.sig n) then (((s.flagged q n).takeSig q n).wakeChan q).advancePos q 16
    else (s.flagged q n).shelfReread q env := by
  unfold setSig
  exact if_neg on

/-- A channel that waits for nothing has no empty Shelf. -/
theorem shelfReread_idle (idle : (s.chan q).wait = none) : s.shelfReread q env = s := by
  unfold shelfReread
  rw [idle]

theorem execSignalOp_eq (free : (s.chan c).kind = .free) (lease : s.holder (resChan q) = s.holder (resChan c)) (n : Nat) :
    s.execSignalOp c q.val n env = (s.setSig q n env).advancePos c 8 := by
  have same : (⟨q.val % 24, by omega⟩ : Chan) = q := Fin.ext (Nat.mod_eq_of_lt q.isLt)
  have unpaced : s.isPaced c = false := by rw [isPaced, free]; rfl
  unfold execSignalOp
  rw [same]
  exact if_neg (by rw [unpaced, lease]; simp)

theorem hstSig_block : ∀ c : Chan, Reg.HST_SIG c / 0x1000 = 8 := by decide

theorem flagged_rbit (s : State) (q : Chan) {n : Nat} (hn : n < 8) : (s.flagged q n).rbit (Reg.HST_SIG q) n = true := by
  rw [flagged, commit_rbit]
  exact setFlag_rbit_same _ _ (by omega)

theorem flagged_regs (s : State) (q : Chan) (n : Nat) : RegsBut [Reg.HST_SIG q] s (s.flagged q n) := fun b hb => by
  rw [flagged, commit_reg, setFlag_reg_other _ _ _ _ fun e => hb (List.mem_singleton.mpr e.symm)]

/-- SIGNAL to a channel that waits for nothing sets its flag (R361). -/
theorem signal_sets {n : Nat} (hn : n < 8) (on : (s.chan q).state ≠ .disabled) (idle : (s.chan q).wait = none) :
    ∃ u, u = (s.setSig q n env).advancePos c 8 ∧ u.rbit (Reg.HST_SIG q) n = true ∧ u.order = s.order + 1 ∧
      u.chan c = { s.chan c with pos := (s.chan c).pos + 8 } ∧ (∀ d, d ≠ c → u.chan d = s.chan d) ∧ RegsBut [Reg.HST_SIG q] s u ∧
      Only [.order, .regs, .guards, .hst] s u := by
  have sets : s.setSig q n env = s.flagged q n := by
    rw [setSig_eq on, if_neg (by rw [idle]; simp), shelfReread_idle (s := s.flagged q n) idle]
  have flag := flagged_rbit s q hn
  have regs := flagged_regs s q n
  have only := flagged_only s q n
  have order : (s.flagged q n).order = s.order + 1 := rfl
  have chans (d : Chan) : (s.flagged q n).chan d = s.chan d := rfl
  rw [sets]
  generalize s.flagged q n = v at *
  refine ⟨_, rfl, flag, order, ?_, fun d hd => (modChan_others v c _ d hd).trans (chans d), regs, (only.mono (by decide)).trans
    ((advancePos_only v c 8).mono (by decide))⟩
  rw [advancePos_chan, chans]
  rfl

/-- SIGNAL to a channel that waits for the flag lets it go on, and the flag is consumed (R360, R361). -/
theorem signal_wakes {n : Nat} (hn : n < 8) (on : (s.chan q).state ≠ .disabled) (waits : (s.chan q).wait = some (.sig n)) (apart : q ≠ c) :
    ∃ u, u = (s.setSig q n env).advancePos c 8 ∧ u.rbit (Reg.HST_SIG q) n = false ∧ (u.chan q).state = .queued ∧ (u.chan q).wait = none ∧
      (u.chan q).pos = (s.chan q).pos + 16 ∧ u.chan c = { s.chan c with pos := (s.chan c).pos + 8 } ∧ Only [.order, .regs, .guards, .hst] s u := by
  have flags := flagged_only s q n
  have takes := takeSig_only (s.flagged q n) q n
  have clear := takeSig_rbit (s.flagged q n) q hn
  have wakes : s.setSig q n env = (((s.flagged q n).takeSig q n).wakeChan q).advancePos q 16 := (setSig_eq on n).trans (if_pos waits)
  have chans (d : Chan) : ((s.flagged q n).takeSig q n).chan d = s.chan d := chan_of_only takes (by decide) d
  rw [wakes]
  generalize (s.flagged q n).takeSig q n = v at *
  have only : Only [.order, .hst] v (((v.wakeChan q).advancePos q 16).advancePos c 8) :=
    (wakeChan_only v q).trans (((advancePos_only _ _ _).trans (advancePos_only _ _ _)).mono (by decide))
  refine ⟨_, rfl, ?_, ?_, ?_, ?_, ?_, (flags.mono (by decide)).trans ((takes.mono (by decide)).trans (only.mono (by decide)))⟩
  · rw [advancePos, rbit, modChan_reg, advancePos, modChan_reg, wakeChan, commit_reg, modChan_reg]
    exact clear
  · rw [advancePos, modChan_others _ _ _ q apart, advancePos_chan, wakeChan_chan]
  · rw [advancePos, modChan_others _ _ _ q apart, advancePos_chan, wakeChan_chan]
  · rw [advancePos, modChan_others _ _ _ q apart, advancePos_chan, wakeChan_chan, chans]
    rfl
  · rw [advancePos_chan, advancePos, modChan_others _ _ _ c (Ne.symm apart), wakeChan_others _ _ c (Ne.symm apart), chans]
    rfl

/-! ### Waits -/

theorem isPaced_free (free : (s.chan c).kind = .free) : s.isPaced c = false := by
  rw [isPaced, free]
  rfl

/-- A wait on a flag consumes it or waits for it (R360). -/
theorem execWaitSig_spec {n : Nat} (hn : n < 8) : (s.execWaitSig c n).order = s.order + 1 ∧
    if s.rbit (Reg.HST_SIG c) n = true then
      ((s.execWaitSig c n).chan c = { s.chan c with pos := (s.chan c).pos + 16 } ∧ ∀ d, d ≠ c → (s.execWaitSig c n).chan d = s.chan d) ∧
        (s.execWaitSig c n).rbit (Reg.HST_SIG c) n = false ∧ Only [.order, .regs, .hst] s (s.execWaitSig c n)
    else ((s.execWaitSig c n).chan c = { s.chan c with state := .waiting, wait := some (.sig n) } ∧
      ∀ d, d ≠ c → (s.execWaitSig c n).chan d = s.chan d) ∧ Only [.order, .hst] s (s.execWaitSig c n) := by
  unfold execWaitSig
  split
  · have takes := takeSig_only s c n
    have clear := takeSig_rbit s c hn
    have order : (s.takeSig c n).order = s.order + 1 := rfl
    have chans (d : Chan) := chan_of_only takes (by decide) d
    generalize s.takeSig c n = v at *
    refine ⟨order, ⟨?_, fun d hd => (modChan_others v c _ d hd).trans (chans d)⟩, clear, (takes.mono (by decide)).trans
      ((advancePos_only _ _ _).mono (by decide))⟩
    rw [advancePos_chan, chans]
    rfl
  · exact ⟨rfl, ⟨waitChan_chan _ _ _, waitChan_others _ _ _⟩, waitChan_only _ _ _⟩

/-- A wait on a memory word sees it or waits for it (R360). -/
theorem execWaitMem_spec {a r : Nat} (m y : Word) (aligned : a % 4 = 0) (free : s.heldAt a = false) (read : s.hoistRead env a 4 = .ok r) :
    ∃ u, u = s.execWaitMem c a m y env ∧ Only [.order, .regs, .guards, .hst] s u ∧ (∀ d, d ≠ c → u.chan d = s.chan d) ∧
      u.chan c = if word r &&& m = y then { s.chan c with pos := (s.chan c).pos + 16 }
        else { s.chan c with state := .waiting, wait := some (.mem a m y s.tick) } := by
  have captures := captureAt_only s a
  have eq : s.execWaitMem c a m y env = if word r &&& m = y then (s.captureAt a).advancePos c 16
      else (s.captureAt a).waitChan c (.mem a m y (s.captureAt a).tick) := by
    unfold execWaitMem
    rw [if_neg (by omega), free, if_neg (by decide), read]
  have chans := chan_of_only captures (by decide)
  have tick := captures.part .tick (by decide)
  rw [eq]
  generalize s.captureAt a = v at *
  rw [tick]
  refine ⟨_, rfl, ?_⟩
  split
  · refine ⟨(captures.mono (by decide)).trans ((advancePos_only _ _ _).mono (by decide)), fun d hd => (modChan_others v c _ d hd).trans (chans d), ?_⟩
    rw [advancePos_chan, chans]
    rfl
  · refine ⟨(captures.mono (by decide)).trans ((waitChan_only _ _ _).mono (by decide)), fun d hd => (waitChan_others v c _ d hd).trans (chans d), ?_⟩
    rw [waitChan_chan, chans]

/-- A poll of a memory word, at the tick that it falls (R360). -/
theorem pollMem_eq {a r k : Nat} {m y : Word} (clean : env.ecc = []) (waiting : (s.chan c).state = .waiting)
    (waits : (s.chan c).wait = some (.mem a m y k)) (free : (s.advanceTo (k + 1000)).heldAt a = false)
    (read : (s.advanceTo (k + 1000)).hoistRead env a 4 = .ok r) : s.pollMem c env =
      if word r &&& m = y then (((s.advanceTo (k + 1000)).captureAt a).wakeChan c).advancePos c 16
      else ((s.advanceTo (k + 1000)).captureAt a).modChan c fun z =>
        { z with wait := some (.mem a m y ((s.advanceTo (k + 1000)).captureAt a).tick) } := by
  unfold pollMem
  rw [waiting, waits]
  dsimp only
  rw [free, if_neg (by decide), read]
  dsimp only
  rw [noteCorrected_nil _ clean]

/-- A poll sees its word or leaves the wait to the next one (R360). -/
theorem poll_spec {a r : Nat} (m y : Word) : ∃ u, u = (if word r &&& m = y then ((s.captureAt a).wakeChan c).advancePos c 16
      else (s.captureAt a).modChan c fun z => { z with wait := some (.mem a m y (s.captureAt a).tick) }) ∧
    Only [.order, .regs, .guards, .hst] s u ∧
    (if word r &&& m = y then (u.chan c).state = .queued ∧ (u.chan c).wait = none ∧ (u.chan c).pos = (s.chan c).pos + 16
      else u.chan c = { s.chan c with wait := some (.mem a m y s.tick) } ∧ ∀ d, d ≠ c → u.chan d = s.chan d) := by
  have captures := captureAt_only s a
  have chans := chan_of_only captures (by decide)
  have tick := captures.part .tick (by decide)
  generalize s.captureAt a = v at *
  rw [tick]
  refine ⟨_, rfl, ?_⟩
  split
  · refine ⟨(captures.mono (by decide)).trans (((wakeChan_only v c).trans ((advancePos_only _ _ _).mono (by decide))).mono (by decide)), ?_⟩
    rw [advancePos_chan, wakeChan_chan, chans]
    exact ⟨rfl, rfl, rfl⟩
  · refine ⟨(captures.mono (by decide)).trans ((modChan_only _ _).mono (by decide)), ?_, fun d hd => (modChan_others v c _ d hd).trans (chans d)⟩
    rw [modChan_chan_same, chans]

/-- The end of a delay (R360). -/
theorem delayEnd_eq {k : Nat} (waiting : (s.chan c).state = .waiting) (waits : (s.chan c).wait = some (.delay k)) :
    s.delayEnd c = ((s.advanceTo k).wakeChan c).advancePos c 16 := by
  unfold delayEnd
  rw [waiting, waits]

/-! ### Words that SET writes -/

theorem execSetMem_larder {a : Nat} (y : Word) (aligned : a % 4 = 0) (region : regionOf s a = .larder) (live : s.isolated 2 = false)
    (may : s.mayWriteBank (holdChan c) (bankOf a) = true) : s.execSetMem c a y =
      ((s.modMem fun m => m.writeLarder a 4 y.toNat).modChan c fun z => { z with lastDst := some a }).advancePos c 16 := by
  have wrote := hoistWrite_larder (c := c) (bytesLE 4 y.toNat) region live may
  have value : leBytes (bytesLE 4 y.toNat) = y.toNat := (leBytes_bytesLE 4 y.toNat).trans (Nat.mod_eq_of_lt y.isLt)
  rw [bytesLE_length, value] at wrote
  unfold execSetMem
  rw [if_neg (by omega), wrote]

/-- A run whose completion needs no confirming read becomes ready (R349). -/
theorem makeReady_plain (unread : s.chConfirmed c = false ∨ (s.chan c).lastDst = none) :
    s.makeReady c env = s.modChan c fun y => { y with ready := true } := by
  have skips : (if s.chConfirmed c then (s.chan c).lastDst else none) = none := by
    rcases unread with off | fresh
    · rw [off]
      rfl
    · rw [fresh, ite_self]
  unfold makeReady
  rw [skips]

/-- A channel after a LOOP (R359). -/
def counted (y : ChanSt) (k : Fin 4) (iter back : Nat) : ChanSt :=
  let v := (if y.lc[k] = 0 then BitVec.ofNat 16 iter else y.lc[k]) - 1
  { y with lc := y.lc.set k v, pos := if v ≠ 0 then y.pos - word (8 * back) else y.pos + 8 }

theorem execLoopOp_eq (s : State) (c : Chan) (k : Fin 4) (iter back : Nat) :
    s.execLoopOp c k.val iter back = s.setChan c (counted (s.chan c) k iter back) :=
  congrArg (fun j => s.setChan c (counted (s.chan c) j iter back)) (Fin.ext (Nat.mod_eq_of_lt k.isLt) : ⟨k.val % 4, by omega⟩ = k)

/-- LOOP counts its counter down, and goes back while it is not 0 (R359). -/
theorem execLoopOp_chan (s : State) (c : Chan) (k : Fin 4) (iter back : Nat) :
    let v := (if (s.chan c).lc[k] = 0 then BitVec.ofNat 16 iter else (s.chan c).lc[k]) - 1
    (s.execLoopOp c k.val iter back).chan c = { s.chan c with
      lc := (s.chan c).lc.set k v, pos := if v = 0 then (s.chan c).pos + 8 else (s.chan c).pos - word (8 * back) } := by
  rw [execLoopOp_eq, setChan_chan_same]
  simp only [counted, ne_eq, ite_not]

theorem execLoopOp_others (s : State) (c : Chan) (k iter back : Nat) : ∀ d, d ≠ c → (s.execLoopOp c k iter back).chan d = s.chan d :=
  fun _ hd => setChan_chan_other _ _ _ _ (Ne.symm hd)

theorem execLoopOp_only (s : State) (c : Chan) (k iter back : Nat) : Only [.hst] s (s.execLoopOp c k iter back) := setChan_only c _

end State

/-- Settles O55: the channel that stands at an instruction runs it (`State.runInstr_xfer`, `State.runInstr_plain`,
`State.runInstr_fault`), and each instruction has its own lemma of what it does to the channel. -/
theorem programInstructionsRun : Obligations.ProgramInstructionsRun := by
  intro s c env runs clean y here goes
  have ticks : s.ticking = true ∧ s.unitInReset 11 = false := by simpa [State.hoistRuns] using runs
  refine ⟨fun op i x w b listed stands fetch fresh aligned apart unpaced moved still => ?_,
    fun x v stands fetch aligned apart one row plain unpaced fresh source target read live may => ?_,
    fun k iter back stands fetch => ?_, fun free stands => ⟨fun n hn fetch => ?_, fun n fetch => ?_, fun a r m v fetch aligned open_ read => ?_⟩,
    fun a r k m v waiting waits => ?_, fun d waiting waits => ?_, fun q n stands free hn fetch lease on => ⟨fun idle => ?_, fun apart waits => ?_⟩,
    fun isSrc v stands fetch => ?_, fun a v stands free fetch aligned region live may => ?_, fun stands fetch unread => ?_,
    fun i listed stands fetch => ?_⟩
  · have run : exec i s = .next (s.after (s.runInstr c op env)) := by
      simp only [List.mem_cons, List.not_mem_nil, or_false, Prod.mk.injEq] at listed
      rcases listed with ⟨rfl, rfl⟩ | ⟨rfl, rfl⟩ | ⟨rfl, rfl⟩ | ⟨rfl, rfl⟩
      · exact State.instruction_next runs c 1 env
      · exact State.instruction_next runs c 2 env
      · exact State.instruction_next runs c 3 env
      · exact State.instruction_next runs c 4 env
    rw [State.wholeTransfer stands clean fetch fresh aligned apart unpaced moved still] at run
    exact ⟨_, run, State.transfer_chans stands.1 moved⟩
  · obtain ⟨t, eq, mem, only⟩ := State.single_spec stands clean fetch fresh aligned apart unpaced one row plain source target read live may
    have run : exec (.move c env) s = .next (s.after (s.runInstr c 1 env)) := State.instruction_next runs c 1 env
    rw [eq] at run
    refine ⟨t, run, congrArg Mem.larder mem, fun k hk => ?_, only⟩
    rw [mem]
    exact Mem.word64_writeLarder_other _ _ _ hk
  · have run : exec (.loop c env) s = .next (s.after (s.runInstr c 5 env)) := State.instruction_next runs c 5 env
    rw [State.runInstr_plain stands clean fetch (by simp)] at run
    exact ⟨_, run, ⟨State.execLoopOp_chan s c k iter back, State.execLoopOp_others s c _ _ _⟩, State.execLoopOp_only s c _ _ _⟩
  · have run : exec (.wait c env) s = .next (s.after (s.runInstr c 6 env)) := State.instruction_next runs c 6 env
    rw [State.runInstr_plain stands clean fetch (by simp), State.runPlain, if_neg (by rw [State.isPaced_free free]; decide)] at run
    exact ⟨_, run, State.execWaitSig_spec hn⟩
  · have run : exec (.wait c env) s = .next (s.after (s.runInstr c 6 env)) := State.instruction_next runs c 6 env
    rw [State.runInstr_plain stands clean fetch (by simp), State.runPlain, if_neg (by rw [State.isPaced_free free]; decide)] at run
    exact ⟨_, run, ⟨State.waitChan_chan _ _ _, State.waitChan_others _ _ _⟩, State.waitChan_only _ _ _⟩
  · have run : exec (.wait c env) s = .next (s.after (s.runInstr c 6 env)) := State.instruction_next runs c 6 env
    rw [State.runInstr_plain stands clean fetch (by simp), State.runPlain, if_neg (by rw [State.isPaced_free free]; decide)] at run
    obtain ⟨u, eq, only, others, own⟩ := State.execWaitMem_spec (c := c) m v aligned open_ read
    rw [← eq] at run
    refine ⟨u, run, only, ?_⟩
    split
    · next sees => exact ⟨by rw [own, if_pos sees], others⟩
    · next misses => exact ⟨by rw [own, if_neg misses], others⟩
  · intro t open_ read
    have run : exec (.waitMemoryPoll c env) s = .next (s.after (s.pollMem c env)) := congrArg s.finish (if_pos runs)
    obtain ⟨u, eq, only, sees⟩ := State.poll_spec (s := t) (c := c) (a := a) (r := r) m v
    rw [State.pollMem_eq clean waiting waits open_ read, ← eq] at run
    exact ⟨u, run, only, sees⟩
  · intro t
    have run : exec (.waitDelayEnd c) s = .next (s.after (s.delayEnd c)) := congrArg s.finish (if_pos runs)
    rw [State.delayEnd_eq waiting waits] at run
    refine ⟨_, run, ?_, ?_, ?_, fun e he => (State.modChan_others _ _ _ e he).trans (State.wakeChan_others _ _ e he),
      (State.wakeChan_only t c).trans ((State.advancePos_only _ _ _).mono (by decide))⟩
    · rw [State.advancePos_chan, State.wakeChan_chan]
    · rw [State.advancePos_chan, State.wakeChan_chan]
    · rw [State.advancePos_chan, State.wakeChan_chan]
      rfl
  · have run : exec (.signal c env) s = .next (s.after (s.runInstr c 7 env)) := State.instruction_next runs c 7 env
    rw [State.runInstr_plain stands clean fetch (by simp), State.runPlain, State.execSignalOp_eq free lease] at run
    obtain ⟨u, eq, flag, order, own, others, regs, only⟩ := State.signal_sets (env := env) (c := c) hn on idle
    rw [← eq] at run
    exact ⟨u, run, flag, order, ⟨own, others⟩, regs, only⟩
  · have run : exec (.signal c env) s = .next (s.after (s.runInstr c 7 env)) := State.instruction_next runs c 7 env
    rw [State.runInstr_plain stands clean fetch (by simp), State.runPlain, State.execSignalOp_eq free lease] at run
    obtain ⟨u, eq, rest⟩ := State.signal_wakes (env := env) hn on waits apart
    rw [← eq] at run
    exact ⟨u, run, rest⟩
  · have run : exec (.set c env) s = .next (s.after (s.runInstr c 8 env)) := State.instruction_next runs c 8 env
    rw [State.runInstr_plain stands clean fetch (by simp)] at run
    cases isSrc with
    | true =>
      refine ⟨_, run, (State.modChan_only _ _).trans (State.advancePos_only _ _ _), ?_, fun d hd =>
        (State.modChan_others _ _ _ d hd).trans (State.modChan_others _ _ _ d hd)⟩
      rw [State.runPlain, State.advancePos_chan, State.modChan_chan_same]
      rfl
    | false =>
      refine ⟨_, run, (State.modChan_only _ _).trans (State.advancePos_only _ _ _), ?_, fun d hd =>
        (State.modChan_others _ _ _ d hd).trans (State.modChan_others _ _ _ d hd)⟩
      rw [State.runPlain, State.advancePos_chan, State.modChan_chan_same]
      rfl
  · have run : exec (.set c env) s = .next (s.after (s.runInstr c 8 env)) := State.instruction_next runs c 8 env
    rw [State.runInstr_plain stands clean fetch (by simp), State.runPlain, if_neg (by rw [State.isPaced_free free]; decide),
      State.execSetMem_larder v aligned region live may] at run
    have writes := State.writeLarder_only (u := s) a 4 v.toNat
    have mem : (s.modMem fun m => m.writeLarder a 4 v.toNat).mem = s.mem.writeLarder a 4 v.toNat := rfl
    have chans (d : Chan) := State.chan_of_only writes (by decide) d
    generalize (s.modMem fun m => m.writeLarder a 4 v.toNat) = w at *
    refine ⟨_, run, ⟨?_, fun d hd => ((State.modChan_others _ _ _ d hd).trans (State.modChan_others _ _ _ d hd)).trans (chans d)⟩, congrArg Mem.larder mem,
      fun k hk => ?_, (writes.mono (by decide)).trans (((State.modChan_only _ _).trans (State.advancePos_only _ _ _)).mono (by decide))⟩
    · rw [State.advancePos_chan, State.modChan_chan_same, chans]
      rfl
    · exact (congrArg (fun m : Mem => m.word64 k) mem).trans (Mem.word64_writeLarder_other _ _ _ hk)
  · have run : exec (.end_ c env) s = .next (s.after (s.runInstr c 15 env)) := State.instruction_next runs c 15 env
    rw [State.runInstr_plain stands clean fetch (by simp), State.runPlain, State.makeReady_plain unread] at run
    exact ⟨_, run, ⟨State.modChan_chan_same _ _ _, State.modChan_others _ _ _⟩, State.modChan_only _ _⟩
  · have run : ∃ op, exec i s = .next (s.after (s.runInstr c op env)) := by
      simp only [List.mem_cons, List.not_mem_nil, or_false] at listed
      rcases listed with rfl | rfl | rfl | rfl | rfl | rfl | rfl | rfl | rfl
      · exact ⟨1, State.instruction_next runs c 1 env⟩
      · exact ⟨2, State.instruction_next runs c 2 env⟩
      · exact ⟨3, State.instruction_next runs c 3 env⟩
      · exact ⟨4, State.instruction_next runs c 4 env⟩
      · exact ⟨5, State.instruction_next runs c 5 env⟩
      · exact ⟨6, State.instruction_next runs c 6 env⟩
      · exact ⟨7, State.instruction_next runs c 7 env⟩
      · exact ⟨8, State.instruction_next runs c 8 env⟩
      · exact ⟨15, State.instruction_next runs c 15 env⟩
    obtain ⟨op, run⟩ := run
    rw [State.runInstr_fault stands clean fetch] at run
    obtain ⟨halts, flag, pend, addr, others, only⟩ := State.programFault_spec ticks.2 c
    exact ⟨_, run, halts, flag, pend, addr, State.mem_of_only only (by decide) (by decide) (by decide), others, only⟩

end Sys2Proof.Machine
end

section
/-! ## Shelf channels -/

namespace Sys2Proof.Machine
namespace State

variable {s t u v w : State} {c d : Chan} {env : MemEnv} {x : Xfer} {o : OpCtx}

/-! ### The head slot of a ring -/

theorem runShelf_reads (may : s.mayExecute c = true) (shelf : s.chShelf c = true) (clean : env.ecc = []) (fresh : (s.chan c).shelf = none) :
    s.runShelf c env = s.readDesc c env := by
  unfold runShelf
  rw [may, shelf, noteCorrected_nil _ clean]
  dsimp only
  rw [if_neg (by decide), fresh]

/-- An empty head slot makes the channel wait (R371). -/
theorem readDesc_empty {l : List Word} (ring : s.ringOk c = true) (fetch : s.fetchWords env (s.chan c).pos.toNat 2 = .ok l)
    (empty : bit (l.getD 0 0) 0 = false) : s.readDesc c env = s.waitChan c (.empty s.tick) := by
  unfold readDesc
  rw [ring]
  dsimp only
  rw [if_neg (by decide), fetch]
  exact if_pos (by rw [wd, empty]; rfl)

/-- An owned head slot is processed (R371). -/
theorem readDesc_owned {l m : List Word} (ring : s.ringOk c = true) (fetch : s.fetchWords env (s.chan c).pos.toNat 2 = .ok l)
    (owned : bit (l.getD 0 0) 0 = true) (whole : s.fetchWords env (s.chan c).pos.toNat 8 = .ok m)
    (decodes : decodeDesc m (s.chan c).pos = some x) : s.readDesc c env = s.runDesc c ⟨m.getD 0 0, false⟩ x env := by
  unfold readDesc
  rw [ring]
  dsimp only
  rw [if_neg (by decide), fetch]
  dsimp only
  rw [if_neg (by rw [wd, owned]; decide), whole]
  dsimp only
  rw [decodes]
  rfl

/-- No element of a descriptor has moved when it is read. -/
theorem decodeDesc_done {m : List Word} {p : Word} (decodes : decodeDesc m p = some x) : x.done = 0 := by
  have accepted {q : Prop} [Decidable q] {r : Option Xfer} (given : (if q then none else r) = some x) : r = some x := by
    split at given
    · exact absurd given (by simp)
    · exact given
  unfold decodeDesc at decodes
  have found := accepted decodes
  split at found
  · exact Option.some.inj found ▸ rfl
  · exact Option.some.inj found ▸ rfl
  · exact Option.some.inj found ▸ rfl
  · exact Option.some.inj found ▸ rfl

/-! ### The write-back -/

/-- The sequence flag of a descriptor that asks for it (R372). -/
def sequenced (s : State) (c : Chan) (e : Word) : State := if bit e 2 then (s.setFlag (Reg.HST_SIG c) 8).commit else s

theorem sequenced_chan (s : State) (c d : Chan) (e : Word) : (s.sequenced c e).chan d = s.chan d := by
  unfold sequenced
  split
  · rfl
  · rfl

theorem sequenced_mem (s : State) (c : Chan) (e : Word) : (s.sequenced c e).mem = s.mem := by
  unfold sequenced
  split
  · rfl
  · rfl

theorem sequenced_reg (s : State) (c : Chan) (e : Word) {b : Nat} (hb : b ≠ Reg.HST_SIG c) : (s.sequenced c e).reg b = s.reg b := by
  unfold sequenced
  split
  · rw [commit_reg, setFlag_reg_other _ _ _ _ (Ne.symm hb)]
  · rfl

/-- The ring's next slot after the one that has been processed (R371). -/
def nextSlot (s : State) (c : Chan) : Nat := ((s.chan c).head + 1) % max 1 (s.shSlots c)

/-- A channel whose head has moved on (R371, R372). -/
def slotPassed (s : State) (c : Chan) (e : Word) : State :=
  s.modChan c fun y =>
    { y with xfer := none, shelf := none, head := s.nextSlot c, seqCount := y.seqCount + 1,
             pos := if bit e 1 then y.pos else s.reg (Reg.HST_BASE c) + word (32 * s.nextSlot c) }

theorem shelfNext_eq (s : State) (c : Chan) (e : Word) (env : MemEnv) : s.shelfNext c e env =
    if bit e 1 then ((s.sequenced c e).slotPassed c e).makeReady c env else (s.sequenced c e).slotPassed c e := rfl

/-- The write-back of a descriptor that its channel may write (R372). -/
theorem writeBack_writes {a : Nat} {n : Word} (at_ : (s.chan c).pos.toNat = a) (seq : (s.chan c).seqCount = n) (region : regionOf s a = .larder)
    (live : s.isolated 2 = false) (may : s.mayWriteBank (s.holder (resChan c)) (bankOf a) = true) (e : Word) :
    s.writeBack c e env = (s.modMem fun m => m.writeLarder a 8 ((e &&& ~~~1#32).toNat + n.toNat * 2 ^ 32)).shelfNext c e env := by
  unfold writeBack
  rw [at_, seq]
  exact if_pos (by rw [region, live, may]; rfl)

/-- A halt in an instruction without elements leaves the Shelf as it is (R360). -/
theorem haltWord_chan (s : State) (c : Chan) (n a : Nat) (dir confirm : Bool) (r : Read) :
    (s.haltWord c n a dir confirm r).chan c = { s.chan c with state := .halted, wait := none } := by
  rw [haltWord, haltChan_chan, chan_of_only (latchHalt_only _ _ _ _ _ _ _ _) (by decide), chan_of_only (noteRead_only s r) (by decide)]

/-- A completion that becomes ready, or the halt of its confirming read, leaves the Shelf as it is (R349). -/
theorem makeReady_shelf (s : State) (c : Chan) (env : MemEnv) : ((s.makeReady c env).chan c).head = (s.chan c).head ∧
    ((s.makeReady c env).chan c).seqCount = (s.chan c).seqCount ∧ ((s.makeReady c env).chan c).shelf = (s.chan c).shelf := by
  unfold makeReady
  split
  · dsimp only
    split
    · rw [modChan_chan_same]
      exact ⟨rfl, rfl, rfl⟩
    · rw [haltWord_chan]
      exact ⟨rfl, rfl, rfl⟩
  · rw [modChan_chan_same]
    exact ⟨rfl, rfl, rfl⟩

theorem nextSlot_congr (own : (t.chan c).head = (s.chan c).head) (regs : t.reg (Reg.HST_SHELF_CFG c) = s.reg (Reg.HST_SHELF_CFG c)) :
    t.nextSlot c = s.nextSlot c := by
  rw [nextSlot, own, shSlots, fld, regs, nextSlot, shSlots, fld]

/-- The channel after its write-back (R371, R372). -/
theorem shelfNext_spec (s : State) (c : Chan) (e : Word) (env : MemEnv) : ((s.shelfNext c e env).chan c).head = s.nextSlot c ∧
    ((s.shelfNext c e env).chan c).seqCount = (s.chan c).seqCount + 1 ∧ ((s.shelfNext c e env).chan c).shelf = none ∧
    (bit e 1 = false → ((s.shelfNext c e env).chan c).ready = (s.chan c).ready ∧
      ((s.shelfNext c e env).chan c).pos = s.reg (Reg.HST_BASE c) + word (32 * s.nextSlot c) ∧ (s.shelfNext c e env).mem = s.mem) ∧
    (bit e 1 = true → s.chConfirmed c = false → ((s.shelfNext c e env).chan c).ready = true) := by
  have chans := sequenced_chan s c c e
  have mem := sequenced_mem s c e
  have slot : (s.sequenced c e).nextSlot c = s.nextSlot c :=
    nextSlot_congr (by rw [chans]) (sequenced_reg s c e (by simp only [Reg.HST_SHELF_CFG, Reg.HST_SIG]; omega))
  have base : (s.sequenced c e).reg (Reg.HST_BASE c) = s.reg (Reg.HST_BASE c) :=
    sequenced_reg s c e (by simp only [Reg.HST_BASE, Reg.HST_SIG]; omega)
  have cfg : (s.sequenced c e).reg (Reg.HST_CFG c) = s.reg (Reg.HST_CFG c) := sequenced_reg s c e (by simp only [Reg.HST_CFG, Reg.HST_SIG]; omega)
  rw [shelfNext_eq]
  generalize s.sequenced c e = v at *
  have own : (v.slotPassed c e).chan c = { s.chan c with
      xfer := none, shelf := none, head := s.nextSlot c, seqCount := (s.chan c).seqCount + 1,
      pos := if bit e 1 then (s.chan c).pos else s.reg (Reg.HST_BASE c) + word (32 * s.nextSlot c) } := by
    rw [slotPassed, modChan_chan_same, chans, slot, base]
  have kept : (v.slotPassed c e).mem = v.mem := rfl
  have confirmed : (v.slotPassed c e).chConfirmed c = s.chConfirmed c := by
    rw [chConfirmed, rbit, slotPassed, modChan_reg, cfg, chConfirmed, rbit]
  generalize v.slotPassed c e = z at *
  split
  · next last =>
    obtain ⟨head, count, shelf⟩ := makeReady_shelf z c env
    rw [own] at head count shelf
    refine ⟨head, count, shelf, fun k => absurd (last.symm.trans k) (by decide), fun _ unread => ?_⟩
    rw [makeReady_plain (.inl (confirmed.trans unread)), modChan_chan_same]
  · next more =>
    rw [own]
    exact ⟨rfl, rfl, rfl, fun off => ⟨rfl, if_neg more, kept.trans mem⟩, fun k => absurd k more⟩

/-- An owned descriptor whose transfer moves wholly is written back (R371, R372). -/
theorem runDesc_whole {e : Word} {b : List Byte} (fresh : x.done = 0) (aligned : x.misaligned = none) (apart : x.overlaps = false)
    (unpaced : s.chReqLine c = 0)
    (moved : moveN c env x x.total (s.modChan c fun z => { z with shelf := some ⟨e, false⟩ }) 0 [] = (w, x.total, b, .done))
    (still : w.chReqLine c = 0) : s.runDesc c ⟨e, false⟩ x env = w.writeBack c e env :=
  runXfer_whole (s := s.modChan c fun z => { z with shelf := some ⟨e, false⟩ }) _ fresh aligned apart unpaced moved still

/-! ### An empty ring -/

theorem readBulk_congr (regs : ∀ b, t.reg b = s.reg b) (mem : t.mem = s.mem) (a n : Nat) : readBulk t env a n = readBulk s env a n := by
  have field (r hi lo : Nat) : t.fld r hi lo = s.fld r hi lo := fld_of_regs regs r hi lo
  have region : regionOf t a = regionOf s a := by
    unfold regionOf cellarSize
    rw [field]
  have port : portOf t a = portOf s a := by
    unfold portOf
    rw [region]
  unfold readBulk
  rw [isolated_congr (s := s) (t := t) (fun b _ => regs b), port, region, mem, field]

/-- A head slot that is read again: owned, or empty still (R371). -/
theorem shelfReread_spec {k n : Nat} (waits : (s.chan c).wait = some (.empty k)) (read : readBulk s env (s.chan c).pos.toNat 8 = .ok n) :
    (if n % 2 = 1 then ((s.shelfReread c env).chan c).state = .queued ∧ ((s.shelfReread c env).chan c).wait = none
      else (s.shelfReread c env).chan c = { s.chan c with wait := some (.empty s.tick) }) ∧
      (∀ d, d ≠ c → (s.shelfReread c env).chan d = s.chan d) ∧ Only [.order, .hst] s (s.shelfReread c env) := by
  have eq : s.shelfReread c env = if n % 2 = 1 then s.wakeChan c else s.modChan c fun y => { y with wait := some (.empty s.tick) } := by
    unfold shelfReread
    rw [waits]
    dsimp only
    rw [read]
  rw [eq]
  split
  · rw [wakeChan_chan]
    exact ⟨⟨rfl, rfl⟩, wakeChan_others s c, wakeChan_only s c⟩
  · exact ⟨modChan_chan_same _ _ _, modChan_others s c _, (modChan_only _ _).mono (by decide)⟩

theorem shelfPoll_eq {k : Nat} (waiting : (s.chan c).state = .waiting) (waits : (s.chan c).wait = some (.empty k)) (polls : s.shPoll c ≠ 0)
    (clean : env.ecc = []) : s.shelfPoll c env = (s.advanceTo (k + 1000 * s.shPoll c)).shelfReread c env := by
  unfold shelfPoll
  rw [waiting, waits]
  dsimp only
  rw [if_neg polls, noteCorrected_nil _ clean]

theorem shelfStat_masks : ∀ c : Chan, rwMask (Reg.HST_SHELF_STAT c) = 0 ∧ w1gMask (Reg.HST_SHELF_STAT c) = 0 ∧
    ownAction (Reg.HST_SHELF_STAT c) = true ∧ inst24 (Reg.HST_SHELF_STAT c) 0x8000 0x40 = c := by decide

/-- A granted kick of an empty ring reads its head again (R371). -/
theorem shelfKick_granted {env : OpEnv} {k : Nat} (waits : (s.chan c).wait = some (.empty k))
    (granted : s.Granted o env (Reg.HST_SHELF_STAT c) [0x80000000]) :
    ∃ v : State, exec (.shelfKick o c env) s = .next (s.written o (v.shelfReread c env.mem)) ∧ (∀ b, v.reg b = s.reg b) ∧
      Only [.order, .regs] s v := by
  obtain ⟨fieldless, flagless, own, chan⟩ := shelfStat_masks c
  have place : 0x8000 ≤ Reg.HST_SHELF_STAT c ∧ Reg.HST_SHELF_STAT c < 0x8600 ∧ Reg.HST_SHELF_STAT c % 0x40 = 0x38 := by
    have := c.isLt
    simp only [Reg.HST_SHELF_STAT]
    omega
  have live : s.moot (Reg.HST_SHELF_STAT c, 0x80000000) = false := by
    rw [moot_trigger (by omega) (by omega) (by omega) fieldless flagless]
    unfold mootCommand
    rw [if_neg (by omega), if_pos ⟨place.1, place.2.1⟩, chan]
    dsimp only
    rw [if_pos place.2.2, waits]
    rfl
  obtain ⟨v, run, regs, only⟩ := command_granted granted (by omega) own fieldless flagless live
  have acts : effect s env v (Reg.HST_SHELF_STAT c, 0x80000000) = v.shelfReread c env.mem := by
    unfold effect
    dsimp only
    rw [if_neg (by omega), show Reg.HST_SHELF_STAT c / 0x1000 = 8 by omega]
    refine (if_pos ⟨place.1, place.2.1⟩).trans ?_
    rw [chan]
    exact (if_neg (by omega)).trans (if_pos ⟨place.2.2, by decide⟩)
  rw [acts] at run
  exact ⟨v, run, regs, only⟩

end State

/-- Settles O54: the head slot is read (`State.readDesc_empty`, `State.readDesc_owned`), an owned descriptor's transfer is written back
(`State.runDesc_whole`, `State.shelfNext_spec`), and an empty ring is read again by a kick and at a poll (`State.shelfReread_spec`). -/
theorem shelvesAreServed : Obligations.ShelvesAreServed := by
  intro s c y a
  refine ⟨fun env l runs may shelf fresh ring clean fetch => ⟨fun empty => ?_,
      fun m x w b owned whole decodes aligned apart unpaced moved still region live writes => ?_⟩,
    fun o env k v waits granted read => ?_, fun env k v runs waiting waits polls clean => ?_⟩
  · have run : exec (.shelfDescriptor c env) s = .next (s.after (s.runShelf c env)) := congrArg s.finish (if_pos runs)
    rw [State.runShelf_reads may shelf clean fresh, State.readDesc_empty ring fetch empty] at run
    exact ⟨_, run, State.waitChan_chan _ _ _, rfl, State.waitChan_only _ _ _⟩
  · have run : exec (.shelfDescriptor c env) s = .next (s.after (s.runShelf c env)) := congrArg s.finish (if_pos runs)
    obtain ⟨-, -, last, own⟩ := State.moveN_keeps _ _ _ _ moved
    rw [State.modChan_chan_same] at own
    have pos : (w.chan c).pos.toNat = a := by rw [own]
    have count : (w.chan c).seqCount = y.seqCount := by rw [own]
    rw [State.runShelf_reads may shelf clean fresh, State.readDesc_owned ring fetch owned whole decodes,
      State.runDesc_whole (State.decodeDesc_done decodes) aligned apart unpaced moved still,
      State.writeBack_writes pos count region live writes] at run
    obtain ⟨head, seq, ended, more, final⟩ := State.shelfNext_spec
      (w.modMem fun g => g.writeLarder a 8 ((m.getD 0 0 &&& ~~~1#32).toNat + y.seqCount.toNat * 2 ^ 32)) c (m.getD 0 0) env
    have stays : (w.modMem fun g => g.writeLarder a 8 ((m.getD 0 0 &&& ~~~1#32).toNat + y.seqCount.toNat * 2 ^ 32)).chan c = w.chan c := rfl
    have slot : (w.modMem fun g => g.writeLarder a 8 ((m.getD 0 0 &&& ~~~1#32).toNat + y.seqCount.toNat * 2 ^ 32)).nextSlot c =
        (y.head + 1) % max 1 (w.shSlots c) := by rw [State.nextSlot, stays, own]; rfl
    rw [stays, own] at seq
    rw [slot] at head
    refine ⟨_, run, head, seq, ended, fun continues => ?_, fun last => final last⟩
    obtain ⟨ready, next, mem⟩ := more continues
    rw [slot] at next
    refine ⟨ready.trans ?_, next, congrArg Mem.larder mem⟩
    rw [stays, own]
    exact (State.mayExecute_iff.mp may).2.2
  · obtain ⟨w, run, regs, only⟩ := State.shelfKick_granted waits granted
    have chans (d : Chan) : w.chan d = s.chan d := State.chan_of_only only (by decide) d
    have again : readBulk w env.mem (w.chan c).pos.toNat 8 = .ok v := by
      rw [chans, State.readBulk_congr regs (State.mem_of_only only (by decide) (by decide) (by decide))]
      exact read
    obtain ⟨sees, others, goes⟩ := State.shelfReread_spec (by rw [chans]; exact waits) again
    rw [chans, only.part .tick (by decide)] at sees
    exact ⟨_, run, sees, fun d hd => (others d hd).trans (chans d), (only.mono (by decide)).trans (goes.mono (by decide))⟩
  · intro t still read
    have run : exec (.shelfPoll c env) s = .next (s.after (s.shelfPoll c env)) := congrArg s.finish (if_pos runs)
    rw [State.shelfPoll_eq waiting waits polls clean] at run
    obtain ⟨sees, -, goes⟩ := State.shelfReread_spec still read
    exact ⟨_, run, sees, goes⟩

end Sys2Proof.Machine
end

section
/-! ## The tick of a settled state

An over-current comes at the end of a blanking time, so its tick may lie ahead of the state it is applied to; O52 claims that the
tick stays. Nothing that follows a command moves the tick, as long as no operation and no message waits to be handled. -/

namespace Sys2Proof.Machine
namespace State

variable {s t u : State}

/-- The tick stays, and nothing comes to wait to be handled. -/
structure Still (s t : State) : Prop where
  tick : t.tick = s.tick
  held : s.mem.heldOps = [] → t.mem.heldOps = []
  waiting : s.ses.lpIn = [] → t.ses.lpIn = []

namespace Still

theorem refl (s : State) : Still s s := ⟨rfl, id, id⟩

theorem trans (h : Still s t) (j : Still t u) : Still s u :=
  ⟨j.tick.trans h.tick, fun e => j.held (h.held e), fun e => j.waiting (h.waiting e)⟩

theorem ite {c : Prop} [Decidable c] (ht : Still s t) (hu : Still s u) : Still s (if c then t else u) := by
  split
  · exact ht
  · exact hu

theorem foldl {α : Type} {f : State → α → State} (h : ∀ s a, Still s (f s a)) : ∀ (l : List α) (s : State), Still s (l.foldl f s)
  | [], s => .refl s
  | a :: l, s => (h s a).trans (foldl h l (f s a))

theorem of_only {m : List Part} (h : Only m s t) (frame : .tick ∉ m ∧ .owed ∉ m ∧ .ses ∉ m) : Still s t :=
  ⟨h .tick frame.1, fun e => (h .owed frame.2.1).2.trans e, fun e => (congrArg Ses.lpIn (h .ses frame.2.2)).trans e⟩

end Still

theorem modSes_still (s : State) (f : Ses → Ses) (h : s.ses.lpIn = [] → (f s.ses).lpIn = []) : Still s (s.modSes f) := ⟨rfl, id, h⟩

theorem modMem_still (s : State) (f : Mem → Mem) (h : s.mem.heldOps = [] → (f s.mem).heldOps = []) : Still s (s.modMem f) := ⟨rfl, h, id⟩

theorem commit_still (s : State) : Still s s.commit := .of_only commit_only (by decide)

theorem emit_still (s : State) (e : Emit) : Still s (s.emit e) := .of_only (emit_only e) (by decide)

theorem setReg_still (s : State) (a : Nat) (w : Word) : Still s (s.setReg a w) := .of_only (setReg_only a w) (by decide)

theorem modSess_still (s : State) (i : Sess) (f : Session → Session) : Still s (s.modSess i f) := .of_only (modSess_only i f) (by decide)

theorem drawFree_still (s : State) : Still s s.drawFree.2 := ⟨rfl, id, id⟩

/-! ### Messages and sessions -/

theorem stateItem_still (s : State) (k : Nat) (o : Option Lane) (a b : Nat) : Still s (s.stateItem k o a b) :=
  .of_only (stateItem_only k o a b) (by decide)

theorem sendTo_still (s : State) (p : Peer) (r : Route) (m : List Byte) : Still s (s.sendTo p r m) := by
  cases p with
  | lp => exact modSes_still s (fun x => { x with lpOut := x.lpOut ++ [m] }) id
  | ether => exact .of_only (sendFrameI_only _) (by decide)
  | udp => exact .of_only (sendIp_only _ _ _ _) (by decide)

theorem sendSess_still (s : State) (i : Sess) (a b c : Nat) (m : List Byte) : Still s (s.sendSess i a b c m) :=
  have sent := sendTo_still s (s.sess i).peer (s.sess i).route (s.sessMsg i a b c m)
  .ite sent (sent.trans (modSess_still _ _ _))

theorem disown_still (s : State) (i : Sess) : Still s (s.disown i) := by
  refine .trans (modMem_still s _ fun nothing => ?_) (.foldl (fun v n => .of_only (modLane_only _ _) (by decide)) _ _)
  rw [nothing]
  rfl

theorem leaveStandalone_still (s : State) : Still s s.leaveStandalone :=
  .ite ((setReg_still s _ _).trans (stateItem_still _ _ _ _ _)) (.refl s)

theorem changeOwner_still (s : State) (n : Option Sess) (k : Nat) : Still s (s.changeOwner n k) := by
  have counted (v : State) : Still v (v.bumpFld Reg.SES_OWNER 31 16) := .of_only (bumpFld_only _ _ _) (by decide)
  have flagged (v : State) : Still v (v.setFlag Reg.SES_EVT 0) := .of_only (setFlag_only _ _) (by decide)
  have filled (v : State) : Still v v.fillGuards := .of_only fillGuards_only (by decide)
  have taken (a b : Word) : Still s ((s.setReg Reg.SES_OWNER a).setReg Reg.SES_OWNER b) := (setReg_still s _ _).trans (setReg_still _ _ _)
  have told (a b : Word) := (((((taken a b).trans (counted _)).trans (flagged _)).trans (filled _)).trans (commit_still _)).trans
    (stateItem_still _ 3 none (ownerCode s.owner) (ownerCode n))
  exact .ite ((told _ _).trans (leaveStandalone_still _)) (told _ _)

theorem endClosed_still (s : State) (i : Sess) : Still s (s.endClosed i) := by
  have slot := (disown_still s i).trans (modSess_still _ i fun x => { sess0 with binds := x.binds })
  have freed : Still s (s.freeSlotOf i) := .ite (slot.trans (modSes_still _ _ id)) slot
  exact freed.trans (.ite (changeOwner_still _ _ _) (.refl _))

theorem sendResps_still (s : State) (i : Sess) (l : List Resp) : Still s (s.sendResps i l) := by
  have noted (v : State) (r : Resp) : Still v (v.noteSent i r) := .of_only (noteSent_only i r) (by decide)
  have sent : Still s ((l.foldl (fun (s : State) (r : Resp) => s.noteSent i r) s).sendSess i 2 l.length 0 (l.flatMap respBytes)) :=
    (Still.foldl noted l s).trans (sendSess_still _ _ _ _ _ _)
  exact .ite (sent.trans (endClosed_still _ _)) sent

theorem respond_still (s : State) (i : Sess) (r : Resp) : Still s (s.respond i r) := by
  have owed (v : State) (q : Resp) : Still v (if q.code = .tagInUse then v else v.owe i q.reqSeq (BitVec.ofNat 6 q.tag.toNat)) :=
    .ite (.refl v) (.of_only (owe_only _ _ _) (by decide))
  have one : Still s (s.answerOne i [r]) :=
    .ite ((Still.foldl owed [r] s).trans (modSes_still _ _ id)) (sendResps_still s i [r])
  rw [respond_eq]
  exact .ite one (.refl s)

theorem discardDeferred_still (s : State) (n : Lane) : Still s (s.discardDeferred n) := by
  have counted (v : State) : Still v (v.bumpFld (Reg.DEV_DEFER n) 23 16) := .of_only (bumpFld_only _ _ _) (by decide)
  refine .trans (.of_only (modLane_only n fun l => { l with deferred := [] }) (by decide)) (.foldl (fun v d => ?_) _ _)
  exact (counted v).trans (.ite (respond_still _ _ _) (.refl _))

theorem toLane_still (s : State) (n : Lane) (st : LaneState) : Still s (s.toLane n st) := .of_only (toLane_only n st) (by decide)

theorem enterOpen_still (s : State) (n : Lane) : Still s (s.enterOpen n) := (toLane_still s n _).trans (discardDeferred_still _ n)

/-! ### Revocations -/

theorem closeRec_still (s : State) (n : Lane) (r : Rec) : Still s (s.closeRec n r) := .of_only (closeRec_only n r) (by decide)

theorem endRenders_still (s : State) (n : Lane) : Still s (s.endRenders n) := by
  refine .foldl (fun v q => ?_) _ _
  split
  · exact closeRec_still _ _ _
  · exact .trans (.of_only (modCmp_only _) (by decide)) (.of_only shareTasks_only (by decide))

theorem disableChan_still (s : State) (c : Chan) : Still s (s.disableChan c) := by
  have regs (v : State) : Still v ((v.setReg (Reg.HST_RESIDUE c) 0xFFFFFFFF).setFld (Reg.HST_REQ c) 7 0 0) :=
    (setReg_still v _ _).trans (setReg_still _ _ _)
  have shaft : Still s (s.dropShaft c) := .of_only (dropShaft_only s c) (by decide)
  exact .ite (.refl s) (((shaft.trans (regs _)).trans (.of_only (modChan_only _ _) (by decide))).trans (commit_still _))

theorem revokeChan_still (s : State) (c : Chan) : Still s (s.revokeChan c) :=
  ((disableChan_still s c).trans (drawFree_still _)).trans (setReg_still _ _ _)

theorem stopAxis_still (s : State) (x : Axis) (b : Bool) (st : AxisState) : Still s (s.stopAxis x b st) :=
  .of_only (stopAxis_only x b st) (by decide)

theorem revokeEffect_still (s : State) (r : Nat) : Still s (s.revokeEffect r) := by
  unfold revokeEffect
  split
  · exact modMem_still _ _ id
  · split
    · exact revokeChan_still _ _
    · refine .ite (.foldl (fun v n => .ite (endRenders_still v n) (.refl v)) _ _) ?_
      split
      · exact .ite (stopAxis_still _ _ _ _) (.refl s)
      · exact .refl s

theorem setLease_still (s : State) (r : Nat) (e : Lease) : Still s (s.setLease r e) := .of_only (modHat_only _) (by decide)

theorem revokeLease_still (j : Nat) (s : State) (r : Nat) : Still s (revokeLease j s r) :=
  .trans ((revokeEffect_still s r).trans (setLease_still _ _ _)) (.ite (commit_still _) (.refl _))

theorem rerecord_still (j : Nat) (s : State) (e : Nat × Byte) : Still s (rerecord j s e) :=
  .foldl (fun v _ => .ite ((setLease_still v _ _).trans (commit_still _)) (.refl v)) _ _

theorem revokeEnergy_still (s : State) (j : Nat) : Still s (s.revokeEnergy j) := by
  have returned (v : State) (r : Reservation) : Still v (v.release r.holder).commit :=
    .trans (.of_only (release_only r.holder) (by decide)) (commit_still _)
  exact .foldl returned _ _

theorem revokeAll_still (s : State) (j : Nat) : Still s (s.revokeAll j) := by
  refine .trans (.trans (.foldl (revokeLease_still j) _ _) (.ite ?_ (.refl _))) (revokeEnergy_still _ _)
  exact .foldl (rerecord_still j) _ _

/-! ### The units' own resets -/

theorem celScramble_still (a : Nat) : ∀ (n : Nat) (s : State), Still s (s.celScramble a n)
  | 0, s => .refl s
  | n + 1, s => ((drawFree_still s).trans (modMem_still _ _ id)).trans (celScramble_still a n _)

theorem celCut_still (s : State) : Still s s.celCut := by
  unfold celCut
  split
  · exact .refl s
  · exact (celScramble_still _ _ s).trans (modMem_still _ _ id)

theorem celResult_still (s : State) (r : Nat) : Still s (s.celResult r) := by
  have flag (v : State) (n : Nat) : Still v (v.setFlag Reg.MEM_CEL_PSTAT n) := .of_only (setFlag_only _ _) (by decide)
  exact (setReg_still s _ _).trans (.ite (flag _ 0) (.ite (flag _ 1) (.refl _)))

theorem resetCel_still (s : State) : Still s s.resetCel := by
  have invalid (r : Option (Nat × Nat)) : Still s (s.verInvalidate r) := .of_only (verInvalidate_only s r) (by decide)
  unfold resetCel
  dsimp only
  split
  · exact (((invalid _).trans (celCut_still _)).trans (celResult_still _ _)).trans (emit_still _ _)
  · exact emit_still s _

theorem resetWsl_still (s : State) : Still s s.resetWsl :=
  .trans (modSes_still s _ id) (.foldl (fun v i => (disown_still v i).trans (modSess_still _ _ _)) _ _)

theorem answerClaim_still (s : State) (i : Sess) (q : BitVec 16) (x : BitVec 6) (c : Code) : Still s (s.answerClaim i q x c) :=
  .ite (.refl s) (respond_still s i _)

theorem closeElection_still (s : State) : Still s (s.closeElection none) := by
  unfold closeElection
  dsimp only
  refine .trans (.trans (.trans (.foldl (fun v i => modSess_still v i _) _ _) (modSes_still _ _ id)) (commit_still _))
    (.foldl (fun v e => ?_) _ _)
  exact answerClaim_still v _ _ _ _

theorem resetSes_still (s : State) : Still s s.resetSes := by
  unfold resetSes
  dsimp only
  refine .trans (.trans (.ite (closeElection_still s) (.refl s)) (.foldl (fun v i => ?_) _ _)) (modSes_still _ _ fun _ => rfl)
  exact modSess_still v i _

theorem resetTimers_still (s : State) : Still s s.resetTimers := by
  have level (v : State) (p : Nat) (b : Bool) : Still v (v.toutLevel p b) := .of_only (toutLevel_only p b) (by decide)
  have stopped (v : State) (x : TimerId) : Still v ((v.tmStop x).modTimer x fun y => { y with count := 0, acc := 0 }) :=
    (setReg_still v _ _).trans (.of_only (modTimer_only _ _) (by decide))
  refine .trans (.trans (.foldl (fun v x => ?_) _ _) (setReg_still _ _ _)) (.foldl (fun v p => level v p _) _ _)
  exact ((stopped v x).trans (setReg_still _ _ _)).trans (setReg_still _ _ _)

theorem resetHst_still (s : State) : Still s s.resetHst :=
  .foldl (fun v c => (disableChan_still v c).trans (.foldl (fun w a => setReg_still w a _) _ _)) _ _

theorem resetAxis_still (s : State) (x : Axis) : Still s (s.resetAxis x) := by
  have axis (v : State) (f : AxisSt → AxisSt) : Still v (v.modAxis x f) := .of_only (modAxis_only x f) (by decide)
  unfold resetAxis
  dsimp only
  exact (((Still.ite (stopAxis_still s x _ _) (.refl s)).trans (axis _ _)).trans (axis _ _)).trans (axis _ _)

theorem resetHealth_still (s : State) (h : Head) : Still s (s.resetHealth h) :=
  .trans (.of_only ((release_only (.warm h)).trans (release_only (.spit h))) (by decide)) (.of_only (modHealth_only _ _) (by decide))

theorem resetHat_still (s : State) : Still s s.resetHat :=
  .foldl (fun v n => .trans (.ite (enterOpen_still v n) (.refl v)) (setReg_still _ _ _)) _ _

theorem resetUnit_still (s : State) (j : Nat) : Still s (s.resetUnit j) := by
  have port (p : Fin 2) : Still s (s.resetPort p) := .of_only (modLnk_only _) (by decide)
  have records (n : Lane) : Still s (s.discardRecs n) := .of_only (discardRecs_only n) (by decide)
  have head (h : Head) : Still s (s.resetHead h) := .of_only (modHead_only _ _) (by decide)
  have rejects : Still s s.resetRej := .foldl (fun v n => .of_only (modRejLane_only _ _) (by decide)) _ _
  unfold resetUnit
  exact .ite (resetCel_still s) (.ite (port 0) (.ite (port 1) (.ite (resetWsl_still s) (.ite (resetSes_still s)
    (.ite (resetTimers_still s) (.ite (resetHst_still s) (.ite (records _) (.ite (head _) (.ite (resetHealth_still s _)
    (.ite (resetAxis_still s _) (.ite rejects (.ite (resetHat_still s) (.refl s)))))))))))))

/-! ### Resets that are due -/

theorem startBlock_still (s : State) (j : Nat) : Still s (s.startBlock j) := by
  have ended : Still s (s.endRecords (unit4 j 14) Cause.position) := .of_only (endRecords_only _ _) (by decide)
  have begun (v : State) : Still v (v.modFlt fun f => { f with inReset := j :: f.inReset }) := .of_only (modFlt_only _) (by decide)
  exact .ite (.refl s) ((((Still.ite ended (.refl s)).trans (revokeAll_still _ j)).trans (resetUnit_still _ j)).trans (begun _))

theorem goPwr_still (s : State) (p : PowerState) : Still s (s.goPwr p) := by
  have moved : Still s (s.modPwr fun q => { q with state := p }) := .of_only (modPwr_only _) (by decide)
  have shown := moved.trans (Still.ite (c := isoEn p = isoEn s.pwr.state) (.refl _) (emit_still _ (.pin "PD_ISO_EN" (some (isoEn p)))))
  exact shown.trans (.ite ((commit_still _).trans (stateItem_still _ _ _ _ _)) (.refl _))

theorem freshCore_still (s : State) : Still s s.freshCore := ⟨rfl, fun _ => rfl, fun _ => rfl⟩

theorem startReset_still (s : State) (cause source : Nat) : Still s (s.startReset cause source) := by
  have copied : Still s s.copyPrior := .foldl (fun v k => setReg_still v _ _) _ _
  have begun := (copied.trans (celCut_still _)).trans (freshCore_still _)
  have phased (v : State) : Still v (v.modBoot fun b => bootReset b (.reset cause source)) := .of_only (modBoot_only _) (by decide)
  have driven (l : List String) (o : Option Bool) (v : State) : Still v (v.pins l o) := .foldl (fun w n => emit_still w _) _ _
  exact .ite ((((begun.trans (phased _)).trans (.ite (goPwr_still _ _) (.refl _))).trans (driven _ _ _)).trans (driven _ _ _)) (.refl s)

theorem callReset_still (s : State) (j : Nat) : Still s (s.callReset j) := by
  unfold callReset
  split
  · split
    · exact .refl s
    · exact .of_only (modFlt_only _) (by decide)
  · exact startReset_still s 4 j

theorem flushOne_still (s : State) : Still s s.flushOne := by
  unfold flushOne
  split
  · exact .refl s
  · exact .trans (.of_only (modFlt_only _) (by decide)) (.ite (callReset_still _ _) (startBlock_still _ _))

theorem flushN_still : ∀ (n : Nat) (s : State), Still s (flushN n s)
  | 0, s => .refl s
  | n + 1, s => .ite (.refl s) ((flushOne_still s).trans (flushN_still n _))

theorem flush_still (s : State) : Still s s.flush := flushN_still 128 s

/-! ### Units, messages and outputs that follow -/

theorem trackHeat_still (s : State) (h : Head) : Still s (s.trackHeat h) := by
  have moved (st : HeatState) : Still s (s.heatGo h st 0) := .of_only (heatGo_only h st 0) (by decide)
  have waits : Still s (s.heatWait h) :=
    ((moved .energyWait).trans (.of_only (modHealth_only _ _) (by decide))).trans (.of_only (requestWarm_only _ h) (by decide))
  unfold trackHeat
  split
  · exact .refl s
  · exact .refl s
  · exact .ite waits (.refl s)
  · exact .ite (.refl s) (moved .paused)

theorem enterService_still (s : State) (n : Lane) : Still s (s.enterService n) :=
  ((toLane_still s n _).trans (.of_only (modLane_only _ _) (by decide))).trans (.of_only (startSpan_only n) (by decide))

theorem trackLane_still (s : State) (n : Lane) : Still s (s.trackLane n) := by
  unfold trackLane
  split
  · exact .ite (enterOpen_still s n) (.refl s)
  · exact (setReg_still s _ _).trans (.ite (enterService_still _ n) (.refl _))
  · exact .refl s

theorem settleUnits_still (s : State) : Still s s.settleUnits := by
  have tasks : Still s s.shareTasks.trackSlots :=
    .trans (.of_only shareTasks_only (by decide)) (.of_only trackSlots_only (by decide))
  have heats (v : State) : Still v v.trackHeats := .foldl trackHeat_still _ _
  have spans (v : State) : Still v v.startSpans := .of_only startSpans_only (by decide)
  have lanes (v : State) : Still v v.trackLanes := .ite (.foldl trackLane_still _ _) (.refl v)
  exact ((tasks.trans (heats _)).trans (spans _)).trans (lanes _)

theorem pumpN_still : ∀ (n : Nat) (s : State), Still s (pumpN n s)
  | 0, s => .refl s
  | n + 1, s => by
    unfold pumpN
    split
    · split
      · exact .refl s
      · next w rest _ =>
        have sent (v : State) : Still v (v.sendWork w) := by
          unfold sendWork
          cases w with
          | resps l => exact sendResps_still v 0 l
          | nak c k => exact sendSess_still v _ _ _ _ _
          | raw m => exact sendTo_still v _ _ m
        exact ((modSes_still s _ id).trans (sent _)).trans (pumpN_still n _)
    · exact .refl s

theorem pumpEvents_still (s : State) : Still s s.pumpEvents := by
  have sent (v : State) (i : Sess) : Still v (v.sendEvents i) :=
    .ite (.trans (.of_only (setSess_only _ _) (by decide)) (sendSess_still _ _ _ _ _ _)) (.refl v)
  exact .foldl (fun v i => (((sent v i).trans (sent _ i)).trans (sent _ i)).trans (sent _ i)) _ _

theorem settleLink_still (s : State) : Still s s.settleLink := .ite ((pumpN_still 8 s).trans (pumpEvents_still _)) (.refl s)

/-- What follows a command leaves the tick, where nothing waits to be handled. -/
theorem settle_tick (held : s.mem.heldOps = []) (waiting : s.ses.lpIn = []) : s.settle.tick = s.tick := by
  have core : s.settleCore.tick = s.tick := by
    have first := flush_still s
    have handled : s.flush.settleHeld.tick = s.tick :=
      (settleHeld_calm (first.held held) (first.waiting waiting) .tick (by decide)).trans first.tick
    have units (v : State) : Still v v.settleUnits.flush := (settleUnits_still v).trans (flush_still _)
    have rest (v : State) : Still v v.flush.settleUnits.flush.settleUnits.flush.settleLink.errRelease :=
      ((((flush_still v).trans (units _)).trans (units _)).trans (settleLink_still _)).trans (.of_only errRelease_only (by decide))
    unfold settleCore
    split
    · exact (rest _).tick.trans handled
    · rfl
  have rejects (v : State) : Still v v.trackRejs := .foldl (fun w n => .of_only (trackRej_only n) (by decide)) _ _
  have line (v : State) : Still v v.trackLine := .of_only trackLine_only (by decide)
  exact ((rejects _).trans (line _)).tick.trans core

/-! ### An over-current -/

theorem overCurrent_only {x : Axis} : Only axisParts s (s.overCurrent x) := by
  unfold overCurrent
  dsimp only
  refine (Only.step (motMessage_only _ _ _) (fun _ h => h)).2 ?_
  simp (disch := decide) [modDrive]

end State

/-! ## An over-current during a blanking time -/

/-- Axis 0 is idle, and its coil A drives since tick 1,000: its blanking ends there at the earliest. -/
def blanking : State :=
  State.reset.modAxis 0 fun a => { a with state := .idle, drive := { a.drive with coilA := { a.drive.coilA with step := .drive 1000 } } }

/-- The blanking ends ahead of the tick, and the over-current is taken there. -/
theorem overCurrent_late {u : State} (run : exec (.overCurrent 0 false 0xFFF) blanking = .next (blanking.after u))
    (held : u.mem.heldOps = []) (waiting : u.ses.lpIn = []) : u.tick = blanking.blankEnd 0 false := by
  have clock := State.advanceTo_only (u := blanking) (blanking.blankEnd 0 false)
  have advanced : (blanking.advanceTo (blanking.blankEnd 0 false)).tick = max 0 (blanking.blankEnd 0 false) :=
    State.advanceTo_tick (by decide) _
  obtain ⟨v, taken, only⟩ : ∃ v, exec (.overCurrent 0 false 0xFFF) blanking = .next (blanking.after v) ∧
      Only axisParts (blanking.advanceTo (blanking.blankEnd 0 false)) v := by
    refine ⟨(blanking.advanceTo (blanking.blankEnd 0 false)).overCurrent 0, ?_, State.overCurrent_only⟩
    exact congrArg blanking.finish ((congrArg (blanking.timed · _) (if_pos (by decide))).trans (State.timed_some (by decide) _ _))
  have same := congrArg State.tick (Host.Outcome.next.inj (run.symm.trans taken))
  have later : v.settle.tick = v.tick :=
    State.settle_tick ((only .owed (by decide)).2.trans (clock .owed (by decide)).2)
      (congrArg Ses.lpIn ((only .ses (by decide)).trans (clock .ses (by decide))))
  calc u.tick = u.settle.tick := (State.settle_tick held waiting).symm
    _ = v.settle.tick := same
    _ = v.tick := later
    _ = _ := (only .tick (by decide)).trans (advanced.trans (Nat.zero_max _))

/-- Refutes O52: an over-current of `blanking` is taken when its blanking ends, at tick 1,000 or later, while the first clause has
the tick of the state before, which is 0. -/
theorem not_driveStageAndAxisBusRun : ¬ Obligations.DriveStageAndAxisBusRun := by
  unfold Obligations.DriveStageAndAxisBusRun
  intro claim
  obtain ⟨overCurrent, -⟩ := claim blanking 0 (by decide)
  have up : (blanking.advanceTo (blanking.blankEnd 0 false)).unitInReset 26 = false := by decide
  obtain ⟨u, run, -, -, -, -, -, only⟩ := overCurrent false 0xFFF (by decide) up
  have late := overCurrent_late run (only .owed (by decide)).2 (congrArg Ses.lpIn (only .ses (by decide)))
  have stays : u.tick = 0 := only .tick (by decide)
  have ahead : 0 < blanking.blankEnd 0 false := by decide
  omega

end Sys2Proof.Machine
end
